-- ==== Sys2Proof/Word.lean ====
section
/-! DEFINITION. The words and small enumerations that Syntax and State share
(00_scope.md R9, R10, R30; 08_coherence.md Table 8.5). -/

namespace Sys2Proof

abbrev Byte := BitVec 8
abbrev Word16 := BitVec 16
abbrev Word32 := BitVec 32
abbrev Word64 := BitVec 64
/-- One 64-byte sector; byte i is bits [8i+7:8i] (R10). -/
abbrev Sector := BitVec 512

/-- Physical core agent IDs 0x000-0x10F (Table 1.4). -/
abbrev CoreId := Fin 272
abbrev QuarterId := Fin 4
abbrev HomeId := Fin 64
abbrev GrinderId := Fin 64
abbrev LinkId := Fin 36
abbrev StackId := Fin 8
abbrev DieId := Fin 64
abbrev QueueId := Fin 16384
abbrev CtxId := Fin 4096
abbrev SegNo := Fin 8
abbrev TableId := Fin 4096
abbrev MailboxId := Fin 256

/-- A sparse indexed family: (index, value) pairs, indexes rising; an index not listed holds the family's
reset value, which the accessor of each family names. -/
abbrev Map (α : Type) := List (Nat × α)

/-- Region types (Table 10.2). -/
inductive RType | normal | stream | device
  deriving DecidableEq, Repr

/-- Sector states of an L1 (Table 8.2); a slice sector uses I, E and M only (R248). -/
inductive MState | I | S | E | O | M
  deriving DecidableEq, Repr

/-- CXL meta-state of a host request (R272). -/
inductive MetaValue | I | S | A
  deriving DecidableEq, Repr

/-- Atomic operations in the code order of Table 8.7. -/
inductive AtomicOp
  | add | swap | cas | and | or | xor | smin | smax | umin | umax | addsat | barrierArrive
  deriving DecidableEq, Repr

/-- Who writes a register (R302, R327, R344, R485). -/
inductive RegSource | host | management | context0 | other
  deriving DecidableEq, Repr

/-- Reset sources in the code order of RST_STATUS.CAUSE (R485). -/
inductive ResetSource | cold | perst | hostloss | warm | crit | margin | wdog | isolate
  deriving DecidableEq, Repr

/-- Origins of a CRIT (R477, R485). -/
inductive CritOrigin | none | directory | homeState | segment | resetCtrl
  deriving DecidableEq, Repr

/-- Severities of a fault message (R463). -/
inductive Severity | alert | fatal | critical
  deriving DecidableEq, Repr

end Sys2Proof
end

