-- ==== Sys2Proof/Syntax.lean ====
section
/-! DEFINITION. The commands the block takes, one constructor per row of spec/opcode_table.json, and the records
that are their operands. A command carries the whole of what arrives with its event: an instruction's fields, a
message's fields, the readings of a sensor. -/

namespace Sys2Proof

/-- The fields of one 64-bit instruction (06_arithmetic_and_encodings.md Table 6.11). `imm` is set for the class.op
of an immediate form that has no mnemonic of its own (0x0.20-38). The wider immediates are the fields' own bits:
IMM20 is MOD, IMM36 is B:C:FMT:MOD, IMM42 is A:B:C:FMT:MOD. -/
structure Fields where
  p   : BitVec 4
  d   : BitVec 6
  a   : BitVec 6
  b   : BitVec 6
  c   : BitVec 6
  fmt : BitVec 4
  mod : BitVec 20
  imm : Bool
  deriving DecidableEq, Repr

/-- Metadata of a sector (Table 7.2). -/
structure SectorMeta where
  tag    : Nat
  epoch  : Nat
  wclass : Nat
  poison : Bool
  deriving DecidableEq, Repr

def SectorMeta.zero : SectorMeta := { tag := 0, epoch := 0, wclass := 0, poison := false }

/-- Data and metadata of sector `sec` (0-3) of a message's line (PAYLOAD of Table 8.5). -/
structure Payload where
  sec  : Nat
  data : Sector
  info : SectorMeta
  deriving DecidableEq, Repr

/-- Message types of class REQ (Table 8.4), and the host's requests that have no REQ type of their own:
MemInv with MetaValue S (Table 8.9), the host's snoops of host lines (Table 8.10), and the home's own recall
of a line (R255). -/
inductive ReqKind
  | rdShared | rdOwn | claim | rdCurrent | wrFull | wrPart | evictDirty | evictClean | atomic | updRow
  | memInvS | snpInv | snpData | snpCur | recall
  deriving DecidableEq, Repr

/-- A descriptor in flight: its queue and its index in the ring. -/
structure DescId where
  queue : Nat
  index : Nat
  deriving DecidableEq, Repr

/-- Where a row update comes from: a descriptor's list position, another device's message, a step of a DETERM table. -/
inductive UpdFrom
  | desc (id : DescId) (pos : Nat)
  | peer (dev txid : Nat)
  | step (n : Nat)
  deriving DecidableEq, Repr

/-- One row update on its way to its row's home (R116, R119, R267): FP32 patterns of the value row, or with VFMT RAW one
byte of the image in each; `memory` is the sender's choice between home node and memory (R127), `granule` marks the message
that the row's home sends on to the home of the slot's granule with the row's entry, `waited` one that has met the row
lock. -/
structure RowUpdate where
  table   : Nat
  row     : Nat
  mode    : Nat
  vfmt    : Nat
  values  : List Word32
  param   : List Word32
  stamp   : Nat
  memory  : Bool
  granule : Option Nat
  waited  : Bool
  fwded   : Bool
  unit    : Nat
  orig    : UpdFrom
  deriving DecidableEq, Repr

/-- What a core's request serves: a load or atomic, a drain of its store buffer, its prefetcher, its scratch mover. Other
agents' requests are of the first kind. -/
inductive Origin | load | store | prefetch | fill | dump
  deriving DecidableEq, Repr

/-- A message of class REQ with the fields of Table 8.5. `line` is DPA[55:8]. A request of the host agent 0x3F0 also
carries its CXL tag and MetaValue. -/
structure ReqMsg where
  kind    : ReqKind
  src     : Nat
  line    : Nat
  smask   : BitVec 4
  bmask   : BitVec 256
  pay     : List Payload
  ctx     : Nat
  seg     : Nat
  gen     : Nat
  rt      : RType
  issue   : Word16
  origin  : Origin
  op      : AtomicOp
  /-- byte offset of the word in its sector, its width (32 bits when set), operand and compare value of an ATOMIC -/
  off     : Nat
  narrow  : Bool
  operand : Word64
  cmp     : Word64
  mval    : MetaValue
  tag     : Nat
  upd     : Option RowUpdate
  deriving DecidableEq, Repr

/-- Snoops and forwards (class SNP). -/
inductive SnpKind | inv | fwdShared | fwdOwned | fwdCurrent
  deriving DecidableEq, Repr

/-- A snoop of one sector: `core` is the L1, or 0x400 + q for the snoop fan-out of quarter q (R254); `ret` is D. -/
structure SnpMsg where
  kind : SnpKind
  core : Nat
  txid : Nat
  line : Nat
  sec  : Nat
  ret  : Bool
  req  : Nat
  ctx  : Nat
  origin : Origin
  deriving DecidableEq, Repr

/-- STATUS of an ERR message (Table 8.5). -/
inductive ErrStatus | revoked | tagMismatch | tierNotReady | hostError | isolated
  deriving DecidableEq, Repr

/-- Responses to a requester (class RSP): DATA, GRANT, CMP, ATOMRSP, ERR. -/
inductive RspKind | data | grant | cmp | atomRsp | err
  deriving DecidableEq, Repr

structure RspMsg where
  kind   : RspKind
  dst    : Nat
  txid   : Nat
  line   : Nat
  sec    : Nat
  st     : MState
  data   : Sector
  info   : SectorMeta
  old    : Word64
  status : ErrStatus
  origin : Origin
  deriving DecidableEq, Repr

/-- Answers to a home: ACK, ACKDATA, FWDDONE, FWDMISS, COMPACK. An ACK of an EVICTDIRTY or EVICTCLEAN goes from the
home to the requester: then `toCore` names it. -/
inductive AnsKind | ack | ackData | fwdDone | fwdMiss | compAck
  deriving DecidableEq, Repr

structure AnsMsg where
  kind   : AnsKind
  src    : Nat
  toCore : Option Nat
  txid   : Nat
  line   : Nat
  sec    : Nat
  st     : MState
  data   : Sector
  info   : SectorMeta
  deriving DecidableEq, Repr

/-- Traffic between a home and its controllers (class MEM). -/
inductive MemKind | rd | wr | rmw | data | cmp
  deriving DecidableEq, Repr

structure MemMsg where
  kind   : MemKind
  txid   : Nat
  line   : Nat
  sec    : Nat
  data   : Sector
  info   : SectorMeta
  req    : Option ReqMsg
  old    : Word64
  refused : Option ErrStatus
  deriving DecidableEq, Repr

/-- A host request over CXL.mem (Table 8.9): host physical address, MetaValue, tag, and for a write the data, byte
mask and poison indication. -/
structure HostReq where
  hpa    : Nat
  mval   : MetaValue
  tag    : Nat
  data   : Sector
  bmask  : Word64
  poison : Bool
  deriving DecidableEq, Repr

/-- Data the host supplies in a step that reads host memory or a device sector the host holds dirty. -/
structure HostAnswer where
  sector : Nat
  data   : Sector
  poison : Bool
  deriving DecidableEq, Repr

/-- The host's answer to a back-invalidate snoop (R272). -/
inductive BiAnswer | i | s | e
  deriving DecidableEq, Repr

/-- A Taruc message: its words, the header first, and the link or this device it came from (R404, R405). -/
structure TMsg where
  link  : Nat
  words : List Word64
  deriving DecidableEq, Repr

/-- Readings of one sample round (R454): per quarter VDD_SRAM, VDD_IO (mV), VDD_CORE (mV), its current (0.1 A) and
the junction temperatures (0.1 °C); VBK; stack and die temperatures. -/
structure Sensors where
  quarters : List (Nat × Nat × Nat × Nat × Int × Int)
  vbk      : Nat
  stackT   : List Int
  dieT     : List Int
  deriving DecidableEq, Repr

/-- A fault message as its source raises it (16_faults_and_reset.md Table 16.1). -/
structure FaultMsg where
  source    : Nat
  sev       : Severity
  kind      : Nat
  addrValid : Bool
  info      : Word32
  dpa       : BitVec 56
  deriving DecidableEq, Repr

/-- The commands, one constructor per row of spec/opcode_table.json, in the table's order. -/
inductive Instr
  /-- CANARY_READ_ROUND (R49): Every 1,000 counts the margin manager reads every canary of its quarter, takes margins and launch counts, and derives the quarter's wave rate. -/
  | canaryReadRound (q : QuarterId) (margins : List Nat) (rate : Nat)
  /-- CANARY_FAIL (R63): A canary's error latch sets when its replica path has not settled, and the quarter's margin emergency begins. -/
  | canaryFail (q : QuarterId) (g : Fin 16) (n : Fin 4) (suspects : List (DescId × Nat)) (reads : Nat) (bad : List Nat)
  /-- MARGIN_DEADLINE (R63): The margin is not restored within 10,000 counts of the failure, and the reset controller resets the quarter from source MARGIN. -/
  | marginDeadline (q : QuarterId)
  /-- ISSUE_GATE_DOUBLE (R63): Every 1,000 counts after restoration the issue gate doubles and the emergency's T_q request steps up until it is released. -/
  | issueGateDouble (q : QuarterId)
  /-- REPLAN_INTERVAL (R55): ReplanInterval of calendar advance has passed since a quarter's last plan, and a scheduled replan is triggered. -/
  | replanInterval (q : QuarterId)
  /-- VOLT_STEP_SETTLE (R53): VoltStepSettle expires after a voltage step, and the margin manager confirms the level, recomputes taps and takes the next step or ends the replan. -/
  | voltStepSettle (q : QuarterId) (measured : Nat)
  /-- POWER_LIMITER_WINDOW (R58): At the end of every 1,000 counts the power limiter halves, doubles or holds its T_q request according to the average draw. -/
  | powerLimiterWindow (avg : Nat)
  /-- AGEING_BEYOND_RATING (R62): Once a day, for a quarter whose AgeingConsumed has reached 10,000, a margin alert with cause AGEING_BEYOND_RATING is raised. -/
  | ageingBeyondRating (q : QuarterId)
  /-- REFCLK_LOST (R72): No reference edge reaches a quarter for 1.0 µs, so REFCLK_LOST is reported and wall-time counting stops. -/
  | refclkLost (q : QuarterId)
  /-- REFCLK_RETURN (R72): Reference edges return, the counts resume and the calendar stays marked unsynchronised. -/
  | refclkReturn (q : QuarterId)
  /-- VREQ_REPEAT (R494): At least every 1,000,000 counts, every quarter's current VDD_CORE request is sent again. -/
  | vreqRepeat
  /-- LAUNCH_STAGGER_WINDOW (R69): Each LaunchStaggerWindow starts at most LaunchStaggerCores further cores of a quarter for a launch or a tile restart. -/
  | launchStaggerWindow (q : QuarterId)
  /-- TABLE_DEFINE (R76): MAINT TABLE_DEFINE copies and validates a TABLE image into the table store, or refuses it with the first failing status. -/
  | tableDefine (d : DescId) (h : List HostAnswer)
  /-- TABLE_RETIRE (R77): MAINT TABLE_RETIRE refuses new descriptors for the table and completes once every admitted one has completed. -/
  | tableRetire (d : DescId)
  /-- GATHER (R85): A GATHER descriptor is translated and checked at queue time, bound to an epoch and split into bag groups for Grinders. -/
  | gather (d : DescId) (n : Nat) (h : List HostAnswer)
  /-- SHARD_LOAD_FLUSH (R102): A Grinder adds its local shard-load counts to the counters at least every ShardFlushInterval. -/
  | shardLoadFlush (g : GrinderId)
  /-- CARAFE_REFRESH (R100): MAINT CARAFE_REFRESH installs or evicts replicas of listed rows, skipping full buckets and remote or migrating rows. -/
  | carafeRefresh (d : DescId) (n : Nat) (h : List HostAnswer)
  /-- SKETCH_DECAY (R103): MAINT SKETCH_DECAY halves every heat-sketch counter of the table. -/
  | sketchDecay (d : DescId)
  /-- SHARD_LOAD (R102): PROBE SHARD_LOAD flushes every Grinder's local counts and writes the shard-load counters. -/
  | shardLoad (d : DescId)
  /-- SKETCH_READ (R103): PROBE SKETCH_READ writes the sketch estimate of each listed row. -/
  | sketchRead (d : DescId) (h : List HostAnswer)
  /-- TABLE_READ (R358): PROBE TABLE_READ writes the 64-byte per-table state record. -/
  | tableRead (d : DescId) (h : List HostAnswer)
  /-- EPOCH_OPEN (R107): An EPOCH OPEN descriptor starts stamping new updates e + 1, after any earlier EPOCH descriptor of the table completes. -/
  | epochOpen (d : DescId)
  /-- EPOCH_ADVANCE (R107): Every update stamped e has completed and a lookup epoch slot is free, so e + 1 becomes the current lookup epoch and the EPOCH descriptor completes. -/
  | epochAdvance (t : TableId)
  /-- EPOCH_WAIT_LIMIT (R112): A remote lookup held for a newer epoch reaches EpochWaitLimit and its row fails with EPOCH_NOT_LIVE. -/
  | epochWaitLimit (m : TMsg)
  /-- UPDATE (R120): An UPDATE descriptor is translated and checked at queue time and its indices are assigned to Grinders by predictor hash. -/
  | update (d : DescId) (h : List HostAnswer)
  /-- DETERM_STEP_LIMIT (R135): DetermStepLimit expires after a step's first update, and the owner applies what it holds and counts the step incomplete. -/
  | determStepLimit (t : TableId) (step : Nat)
  /-- DETERM_PEERS (R134): MAINT DETERM_PEERS adds contributing devices to a table's participant set. -/
  | determPeers (d : DescId) (h : List HostAnswer)
  /-- MIGRATE (R138): A MIGRATE descriptor takes a progress object and starts moving the rows of its list, skipping entries that fail the checks. -/
  | migrate (d : DescId) (h : List HostAnswer)
  /-- WAITING_CREMA_RESUME (R148): Enough migration-partition space is freed, and a MIGRATE waiting in WAITING_CREMA resumes with its next row. -/
  | waitingCremaResume (d : DescId)
  /-- MIGRATION_COMMIT (R140): The home takes the row lock, replays changed updates into the copy and commits the new row-map or forward entry. -/
  | migrationCommit (t : TableId) (row : Nat) (h : List HostAnswer)
  /-- GUEST_ATTACH (R145): MAINT GUEST_ATTACH attaches a guest row map for one shard-map entry. -/
  | guestAttach (d : DescId)
  /-- GUEST_DETACH (R144): MAINT GUEST_DETACH detaches a guest row map, and is refused while it holds a live unforwarded row. -/
  | guestDetach (d : DescId)
  /-- KERNEL (R164): A KERNEL descriptor's image header, team size and placement are checked at queue time. -/
  | kernel (d : DescId) (h : List HostAnswer)
  /-- TEAM_START (R167): All cores the KERNEL needs are idle at once, so the team is reserved, the barrier word zeroed and the cores prepared and started. -/
  | teamStart (d : DescId) (h : List HostAnswer)
  /-- CORE_RETIRE (R179): A write of CoreRetire retires a core after its kernel, records it in the repair map and lowers the enabled total. -/
  | coreRetire (id : Word16)
  /-- STORE_BUFFER_DRAIN (R159): The oldest store-buffer entry leaves the buffer in order, performed in the L1 or sent to its home by region type. -/
  | storeBufferDrain (c : CoreId)
  /-- TILE_UNIT_COMPLETE (R181): A decoupled tile operation finishes its waves and writes its accumulator. -/
  | tileUnitComplete (c : CoreId)
  /-- ADD (R192): Scalar wrapping add, in register or immediate form. -/
  | add (c : CoreId) (f : Fields)
  /-- SUB (R192): Scalar wrapping subtract. -/
  | sub (c : CoreId) (f : Fields)
  /-- MUL (R192): Scalar multiply, low half. -/
  | mul (c : CoreId) (f : Fields)
  /-- MULH (R192): Scalar signed multiply, high half. -/
  | mulh (c : CoreId) (f : Fields)
  /-- MULHU (R192): Scalar unsigned multiply, high half. -/
  | mulhu (c : CoreId) (f : Fields)
  /-- DIV (R192): Scalar signed division toward zero with the defined results for zero and overflow. -/
  | div (c : CoreId) (f : Fields)
  /-- DIVU (R192): Scalar unsigned division. -/
  | divu (c : CoreId) (f : Fields)
  /-- REM (R192): Scalar signed remainder. -/
  | rem (c : CoreId) (f : Fields)
  /-- REMU (R192): Scalar unsigned remainder. -/
  | remu (c : CoreId) (f : Fields)
  /-- AND (R212): Scalar bitwise AND. -/
  | and (c : CoreId) (f : Fields)
  /-- OR (R212): Scalar bitwise OR. -/
  | or (c : CoreId) (f : Fields)
  /-- XOR (R212): Scalar bitwise XOR. -/
  | xor (c : CoreId) (f : Fields)
  /-- SHL (R192): Scalar shift left, with the amount taken modulo the width. -/
  | shl (c : CoreId) (f : Fields)
  /-- SHR (R192): Scalar logical shift right. -/
  | shr (c : CoreId) (f : Fields)
  /-- SAR (R192): Scalar arithmetic shift right. -/
  | sar (c : CoreId) (f : Fields)
  /-- MIN (R212): Scalar signed minimum. -/
  | min (c : CoreId) (f : Fields)
  /-- MAX (R212): Scalar signed maximum. -/
  | max (c : CoreId) (f : Fields)
  /-- MINU (R212): Scalar unsigned minimum. -/
  | minu (c : CoreId) (f : Fields)
  /-- MAXU (R212): Scalar unsigned maximum. -/
  | maxu (c : CoreId) (f : Fields)
  /-- CMPEQ (R212): Sets s D to 1 when the operands are equal. -/
  | cmpeq (c : CoreId) (f : Fields)
  /-- CMPLT (R212): Sets s D to 1 on a signed less-than. -/
  | cmplt (c : CoreId) (f : Fields)
  /-- CMPLTU (R212): Sets s D to 1 on an unsigned less-than. -/
  | cmpltu (c : CoreId) (f : Fields)
  /-- POPC (R212): Population count of s A. -/
  | popc (c : CoreId) (f : Fields)
  /-- CLZ (R212): Leading-zero count of s A. -/
  | clz (c : CoreId) (f : Fields)
  /-- CTZ (R212): Trailing-zero count of s A. -/
  | ctz (c : CoreId) (f : Fields)
  /-- LI (R212): Loads IMM42 into s D. -/
  | li (c : CoreId) (f : Fields)
  /-- LIH (R212): Loads IMM42[21:0] into s D[63:42] and keeps the other bits. -/
  | lih (c : CoreId) (f : Fields)
  /-- AADD (R212): Address add of a register to a register. -/
  | aadd (c : CoreId) (f : Fields)
  /-- AADDI (R212): Address add of IMM36 to a register. -/
  | aaddi (c : CoreId) (f : Fields)
  /-- AMOVS (R212): Moves s A into a D. -/
  | amovs (c : CoreId) (f : Fields)
  /-- SMOVA (R212): Moves a A into s D. -/
  | smova (c : CoreId) (f : Fields)
  /-- ASEG (R212): Builds a DA from a segment number and s A[47:0]. -/
  | aseg (c : CoreId) (f : Fields)
  /-- FADD (R191): FP32 add, correctly rounded. -/
  | fadd (c : CoreId) (f : Fields)
  /-- FSUB (R191): FP32 subtract. -/
  | fsub (c : CoreId) (f : Fields)
  /-- FMUL (R191): FP32 multiply. -/
  | fmul (c : CoreId) (f : Fields)
  /-- FDIV (R191): FP32 divide. -/
  | fdiv (c : CoreId) (f : Fields)
  /-- FSQRT (R191): FP32 square root. -/
  | fsqrt (c : CoreId) (f : Fields)
  /-- FMA (R191): FP32 fused multiply-add with one rounding. -/
  | fma (c : CoreId) (f : Fields)
  /-- FMIN (R191): FP32 IEEE minimum. -/
  | fmin (c : CoreId) (f : Fields)
  /-- FMAX (R191): FP32 IEEE maximum. -/
  | fmax (c : CoreId) (f : Fields)
  /-- FCMPEQ (R191): FP32 equality comparison. -/
  | fcmpeq (c : CoreId) (f : Fields)
  /-- FCMPLT (R191): FP32 less-than comparison. -/
  | fcmplt (c : CoreId) (f : Fields)
  /-- FCMPLE (R191): FP32 less-or-equal comparison. -/
  | fcmple (c : CoreId) (f : Fields)
  /-- FCVTFI (R190): Converts FP32 to INT64 by RNE, or by RTZ when selected. -/
  | fcvtfi (c : CoreId) (f : Fields)
  /-- FCVTIF (R190): Converts INT64 to FP32. -/
  | fcvtif (c : CoreId) (f : Fields)
  /-- J (R210): Branches by IMM42 instructions. -/
  | j (c : CoreId) (f : Fields)
  /-- CALL (R212): Branches and sets s D to the next code offset. -/
  | call (c : CoreId) (f : Fields)
  /-- JR (R212): Continues at code offset s A. -/
  | jr (c : CoreId) (f : Fields)
  /-- BZ (R212): Branches when s A is 0. -/
  | bz (c : CoreId) (f : Fields)
  /-- BNZ (R212): Branches when s A is not 0. -/
  | bnz (c : CoreId) (f : Fields)
  /-- BPANY (R212): Branches when p A has any bit set. -/
  | bpany (c : CoreId) (f : Fields)
  /-- END (R168): Performs DRAIN and WAITM and ends the core's part in the kernel with an exit value. -/
  | endK (c : CoreId) (f : Fields)
  /-- DRAIN (R315): Waits until earlier loads have data and earlier stores and SDUMP writes are settled. -/
  | drain (c : CoreId) (f : Fields)
  /-- WAITM (R176): Waits until every earlier scratch-mover transfer of the core is complete. -/
  | waitm (c : CoreId) (f : Fields)
  /-- TBAR (R169): Drains, arrives on the barrier word with BARRIER_ARRIVE and waits for GEN to change. -/
  | tbar (c : CoreId) (f : Fields)
  /-- BRK (R171): Raises exception BREAK. -/
  | brk (c : CoreId) (f : Fields)
  /-- WAITS (R177): Waits until the scratch word at s A is not zero. -/
  | waits (c : CoreId) (f : Fields)
  /-- NOP (R212): Does nothing. -/
  | nop (c : CoreId) (f : Fields)
  /-- RDREF (R212): Reads the quarter reference count into s D. -/
  | rdref (c : CoreId) (f : Fields)
  /-- RDWAVE (R212): Reads the core wave count into s D. -/
  | rdwave (c : CoreId) (f : Fields)
  /-- LD8 (R158): Loads a zero-extended byte from a A + IMM36 after issue checks. -/
  | ld8 (c : CoreId) (f : Fields)
  /-- LD16 (R158): Loads a zero-extended 16-bit value. -/
  | ld16 (c : CoreId) (f : Fields)
  /-- LD32 (R158): Loads a zero-extended 32-bit value. -/
  | ld32 (c : CoreId) (f : Fields)
  /-- LD64 (R158): Loads a 64-bit value. -/
  | ld64 (c : CoreId) (f : Fields)
  /-- LDS8 (R158): Loads a sign-extended byte. -/
  | lds8 (c : CoreId) (f : Fields)
  /-- LDS16 (R158): Loads a sign-extended 16-bit value. -/
  | lds16 (c : CoreId) (f : Fields)
  /-- LDS32 (R158): Loads a sign-extended 32-bit value. -/
  | lds32 (c : CoreId) (f : Fields)
  /-- ST8 (R159): Stores a byte into the store buffer. -/
  | st8 (c : CoreId) (f : Fields)
  /-- ST16 (R159): Stores 16 bits into the store buffer. -/
  | st16 (c : CoreId) (f : Fields)
  /-- ST32 (R159): Stores 32 bits into the store buffer. -/
  | st32 (c : CoreId) (f : Fields)
  /-- ST64 (R159): Stores 64 bits into the store buffer. -/
  | st64 (c : CoreId) (f : Fields)
  /-- VLD (R194): Loads 64 B of memory into a vector under the predicate. -/
  | vld (c : CoreId) (f : Fields)
  /-- VST (R194): Stores the enabled lanes of a vector to memory. -/
  | vst (c : CoreId) (f : Fields)
  /-- VLDS (R157): Loads a vector from scratch. -/
  | vlds (c : CoreId) (f : Fields)
  /-- VSTS (R157): Stores a vector to scratch. -/
  | vsts (c : CoreId) (f : Fields)
  /-- SLD64 (R157): Loads 64 bits from scratch. -/
  | sld64 (c : CoreId) (f : Fields)
  /-- SST64 (R157): Stores 64 bits to scratch. -/
  | sst64 (c : CoreId) (f : Fields)
  /-- AMO (R159): Waits for an empty store buffer and performs an atomic at the home or in memory, returning the old value. -/
  | amo (c : CoreId) (f : Fields)
  /-- VADD (R192): Vector integer wrapping add. -/
  | vadd (c : CoreId) (f : Fields)
  /-- VSUB (R192): Vector integer wrapping subtract. -/
  | vsub (c : CoreId) (f : Fields)
  /-- VMUL (R192): Vector integer multiply. -/
  | vmul (c : CoreId) (f : Fields)
  /-- VMULH (R192): Vector integer multiply, high half. -/
  | vmulh (c : CoreId) (f : Fields)
  /-- VMIN (R212): Vector signed minimum. -/
  | vmin (c : CoreId) (f : Fields)
  /-- VMAX (R212): Vector signed maximum. -/
  | vmax (c : CoreId) (f : Fields)
  /-- VMINU (R212): Vector unsigned minimum. -/
  | vminu (c : CoreId) (f : Fields)
  /-- VMAXU (R212): Vector unsigned maximum. -/
  | vmaxu (c : CoreId) (f : Fields)
  /-- VAND (R212): Vector bitwise AND. -/
  | vand (c : CoreId) (f : Fields)
  /-- VOR (R212): Vector bitwise OR. -/
  | vor (c : CoreId) (f : Fields)
  /-- VXOR (R212): Vector bitwise XOR. -/
  | vxor (c : CoreId) (f : Fields)
  /-- VSHL (R192): Vector shift left. -/
  | vshl (c : CoreId) (f : Fields)
  /-- VSHR (R192): Vector logical shift right. -/
  | vshr (c : CoreId) (f : Fields)
  /-- VSAR (R192): Vector arithmetic shift right. -/
  | vsar (c : CoreId) (f : Fields)
  /-- VPOPC (R212): Vector population count. -/
  | vpopc (c : CoreId) (f : Fields)
  /-- VABSD (R212): Vector absolute difference. -/
  | vabsd (c : CoreId) (f : Fields)
  /-- VADDS (R192): Vector saturating add. -/
  | vadds (c : CoreId) (f : Fields)
  /-- VSUBS (R192): Vector saturating subtract. -/
  | vsubs (c : CoreId) (f : Fields)
  /-- VCMPEQ (R212): Vector equality into p D. -/
  | vcmpeq (c : CoreId) (f : Fields)
  /-- VCMPLT (R212): Vector signed less-than into p D. -/
  | vcmplt (c : CoreId) (f : Fields)
  /-- VCMPLTU (R212): Vector unsigned less-than into p D. -/
  | vcmpltu (c : CoreId) (f : Fields)
  /-- VFADD (R191): Vector floating-point add. -/
  | vfadd (c : CoreId) (f : Fields)
  /-- VFSUB (R191): Vector floating-point subtract. -/
  | vfsub (c : CoreId) (f : Fields)
  /-- VFMUL (R191): Vector floating-point multiply. -/
  | vfmul (c : CoreId) (f : Fields)
  /-- VFDIV (R191): Vector floating-point divide. -/
  | vfdiv (c : CoreId) (f : Fields)
  /-- VFSQRT (R191): Vector floating-point square root. -/
  | vfsqrt (c : CoreId) (f : Fields)
  /-- VFMA (R191): Vector fused multiply-add. -/
  | vfma (c : CoreId) (f : Fields)
  /-- VFMIN (R191): Vector IEEE minimum. -/
  | vfmin (c : CoreId) (f : Fields)
  /-- VFMAX (R191): Vector IEEE maximum. -/
  | vfmax (c : CoreId) (f : Fields)
  /-- VFCMPEQ (R191): Vector floating-point equality into p D. -/
  | vfcmpeq (c : CoreId) (f : Fields)
  /-- VFCMPLT (R191): Vector floating-point less-than into p D. -/
  | vfcmplt (c : CoreId) (f : Fields)
  /-- VFCMPLE (R191): Vector floating-point less-or-equal into p D. -/
  | vfcmple (c : CoreId) (f : Fields)
  /-- VFABS (R212): Vector floating-point absolute value. -/
  | vfabs (c : CoreId) (f : Fields)
  /-- VFNEG (R212): Vector floating-point negation. -/
  | vfneg (c : CoreId) (f : Fields)
  /-- VCVT (R190): Vector format conversion with SAT and RTZ options. -/
  | vcvt (c : CoreId) (f : Fields)
  /-- VMXENC (R188): Encodes 32 FP32 lanes into one MX block and its scale. -/
  | vmxenc (c : CoreId) (f : Fields)
  /-- VMXDEC (R187): Decodes one MX block into FP32 lanes. -/
  | vmxdec (c : CoreId) (f : Fields)
  /-- VPERM (R212): Vector lane permutation. -/
  | vperm (c : CoreId) (f : Fields)
  /-- VBCAST (R212): Vector broadcast. -/
  | vbcast (c : CoreId) (f : Fields)
  /-- VEXT (R212): Moves a lane to a scalar register. -/
  | vext (c : CoreId) (f : Fields)
  /-- VINS (R212): Moves a scalar into a lane. -/
  | vins (c : CoreId) (f : Fields)
  /-- VREDADD (R193): Fixed-tree add reduction of a vector into s D. -/
  | vredadd (c : CoreId) (f : Fields)
  /-- VREDMIN (R193): Fixed-tree minimum reduction. -/
  | vredmin (c : CoreId) (f : Fields)
  /-- VREDMAX (R193): Fixed-tree maximum reduction. -/
  | vredmax (c : CoreId) (f : Fields)
  /-- VSEL (R212): Selects lanes of v A or v B by the predicate. -/
  | vsel (c : CoreId) (f : Fields)
  /-- TMMA (R197): Tile multiply-accumulate into an accumulator, issued to the tile unit. -/
  | tmma (c : CoreId) (f : Fields)
  /-- TL2 (R196): Tile squared-L2 distance accumulate. -/
  | tl2 (c : CoreId) (f : Fields)
  /-- TL1 (R196): Tile L1 distance accumulate. -/
  | tl1 (c : CoreId) (f : Fields)
  /-- THAM (R196): Tile Hamming distance accumulate of binary rows. -/
  | tham (c : CoreId) (f : Fields)
  /-- TMINS (R196): Tile elementwise-minimum accumulate. -/
  | tmins (c : CoreId) (f : Fields)
  /-- TMAXS (R196): Tile elementwise-maximum accumulate. -/
  | tmaxs (c : CoreId) (f : Fields)
  /-- TLD (R181): Loads a tile from scratch. -/
  | tld (c : CoreId) (f : Fields)
  /-- TST (R181): Stores a tile to scratch. -/
  | tst (c : CoreId) (f : Fields)
  /-- TZERO (R212): Clears a tile. -/
  | tzero (c : CoreId) (f : Fields)
  /-- TTR8 (R212): Transposes 64 × 64 bytes of a tile. -/
  | ttr8 (c : CoreId) (f : Fields)
  /-- ACCMODE (R153): Waits for queued accumulator users, switches the accumulator mode and L, and clears every accumulator. -/
  | accmode (c : CoreId) (f : Fields)
  /-- ACCZERO (R212): Clears one accumulator. -/
  | acczero (c : CoreId) (f : Fields)
  /-- ACCST (R212): Converts an accumulator into a format and writes it to scratch. -/
  | accst (c : CoreId) (f : Fields)
  /-- ACCLD (R212): Loads FP32 rows from scratch into an accumulator. -/
  | accld (c : CoreId) (f : Fields)
  /-- ACCSAVE (R204): Writes an accumulator image to scratch. -/
  | accsave (c : CoreId) (f : Fields)
  /-- ACCRESTORE (R204): Loads an accumulator image from scratch. -/
  | accrestore (c : CoreId) (f : Fields)
  /-- ACCMRG (R204): Adds an exact image into an accumulator modulo 2^112 and ORs the flags. -/
  | accmrg (c : CoreId) (f : Fields)
  /-- TKINIT (R205): Sets k, L_k, the direction and the key type, and empties the top-k lists. -/
  | tkinit (c : CoreId) (f : Fields)
  /-- TKPUSH (R208): Pushes an accumulator row into a top-k list. -/
  | tkpush (c : CoreId) (f : Fields)
  /-- TKPUSHS (R208): Pushes entries from scratch into a top-k list. -/
  | tkpushs (c : CoreId) (f : Fields)
  /-- TKOUT (R208): Writes a top-k list to scratch and empties it. -/
  | tkout (c : CoreId) (f : Fields)
  /-- SFILL (R176): Starts copying a DA range into scratch through the mover with RDCURRENT. -/
  | sfill (c : CoreId) (f : Fields)
  /-- SDUMP (R176): Starts copying scratch to a DA with whole-sector writes. -/
  | sdump (c : CoreId) (f : Fields)
  /-- GSUB (R177): Hands a scratch GATHER image to the Grinders of the core's quarter, with outputs to scratch. -/
  | gsub (c : CoreId) (f : Fields)
  /-- PAND (R212): Predicate AND. -/
  | pand (c : CoreId) (f : Fields)
  /-- POR (R212): Predicate OR. -/
  | por (c : CoreId) (f : Fields)
  /-- PXOR (R212): Predicate XOR. -/
  | pxor (c : CoreId) (f : Fields)
  /-- PNOT (R212): Predicate NOT. -/
  | pnot (c : CoreId) (f : Fields)
  /-- PFROMS (R212): Loads p D from s A. -/
  | pfroms (c : CoreId) (f : Fields)
  /-- PTOS (R212): Copies p A into s D. -/
  | ptos (c : CoreId) (f : Fields)
  /-- PCNT (R212): Counts the bits set in p A. -/
  | pcnt (c : CoreId) (f : Fields)
  /-- RDSHARED (R262): A home accepts a read for an S or E copy and acts by the sector's DS. -/
  | rdshared (m : ReqMsg)
  /-- RDOWN (R262): A home accepts a read for ownership, invalidating or forwarding as needed. -/
  | rdown (m : ReqMsg)
  /-- CLAIM (R262): A home accepts a request for ownership of an S sector without data. -/
  | claim (m : ReqMsg)
  /-- RDCURRENT (R262): A home serves current data without state change or tracking. -/
  | rdcurrent (m : ReqMsg)
  /-- WRFULL (R262): A home invalidates every holder and writes whole sectors without allocating. -/
  | wrfull (m : ReqMsg)
  /-- WRPART (R262): A home merges a masked write into the home copy after recalling owners. -/
  | wrpart (m : ReqMsg)
  /-- EVICTDIRTY (R262): A home writes back O or M data from its named owner, or discards stale data. -/
  | evictdirty (m : ReqMsg)
  /-- EVICTCLEAN (R262): A home learns that an S or E copy was dropped. -/
  | evictclean (m : ReqMsg)
  /-- ATOMIC (R266): A home recalls a sector and performs an atomic of Table 8.7 in its slice, in memory or under a host grant. -/
  | atomic (m : ReqMsg)
  /-- UPDROW (R267): A row update is ordered at the row's home under the row lock and applied at the home-node or memory site. -/
  | updrow (m : ReqMsg)
  /-- SNPINV (R265): An L1 invalidates a sector, returning dirty data when D = 1. -/
  | snpinv (m : SnpMsg)
  /-- FWDSHARED (R265): An owner sends S data to the requester and reports its new state. -/
  | fwdshared (m : SnpMsg)
  /-- FWDOWNED (R265): An owner sends data and ownership to the requester and goes to I. -/
  | fwdowned (m : SnpMsg)
  /-- FWDCURRENT (R265): An owner sends current data and keeps its state. -/
  | fwdcurrent (m : SnpMsg)
  /-- DATA (R263): A requester installs sector data with its granted state and poison, and sends COMPACK where needed. -/
  | data (m : RspMsg)
  /-- GRANT (R263): A requester takes E without data. -/
  | grant (m : RspMsg)
  /-- CMP (R264): A write is complete at its home. -/
  | cmp (m : RspMsg)
  /-- ATOMRSP (R266): An atomic's old value returns to its requester. -/
  | atomrsp (m : RspMsg)
  /-- ERR (R258): A requester receives a refusal with its status. -/
  | err (m : RspMsg)
  /-- ACK (R260): A home receives a snoop acknowledgement without data. -/
  | ack (m : AnsMsg)
  /-- ACKDATA (R255): A home receives a snoop acknowledgement with dirty data and writes it to the home copy. -/
  | ackdata (m : AnsMsg)
  /-- FWDDONE (R263): A home receives an owner's report of a forward sent and its new state. -/
  | fwddone (m : AnsMsg)
  /-- FWDMISS (R263): A home serves the request from the home copy after an owner did not hold the sector. -/
  | fwdmiss (m : AnsMsg)
  /-- COMPACK (R263): A home receives the requester's acknowledgement and may close the transaction. -/
  | compack (m : AnsMsg)
  /-- MEMRD (R257): A memory controller checks and reads a sector for a home. -/
  | memrd (m : MemMsg)
  /-- MEMWR (R257): A memory controller checks and writes a sector for a home. -/
  | memwr (m : MemMsg)
  /-- MEMRMW (R266): A memory-side update unit performs an atomic or row update in memory. -/
  | memrmw (m : MemMsg)
  /-- MEMDATA (R257): A home receives sector data from its controller. -/
  | memdata (m : MemMsg)
  /-- MEMCMP (R257): A home receives a controller's completion and frees the line. -/
  | memcmp (m : MemMsg)
  /-- HOLD_END (R268): HoldTime passes after a grant and the holder's waiting snoops and forwards proceed. -/
  | holdEnd (holder : Nat) (line : Nat)
  /-- REQUEST_STARVED (R269): A waiting request's age reaches HomeAgeThreshold and it moves to the head of its line's queue. -/
  | requestStarved (m : ReqMsg)
  /-- MEM_RD (R272): A host MemRd becomes a home transaction by MetaValue and is answered with MemData. -/
  | memRd (m : HostReq)
  /-- MEM_RD_DATA (R272): A host MemRdData is served as RDSHARED by the host. -/
  | memRdData (m : HostReq)
  /-- MEM_RD_FWD (R272): A host MemRdFwd is served as RDCURRENT. -/
  | memRdFwd (m : HostReq)
  /-- MEM_INV (R272): A host MemInv is served as CLAIM or as an owner recall, by MetaValue. -/
  | memInv (m : HostReq)
  /-- MEM_CLN_EVCT (R272): A host clean eviction clears the host pointer. -/
  | memClnEvct (m : HostReq)
  /-- MEM_WR (R272): A host full-line write is served as EVICTDIRTY or WRFULL. -/
  | memWr (m : HostReq)
  /-- MEM_WR_PTL (R272): A host partial write is served as WRPART. -/
  | memWrPtl (m : HostReq)
  /-- MEM_SPEC_RD (R272): A host speculative read may start a memory read into the slice side buffer. -/
  | memSpecRd (m : HostReq)
  /-- BIRSP (R272): A home receives the host's answer to a back-invalidate snoop. -/
  | birsp (line : Nat) (sec : Fin 4) (a : BiAnswer)
  /-- BICONFLICT (R272): A host request that crossed a BISnp is ordered after it by the BIConflict handshake. -/
  | biconflict (m : HostReq)
  /-- SNP_INV (R273): A host SnpInv recalls a host line from the block and answers. -/
  | snpInv (hpa : Nat)
  /-- SNP_DATA (R273): A host SnpData obtains shared data from the block. -/
  | snpData (hpa : Nat)
  /-- SNP_CUR (R273): A host SnpCur obtains current data of a host line. -/
  | snpCur (hpa : Nat)
  /-- GO (R273): A host GO grants a host line or completes a write to host memory. -/
  | go (line : Nat) (sec : Fin 4) (grant : MState) (data : Sector) (poison : Bool)
  /-- GO_ERR (R273): A host GO-Err answers the block requester with ERR HOST_ERROR. -/
  | goErr (line : Nat) (sec : Fin 4)
  /-- CACHE_ENABLE (R290): A write of CACHE_CTRL.ENABLE 1 enables a cache, or is refused while INV_DONE is 0. -/
  | cacheEnable (src : RegSource) (n : Nat)
  /-- CACHE_DISABLE (R290): A write of CACHE_CTRL.ENABLE 0 runs FLUSH_ALL on the cache and then clears ENABLE. -/
  | cacheDisable (src : RegSource) (n : Nat)
  /-- PCMD_INVALIDATE_ALL (R305): CACHE_PCMD starts INVALIDATE_ALL on one cache. -/
  | pcmdInvalidateAll (src : RegSource) (n : Nat)
  /-- PCMD_WRITEBACK_ALL (R305): CACHE_PCMD starts WRITEBACK_ALL on one cache. -/
  | pcmdWritebackAll (src : RegSource) (n : Nat)
  /-- PCMD_FLUSH_ALL (R305): CACHE_PCMD starts FLUSH_ALL on one cache. -/
  | pcmdFlushAll (src : RegSource) (n : Nat)
  /-- CACHE_RANGE_WRITEBACK (R293): MAINT CACHE_RANGE WRITEBACK recalls and writes back dirty sectors of a range. -/
  | cacheRangeWriteback (d : DescId) (n : Nat) (h : List HostAnswer)
  /-- CACHE_RANGE_FLUSH (R293): MAINT CACHE_RANGE FLUSH writes back and removes every copy of a range. -/
  | cacheRangeFlush (d : DescId) (n : Nat) (h : List HostAnswer)
  /-- CACHE_RANGE_INVALIDATE (R293): MAINT CACHE_RANGE INVALIDATE discards every copy of a range without writing. -/
  | cacheRangeInvalidate (d : DescId) (n : Nat) (h : List HostAnswer)
  /-- CACHE_RANGE_PREFETCH (R293): MAINT CACHE_RANGE PREFETCH reads absent lines into slice side buffers. -/
  | cacheRangePrefetch (d : DescId) (n : Nat) (h : List HostAnswer)
  /-- PRELOAD_LOCK (R297): Loads a range into WAYMASK ways of each slice and locks those ways. -/
  | preloadLock (d : DescId) (n : Nat) (h : List HostAnswer)
  /-- UNLOCK (R298): Clears the locks of the WAYMASK ways and leaves their lines in place. -/
  | unlock (d : DescId) (n : Nat) (h : List HostAnswer)
  /-- CACHE_RANGE_INVALIDATE_ALL (R293): MAINT INVALIDATE_ALL invalidates every line of the named caches and sets INV_DONE. -/
  | cacheRangeInvalidateAll (d : DescId) (n : Nat) (h : List HostAnswer)
  /-- CACHE_RANGE_WRITEBACK_ALL (R293): MAINT WRITEBACK_ALL writes back every line of the named caches. -/
  | cacheRangeWritebackAll (d : DescId) (n : Nat) (h : List HostAnswer)
  /-- CACHE_RANGE_FLUSH_ALL (R293): MAINT FLUSH_ALL writes back and invalidates every line of the named caches. -/
  | cacheRangeFlushAll (d : DescId) (n : Nat) (h : List HostAnswer)
  /-- CACHE_ENABLE_WRITE (R290): A write of CacheEnable enables or disables every cache of a class, or is refused whole. -/
  | cacheEnableWrite (v : Byte)
  /-- CACHE_COMMAND (R306): A write of CacheCommand starts an _ALL operation on the slices or L1s. -/
  | cacheCommand (v : Byte)
  /-- CACHE_WAY_RESTORE (R300): A Service write names a disabled way to return to service at the next cold reset. -/
  | cacheWayRestore (v : Word16)
  /-- FENCE (R323): A FENCE descriptor waits until every earlier descriptor of its queue has completed with writes settled. -/
  | fence (d : DescId)
  /-- SEG_VALIDATE (R330): A write setting SEG_ATTR.VALID checks the record and validates it or records ERR. -/
  | segValidate (src : RegSource) (ctx : CtxId) (seg : SegNo) (value : Word64)
  /-- SEG_LIMIT_WRITE (R331): A write of SEG_LIMIT is applied when it raises a valid segment's limit within the checks, or freely on an invalid record. -/
  | segLimitWrite (src : RegSource) (ctx : CtxId) (seg : SegNo) (value : Word64)
  /-- REVOKE (R336): MAINT REVOKE clears VALID and waits for holders of generation g + 1 to complete. -/
  | revoke (d : DescId)
  /-- GENERATION_BUMP (R336): With no holder of the next generation left, GEN advances in the control plane and every copy of the live-generation table. -/
  | generationBump (ctx : CtxId) (seg : SegNo)
  /-- GENERATION_COPY_ACK (R336): A live-generation table copy acknowledges its change, and after the last one drain markers are sent. -/
  | generationCopyAck (ctx : CtxId) (seg : SegNo) (copy : Nat)
  /-- DRAIN_MARKER_ANSWER (R336): An agent answers its drain marker once its earlier requests have responses, and after the last answer the REVOKE record is written. -/
  | drainMarkerAnswer (ctx : CtxId) (seg : SegNo) (agent : Nat)
  /-- QDB_ENABLE (R349): A write of QDB_CFG.ENABLE 1 checks the queue's fields and enables it or sets CFG_ERR. -/
  | qdbEnable (src : RegSource) (q : QueueId) (value : Word64)
  /-- QDB_DISABLE (R349): A write of ENABLE 0 stops fetching and aborts the waiting head. -/
  | qdbDisable (src : RegSource) (q : QueueId) (value : Word64)
  /-- QDOORBELL (R350): An 8-byte doorbell write updates TAIL, or is ignored, or halts the queue with DOORBELL_RANGE. -/
  | qdoorbell (src : RegSource) (ctx : CtxId) (q : QueueId) (value : Word64) (size : Nat)
  /-- DESCRIPTOR_FETCH (R351): A fetched descriptor is checked at queue time and presented to admission. -/
  | descriptorFetch (q : QueueId) (h : List HostAnswer)
  /-- DESCRIPTOR_TIMEOUT (R369): A descriptor's timeout wins its arbiter race and it ends with TIMEOUT. -/
  | descriptorTimeout (d : DescId)
  /-- INTERIM_RECORD (R363): Every ProgressRecordInterval a running PROG_REC descriptor gets an IN_PROGRESS record. -/
  | interimRecord (d : DescId)
  /-- COMPLETION_RECORD (R320): Once every write of a descriptor is complete, or settled under FENCE, its final record is written and its charges released. -/
  | completionRecord (d : DescId)
  /-- COPY (R356): A COPY descriptor is checked and assigned to a copy engine of its class. -/
  | copy (d : DescId) (n : Nat) (h : List HostAnswer)
  /-- MAILBOX_DELIVERY (R375): The target core's scratch slot word is zero, so the mailbox line is written into scratch and PENDING clears. -/
  | mailboxDelivery (mb : MailboxId)
  /-- MBX_WAIT_LIMIT (R375): MbxWaitLimit wins its race against delivery and a TIMEOUT reply is written. -/
  | mbxWaitLimit (mb : MailboxId)
  /-- MAILBOX_REPLY (R377): Once a mailbox GATHER's outputs are complete, a 64-byte reply is written to REPLY_HPA. -/
  | mailboxReply (mb : MailboxId)
  /-- HOST_LINK_UP (R387): Host link training ends in L0, or sets INCOMPATIBLE, or reports a degraded width or rate. -/
  | hostLinkUp (ok : Bool) (width rate : Nat) (cacheId biId : Nat)
  /-- LINK_RECOVERY (R396): The host link enters Recovery and replays unacknowledged flits, suspending HostAnswerLimit. -/
  | linkRecovery (width rate : Nat)
  /-- DL_DOWN (R397): The data link layer reports DL_Down and source HOSTLOSS starts. -/
  | dlDown
  /-- HOST_ANSWER_LIMIT (R397): A BISnp, H2D answer or GO stays unanswered for HostAnswerLimit, and the host is lost. -/
  | hostAnswerLimit
  /-- IDE_FAILURE (R395): An IDE integrity failure makes a CXL.io stream Insecure, or on the cachemem stream is host loss. -/
  | ideFailure (stream : Nat)
  /-- IDE_KEY_REFRESH (R395): An IDE_KM key refresh over DOE takes effect without stopping traffic. -/
  | ideKeyRefresh (stream : Nat)
  /-- DECODER_COMMIT (R385): The host commits an HDM decoder, which succeeds only when size, base, ways, BI and IDE conditions hold. -/
  | decoderCommit (decoder : Fin 2) (base size ways : Nat) (bi : Bool)
  /-- CXL_RESET (R382): A CXL Reset starts reset source WARM. -/
  | cxlReset
  /-- GPF_PHASE1 (R392): GPF Phase 1 stops D2H requests and writes dirty host lines back. -/
  | gpfPhase1
  /-- GPF_PHASE2 (R392): GPF Phase 2 writes dirty device sectors back and drains resistive write queues. -/
  | gpfPhase2
  /-- BIAS_CMD_DEVICE (R391): HOME_BIAS_CMD GO with TARGET DEVICE flips pages to DEVICE after invalidating host copies. -/
  | biasCmdDevice (src : RegSource) (value : Word64)
  /-- BIAS_CMD_SHARED (R391): HOME_BIAS_CMD GO with TARGET SHARED sets the entries of idle pages to SHARED. -/
  | biasCmdShared (src : RegSource) (value : Word64)
  /-- D3HOT_WRITE (R510): The host writes D3hot to request STANDBY. -/
  | d3hotWrite
  /-- D0_WRITE (R510): The host writes D0 to request ACTIVE. -/
  | d0Write
  /-- FLIT_RECEIVE (R407): A Taruc flit is accepted when its CRC and FSEQ are good, or discarded with a NAK. -/
  | flitReceive (n : LinkId) (header : Word64) (words : List Word64) (crc : Word64)
  /-- NAK (R407): A received NAK makes the sender replay its retry buffer from the named flit. -/
  | nak (n : LinkId) (fseq : Nat)
  /-- RETRY_TIMEOUT (R407): No ACKSEQ progress for twice the round trip plus 1 µs makes the sender replay. -/
  | retryTimeout (n : LinkId)
  /-- LINK_RETRAIN_LIMIT (R408): A link not back within LinkRetrainLimit goes DOWN and discards its retry buffer. -/
  | linkRetrainLimit (n : LinkId)
  /-- LINK_UP_ATTEMPT (R408): Every 10 ms an enabled DOWN link attempts link-up. -/
  | linkUpAttempt (n : LinkId)
  /-- CAPX (R412): A partner's CAPX is checked for duplicate ID and version and published. -/
  | capx (n : LinkId) (words : List Word64)
  /-- LENPROBE (R413): A LENPROBE is echoed with LENECHO. -/
  | lenprobe (n : LinkId) (words : List Word64)
  /-- LENECHO (R413): An echo gives a round-trip sample, and after the last the retry depth and credits are set and the link is UP. -/
  | lenecho (n : LinkId) (words : List Word64)
  /-- LOOKUP (R421): An owner's ingress agent serves a remote row lookup, relays it or fails it. -/
  | lookup (m : TMsg)
  /-- BKRD (R426): An ingress agent translates and serves a bulk read. -/
  | bkrd (m : TMsg)
  /-- LOOKRSP (R420): A Grinder receives a remote row image and pools it or treats it as a bad row. -/
  | lookrsp (m : TMsg)
  /-- TARUC_ACK (R423): An originator receives an acknowledgement of an update, bulk write or migration message. -/
  | tarucAck (m : TMsg)
  /-- TARUC_ERR (R419): An originator receives an ERR and ends its transaction with PEER_ERROR. -/
  | tarucErr (m : TMsg)
  /-- REDIRECT (R422): An originator resends its message with FWDED set to NEW_OWNER. -/
  | redirect (m : TMsg)
  /-- TARUC_UPDATE (R423): An owner applies or buffers a remote update and acknowledges it. -/
  | tarucUpdate (m : TMsg)
  /-- STEPEND (R424): An owner records STEPEND of a step from one participant. -/
  | stepend (m : TMsg)
  /-- MIGCOPY (R425): A target writes a migrated slot under its guest row map as pending and acknowledges. -/
  | migcopy (m : TMsg)
  /-- MIGCOMMIT (R425): A target marks its pending guest entry live and acknowledges. -/
  | migcommit (m : TMsg)
  /-- MIGABORT (R425): A target clears its pending guest entry and fails held requests. -/
  | migabort (m : TMsg)
  /-- BKWR (R426): An ingress agent translates and performs a bulk write and acknowledges it. -/
  | bkwr (m : TMsg)
  /-- BKDATA (R426): A requester receives bulk read data into its reserved space. -/
  | bkdata (m : TMsg)
  /-- PING (R409): A PING is answered with PONG. -/
  | ping (m : TMsg)
  /-- PONG (R406): A PONG answering a PING is received. -/
  | pong (m : TMsg)
  /-- PEER_ANSWER_LIMIT (R419): An originator without an answer for PeerAnswerLimit ends the transaction with PEER_ERROR. -/
  | peerAnswerLimit (txid : Nat)
  /-- LINK_ENABLE (R429): A write of TRC_LINK_CTRL.ENABLE enables a link or takes it DOWN at once. -/
  | linkEnable (n : LinkId) (v : Bool)
  /-- RETRAIN (R429): A write of RETRAIN forces the link to RETRAINING. -/
  | retrain (n : LinkId)
  /-- INJECT_CRC (R429): A write of INJECT_CRC sends the next DATA flit with an inverted CRC. -/
  | injectCrc (n : LinkId)
  /-- READ (R438): A dictionary READ frame is checked, authenticated and answered entry by entry. -/
  | read
  /-- WRITE (R440): A dictionary WRITE frame applies its entries in order through the mirror and the NV store until one fails. -/
  | write
  /-- DISCOVER (R447): A DISCOVER frame is answered with identity after a delay derived from DeviceUid. -/
  | discover
  /-- FN_DATAGRAM (R446): A field-network UDP datagram is accepted as a frame into the buffer, or dropped and counted. -/
  | fnDatagram (src dst : BitVec 128) (port : Nat) (dport : Nat) (hop : Nat) (bytes : List Byte)
  /-- NEIGHBOUR_SOLICITATION (R446): A neighbour solicitation is answered. -/
  | neighbourSolicitation (target : BitVec 128)
  /-- ICMPV6_ECHO (R446): An ICMPv6 echo request is answered. -/
  | icmpv6Echo (src : BitVec 128) (bytes : List Byte)
  /-- FN_LINK_UP (R446): The field network comes up and runs duplicate address detection. -/
  | fnLinkUp
  /-- DICT_WIN_GO (R449): A write of DICT_WIN_GO copies a request frame into the management plane and sets BUSY, or is refused. -/
  | dictWinGo (src : RegSource) (value : Word64)
  /-- LOCKOUT_END (R444): A role's lockout of 100,000,000 counts ends. -/
  | lockoutEnd (role : Fin 4)
  /-- ROLE_KEY_WRITE (R443): A RoleKey write unwraps and installs a new role key, or sets the first Operator key. -/
  | roleKeyWrite (writer : Fin 4) (seq : Word64) (role : Fin 4) (value : BitVec 256) (via : Bool)
  /-- CALENDAR_WRITE (R456): A write of CalendarSeconds sets the calendar and marks it synced. -/
  | calendarWrite (v : Word64)
  /-- CALENDAR_ADVANCE (R456): Every 100,000,000 counts the calendar advances one second. -/
  | calendarAdvance
  /-- CALENDAR_PERSIST (R456): Every 3,600 s of advance the calendar and PoweredSeconds are persisted. -/
  | calendarPersist
  /-- NV_COMPACT (R459): A write of NvCompact compacts all four NV stores. -/
  | nvCompact
  /-- RESTORE_DEFAULTS (R459): A Service write of RestoreDefaults returns persisted settings to default at the next cold reset. -/
  | restoreDefaults
  /-- SENSOR_SAMPLE (R454): Supply and temperature sensors are sampled and published. -/
  | sensorSample (m : Sensors)
  /-- FAULT_RAISE (R465): A part fills its fault slot, and the collector logs and counts the message, or it is held under distributed mode. -/
  | faultRaise (m : FaultMsg)
  /-- FAULT_PULSE_END (R468): The FAULT_N pulse's 200 counts end and the pin returns to FaultPinDrive. -/
  | faultPulseEnd
  /-- FAULT_CLEAR (R468): A write of FaultClear clears the named cause bits, overruns or event bits. -/
  | faultClear (v : Byte)
  /-- FAULT_PIN_DRIVE (R468): A write of FaultPinDrive holds FAULT_N asserted outside pulses or releases it. -/
  | faultPinDrive (v : Bool)
  /-- FLT_SRC_CLEAR (R466): Software clears VALID of a source in distributed mode, freeing its slot. -/
  | fltSrcClear (src : RegSource) (code : Nat)
  /-- FAULT_INJECT (R470): A write of FLT_INJECT or FaultInject arms one injection, or is refused. -/
  | faultInject (src : RegSource) (v : Word64)
  /-- WATCHDOG_HEARTBEAT (R481): A dictionary or canary-round heartbeat arrives, and once every heartbeat has arrived the watchdog restarts. -/
  | watchdogHeartbeat (which : Fin 5)
  /-- WATCHDOG_EXPIRY (R481): WatchdogLimit passes without a restart and the reset controller resets from source WDOG. -/
  | watchdogExpiry
  /-- WARM_RESET (R486): A write of WarmReset 0xA55A starts reset source WARM. -/
  | warmReset (v : Word16)
  /-- ISOLATE_AGENT (R479): A write of IsolateAgent starts an ISOLATE reset of the named part. -/
  | isolateAgent (v : Word16)
  /-- RESET_SEQUENCE (R474): A reset trigger is recorded in the backup domain and admission, teams and issue stop in the reached domains. -/
  | resetSequence
  /-- CRIT (R477): A critical fault line starts a CRIT reset with its origin. -/
  | crit (origin : CritOrigin) (source : Nat) (info : Nat)
  /-- STOP_TIMEOUT (R479): A part misses its stop bound, so STOP_TIMEOUT is raised and the part is isolated. -/
  | stopTimeout (agent : Nat) (bound : Nat)
  /-- STORE_DRAIN_LIMIT (R474): StoreDrainLimit passes in a reset, and buffered stores still present are discarded as STORE_DISCARD. -/
  | storeDrainLimit
  /-- DIRECTORIES_EMPTY (R474): The reset's L1 give-up, slice write-back and host recall finish, and the hold of the reached domains begins. -/
  | directoriesEmpty
  /-- RESET_RELEASE (R476): The 100-count hold ends and domains are released in order, setting RESET_GEN, READY and vector 0. -/
  | resetRelease
  /-- NV_PULSE_END (R483): An NV write pulse ends and a waiting reset or write proceeds. -/
  | nvPulseEnd
  /-- BK_GOOD_FALL (R483): BK_GOOD is recognised low, so NV pulses wait and NV_WRITE_BLOCKED is raised. -/
  | bkGoodFall
  /-- BK_GOOD_RISE (R483): BK_GOOD is recognised high and waiting NV records are written. -/
  | bkGoodRise
  /-- PERSIST_WAIT_LIMIT (R483): A persisted dictionary write that waited 10,000 counts for BK_GOOD answers PERSIST_FAILED. -/
  | persistWaitLimit
  /-- THROTTLE_N_ASSERT (R496): THROTTLE_N is recognised asserted, setting T_q to AdmitWindowMin and the issue gate to 1/4. -/
  | throttleNAssert
  /-- THROTTLE_N_RELEASE (R496): THROTTLE_N is released and admission reopens with staggered tile restarts. -/
  | throttleNRelease
  /-- PERST_RELAY_N (R397): PERST_RELAY_N is recognised asserted and reset source PERST starts. -/
  | perstRelayN
  /-- SUPPLY_FAIL (R500): A supply falls below its minimum or reference edges stop, and the block holds COLD. -/
  | supplyFail
  /-- COLD_START (R503): All supplies and the clock are good for 1,000 counts, COLD is released and the start sequence begins. -/
  | coldStart
  /-- HDM0_READY (R241): DRAM tier initialisation ends, HDM0_READY sets and CP may be released. -/
  | hdm0Ready (absent : List Nat)
  /-- HDM1_READY (R241): Resistive tier initialisation ends and HDM1_READY sets. -/
  | hdm1Ready (absent : List Nat)
  /-- TIER_TAG (R222): MAINT TIER_TAG invalidates all copies and rewrites a 2 MiB-aligned range with a new CTX_TAG. -/
  | tierTag (d : DescId) (n : Nat)
  /-- REFRESH (R223): A refresh group's interval ends and its rows are refreshed one bank at a time. -/
  | refresh (st : StackId) (group : Nat)
  /-- DRAM_SCRUB (R225): The DRAM scrub reads a sector, rewrites a corrected one, and repairs a row that repeats the same symbol error. -/
  | dramScrub (sector : Nat) (errors : List Nat)
  /-- RETENTION_SWEEP (R228): The sweep reads a block at both shifted references and rewrites it when margin has narrowed. -/
  | retentionSweep (die : DieId) (block : Nat) (shifted errors : List Nat)
  /-- SWEEP_LATE (R229): A sweep pass fails to finish within its interval, so SWEEP_LATE is raised and the sweep share rises to 20 %. -/
  | sweepLate (die : DieId)
  /-- BLOCK_WRITE (R227): A resistive block write is verified and re-pulsed up to twice, then remapped on failure. -/
  | blockWrite (die : DieId) (pulses : Nat)
  /-- WEAR_SWAP (R231): The hottest region exceeding the mean by WearSwapMargin is swapped with the coldest under a journal. -/
  | wearSwap (die : DieId)
  /-- LIFE_PERSIST (R234): Once per 24 h region write counters are persisted, and WEAR_HIGH is raised when TierLifeConsumed is at least 8,000 bp. -/
  | lifePersist
  /-- PWR_ACTIVE (R512): RST_PWR_CTRL TARGET ACTIVE starts the exit from a lower power state. -/
  | pwrActive (src : RegSource)
  /-- PWR_STANDBY (R511): RST_PWR_CTRL TARGET STANDBY checks the entry conditions, flushes caches and gates logic. -/
  | pwrStandby (src : RegSource)
  /-- PWR_DORMANT (R511): RST_PWR_CTRL TARGET DORMANT enters STANDBY and also sets links OFF and stacks to self-refresh. -/
  | pwrDormant (src : RegSource)
  /-- PWR_OFF_READY (R511): RST_PWR_CTRL TARGET OFF_READY enters DORMANT, drains write queues, persists records and deasserts READY. -/
  | pwrOffReady (src : RegSource)
  /-- POWER_ENTRY_STEP (R511): A power-state entry step that waited for a flush, settle or drain completes and the next step runs. -/
  | powerEntryStep
  /-- POWER_EXIT_STEP (R512): A power-state exit step completes and the next runs, ending in ACTIVE with held requests proceeding. -/
  | powerExitStep
  /-- REGISTER_WRITE (R344): A write to a register without a row of its own updates its fields under the access codes. -/
  | registerWrite (src : RegSource) (addr : Nat) (size : Nat) (value : Word64)
  /-- PERST_RELAY_N_RELEASE (R397): PERST_RELAY_N is recognised deasserted, the HL domain leaves reset and the host link retrains. -/
  | perstRelayNRelease
  /-- TOPK_UNIT_COMPLETE (R152): A decoupled top-k instruction finishes its waves in the top-k unit, updating its lists or writing scratch and freeing the registers it held. -/
  | topkUnitComplete (c : CoreId)
  /-- TARUC_PHY_TRAINED (R411): The package PHY reports a Taruc link trained, at link-up or after RETRAINING, and flit lock or replay resumes. -/
  | tarucPhyTrained (n : LinkId) (medium loss latency : Nat)
  /-- FN_LINK_DOWN (R453): The field-network segment or its PHY link is lost and FnState becomes DOWN. -/
  | fnLinkDown
  /-- DUPLICATE_ADDRESS_DETECTION (R446): Duplicate address detection begun at field-network link-up ends, and FnState moves from DAD to UP, or to DUPLICATE when the address is in use. -/
  | duplicateAddressDetection (inUse : Bool)
  /-- DISCOVER_ANSWER (R447): The delay of (DeviceUid mod 1,000) × 1,000 counts after a DISCOVER expires and the DISCOVER response is sent. -/
  | discoverAnswer
  /-- PERCOLATOR_WALK_END (R296): The last Percolator or L1 finishes its walk of a maintenance operation, INV_DONE is set where due and the operation completes. -/
  | percolatorWalkEnd
  /-- DOE_REQUEST (R384): The host places a DOE request (CDAT, or SPDM such as GET_CERTIFICATE and session setup) and the device answers it. -/
  | doeRequest (protocol : Nat) (bytes : List Byte)
  deriving DecidableEq, Repr

end Sys2Proof
end

