-- ==== Sys2Proof/Decode.lean ====
section
/-! DEFINITION. The command a word of spec/opcode_table.json spells. No row of the table gives bits: commands reach the
block as events and messages, not as words (notes/assumptions 9). What has words is a kernel's code: `decodeCoreWord` takes
one apart by Tables 6.11 and 6.13 (06_arithmetic_and_encodings.md R210-R212). -/

namespace Sys2Proof

def decodeTableWord (_nbits _w : Nat) : Option Instr := none

/-! ### Instruction words of a core -/

/-- The fields of a word, by the bit positions of Table 6.11; `imm` marks the immediate forms 0x0.20-38. -/
def Fields.ofWord (w : Word64) (imm : Bool) : Fields :=
  { p := w.extractLsb' 48 4, d := w.extractLsb' 42 6, a := w.extractLsb' 36 6, b := w.extractLsb' 30 6, c := w.extractLsb' 24 6
    fmt := w.extractLsb' 20 4, mod := w.extractLsb' 0 20, imm := imm }

/-- A run of Table 6.13: class, first operation, and the instructions from it on. -/
structure OpRun where
  cls   : Nat
  first : Nat
  ops   : List (CoreId → Fields → Instr)

/-- Table 6.13. -/
def opRuns : List OpRun :=
  [{ cls := 0x0, first := 0x00, ops := [.add, .sub, .mul, .mulh, .mulhu, .div, .divu, .rem, .remu] },
    { cls := 0x0, first := 0x09, ops := [.and, .or, .xor, .shl, .shr, .sar] },
    { cls := 0x0, first := 0x0F, ops := [.min, .max, .minu, .maxu] },
    { cls := 0x0, first := 0x13, ops := [.cmpeq, .cmplt, .cmpltu] },
    { cls := 0x0, first := 0x16, ops := [.popc, .clz, .ctz] },
    { cls := 0x0, first := 0x40, ops := [.li, .lih] },
    { cls := 0x0, first := 0x48, ops := [.aadd, .aaddi, .amovs, .smova, .aseg] },
    { cls := 0x1, first := 0x00, ops := [.fadd, .fsub, .fmul, .fdiv, .fsqrt, .fma] },
    { cls := 0x1, first := 0x06, ops := [.fmin, .fmax, .fcmpeq, .fcmplt, .fcmple] },
    { cls := 0x1, first := 0x0B, ops := [.fcvtfi, .fcvtif] },
    { cls := 0x2, first := 0x00, ops := [.j, .call, .jr, .bz, .bnz, .bpany] },
    { cls := 0x2, first := 0x10, ops := [.endK, .drain, .waitm, .tbar, .brk, .waits, .nop, .rdref, .rdwave] },
    { cls := 0x3, first := 0x00, ops := [.ld8, .ld16, .ld32, .ld64, .lds8, .lds16, .lds32] },
    { cls := 0x3, first := 0x08, ops := [.st8, .st16, .st32, .st64] },
    { cls := 0x3, first := 0x10, ops := [.vld, .vst, .vlds, .vsts, .sld64, .sst64] },
    { cls := 0x3, first := 0x20, ops := [.amo] },
    { cls := 0x4, first := 0x00, ops := [.vadd, .vsub, .vmul, .vmulh, .vmin, .vmax, .vminu, .vmaxu] },
    { cls := 0x4, first := 0x08, ops := [.vand, .vor, .vxor, .vshl, .vshr, .vsar, .vpopc, .vabsd, .vadds, .vsubs] },
    { cls := 0x4, first := 0x12, ops := [.vcmpeq, .vcmplt, .vcmpltu] },
    { cls := 0x5, first := 0x00, ops := [.vfadd, .vfsub, .vfmul, .vfdiv, .vfsqrt, .vfma] },
    { cls := 0x5, first := 0x06, ops := [.vfmin, .vfmax, .vfcmpeq, .vfcmplt, .vfcmple, .vfabs, .vfneg] },
    { cls := 0x6, first := 0x00, ops := [.vcvt, .vmxenc, .vmxdec, .vperm, .vbcast, .vext, .vins] },
    { cls := 0x6, first := 0x07, ops := [.vredadd, .vredmin, .vredmax, .vsel] },
    { cls := 0x7, first := 0x00, ops := [.tmma, .tl2, .tl1, .tham, .tmins, .tmaxs] },
    { cls := 0x7, first := 0x10, ops := [.tld, .tst, .tzero, .ttr8] },
    { cls := 0x8, first := 0x00, ops := [.accmode, .acczero, .accst, .accld] },
    { cls := 0x8, first := 0x04, ops := [.accsave, .accrestore, .accmrg] },
    { cls := 0x9, first := 0x00, ops := [.tkinit, .tkpush, .tkpushs, .tkout] },
    { cls := 0xA, first := 0x00, ops := [.sfill, .sdump, .gsub] },
    { cls := 0xB, first := 0x00, ops := [.pand, .por, .pxor, .pnot, .pfroms, .ptos, .pcnt] }]

/-- The instruction of a class and operation; none for a class.op that Table 6.13 does not list (R212). -/
def coreOp (cls op : Nat) : Option (CoreId → Fields → Instr) :=
  opRuns.findSome? fun r => if r.cls = cls && r.first ≤ op then r.ops[op - r.first]? else none

/-- A word of code as core c issues it. The immediate forms of 0x0.00-18 stand at 0x0.20-38 (Table 6.13). -/
def decodeCoreWord (c : CoreId) (w : Word64) : Option Instr :=
  let cls := (w.extractLsb' 60 4).toNat
  let op := (w.extractLsb' 52 8).toNat
  let imm := cls = 0 && 0x20 ≤ op && op ≤ 0x38
  (coreOp cls (if imm then op - 0x20 else op)).map fun i => i c (Fields.ofWord w imm)

end Sys2Proof
end

