-- ==== Sys2Proof/Config.lean ====
section
/-! DEFINITION. What one device fixes and what the manual leaves open: constants without a body,
so that no proof can see their value (notes/assumptions 2, 4, 6). -/

namespace Sys2Proof.Config

/-- Free 64-bit value number n, for results the manual leaves undefined (R87, R177, R209, R356). -/
opaque freeWord : Nat → Word64
/-- Free sector number n, for undefined 64-byte content. -/
opaque freeSector : Nat → Sector
/-- What host memory holds at an HPA that the block has not yet read (host memory is outside the block). -/
opaque hostByte : Nat → Byte
/-- OD 0x1000.05 DeviceUid, 16 bytes as one number, byte 0 lowest (R441, R452: 'Per device'). -/
opaque deviceUid : BitVec 128
/-- OD 0x1000.04 SerialNumber, UTF-8 bytes (R452: 'Per device'). -/
opaque serialNumber : List Byte
/-- OD 0x1000.08 SteppingCode (R452: 'Per device'). -/
opaque steppingCode : Byte
/-- OD 0x1000.09 MacAddress (R452: 'Per device'). -/
opaque macAddress : BitVec 48
/-- OD 0x1000.0A ManufactureTime (R452: 'Per device'). -/
opaque manufactureTime : Word64
/-- The Service key written at manufacture (R443). -/
opaque serviceKey : BitVec 256
/-- The device's answer to a DOE request of the external standards CDAT, SPDM 1.2 and IDE_KM (R384, R395):
protocol and request bytes to response bytes. -/
opaque doeAnswer : Nat → List Byte → List Byte
/-- Whether a row of a stack passed the retention test of the k-times bin at first calibration (R224):
stack, refresh group to bin 1, 2 or 4. -/
opaque refreshBin : Nat → Nat → Nat

/-- A stack's own spreading of its offsets (R215): stack and granule to the refresh group of its row. -/
opaque rowGroup : Nat → Nat → Nat
/-- The same for the bank of the row. -/
opaque rowBank : Nat → Nat → Nat
/-- The same for the row, numbered in its stack (R225). -/
opaque rowOf : Nat → Nat → Nat
/-- Spare rows of each bank of a stack (R225, R246: 'SpareRowsLeft', no value given). -/
opaque spareRows : Nat → Nat
/-- KiB that a number of records takes in an NV store of 4 MiB (R30, R457: no size of a record given). -/
opaque nvKib : Nat → Nat
/-- Which of its stack's four update units, modulo 4, serves a granule of the stack (R30: not given). -/
opaque updateUnit : Nat → Nat → Nat
/-- Margin that a group's fresh-silicon baseline predicts for a tap setting, a supply in mV and a junction temperature
(R61: the law of the prediction is not given). -/
opaque baselineMargin : Nat → Nat → Nat → Int → Nat
/-- Cause byte of the lost-sector entry of a write that fails a margin emergency's read-back (R239, R240: the four causes
do not name it). -/
opaque readBackCause : Nat → Byte

end Sys2Proof.Config
end

