-- ==== Sys2Proof/Machine/Num.lean ====
section
/-! DEFINITION. Number formats, decoding, rounding and the exact accumulator
(06_arithmetic_and_encodings.md R184-R203). -/

namespace Sys2Proof.Machine

/-- Low w bits of a number. -/
def lowBits (w n : Nat) : Nat := n % 2 ^ w

/-- Two's-complement value of the low w bits of n. -/
def signedOf (w n : Nat) : Int :=
  let m := lowBits w n
  if 2 ^ (w - 1) ≤ m then (m : Int) - (2 ^ w : Nat) else m

/-- Low w bits of an integer. -/
def bitsOf (w : Nat) (z : Int) : Nat := (z % ((2 ^ w : Nat) : Int)).toNat

/-- The integer z limited to w-bit two's complement. -/
def clampS (w : Nat) (z : Int) : Int :=
  let hi : Int := ((2 ^ (w - 1) : Nat) : Int) - 1
  if hi < z then hi else if z < -hi - 1 then -hi - 1 else z

/-- A floating-point format of Table 6.1: exponent bits, mantissa bits, bias, the encoding of its largest
finite magnitude, its infinity if it has one, and its canonical NaN (R185; E2M1 has none and reads +0, R190). -/
structure FloatFmt where
  width  : Nat
  mant   : Nat
  bias   : Nat
  maxBits : Nat
  infBits : Option Nat
  nanBits : Nat
  deriving DecidableEq, Repr

def FloatFmt.fp32 : FloatFmt := ⟨32, 23, 127, 0x7F7FFFFF, some 0x7F800000, 0x7FC00000⟩
def FloatFmt.bf16 : FloatFmt := ⟨16, 7, 127, 0x7F7F, some 0x7F80, 0x7FC0⟩
def FloatFmt.fp16 : FloatFmt := ⟨16, 10, 15, 0x7BFF, some 0x7C00, 0x7E00⟩
def FloatFmt.e4m3 : FloatFmt := ⟨8, 3, 7, 0x7E, none, 0x7F⟩
def FloatFmt.e5m2 : FloatFmt := ⟨8, 2, 15, 0x7B, some 0x7C, 0x7E⟩
def FloatFmt.e2m1 : FloatFmt := ⟨4, 1, 1, 0x7, none, 0x0⟩

/-- An exact value (R186): NaN, an infinity, or plus or minus num × 2^exp; num 0 is a signed zero. -/
inductive Val
  | nan
  | inf (neg : Bool)
  | fin (neg : Bool) (num : Nat) (exp : Int)
  deriving DecidableEq, Repr

def Val.zero : Val := .fin false 0 0

/-- Decoding of a format's encoding (R184, R186). -/
def FloatFmt.decode (F : FloatFmt) (bits : Nat) : Val :=
  let b := lowBits F.width bits
  let neg := 2 ^ (F.width - 1) ≤ b
  let mag := lowBits (F.width - 1) b
  let e := mag / 2 ^ F.mant
  let m := lowBits F.mant mag
  if mag ≤ F.maxBits then
    if e = 0 then .fin neg m (1 - (F.bias : Int) - F.mant)
    else .fin neg (m + 2 ^ F.mant) ((e : Int) - F.bias - F.mant)
  else if F.infBits = some mag then .inf neg
  else .nan

/-- n × 2^e as a fraction of two naturals. -/
def scaleNum (n : Nat) (e : Int) : Nat × Nat :=
  if 0 ≤ e then (n * 2 ^ e.toNat, 1) else (n, 2 ^ (-e).toNat)

/-- Round num / den to an integer, nearest, ties to even (R189). -/
def rneDiv (num den : Nat) : Nat :=
  let q := num / den
  let r := num % den
  if 2 * r < den then q
  else if den < 2 * r then q + 1
  else if q % 2 = 0 then q else q + 1

/-- floor(log2 (num / den)) for positive num and den. -/
def log2Frac (num den : Nat) : Int :=
  let l : Int := (Nat.log2 num : Int) - Nat.log2 den
  let (a, b) := if 0 ≤ l then (num, den * 2 ^ l.toNat) else (num * 2 ^ (-l).toNat, den)
  if b ≤ a then l else l - 1

/-- One rounding, nearest and ties to even, of (neg) num / den × 2^e into F; the magnitude's encoding may lie above
`maxBits`, which is overflow (R189, R190). Once, at the precision of the subnormal range, below it. -/
def FloatFmt.roundMag (F : FloatFmt) (num den : Nat) (e : Int) : Nat :=
  if num = 0 then 0
  else
    let (n, d) := scaleNum num e
    let den' := den * d
    let emin : Int := 1 - F.bias
    let E := log2Frac n den'
    let E' := if E < emin then emin else E
    let qe := E' - F.mant
    let (n2, d2) := scaleNum n (-qe)
    rneDiv n2 (den' * d2) + (E' - emin).toNat * 2 ^ F.mant

/-- The sign bit of F when neg. -/
def FloatFmt.sign (F : FloatFmt) (neg : Bool) : Nat := if neg then 2 ^ (F.width - 1) else 0

/-- Infinity of F, or its largest finite value where it has none or saturation is asked for (R190). -/
def FloatFmt.infOr (F : FloatFmt) (sat : Bool) (neg : Bool) : Nat :=
  F.sign neg + match F.infBits with
    | some b => if sat then F.maxBits else b
    | none => F.maxBits

/-- IEEE-RNE, or SAT-RNE, of a fraction of an exact finite value (R190). -/
def FloatFmt.roundFrac (F : FloatFmt) (sat neg : Bool) (num den : Nat) (e : Int) : Nat :=
  let m := F.roundMag num den e
  if m ≤ F.maxBits then F.sign neg + m else F.infOr sat neg

/-- IEEE-RNE or SAT-RNE of an exact value into F (R190). -/
def FloatFmt.round (F : FloatFmt) (sat : Bool) : Val → Nat
  | .nan => F.nanBits
  | .inf neg => F.infOr sat neg
  | .fin neg num exp => F.roundFrac sat neg num 1 exp

/-- num × 2^exp as an integer over 2^exp0, for exp0 at most exp. -/
def Val.over (neg : Bool) (num : Nat) (exp exp0 : Int) : Int :=
  let m : Int := (num * 2 ^ (exp - exp0).toNat : Nat)
  if neg then -m else m

/-- Exact sum; an exact zero from different signs is +0 (IEEE 754 under RNE, R191). -/
def Val.add : Val → Val → Val
  | .nan, _ => .nan
  | _, .nan => .nan
  | .inf a, .inf b => if a = b then .inf a else .nan
  | .inf a, .fin _ _ _ => .inf a
  | .fin _ _ _, .inf b => .inf b
  | .fin sa na ea, .fin sb nb eb =>
    if na = 0 ∧ nb = 0 then .fin (sa && sb) 0 0
    else
      let e := if ea < eb then ea else eb
      let z := Val.over sa na ea e + Val.over sb nb eb e
      .fin (z < 0) z.natAbs e

def Val.neg : Val → Val
  | .nan => .nan
  | .inf s => .inf (!s)
  | .fin s n e => .fin (!s) n e

def Val.abs : Val → Val
  | .nan => .nan
  | .inf _ => .inf false
  | .fin _ n e => .fin false n e

def Val.sub (a b : Val) : Val := a.add b.neg

/-- Exact product; 0 × ∞ is NaN. -/
def Val.mul : Val → Val → Val
  | .nan, _ => .nan
  | _, .nan => .nan
  | .inf a, .inf b => .inf (a != b)
  | .inf a, .fin s n _ => if n = 0 then .nan else .inf (a != s)
  | .fin s n _, .inf b => if n = 0 then .nan else .inf (s != b)
  | .fin sa na ea, .fin sb nb eb => .fin (sa != sb) (na * nb) (ea + eb)

/-- Exact order: a is less than b, by value; false when either is NaN. Zeros are equal. -/
def Val.lt : Val → Val → Bool
  | .nan, _ => false
  | _, .nan => false
  | .inf a, .inf b => a && !b
  | .inf a, .fin _ _ _ => a
  | .fin _ _ _, .inf b => !b
  | .fin sa na ea, .fin sb nb eb =>
    let e := if ea < eb then ea else eb
    Val.over sa na ea e < Val.over sb nb eb e

def Val.isNan : Val → Bool
  | .nan => true
  | _ => false

/-- Equality by value; false when either is NaN; the zeros are equal (R191). -/
def Val.eqv (a b : Val) : Bool := !a.isNan && !b.isNan && !a.lt b && !b.lt a

def Val.negBit : Val → Bool
  | .nan => false
  | .inf s => s
  | .fin s _ _ => s

/-- Minimum of IEEE 754-2019: NaN if either is NaN, -0 below +0 (R191). -/
def Val.min (a b : Val) : Val :=
  if a.isNan || b.isNan then .nan
  else if a.lt b then a else if b.lt a then b else if a.negBit then a else b

def Val.max (a b : Val) : Val :=
  if a.isNan || b.isNan then .nan
  else if a.lt b then b else if b.lt a then a else if a.negBit then b else a

/-- Value × 2^k (R187). -/
def Val.shift (k : Int) : Val → Val
  | .fin s n e => .fin s n (e + k)
  | v => v

/-- Quotient rounded into F by IEEE-RNE (R191). -/
def FloatFmt.divRound (F : FloatFmt) (a b : Val) : Nat :=
  match a, b with
  | .nan, _ => F.nanBits
  | _, .nan => F.nanBits
  | .inf _, .inf _ => F.nanBits
  | .inf s, .fin t _ _ => F.infOr false (s != t)
  | .fin s _ _, .inf t => F.sign (s != t)
  | .fin s n e, .fin t m k =>
    if m = 0 then (if n = 0 then F.nanBits else F.infOr false (s != t))
    else if n = 0 then F.sign (s != t)
    else F.roundFrac false (s != t) n m (e - k)

/-- Integer square root by bits, from bit k - 1 down. -/
def isqrtBits (n : Nat) : Nat → Nat → Nat
  | 0, r => r
  | k + 1, r => isqrtBits n k (if (r + 2 ^ k) * (r + 2 ^ k) ≤ n then r + 2 ^ k else r)

/-- Square root rounded into F by IEEE-RNE: a root of at least 30 bits with a sticky bit below it (R191). -/
def FloatFmt.sqrtRound (F : FloatFmt) : Val → Nat
  | .nan => F.nanBits
  | .inf s => if s then F.nanBits else F.infOr false false
  | .fin s n e =>
    if n = 0 then F.sign s
    else if s then F.nanBits
    else
      let (n', e') := if e % 2 = 0 then (n * 2 ^ 60, e - 60) else (n * 2 ^ 61, e - 61)
      let r := isqrtBits n' 64 0
      F.roundFrac false false (2 * r + (if r * r = n' then 0 else 1)) 1 (e' / 2 - 1)

/-- Conversion to a w-bit signed integer: RNE or toward zero, nearest limit beyond the range, NaN 0 (R190). -/
def Val.toInt (w : Nat) (rtz : Bool) : Val → Int
  | .nan => 0
  | .inf s => if s then -((2 ^ (w - 1) : Nat) : Int) else ((2 ^ (w - 1) : Nat) : Int) - 1
  | .fin s n e =>
    let (a, b) := scaleNum n e
    let m : Int := if rtz then (a / b : Nat) else (rneDiv a b : Nat)
    clampS w (if s then -m else m)

/-- An integer as an exact value. -/
def Val.ofInt (z : Int) : Val := .fin (z < 0) z.natAbs 0

/-! ### Element formats by FMT code (Table 6.12) -/

/-- Floating-point format of an FMT code's elements. -/
def fmtFloat : Nat → Option FloatFmt
  | 0 => some .fp32
  | 1 => some .bf16
  | 2 => some .fp16
  | 3 => some .e4m3
  | 4 => some .e5m2
  | 5 => some .e4m3
  | 6 => some .e5m2
  | 7 => some .e2m1
  | 8 => some .e2m1
  | _ => none

/-- Bits of one element of an FMT code. -/
def fmtWidth : Nat → Nat
  | 0 => 32 | 1 => 16 | 2 => 16 | 3 => 8 | 4 => 8 | 5 => 8 | 6 => 8 | 7 => 4 | 8 => 4
  | 9 => 8 | 10 => 4 | 11 => 1 | 12 => 16 | 13 => 32 | 14 => 64 | _ => 64

/-- Decoding of one element of an FMT code (R186). -/
def fmtDecode (fmt bits : Nat) : Val :=
  match fmtFloat fmt with
  | some F => F.decode bits
  | none => if fmt = 11 then Val.ofInt (lowBits 1 bits : Nat) else Val.ofInt (signedOf (fmtWidth fmt) bits)

/-- Conversion of an exact value into an FMT code's element (Table 6.2): To E4M3 and E2M1 always SAT-RNE. -/
def fmtEncode (fmt : Nat) (sat rtz : Bool) (v : Val) : Nat :=
  match fmtFloat fmt with
  | some F => F.round sat v
  | none =>
    if fmt = 11 then (if Val.zero.lt v then 1 else 0)
    else bitsOf (fmtWidth fmt) (v.toInt (fmtWidth fmt) rtz)

/-! ### MX blocks (R187, R188) -/

/-- E_elem of R188. -/
def mxElem (F : FloatFmt) : Int := if F = .e4m3 then 8 else if F = .e5m2 then 15 else 2

/-- Value of an element with its block's scale byte (R187). -/
def mxValue (F : FloatFmt) (scale bits : Nat) : Val :=
  if scale = 255 then .nan else (F.decode bits).shift ((scale : Int) - 127)

/-- Largest finite FP32 in place of an infinity (R188). -/
def mxClip : Val → Val
  | .inf s => .fin s (2 ^ 24 - 1) 104
  | v => v

/-- Encoding of a block of values: scale byte and element encodings (R188). -/
def mxEncode (F : FloatFmt) (xs : List Val) : Nat × List Nat :=
  if xs.any Val.isNan then (255, xs.map fun _ => 0)
  else
    let ys := xs.map mxClip
    let m := ys.foldl (fun acc y => Val.max acc y.abs) Val.zero
    let x : Int := match m with
      | .fin _ n e =>
        if n = 0 then 0
        else
          let k := ((Nat.log2 n : Int) + e) - mxElem F
          if 127 < k then 127 else if k < -127 then -127 else k
      | _ => 0
    ((x + 127).toNat, ys.map fun y => F.round true (y.shift (-x)))

/-! ### The exact accumulator (R199-R201) -/

/-- One element in exact mode: T = X:V of 112 bits, and the three flags. -/
structure Exact where
  t    : BitVec 112
  nan  : Bool
  pinf : Bool
  ninf : Bool
  deriving DecidableEq, Repr

def Exact.zero : Exact := { t := 0, nan := false, pinf := false, ninf := false }

/-- floor(num × 2^exp / 2^l), negated before flooring when neg (R200). -/
def truncAddend (neg : Bool) (num : Nat) (exp l : Int) : Int :=
  let z : Int := if neg then -(num : Int) else num
  if l ≤ exp then z * ((2 ^ (exp - l).toNat : Nat) : Int) else z / ((2 ^ (l - exp).toNat : Nat) : Int)

/-- One addend enters on its own (R200). -/
def Exact.addVal (l : Int) (x : Exact) : Val → Exact
  | .nan => { x with nan := true }
  | .inf s => if s then { x with ninf := true } else { x with pinf := true }
  | .fin s n e => { x with t := x.t + BitVec.ofInt 112 (truncAddend s n e l) }

/-- Merging of an image: T modulo 2^112 and the flags by OR (R204). -/
def Exact.merge (x y : Exact) : Exact :=
  { t := x.t + y.t, nan := x.nan || y.nan, pinf := x.pinf || y.pinf, ninf := x.ninf || y.ninf }

/-- T as clamped by R201, and whether the element counts as saturated. -/
def Exact.clamped (x : Exact) : Int × Bool :=
  let z := x.t.toInt
  let hi : Int := ((2 ^ 95 : Nat) : Int)
  if hi - 1 < z then (hi - 1, true) else if z < -hi then (-hi, true) else (z, false)

/-- The clamped sum divided by n (n = 1 but for MEAN), as sign, numerator, denominator, exponent and saturation. -/
def Exact.saturated (x : Exact) : Bool :=
  !x.nan && !x.pinf && !x.ninf && x.clamped.2

/-- Conversion of an exact element into F, the sum divided by n before the one rounding (R201). -/
def Exact.convert (F : FloatFmt) (sat : Bool) (l : Int) (n : Nat) (x : Exact) : Nat :=
  if x.nan || (x.pinf && x.ninf) then F.nanBits
  else if x.pinf then F.infOr sat false
  else if x.ninf then F.infOr sat true
  else
    let z := x.clamped.1
    if z = 0 then 0 else F.roundFrac sat (z < 0) z.natAbs n l

/-- An exact element as an exact value (for conversions to integer formats and BIN, R190, R201). -/
def Exact.value (l : Int) (x : Exact) : Val :=
  if x.nan || (x.pinf && x.ninf) then .nan
  else if x.pinf then .inf false
  else if x.ninf then .inf true
  else .fin (x.clamped.1 < 0) x.clamped.1.natAbs l

/-- The 16-byte image of an element (Table 6.6). -/
def Exact.image (l : Int) (x : Exact) : BitVec 128 :=
  BitVec.ofInt 8 l ++ (0 : BitVec 5) ++ BitVec.ofBool x.ninf ++ BitVec.ofBool x.pinf ++ BitVec.ofBool x.nan ++ x.t

def Exact.ofImage (b : BitVec 128) : Exact :=
  { t := b.extractLsb' 0 112, nan := b.getLsbD 112, pinf := b.getLsbD 113, ninf := b.getLsbD 114 }

/-- LSB field of an image. -/
def Exact.imageL (b : BitVec 128) : Int := (b.extractLsb' 120 8).toInt

/-! ### Lanes of a 64-byte value -/

/-- Element i of width w. -/
def Sector.lane (x : Sector) (w i : Nat) : Nat := lowBits w (x.toNat >>> (w * i))

/-- Number with element i equal to g i, for n elements of width w, from element k. -/
def lanesNat (w : Nat) (g : Nat → Nat) : Nat → Nat → Nat
  | 0, _ => 0
  | n + 1, k => lowBits w (g k) + 2 ^ w * lanesNat w g n (k + 1)

/-- A 64-byte value from its 512 / w elements of width w. -/
def ofLanes (w : Nat) (g : Nat → Nat) : Sector := BitVec.ofNat 512 (lanesNat w g (512 / w) 0)

/-- Byte i of a 64-byte value (R10). -/
def Sector.byte (x : Sector) (i : Nat) : Byte := BitVec.ofNat 8 (Sector.lane x 8 i)

/-- Bytes of b where the mask bit is set, else those of a. -/
def Sector.merge (a b : Sector) (mask : Word64) : Sector :=
  ofLanes 8 fun i => if mask.getLsbD i then Sector.lane b 8 i else Sector.lane a 8 i

/-- The first n bytes, lowest first, as one little-endian number. -/
def leNat : List Byte → Nat
  | [] => 0
  | b :: bs => b.toNat + 256 * leNat bs

/-- n bytes of a number, lowest first. -/
def leBytes : Nat → Nat → List Byte
  | 0, _ => []
  | n + 1, x => BitVec.ofNat 8 x :: leBytes n (x / 256)

def Sector.ofBytes (bs : List Byte) : Sector := BitVec.ofNat 512 (leNat (bs.take 64))

def Sector.bytes (x : Sector) : List Byte := leBytes 64 x.toNat

/-- Word QN of a 64-byte image: bytes 8N to 8N + 7 (R79 notation). -/
def Sector.q (x : Sector) (n : Nat) : Word64 := x.extractLsb' (64 * n) 64

/-- Combining tree of R193: at each level lane i combines lanes 2i and 2i + 1. -/
def pairUp (g : Nat → Nat → Nat) : List Nat → List Nat
  | a :: b :: rest => g a b :: pairUp g rest
  | rest => rest

def reduceTree (g : Nat → Nat → Nat) : Nat → List Nat → List Nat
  | 0, xs => xs
  | k + 1, xs => reduceTree g k (pairUp g xs)

end Sys2Proof.Machine
end

