-- ==== Sys2Proof/Machine/State.lean ====
section
/-! DEFINITION. The state of the block: plain data, every register, buffer, counter, mode and pin the spec gives it,
and the queue of commands that wait. Each structure's `reset` is its value right after reset (COLD held). -/

namespace Sys2Proof.Machine

/-! ### Self-timed operation and margins (02) -/

/-- Planning stage of one tap group within a replan (R52, R56): no reading used yet; lowering one step a read; raised by
several steps at once; raising one step a read; raised back after a step down that fell short; final. -/
inductive TapStage | undecided | lowering | jumped | raising | restored | final
  deriving DecidableEq, Repr

/-- What a margin manager is waiting for. In a replan (R56): final taps, or the settle interval of a step up, a step down,
or the step back up that ends the step-down loop. Outside one: final taps of a calibration (R503, R512), or the settle
interval of a step towards a power state's level (R511, R512). -/
inductive ReplanWait | none | taps | up | down | backUp | calib | walk (target : Nat)
  deriving DecidableEq, Repr

/-- A progress object (12_queues_and_mailbox.md Table 12.14). `state` uses the table's codes:
0 IDLE, 1 RUNNING, 2 WAITING_CREMA, 3 WAITING, 4 DONE, 5 FAILED, 6 ABANDONED. -/
structure Progress where
  state    : Nat
  position : Nat
  total    : Nat
  queue    : Nat
  tag      : Nat
  start    : Word64
  deriving DecidableEq, Repr

def Progress.idle : Progress := { state := 0, position := 0, total := 0, queue := 0xFFFF, tag := 0, start := 0 }

/-- Margin settings in force in one quarter since its last replan began (R74). -/
structure PlanSet where
  target : Nat
  alert  : Nat
  drift  : Nat
  power  : Nat
  rate   : Nat
  vmin   : Nat
  deriving DecidableEq, Repr

/-- The defaults of Table 2.6. -/
def PlanSet.reset : PlanSet := { target := 1150, alert := 1080, drift := 100, power := 350, rate := 1200, vmin := 680 }

/-- One quarter's margin manager, canaries, sensors and reference count (R48-R74). -/
structure Quarter where
  refCount   : Word64
  refLost    : Bool
  /-- margin of canary i of group g at key 4g + i, in thousandths -/
  margin     : Map Nat
  latch      : Map Bool
  waveRate   : Nat
  /-- supply and junction temperature at the last canary round -/
  readVolt   : Nat
  readTemp   : Int
  tap        : Map Nat
  vreq       : Nat
  vmeas      : Nat
  stage      : Map TapStage
  wait       : ReplanWait
  /-- the replan is in its second loop, after a step down (R56) -/
  down       : Bool
  retried    : Bool
  noChange   : Bool
  again      : Bool
  /-- the next replan to begin is a scheduled one (R54) -/
  schedDue   : Bool
  /-- the last canary round showed a trigger of R55 -/
  trigger    : Bool
  progress   : Progress
  /-- planned margins and wave rate; empty until a round has read them at the plan's settings -/
  planMargin : Map Nat
  planTap    : Map Nat
  planWave   : Nat
  /-- request of the plan, to which an exit steps VDD_CORE (R512) -/
  planVreq   : Nat
  planned    : Bool
  sett       : PlanSet
  budget     : Option Nat
  /-- groups of the running margin emergency; empty when none runs -/
  emGroups   : List Nat
  emGood     : Nat
  emRestored : Bool
  /-- the issue gate admits 1/gateDiv of waves and row requests (R63, R496) -/
  gateDiv    : Nat
  ageing     : Nat
  lastPlan   : Word64
  planCount  : Nat
  /-- calendar seconds advanced since the last life-log entry PLAN_DONE -/
  planLogAge : Nat
  /-- fresh-silicon baseline of each group: margin at bits 31:16, tap at 12:8 (R61, R73) -/
  baseline   : Map Nat
  vddSram    : Nat
  vddIo      : Nat
  vcoreCur   : Nat
  junctionMax  : Int
  junctionMean : Int
  /-- cores waiting for a LaunchStaggerWindow: launches, then tile restarts -/
  stagger    : List Nat
  restart    : List Nat
  deriving DecidableEq, Repr

def Quarter.reset : Quarter :=
  { refCount := 0, refLost := false, margin := [], latch := [], waveRate := 0, readVolt := 0, readTemp := 0, tap := [], vreq := 750, vmeas := 0,
    stage := [], wait := .none, down := false, retried := false, noChange := false, again := false, schedDue := false, trigger := false, progress := .idle,
    planMargin := [], planTap := [], planWave := 0, planVreq := 750, planned := false, sett := .reset, budget := none, emGroups := [], emGood := 0,
    emRestored := false, gateDiv := 1, ageing := 0, lastPlan := 0, planCount := 0, planLogAge := 0, baseline := [],
    vddSram := 0, vddIo := 0, vcoreCur := 0, junctionMax := 0, junctionMean := 0, stagger := [], restart := [] }

/-! ### Faults (16) -/

/-- A log entry: the message, the calendar stamp and the collector's reference count (R461). -/
structure FaultEntry where
  msg   : FaultMsg
  stamp : Word64
  count : Word64
  deriving DecidableEq, Repr

/-- One quarter's collector: FLT_Q_STATUS and the log ring, newest first (R465, R485). -/
structure Collector where
  logCount : Word32
  log      : List FaultEntry
  refused  : Bool
  overrun  : Bool
  critEv   : Bool
  fatalEv  : Bool
  alertEv  : Bool
  deriving DecidableEq, Repr

def Collector.reset : Collector :=
  { logCount := 0, log := [], refused := false, overrun := false, critEv := false, fatalEv := false, alertEv := false }

/-- FLT_SRC registers of one source code (R466, R485). -/
structure SrcSlot where
  msg     : Option FaultMsg
  overrun : Bool
  deriving DecidableEq, Repr

def SrcSlot.reset : SrcSlot := { msg := none, overrun := false }

/-- Fault collection, pins and the backup domain's injection register (R461-R470). -/
structure Faults where
  coll       : Map Collector
  slots      : Map SrcSlot
  kindCount  : Map Word32
  /-- reporting mode in force since the last cold reset: true is distributed (R465) -/
  distributed : Bool
  inject     : Word64
  pinFault   : Bool
  pinMargin  : Bool
  lastAlert  : Nat
  pulse      : Bool
  deriving DecidableEq, Repr

def Faults.reset : Faults :=
  { coll := [], slots := [], kindCount := [], distributed := false, inject := 0, pinFault := false, pinMargin := false,
    lastAlert := 0, pulse := false }

/-! ### Reset, boundary and power (16-18) -/

/-- Reset domains of Table 16.4. -/
inductive Domain | bk | rc | mg | mem | tl | hl | cp | ex | ch
  deriving DecidableEq, Repr

/-- A reset trigger: source, origin, subject and, for a CRIT, the fault's INFO (R474, R477). -/
structure Trigger where
  source  : ResetSource
  origin  : CritOrigin
  subject : Nat
  info    : Nat
  deriving DecidableEq, Repr

/-- A running reset sequence. `step` is the last step of Table 16.7 that has begun. -/
structure ResetSeq where
  first    : Trigger
  merged   : List Trigger
  domains  : List Domain
  /-- quarters and source codes to which a MARGIN or ISOLATE reset is limited; `all` when a source reaches every part -/
  all      : Bool
  quarters : List Nat
  parts    : List Nat
  step     : Nat
  hostLost : Bool
  deriving DecidableEq, Repr

/-- The reset controller and the backup domain (R471-R484). -/
structure Resets where
  held     : List Domain
  seq      : Option ResetSeq
  waiting  : List Trigger
  /-- step of Table 18.1 reached by a cold or watchdog start; 0 while COLD is held, 11 after the last release -/
  startStep : Nat
  coldStart : Bool
  /-- parts whose isolation wrapper is closed by ISOLATE (R479, R480) -/
  isolated : List Nat
  count    : Word32
  cause    : ResetSource
  origin   : CritOrigin
  subject  : Nat
  bkLost   : Bool
  bkValid  : Bool
  nvPulse  : Bool
  /-- NV records waiting for BK_GOOD, by kind of record -/
  nvWaiting : List Nat
  nvCount  : Word32
  lastTime : Word64
  bySource : Map Word32
  poisoned : Word64
  heartbeats : List Nat
  deriving DecidableEq, Repr

def Resets.reset : Resets :=
  { held := [.mg, .mem, .tl, .hl, .cp, .ex, .ch], seq := none, waiting := [], startStep := 0, coldStart := true,
    isolated := [], count := 0, cause := .cold, origin := .none, subject := 0, bkLost := false, bkValid := true,
    nvPulse := false, nvWaiting := [], nvCount := 0, lastTime := 0, bySource := [],
    poisoned := 0, heartbeats := [] }

/-- Pins of Table 17.1. Outputs carry whether the block drives them (R488); inputs are as recognised (R490). -/
structure Pins where
  driven    : Bool
  faultN    : Bool
  alertN    : Bool
  mgmtIrqN  : Bool
  ready     : Bool
  vreqDriven : Bool
  vreqWord  : BitVec 6
  throttle  : Bool
  perst     : Bool
  bkGood    : Bool
  deriving DecidableEq, Repr

def Pins.reset : Pins :=
  { driven := false, faultN := true, alertN := true, mgmtIrqN := true, ready := true, vreqDriven := false,
    vreqWord := 63, throttle := false, perst := false, bkGood := false }

/-- Power states (R507, Table 18.9). -/
structure Power where
  state     : Nat
  busy      : Bool
  refused   : Bool
  refuseCause : Nat
  wakeEv    : Bool
  wakeSrc   : Nat
  lastExit  : Nat
  /-- Q0 reference count at the start of the exit (R512) -/
  exitStart : Word64
  target    : Nat
  /-- entry or exit step that has begun; `exiting` tells which table -/
  step      : Nat
  exiting   : Bool
  /-- a wake that arrived during an entry (R516) -/
  wake      : Option Nat
  d3hot     : Bool
  /-- host requests held until ACTIVE (R513) -/
  gated     : List ReqMsg
  /-- caches enabled at entry, by cache number (R512) -/
  enabled   : List Nat
  scratchLost : List Nat
  deriving DecidableEq, Repr

def Power.reset : Power :=
  { state := 0, busy := false, refused := false, refuseCause := 0, wakeEv := false, wakeSrc := 0, lastExit := 0, exitStart := 0,
    target := 0, step := 0, exiting := false, wake := none, d3hot := false, gated := [], enabled := [], scratchLost := [] }

/-! ### Dictionary, calendar, NV store (15) -/

/-- Where a dictionary frame came from: the BAR2 window, or a field-network requester's address and port. -/
inductive Transport
  | window
  /-- the window, emptied since by a reset of the control plane: its response is discarded (R449) -/
  | lost
  | field (addr : BitVec 128) (port : Nat)
  deriving DecidableEq, Repr

/-- A dictionary frame waiting to be handled (R440). -/
structure Frame where
  via   : Transport
  bytes : List Byte
  deriving DecidableEq, Repr

/-- A life-log entry (R458). -/
structure LifeEntry where
  kind    : Nat
  subject : Nat
  stamp   : Word64
  value   : Word64
  deriving DecidableEq, Repr

/-- The management plane: object values, roles, transports, calendar, life log, NV store (R431-R459). -/
structure Mgmt where
  /-- written values of RW objects by 256 * index + sub, little-endian number; unlisted objects hold their default -/
  vals     : Map Nat
  seconds  : BitVec 63
  fraction : Nat
  synced   : Bool
  lastStep : Word64
  powered  : Nat
  /-- calendar as persisted (R456) and seconds of advance since -/
  nvSeconds : BitVec 63
  nvPowered : Nat
  firstCal : Word64
  coldStarts : Nat
  lifeCount : Nat
  life     : List LifeEntry
  roleKeys : Map (BitVec 256)
  keyInit  : Bool
  lastSeq  : Map Word64
  highSeq  : Map Word64
  /-- counts of a role's latest failed frames, newest first (R444) -/
  failTimes : Map (List Nat)
  locked   : Map Bool
  authFails : Word32
  lockouts : Word32
  fnState  : Nat
  fnLink   : Bool
  fnRecv   : Word64
  fnSent   : Word64
  fnDrop   : Word64
  /-- field-network settings as applied at the last link-up (R453) -/
  fnPort   : Nat
  frames   : List Frame
  /-- the first frame: its checks have passed; entries handled, and their response words, below -/
  frameOk  : Bool
  /-- the key that its tag was found good with -/
  frameKey : BitVec 256
  frameAt  : Nat
  frameRsp : List Word64
  /-- DISCOVER frames to answer (R447): requester and REQ_ID -/
  discover : List (Transport × Nat)
  winCtrl  : Word64
  winRspLen : Nat
  winRefused : Bool
  winDone  : Bool
  winBusy  : Bool
  reqBuf   : Map Byte
  rspBuf   : List Byte
  nvRecords : Word64
  nvCompactions : Word32
  /-- records in each quarter's store since its last compaction -/
  nvUsed   : Map Nat
  restoreDefaults : Bool
  powerAvg : Nat
  powerPeak : Nat
  vbk      : Nat
  limiter  : Nat
  compactProgress : Progress
  deriving DecidableEq, Repr

def Mgmt.reset : Mgmt :=
  { vals := [], seconds := 0, fraction := 0, synced := false, lastStep := 0, powered := 0, nvSeconds := 0, nvPowered := 0,
    firstCal := 0, coldStarts := 0, lifeCount := 0, life := [], roleKeys := [], keyInit := false, lastSeq := [],
    highSeq := [], failTimes := [], locked := [], authFails := 0, lockouts := 0, fnState := 0,
    fnLink := false, fnRecv := 0, fnSent := 0, fnDrop := 0, fnPort := 47056, frames := [], frameOk := false, frameKey := 0, frameAt := 0, frameRsp := [], discover := [], winCtrl := 0,
    winRspLen := 0, winRefused := false, winDone := false, winBusy := false, reqBuf := [], rspBuf := [], nvRecords := 0,
    nvCompactions := 0, nvUsed := [], restoreDefaults := false, powerAvg := 0, powerPeak := 0, vbk := 0,
    limiter := 16384, compactProgress := .idle }
/-! ### Segments and generations (11) -/

/-- One segment record (Table 11.2). GEN is held in the live-generation table; `target` and `rtype` hold the codes. -/
structure SegRec where
  base    : Nat
  limit   : Nat
  valid   : Bool
  target  : Nat
  read    : Bool
  write   : Bool
  exec    : Bool
  atomic  : Bool
  update  : Bool
  rtype   : Nat
  ilv     : Bool
  homeq   : Nat
  err     : Nat
  peerDev : Nat
  remCtx  : Nat
  remSeg  : Nat
  deriving DecidableEq, Repr

def SegRec.reset : SegRec :=
  { base := 0, limit := 0, valid := false, target := 0, read := false, write := false, exec := false, atomic := false,
    update := false, rtype := 0, ilv := false, homeq := 0, err := 0, peerDev := 0, remCtx := 0, remSeg := 0 }

/-- CTX_CTRL of one context (Table 11.1). -/
structure CtxCtrl where
  valid      : Bool
  peerExport : BitVec 8
  deriving DecidableEq, Repr

def CtxCtrl.reset : CtxCtrl := { valid := false, peerExport := 0 }

/-- A running or waiting REVOKE (R336). Copies are numbered 0-63 homes, 64-135 memory controllers, 136-139 the
link layers of a quarter; agents by agent ID. -/
structure Revoke where
  desc    : DescId
  ctx     : Nat
  seg     : Nat
  step    : Nat
  waited  : Bool
  copies  : List Nat
  markers : List Nat
  rejects : Nat
  deriving DecidableEq, Repr

/-- Contexts, segments, the live-generation table and its copies, holders and REVOKEs (R327-R340). -/
structure Segs where
  ctxs    : Map CtxCtrl
  recs    : Map SegRec
  /-- generation of segment s of context c at 8c + s: the control plane's value -/
  gen     : Map Nat
  /-- copy k's value at 32768k + 8c + s, for copies that differ or have been written -/
  copies  : Map Nat
  /-- added modulo 16 to every generation above, in every copy: advances of CRIT SEGMENT (R340) -/
  genBase : Nat
  revokes : List Revoke
  /-- persisted records of context 0 by segment (R505) -/
  saved   : Map (Option SegRec)
  revokesDone : Word64
  holderWaits : Word32
  refusals : Word64
  peerRefusals : Word64
  writesRefused : Word32
  deriving DecidableEq, Repr

def Segs.reset : Segs :=
  { ctxs := [], recs := [], gen := [], copies := [], genBase := 0, revokes := [], saved := [], revokesDone := 0,
    holderWaits := 0, refusals := 0, peerRefusals := 0, writesRefused := 0 }

/-! ### Caches and coherence (08, 09) -/

/-- One sector of a cached line. -/
structure CSector where
  st   : MState
  data : Sector
  info : SectorMeta
  /-- symbols of its code word in error (R216, R470) -/
  err  : Nat
  deriving DecidableEq, Repr

def CSector.none : CSector := { st := .I, data := 0, info := .zero, err := 0 }

/-- A way's or side buffer's line: its line number DPA[55:8] and its four sectors. -/
structure CLine where
  line : Nat
  sec  : Map CSector
  deriving DecidableEq, Repr

def CLine.empty : CLine := { line := 0, sec := [] }

/-- An _ALL operation on one cache: its code 6-8 (Table 9.4), whether ENABLE is cleared when it completes (R290), whether
CacheCommand started it (R306). -/
structure CacheOp where
  code : Nat
  off  : Bool
  cmd  : Bool
  deriving DecidableEq, Repr

/-- Ways, side buffer, registers and repair history of one cache, slice or L1 (R277-R304). Way w of set x is at
16x + w. -/
structure Cache where
  ways      : Map CLine
  side      : List CLine
  lfsr      : BitVec 16
  streamEn  : Bool
  pfEn      : Bool
  enable    : Bool
  locked    : BitVec 12
  /-- ways of the repair map: a slice's, or an L1's in the compact configuration -/
  disabled  : BitVec 12
  /-- an L1's in the wide configuration -/
  disabledW : BitVec 12
  uncorr    : Bool
  wayEv     : Bool
  enRefused : Bool
  pcRefused : Bool
  streaming : Bool
  invDone   : Bool
  busy      : Bool
  /-- calendar times of corrected errors of each way (R299) -/
  errs      : Map (List Nat)
  /-- ways to return to service at the next cold reset (R300) -/
  restore   : List Nat
  /-- the _ALL operation that runs in it -/
  op        : Option CacheOp
  /-- ENABLE 0 was written while an operation ran: its flush starts after that one (R301) -/
  offAfter  : Bool
  deriving DecidableEq, Repr

def Cache.reset (n : Nat) (l1 : Bool) : Cache :=
  { ways := [], side := [], lfsr := 0xACE1 ^^^ BitVec.ofNat 16 n, streamEn := l1, pfEn := true, enable := false,
    locked := 0, disabled := 0, disabledW := 0, uncorr := false, wayEv := false, enRefused := false, pcRefused := false,
    streaming := false, invDone := false, busy := false, errs := [], restore := [], op := none, offAfter := false }

/-- Directory entry (Table 8.3); DS is I, S, E (for X) or O. -/
structure DirSector where
  ds  : MState
  own : Nat
  hs  : Nat
  deriving DecidableEq, Repr

def DirSector.none : DirSector := { ds := .I, own := 0x3FF, hs := 0 }

structure DirEntry where
  v     : Bool
  line  : Nat
  bcast : Bool
  shr   : List Nat
  sec   : Map DirSector
  err   : Nat
  deriving DecidableEq, Repr

def DirEntry.empty : DirEntry := { v := false, line := 0, bcast := false, shr := [], sec := [], err := 0 }

/-- What a home transaction still waits for, by sector: a snoop answer of an L1 or fan-out, the host's BIRsp, an
owner's FWDDONE, the requester's COMPACK, data or completion of a controller, the host's GO, or the CMP of a
row update handed to another home. -/
inductive Await
  | ack (core sec : Nat)
  | bi (sec : Nat)
  | fwd (core sec : Nat)
  | comp (sec : Nat)
  | mem (sec : Nat)
  | cmp (sec : Nat)
  | go (sec : Nat)
  deriving DecidableEq, Repr

/-- Stages of a home transaction: waiting for a directory entry, answers to snoops, data of the home copy,
writes and acknowledgements still owed. -/
inductive Stage | entry | recall | fetch | close
  deriving DecidableEq, Repr

/-- One transaction of a home (R260). `got` holds data returned for its sectors; `src` names the descriptor whose
engine wrote the line when the transaction only waits for the host's answers. -/
structure Txn where
  req   : ReqMsg
  stage : Stage
  /-- answers needed before the next stage, and answers the line also stays busy for -/
  await : List Await
  post  : List Await
  got   : List Payload
  /-- sectors whose requester takes its data from an owner's forward -/
  fwded : List Nat
  desc  : Option DescId
  /-- its data passed through a failing group: the host gets it poisoned (R478) -/
  suspect : Bool
  deriving DecidableEq, Repr

/-- A request waiting in its line's queue. -/
structure WaitReq where
  req     : ReqMsg
  starved : Bool
  deriving DecidableEq, Repr

/-- A home node: transactions by slot, waiting requests in order of arrival, directory sets closed by an
uncorrectable entry, sectors under the home's hold with their operation counts, HOME_STATUS events (R260, R268, R275). -/
structure Home where
  txns    : Map (Option Txn)
  queue   : List WaitReq
  lfsr    : BitVec 16
  closed  : List Nat
  stuck   : List ReqMsg
  held    : Map (Option Nat)
  dirCorr : Bool
  starve  : Bool
  bcast   : Bool
  isoPoison : Bool
  deriving DecidableEq, Repr

def Home.reset (n : Nat) : Home :=
  { txns := [], queue := [], lfsr := 0xACE1 ^^^ BitVec.ofNat 16 n, closed := [], stuck := [], held := [], dirCorr := false,
    starve := false, bcast := false, isoPoison := false }

/-- Counters of Tables 8.14 and 9.9. -/
structure CohCounts where
  recalls : Word64
  bcasts  : Word64
  starved : Word64
  stale   : Word64
  bisnps  : Word64
  fwdMiss : Word64
  isoPois : Word64
  dirCorr : Word64
  hits    : Word64
  misses  : Word64
  sideHits : Word64
  pfDrop  : Word64
  streamW : Word64
  corrected : Word64
  perc    : Word64
  deriving DecidableEq, Repr

def CohCounts.reset : CohCounts :=
  { recalls := 0, bcasts := 0, starved := 0, stale := 0, bisnps := 0, fwdMiss := 0, isoPois := 0, dirCorr := 0, hits := 0,
    misses := 0, sideHits := 0, pfDrop := 0, streamW := 0, corrected := 0, perc := 0 }

/-- A coherence or memory message on its way (R257). -/
inductive Msg
  | req (m : ReqMsg)
  | snp (m : SnpMsg)
  | rsp (m : RspMsg)
  | ans (m : AnsMsg)
  | mem (m : MemMsg)
  deriving DecidableEq, Repr

/-! ### Nytrix cores (05, 06) -/

/-- One entry of the store buffer (R159). -/
structure StoreEntry where
  sector : Nat
  mask   : Word64
  data   : Sector
  rt     : RType
  da     : Word64
  seg    : Nat
  gen    : Nat
  /-- a request for ownership has been sent -/
  sent   : Bool
  /-- its write has been sent, and it stays until that write is complete, or settled -/
  out    : Bool
  deriving DecidableEq, Repr

/-- A write that has left the core and is not known complete (R159, R176): its sector, and whether its CMP has come. -/
structure OutWrite where
  sector : Nat
  da     : Word64
  mover  : Bool
  done   : Bool
  /-- its store-buffer entry stays until then -/
  kept   : Bool
  deriving DecidableEq, Repr

/-- What an issued instruction waits for before it takes effect. -/
inductive CoreWait
  | none
  | load (reg size : Nat) (sext : Bool) (off : Nat) (da : Word64)
  | vload (reg : Nat) (p : BitVec 4) (da : Word64)
  | amo (reg : Nat) (narrow : Bool) (da : Word64)
  | arrive (team : Nat) (da : Word64)
  | gen (old : Word32) (dpa : Nat) (da : Word64)
  deriving DecidableEq, Repr

/-- A core's part in a team: idle, reserved by a team that has not started it, running, ended, stopped (R165-R172). -/
inductive CoreStatus | idle | reserved | running | ended | stopped
  deriving DecidableEq, Repr

/-- Operations of the decoupled tile and top-k units. -/
inductive UnitOp
  | tmma | tl2 | tl1 | tham | tmins | tmaxs | tld | tst | tzero | ttr8
  | acczero | accst | accld | accsave | accrestore | accmrg
  | tkinit | tkpush | tkpushs | tkout
  deriving DecidableEq, Repr

/-- An instruction queued at a decoupled unit, with the scalar operands it read at issue (R152). -/
structure Queued where
  op : UnitOp
  f  : Fields
  x  : Word64
  y  : Word64
  z  : Word64
  deriving DecidableEq, Repr

/-- A transfer of the scratch mover (R176): direction, range, bytes asked for, and the offsets of pieces asked for and not
arrived or not complete: of SFILL scratch offsets, of SDUMP offsets of the address. -/
structure Mover where
  dump    : Bool
  da      : Word64
  scratch : Nat
  len     : Nat
  pos     : Nat
  out     : List Nat
  deriving DecidableEq, Repr

/-- An outstanding GSUB (R177): index of its descriptor, scratch output range, offset of its record. -/
structure Gsub where
  index  : Nat
  output : Nat
  len    : Nat
  record : Nat
  deriving DecidableEq, Repr

/-- An entry of a top-k list (Table 6.8). -/
structure TkEntry where
  id  : Word64
  key : Word32
  deriving DecidableEq, Repr

/-- An exception record: code of Table 5.6, code offset, faulting DA (R171, R173). -/
structure ExcRec where
  code : Nat
  ioff : Nat
  da   : Word64
  deriving DecidableEq, Repr

/-- One Nytrix core with its L1 (R151-R177, R277-R286). Register n of a file is at n; row r of tile n at 64n + r;
element (i, j) of accumulator n at 4096n + 64i + j. -/
structure Core where
  status  : CoreStatus
  wait    : CoreWait
  s       : Map Word64
  a       : Map Word64
  p       : Map Word64
  v       : Map Sector
  t       : Map Sector
  accF    : Map Word32
  accX    : Map Exact
  exact   : Bool
  accL    : Int
  pc      : Nat
  codeDa  : Word64
  codeSize : Nat
  wide    : Bool
  ctx     : Nat
  cls     : Nat
  team    : Option Nat
  rank    : Nat
  segs    : Map SegRec
  gens    : Map Nat
  revoked : Map Bool
  scratch : Map Byte
  sb      : List StoreEntry
  writes  : List OutWrite
  failDa  : Option Word64
  movPoison : Option Word64
  tileQ   : List Queued
  topQ    : List Queued
  movQ    : List Mover
  gsubs   : List Gsub
  exc     : Option ExcRec
  exitVal : Word64
  /-- context and configuration of the previous kernel (R156) -/
  prev    : Option (Nat × Bool)
  tkK     : Nat
  tkL     : Nat
  tkDesc  : Bool
  tkKey   : Nat
  tkLists : Map (List TkEntry)
  waves   : Word64
  /-- kernels in which the core reported SRAM_ERROR: team and calendar time (R179) -/
  sramErr : List (Nat × Nat)
  /-- sectors sent with EVICTDIRTY and not acknowledged: the eviction buffer (R265) -/
  evict   : List (Nat × CSector)
  /-- sector of the demand miss outstanding (R279, R280) -/
  miss    : Option Nat
  /-- held sectors with the operations performed since the grant (R268) -/
  held    : Map (Option Nat)
  waitSnp : List SnpMsg
  /-- streaming detector: next sector expected, sectors of the current run (R285) -/
  sdNext  : Nat
  sdRun   : Nat
  sdStart : Nat
  /-- prefetcher: last demand line, last demand-miss line, armed direction, next line, sectors in flight (R286) -/
  pfLast  : Option Nat
  pfMissed : Option Nat
  pfUp    : Option Bool
  pfNext  : Nat
  pfLines : List Nat
  pfSeg   : Nat
  deriving DecidableEq, Repr

def Core.reset : Core :=
  { status := .idle, wait := .none, s := [], a := [], p := [], v := [], t := [], accF := [], accX := [], exact := false,
    accL := -18, pc := 0, codeDa := 0, codeSize := 0, wide := false, ctx := 0, cls := 0, team := none, rank := 0, segs := [],
    gens := [], revoked := [], scratch := [], sb := [], writes := [], failDa := none, movPoison := none, tileQ := [],
    topQ := [], movQ := [], gsubs := [], exc := none, exitVal := 0, prev := none, tkK := 1, tkL := 1, tkDesc := false,
    tkKey := 0, tkLists := [], waves := 0, sramErr := [], evict := [], miss := none, held := [],
    waitSnp := [], sdNext := 0, sdRun := 0, sdStart := 0, pfLast := none, pfMissed := none, pfUp := none, pfNext := 0, pfLines := [],
    pfSeg := 0 }

/-- A team of cores running one KERNEL (R165-R175). -/
structure Team where
  desc    : DescId
  cores   : List Nat
  ctx     : Nat
  barrier : Word64
  dump    : Word64
  /-- 0 not stopped, else the STATUS the KERNEL will complete with -/
  stop    : Nat
  deriving DecidableEq, Repr

/-- The repair map of cores and the kernel counters (R178-R180). -/
structure CoreMap where
  failed   : List Nat
  retired  : List Nat
  enabled  : List Nat
  launched : Word64
  faults   : Word64
  deriving DecidableEq, Repr
/-! ### Memory tiers (07) -/

/-- An entry of LostSectorLog (R239). -/
structure LostEntry where
  dpa   : Nat
  time  : Word64
  tag   : Nat
  cause : Nat
  deriving DecidableEq, Repr

/-- START and GAP of one region, and its block writes since the last gap move (R230). -/
structure GapRegs where
  start : Nat
  gap   : Nat
  since : Nat
  deriving DecidableEq, Repr

def GapRegs.reset : GapRegs := { start := 0, gap := 262144, since := 0 }

/-- One resistive die: measurements, wear levelling, remaps, sweep (R228-R234). -/
structure Die where
  present  : Bool
  failed   : Bool
  temp     : Int
  /-- logical region to physical region, for regions swapped at least once (R231) -/
  regionMap : Map (Option Nat)
  gaps     : Map GapRegs
  /-- block writes of each physical region -/
  writes   : Map Nat
  blockWrites : Nat
  /-- remap entries of each physical region, 4 B each: slot in [31:13], spare in [12:0] (R233) -/
  remaps   : Map (List Word32)
  /-- spares in use of each physical region -/
  spares   : Map Nat
  /-- blocks left in place without a spare (R233) -/
  stranded : List Nat
  /-- blocks that the pass has read (R228) -/
  swept    : List Nat
  sweepMax : Int
  sweepShare : Nat
  sweepCount : Nat
  lastSweep : Word64
  /-- symbol found in error and rewritten in the last pass and in this one, by block -/
  errLast  : Map (List Nat)
  errNow   : Map (List Nat)
  overtemp : Bool
  /-- swap under way: hot and cold physical regions, blocks done (R231) -/
  swap     : Option (Nat × Nat × Nat)
  deriving DecidableEq, Repr

def Die.reset : Die :=
  { present := false, failed := false, temp := 0, regionMap := [], gaps := [], writes := [], blockWrites := 0, remaps := [],
    spares := [], stranded := [], swept := [], sweepMax := 0, sweepShare := 2, sweepCount := 0, lastSweep := 0,
    errLast := [], errNow := [], overtemp := false, swap := none }

/-- One DRAM stack: measurements, refresh bins, scrub, spare rows (R223-R225). -/
structure Stack where
  present  : Bool
  failed   : Bool
  temp     : Int
  bins     : Map (Option Nat)
  refreshed : Map Nat
  /-- count at which a refresh group was refreshed last (R223) -/
  refreshAt : Map Word64
  /-- spare rows in use, by bank, and the repair map: spare of its bank that a failed row has (R225) -/
  spareUsed : Map Nat
  rows      : Map (Option Nat)
  noSpare  : Bool
  corrected : Nat
  selfRefresh : Bool
  errLast  : Map (List Nat)
  errNow   : Map (List Nat)
  deriving DecidableEq, Repr

def Stack.reset : Stack :=
  { present := false, failed := false, temp := 0, bins := [], refreshed := [], refreshAt := [], spareUsed := [], rows := [], noSpare := false, corrected := 0,
    selfRefresh := false, errLast := [], errNow := [] }

/-- TIER_STATUS, counters, progress and logs of the tiers (R239, R245, R246). -/
structure Tier where
  drams     : Map Stack
  dies      : Map Die
  initStep  : Nat
  hdm0      : Bool
  hdm1      : Bool
  retained  : Bool
  sparesLow : Bool
  remapHigh : Bool
  lostEv    : Bool
  overtemp  : Bool
  sweepLate : Bool
  lostCold  : Nat
  lost      : Nat
  lostLog   : List LostEntry
  corrected : Word64
  remapped  : Nat
  tagRejects : Word64
  genRejects : Word64
  rowRepairs : Nat
  earlyHost : Word64
  memWrites : Word64
  devBase   : Nat
  scrubPos  : Nat
  /-- RemapTableSize as applied at tier initialisation (R246) -/
  remapSize : Nat
  eol       : Word64
  /-- region write counters as persisted, at 6144 × die + region (R234) -/
  lifeSaved : Map Nat
  /-- daily samples: calendar seconds, block writes of each die's most worn region, newest first -/
  lifeHist  : List (Nat × Map Nat)
  /-- calendar second of the last WEAR_HIGH -/
  wearAlert : Option Nat
  /-- sectors that upkeep found uncorrectable and whose host copy is called back, with the cause (R239) -/
  suspects  : List (Nat × Nat)
  deriving DecidableEq, Repr

def Tier.reset : Tier :=
  { drams := [], dies := [], initStep := 0, hdm0 := false, hdm1 := false, retained := false, sparesLow := false,
    remapHigh := false, lostEv := false, overtemp := false, sweepLate := false, lostCold := 0, lost := 0, lostLog := [],
    corrected := 0, remapped := 0, tagRejects := 0, genRejects := 0, rowRepairs := 0, earlyHost := 0, memWrites := 0,
    devBase := 0x6000000000, scrubPos := 0, remapSize := 1024, eol := 0, lifeSaved := [],
    lifeHist := [], wearAlert := none, suspects := [] }

/-! ### Queues, descriptors, mailboxes (12) -/

/-- Registers of one queue (Table 12.3). -/
structure Queue where
  enable  : Bool
  irqEn   : Bool
  cls     : Nat
  ctx     : Nat
  vec     : Nat
  size    : Nat
  tmoDef  : Nat
  /-- DPA of the ring and of the completion area -/
  ring    : Nat
  cmpl    : Nat
  head    : Nat
  done    : Nat
  tail    : Nat
  cfgErr  : Nat
  cause   : Nat
  halted  : Bool
  refused : Nat
  late    : Nat
  deriving DecidableEq, Repr

def Queue.reset : Queue :=
  { enable := false, irqEn := false, cls := 0, ctx := 0, vec := 0, size := 0, tmoDef := 0, ring := 0, cmpl := 0, head := 0,
    done := 0, tail := 0, cfgErr := 0, cause := 0, halted := false, refused := 0, late := 0 }

/-- Stages of a descriptor: waiting for admission, for a team's cores or its turn, running, ended with its record owed,
record written to host memory and not yet acknowledged. -/
inductive RunStage | waiting | admitted | running | ended | recording
  deriving DecidableEq, Repr

/-- A remote row that has come: its status, width class, and stored image (R420). -/
structure RowReply where
  status : Nat
  wclass : Nat
  pre    : Bool
  image  : List Byte
  deriving DecidableEq, Repr

/-- A value row of an UPDATE not yet applied: index position, row, FP32 or raw values, occurrences folded (R130, R131). -/
structure PendUpd where
  pos    : Nat
  row    : Nat
  values : List Word32
  line   : Nat
  dev    : Option Nat
  fwded  : Bool
  /-- 0 in the merge buffer, 1 waiting to be issued, 2 issued -/
  stage  : Nat
  unit   : Nat
  deriving DecidableEq, Repr

/-- A descriptor in the device: of a queue; of mailbox m under queue number 16384 + m; of a GSUB of core c under queue
number 20480 + c. `segs` and `gens` are the translations made at queue time, by 8 × context + segment (R333). -/
structure Run where
  id      : DescId
  w       : List Word64
  ctx     : Nat
  cls     : Nat
  stage   : RunStage
  fetched : Word64
  waited  : Nat
  admCode   : Nat
  charged : List Nat
  segs    : Map SegRec
  gens    : Map Nat
  status  : Nat
  pos     : Nat
  prog    : Nat
  /-- count fields of Table 12.12 by number, and other small figures of the type -/
  cnt     : Map Nat
  epoch   : Nat
  param   : List Word32
  rows    : Map RowReply
  upds    : List PendUpd
  /-- remote updates, bulk transfers or migration messages without an answer -/
  owed    : Nat
  team    : Option Nat
  /-- its record could not be written (R352) -/
  lost    : Bool
  /-- number in order of admission -/
  seq     : Nat
  deriving DecidableEq, Repr

/-- One mailbox (Table 12.15) with the copy it holds while a message is pending. -/
structure Mailbox where
  enable  : Bool
  kind    : Bool
  ctx     : Nat
  target  : Nat
  slot    : Nat
  reply   : Nat
  lastSeq : Nat
  overruns : Nat
  pending : Bool
  overEv  : Bool
  refEv   : Bool
  copy    : List Byte
  /-- reply waiting to be written: STATUS and, for a GRINDER message, the record -/
  answer  : Option (Nat × List Word64)
  /-- SEQ of the message that reply answers -/
  answerSeq : Nat
  deriving DecidableEq, Repr

def Mailbox.reset : Mailbox :=
  { enable := false, kind := false, ctx := 0, target := 0, slot := 0, reply := 0, lastSeq := 0, overruns := 0, pending := false,
    overEv := false, refEv := false, copy := [], answer := none, answerSeq := 0 }

/-- Queues, descriptors and counters of the control plane (R343-R381). -/
structure Ctrl where
  queues   : Map Queue
  runs     : List Run
  /-- THROUGHPUT queue served last (R366) -/
  rr       : Nat
  mbx      : Map Mailbox
  ready    : Bool
  resetGen : Word32
  admitted : Word64
  delayed  : Word64
  refused  : Word64
  timeouts : Word64
  late     : Word64
  messages : Word64
  overruns : Word64
  ignored  : Word64
  progs    : Map Progress
  nextSeq  : Nat
  deriving DecidableEq, Repr

def Ctrl.reset : Ctrl :=
  { queues := [], runs := [], rr := 0, mbx := [], ready := false, resetGen := 0, admitted := 0, delayed := 0, refused := 0,
    timeouts := 0, late := 0, messages := 0, overruns := 0, ignored := 0, progs := [], nextSeq := 1 }

/-! ### Tables, epochs, updates, migration (03, 04) -/

/-- A table of the table store (R75-R77, R105-R110). `live` lists the live lookup epochs, oldest first. -/
structure Table where
  w       : List Word64
  retired : Bool
  lookEp  : Nat
  updEp   : Nat
  live    : List Nat
  /-- epochs of updates whose pre-image was not kept (R110) -/
  loss    : List Nat
  heat    : Option Nat
  lastStep : Nat
  /-- contributing devices added by DETERM_PEERS -/
  peers   : List Nat
  deriving DecidableEq, Repr

/-- A pre-image in the Crema store (R109): the row's stamp when copied, the stamp of the update that superseded it, the
width class, slot and whether it was poisoned; `borrowed` when it lies in the migration partition (R148). -/
structure PreImage where
  table  : Nat
  row    : Nat
  stamp  : Nat
  newer  : Nat
  wclass : Nat
  slot   : List Byte
  poison : Bool
  units  : Nat
  borrowed : Bool
  deriving DecidableEq, Repr

/-- A guest row map (R144, R145). -/
structure Guest where
  table : Nat
  entry : Nat
  da    : Word64
  seg   : SegRec
  gen   : Nat
  deriving DecidableEq, Repr

/-- A migration record (R140): its descriptor, the entry as it was, the target, updates since step 4. -/
structure Migr where
  desc   : DescId
  table  : Nat
  row    : Nat
  old    : Nat
  dev    : Nat
  wclass : Nat
  pool   : Nat
  slotsz : Nat
  slot   : Nat
  units  : Nat
  changed : Bool
  /-- 0 opened, waiting for Crema space; 1 copied, target slot written or MIGCOPY sent; 2 MIGCOPY acknowledged;
  3 MIGCOMMIT sent; 4 committed -/
  step   : Nat
  /-- the row lock is held, from step 7 to step 9 -/
  locked : Bool
  deriving DecidableEq, Repr

/-- An update held in the step buffer (R133, R134). -/
structure StepUpd where
  src  : Nat
  seq  : Nat
  line : Nat
  upd  : RowUpdate
  deriving DecidableEq, Repr

/-- A step of a DETERM table at its owner: updates, devices whose STEP_END has come, whether every participant's has, and
whether the updates are being applied. -/
structure StepBuf where
  table : Nat
  step  : Nat
  upds  : List StepUpd
  ends  : List Nat
  ready : Bool
  busy  : Bool
  deriving DecidableEq, Repr

/-- A row lock that the row's home holds for an update in memory (R117), with the update and its requester. -/
structure RowLock where
  table : Nat
  row   : Nat
  /-- line of the row's home -/
  line  : Nat
  upd   : RowUpdate
  deriving DecidableEq, Repr

/-- Table store, Crema store, step buffer, heat counters, predictors (R102, R103, R128, R134, R147). -/
structure Tables where
  store   : Map (Option Table)
  pre     : List PreImage
  guests  : List Guest
  /-- device that sent a guest row here, by 2^40 × table + row -/
  guestFrom : Map (Option Nat)
  migr    : List Migr
  steps   : List StepBuf
  /-- locks held for updates in memory -/
  locks   : List RowLock
  /-- shard-load counters at 65536 × table + entry, Grinders' local counts at 2^28 × Grinder + the same -/
  load    : Map Word64
  localLoad : Map Nat
  /-- sketch counters at 65536 × table + 16384 × sketch row + column -/
  sketch  : Map Nat
  /-- counted lookups of each Grinder and table at 4096 × Grinder + table -/
  sampled : Map Nat
  /-- contention predictors at 1024 × unit + counter; units 0-63 Grinders, 64-67 ingress agents -/
  pred    : Map Nat
  rowReqs : Word64
  carHits : Word64
  carMiss : Word64
  preReads : Word64
  lossEvents : Word32
  skipped : Word64
  remote  : Word64
  atHome  : Word64
  inMem   : Word64
  merged  : Word64
  sentUpd : Word64
  forwarded : Word64
  committed : Word64
  cremaWaits : Word32
  incomplete : Word32
  lateSteps : Word64
  gradRej : Word64
  /-- sizes as applied at tier initialisation (R115, R150) -/
  heatSize  : Nat
  cremaSize : Nat
  cremaEpoch : Nat
  stepSize  : Nat
  deriving DecidableEq, Repr

def Tables.reset : Tables :=
  { store := [], pre := [], guests := [], guestFrom := [], migr := [], steps := [], locks := [], load := [], localLoad := [], sketch := [],
    sampled := [], pred := [], rowReqs := 0, carHits := 0, carMiss := 0, preReads := 0, lossEvents := 0, skipped := 0,
    remote := 0, atHome := 0, inMem := 0, merged := 0, sentUpd := 0, forwarded := 0, committed := 0, cremaWaits := 0,
    incomplete := 0, lateSteps := 0, gradRej := 0, heatSize := 1024, cremaSize := 4096, cremaEpoch := 3072,
    stepSize := 1024 }

/-! ### Host link (13) -/

/-- An HDM decoder (R385). -/
structure Decoder where
  base : Nat
  committed : Bool
  notCommitted : Bool
  deriving DecidableEq, Repr

def Decoder.reset : Decoder := { base := 0, committed := false, notCommitted := false }

/-- Host link, bias table and HOME_BIAS registers (R382-R402). `bias` holds the code of each page that differs from the
default applied at tier initialisation, `biasDef`. -/
structure HLink where
  state   : Nat
  width   : Nat
  rate    : Nat
  cacheId : Nat
  biId    : Nat
  retrains : Word32
  losses  : Word32
  toShared : Word64
  toDevice : Word64
  expiries : Word32
  ide     : Nat
  ioIde   : Map Nat
  h2d     : Word64
  d2h     : Word64
  refusals : Word64
  decs    : Map Decoder
  bias    : Map (Option Nat)
  biasDef : Nat
  page    : Nat
  target  : Bool
  count   : Nat
  /-- first page and pages of the command that runs, or ran last -/
  runPage : Nat
  runCount : Nat
  done    : Nat
  reflips : Nat
  rangeErr : Bool
  refused : Bool
  abandoned : Bool
  busy    : Bool
  /-- host requests held for a page in FLIPPING (R391) -/
  heldReqs : List ReqMsg
  gpf     : Nat
  deriving DecidableEq, Repr

def HLink.reset : HLink :=
  { state := 0, width := 0, rate := 0, cacheId := 0, biId := 0, retrains := 0, losses := 0, toShared := 0, toDevice := 0,
    expiries := 0, ide := 0, ioIde := [], h2d := 0, d2h := 0, refusals := 0, decs := [], bias := [], biasDef := 1, page := 0,
    target := false, count := 0, runPage := 0, runCount := 0, done := 0, reflips := 0, rangeErr := false, refused := false, abandoned := false,
    busy := false, heldReqs := [], gpf := 0 }

/-! ### Taruc (14) -/

/-- A flit in a retry buffer: its sequence number, KIND and message words. -/
structure FlitRec where
  fseq  : Nat
  kind  : Nat
  fstart : Nat
  words : List Word64
  deriving DecidableEq, Repr

/-- A message that waits on a link to be sent; for one in transit, the link it came on and the pool whose words its going
returns there (R409, R410). -/
structure OutMsg where
  words : List Word64
  came  : Option (Nat × Nat)
  deriving DecidableEq, Repr

/-- One Taruc link (R403-R413, Table 14.11). -/
structure Link where
  enable  : Bool
  state   : Nat
  dev     : Nat
  plink   : Nat
  depth   : Nat
  dupEv   : Bool
  downEv  : Bool
  retrainEv : Bool
  crcEv   : Bool
  txSeq   : Nat
  rxSeq   : Nat
  nakSent : Bool
  retry   : List FlitRec
  replayed : Nat
  injectCrc : Bool
  /-- IDLE flits of the flit lock in progress (R411) -/
  lock    : Nat
  capxOk  : Bool
  echoes  : Nat
  rttSum  : Nat
  /-- credits held for sending, by pool, and words of this link's allotment granted and not returned -/
  credit  : Map Nat
  owed    : Map Nat
  /-- words of the message being received -/
  part    : List Word64
  /-- messages waiting for credit -/
  outq    : List OutMsg
  /-- egress arbitration (R409): the round robin of REQ, UPD and BULK, the turns since MGMT had one, and the pools that sent
  a message of this device last -/
  turn    : Nat
  mgmtTurn : Nat
  lastOwn : Map Bool
  crcErrors : Word64
  replays : Word64
  retrains : Word32
  txWords : Word64
  rxWords : Word64
  medium  : Nat
  loss    : Nat
  fixedLat : Nat
  rtt     : Nat
  length  : Nat
  caps    : List Word64
  /-- this device's ID as the link took it when it came up (R414) -/
  myId    : Nat
  deriving DecidableEq, Repr

def Link.reset : Link :=
  { enable := true, state := 0, dev := 0, plink := 0, depth := 0, dupEv := false, downEv := false, retrainEv := false,
    crcEv := false, txSeq := 0, rxSeq := 0, nakSent := false, retry := [], replayed := 0, injectCrc := false, lock := 0,
    capxOk := false, echoes := 0, rttSum := 0, credit := [], owed := [], part := [], outq := [], turn := 0, mgmtTurn := 0, lastOwn := [], crcErrors := 0, replays := 0,
    retrains := 0, txWords := 0, rxWords := 0, medium := 0, loss := 0, fixedLat := 0, rtt := 0, length := 0, caps := [],
    myId := 0 }

/-- What an outstanding Taruc transaction of this device is for. -/
inductive TxUse
  | row (desc : DescId) (pos : Nat)
  | upd (desc : DescId) (pos : Nat) (row : Nat)
  | stepEnd (desc : DescId)
  | stepUpd (table step : Nat)
  | read (desc : DescId) (off dst len : Nat)
  | write (desc : DescId) (off len : Nat)
  | fill (core scratch : Nat) (da : Word64)
  | dump (core : Nat) (da : Word64)
  | migr (table row : Nat)
  deriving DecidableEq, Repr

/-- An outstanding transaction: its use, and the message for a REDIRECT. -/
structure Tx where
  use   : TxUse
  words : List Word64
  deriving DecidableEq, Repr

/-- A BKWR whose writes wait for the host's answers, and the status its ACK will carry (R426). -/
structure PeerAck where
  id     : DescId
  words  : List Word64
  status : Nat
  deriving DecidableEq, Repr

/-- The fabric (R403-R430): links, messages received and not yet served, outstanding transactions, LOOKUPs held for an
epoch (R112) or behind a pending guest entry (R142), the MGMT queue. -/
structure Taruc where
  links   : Map Link
  inbox   : List TMsg
  txs     : Map (Option Tx)
  nextTx  : Nat
  held    : List TMsg
  waiting : List TMsg
  pings   : Nat
  id      : Nat
  transit : Word64
  ttlDrops : Word64
  unreach : Word64
  redirects : Word64
  late    : Word64
  malformed : Word64
  mgmtDrops : Word64
  /-- relay buffer of each quarter (R422) -/
  relay   : Map (List (List Word64))
  /-- BKWRs whose writes the host has not answered -/
  acks    : List PeerAck
  deriving DecidableEq, Repr

def Taruc.reset : Taruc :=
  { links := [], inbox := [], txs := [], nextTx := 0, held := [], waiting := [], pings := 0, id := 0,
    transit := 0, ttlDrops := 0, unreach := 0, redirects := 0, late := 0, malformed := 0, mgmtDrops := 0, relay := [], acks := [] }

/-! ### Outputs -/

/-- D2H requests of Table 8.10. -/
inductive D2H | rdShared | rdOwn | rdCurr | itoMWr | woWrInv | dirtyEvict | cleanEvict | cleanEvictNoData
  deriving DecidableEq, Repr

/-- What leaves the block: MSI-X messages, VREQ frames, CXL messages, Taruc flits and messages, frames of the field
network, dictionary responses. The newest is first. -/
inductive Out
  | msix (vec : Nat) (addr : Word64) (data : Word32)
  | vreq (addr level check : BitVec 6)
  | bisnp (kind : SnpKind) (line : Nat) (smask : BitVec 4) (blk : Bool)
  | d2h (op : D2H) (line sec : Nat) (data : Sector) (mask : Word64) (poison : Bool)
  | memData (tag : Nat) (mval : MetaValue) (data : Sector) (poison : Bool)
  | memCmp (tag : Nat) (mval : MetaValue)
  | snpRsp (op : Nat) (line sec : Nat) (data : Sector) (poison : Bool)
  | biConflictAck (line : Nat)
  /-- BISnpInv in Blk form for every line of a SHARED page whose home and directory set these are (R477) -/
  | bisnpSet (home set : Nat)
  | flit (link : Nat) (words : List Word64)
  | dict (via : Transport) (bytes : List Byte)
  | neighbour (target : BitVec 128)
  | echo (dst : BitVec 128) (bytes : List Byte)
  | dadProbe
  | doe (bytes : List Byte)
  | link (cxl : Bool) (n state : Nat)
  deriving DecidableEq, Repr

/-- An entry of the MSI-X table (R379). -/
structure MsixEntry where
  addr   : Word64
  data   : Word32
  masked : Bool
  deriving DecidableEq, Repr

def MsixEntry.reset : MsixEntry := { addr := 0, data := 0, masked := true }

/-! ### The whole block -/

/-- Everything of the block but the queue of waiting commands. -/
structure Dev where
  fresh    : Nat
  out      : List Out
  net      : List Msg
  quarters : Map Quarter
  flt      : Faults
  rst      : Resets
  pins     : Pins
  pwr      : Power
  mg       : Mgmt
  segs     : Segs
  homes    : Map Home
  dir      : Map DirEntry
  caches   : Map Cache
  coh      : CohCounts
  cores    : Map Core
  teams    : Map Team
  cmap     : CoreMap
  mem      : List Host.Cell
  info     : Map SectorMeta
  symErr   : Map Nat
  hostMem  : Map Byte
  ilvDram  : Nat
  ilvRes   : Nat
  msix     : Map MsixEntry
  msixPend : Map Bool
  tier : Tier
  wq : Map (List (Nat × Bool))
  cp : Ctrl
  tb : Tables
  hl : HLink
  tr : Taruc
  regq : List (Nat × Sector × Word64)
  deriving DecidableEq, Repr

/-- Cores enabled at reset: the first 64 of each quarter, no core having failed (notes/assumptions 3). -/
def enabledAtReset : List Nat := (List.range 272).filter fun c => c % 68 < 64

def CoreMap.reset : CoreMap := { failed := [], retired := [], enabled := enabledAtReset, launched := 0, faults := 0 }

def Dev.reset : Dev :=
  { fresh := 0, out := [], net := [], quarters := [], flt := .reset, rst := .reset, pins := .reset, pwr := .reset,
    mg := .reset, segs := .reset, homes := [], dir := [], caches := [], coh := .reset, cores := [], teams := [],
    cmap := .reset, mem := [], info := [], symErr := [], hostMem := [], ilvDram := 0, ilvRes := 0, msix := [],
    msixPend := [],
    tier := .reset,
    wq := [],
    cp := .reset,
    tb := .reset,
    hl := .reset,
    tr := .reset,
    regq := []
    }

/-- The state: the queue of waiting commands, first in, first out, and the block. -/
structure State where
  pending : List Instr
  dev     : Dev
  deriving DecidableEq, Repr

/-- The block right after power-on, with COLD held and no command waiting. -/
def State.reset : State := { pending := [], dev := .reset }

/-- No command ends in a fault: every failure the spec describes is a next state (an error status, an event bit, a
fault message). `unmapped` names an access to an address outside Table 0.7 (R14), which no meaning raises. Safe. -/
inductive Fault
  | unmapped
  deriving DecidableEq, Repr

/-- Why a command has no meaning. -/
inductive Refusal
  /-- raised by Machine/Dispatch.lean alone, for a command without a meaning yet. Safe. -/
  | notModelled (mnemonic : String)
  deriving DecidableEq, Repr

end Sys2Proof.Machine
end

