-- ==== Sys2Proof/Machine/Ops.lean ====
section
/-! DEFINITION. The named operations over the block's state: indexed families, memory, cores' registers, fault
reporting, free values. -/

namespace Sys2Proof.Machine

/-! ### Indexed families and lists -/

/-- Value at index k; `d` is the family's reset value. -/
def Map.get {α : Type} (d : α) : Map α → Nat → α
  | [], _ => d
  | (i, v) :: rest, k => if i = k then v else if k < i then d else Map.get d rest k

/-- Write index k, indexes kept rising. -/
def Map.put {α : Type} : Map α → Nat → α → Map α
  | [], k, v => [(k, v)]
  | (i, w) :: rest, k, v =>
    if i = k then (k, v) :: rest
    else if k < i then (k, v) :: (i, w) :: rest
    else (i, w) :: Map.put rest k v

/-- Apply f to every listed value. -/
def Map.mapVals {α : Type} (f : Nat → α → α) (m : Map α) : Map α := m.map fun p => (p.1, f p.1 p.2)

/-- Add to a 64-bit counter. -/
def bump (n : Word64) : Word64 := n + 1

/-- First element equal to x removed. -/
def eraseFirst {α : Type} [DecidableEq α] (x : α) : List α → List α
  | [] => []
  | y :: ys => if y = x then ys else y :: eraseFirst x ys

/-- x added when absent. -/
def insertNew {α : Type} [DecidableEq α] (x : α) (xs : List α) : List α := if x ∈ xs then xs else xs ++ [x]

/-! ### Tier memory (07_memory_tiers.md), host memory -/

/-- Byte at an address; an unlisted address of the tiers reads as zero (R241; notes/assumptions 7). -/
def Mem.read : List Host.Cell → Nat → Byte
  | [], _ => 0
  | (i, v) :: rest, k => if i = k then v else if k < i then 0 else Mem.read rest k

/-- Write one byte; the canonical form lists no zero byte. -/
def Mem.write : List Host.Cell → Nat → Byte → List Host.Cell
  | [], k, v => if v = 0 then [] else [(k, v)]
  | (i, w) :: rest, k, v =>
    if i = k then (if v = 0 then rest else (k, v) :: rest)
    else if k < i then (if v = 0 then (i, w) :: rest else (k, v) :: (i, w) :: rest)
    else (i, w) :: Mem.write rest k v

/-- The canonical form: addresses strictly rising from at least `lo`, no byte equal to what an unlisted address
reads as. -/
def Mem.wfFrom : Nat → List Host.Cell → Bool
  | _, [] => true
  | lo, (i, v) :: rest => decide (lo ≤ i) && decide (v ≠ 0) && Mem.wfFrom (i + 1) rest

def Memory.wf (m : List Host.Cell) : Bool := Mem.wfFrom 0 m

/-- n bytes from an address, lowest first. -/
def Mem.readBytes (m : List Host.Cell) : Nat → Nat → List Byte
  | _, 0 => []
  | k, n + 1 => Mem.read m k :: Mem.readBytes m (k + 1) n

def Mem.writeBytes (m : List Host.Cell) : Nat → List Byte → List Host.Cell
  | _, [] => m
  | k, b :: bs => Mem.writeBytes (Mem.write m k b) (k + 1) bs

/-- The bytes whose mask bit is set. -/
def Mem.writeMasked (m : List Host.Cell) (base : Nat) (x : Sector) (mask : Word64) : Nat → List Host.Cell
  | 0 => m
  | n + 1 =>
    let m' := Mem.writeMasked m base x mask n
    if mask.getLsbD n then Mem.write m' (base + n) (Sector.byte x n) else m'

/-- Stored data of a tier sector. -/
def Dev.secData (d : Dev) (sector : Nat) : Sector := Sector.ofBytes (Mem.readBytes d.mem (64 * sector) 64)

/-- Stored metadata of a tier sector. -/
def Dev.secInfo (d : Dev) (sector : Nat) : SectorMeta := Map.get .zero d.info sector

/-- Write a whole tier sector with its metadata; a whole write leaves no symbol error. -/
def Dev.putSec (d : Dev) (sector : Nat) (x : Sector) (i : SectorMeta) : Dev :=
  { d with mem := Mem.writeBytes d.mem (64 * sector) (Sector.bytes x), info := Map.put d.info sector i,
           symErr := Map.put d.symErr sector 0 }

/-- Byte of host memory at an HPA: as last read or written through the block, else what the host holds there. -/
def Dev.hostByte (d : Dev) (hpa : Nat) : Byte :=
  match d.hostMem.find? (fun p => p.1 = hpa) with
  | some p => p.2
  | none => Config.hostByte hpa

def Dev.hostSector (d : Dev) (hsec : Nat) : Sector := ofLanes 8 fun i => (d.hostByte (64 * hsec + i)).toNat

/-- Host memory bytes written by the block. -/
def Dev.putHost (d : Dev) (hpa : Nat) : List Byte → Dev
  | [] => d
  | b :: bs => Dev.putHost { d with hostMem := Map.put d.hostMem hpa b } (hpa + 1) bs

/-! ### Free values (notes/assumptions 2) -/

/-- A free 64-bit value; the counter moves on. -/
def Dev.freeWord (d : Dev) : Word64 × Dev := (Config.freeWord d.fresh, { d with fresh := d.fresh + 1 })

def Dev.freeSector (d : Dev) : Sector × Dev := (Config.freeSector d.fresh, { d with fresh := d.fresh + 1 })

/-! ### Parts of the block -/

def Dev.qr (d : Dev) (q : Nat) : Quarter := Map.get .reset d.quarters q
def Dev.setQ (d : Dev) (q : Nat) (x : Quarter) : Dev := { d with quarters := Map.put d.quarters q x }
def Dev.updQ (d : Dev) (q : Nat) (f : Quarter → Quarter) : Dev := d.setQ q (f (d.qr q))
def Dev.core (d : Dev) (c : Nat) : Core := Map.get .reset d.cores c
def Dev.setCore (d : Dev) (c : Nat) (x : Core) : Dev := { d with cores := Map.put d.cores c x }
def Dev.updCore (d : Dev) (c : Nat) (f : Core → Core) : Dev := d.setCore c (f (d.core c))
def Dev.home (d : Dev) (h : Nat) : Home := Map.get (.reset h) d.homes h
def Dev.setHome (d : Dev) (h : Nat) (x : Home) : Dev := { d with homes := Map.put d.homes h x }
def Dev.updHome (d : Dev) (h : Nat) (f : Home → Home) : Dev := d.setHome h (f (d.home h))
/-- Cache number n of Table 9.9: slices 0x000-0x03F, L1 of core a at 0x100 + a. -/
def Dev.cache (d : Dev) (n : Nat) : Cache := Map.get (.reset (if n < 256 then n else n - 256) (256 ≤ n)) d.caches n
def Dev.setCache (d : Dev) (n : Nat) (x : Cache) : Dev := { d with caches := Map.put d.caches n x }
def Dev.updCache (d : Dev) (n : Nat) (f : Cache → Cache) : Dev := d.setCache n (f (d.cache n))

/-- Quarter of a core, home node, Grinder index, link (Table 1.4). -/
def quarterOfCore (c : Nat) : Nat := c / 68
def quarterOfHome (h : Nat) : Nat := h / 16

/-- Put a message on its way. -/
def Dev.send (d : Dev) (m : Msg) : Dev := { d with net := d.net ++ [m] }
/-- Take a delivered message off its way; one from outside the block was not there. -/
def Dev.taken (d : Dev) (m : Msg) : Dev := { d with net := eraseFirst m d.net }
/-- Something leaves the block. -/
def Dev.emit (d : Dev) (o : Out) : Dev := { d with out := o :: d.out }

/-- The answer of a command: the machine goes on with the block's new state; the queue is not touched. -/
def State.goes (s : State) (d : Dev) : Host.Outcome State Fault Refusal := .next { s with dev := d }

/-- A quarter's reference clock is lost: the counts of the four, which never differ by more than one, all stand still, and
with them timeouts, intervals and the calendar (R71, R72; notes/assumptions 147). -/
def Dev.refStopped (d : Dev) : Bool := (List.range 4).any fun q => (d.qr q).refLost

/-- The answer of a command whose time has come by the reference count: nothing while the counts stand still. -/
def State.timed (s : State) (d : Dev) : Host.Outcome State Fault Refusal := s.goes (if s.dev.refStopped then s.dev else d)

end Sys2Proof.Machine

namespace Sys2Proof

/-! ### Fields of a descriptor -/

/-- Type codes of Table 12.6. -/
def tyCopy : Nat := 0
def tyGather : Nat := 1
def tyUpdate : Nat := 2
def tyKernel : Nat := 3
def tyMigrate : Nat := 4
def tyFence : Nat := 5
def tyMaint : Nat := 6
def tyProbe : Nat := 7
def tyEpoch : Nat := 8

/-- Word QN of an image held as words. -/
def qWord (w : List Word64) (n : Nat) : Word64 := w.getD n 0
/-- Bits [lo + n - 1 : lo] of word QN. -/
def qBits (w : List Word64) (q lo n : Nat) : Nat := (qWord w q).toNat / 2 ^ lo % 2 ^ n
def qBit (w : List Word64) (q b : Nat) : Bool := (qWord w q).getLsbD b

end Sys2Proof

namespace Sys2Proof.Machine

def descType (w : List Word64) : Nat := qBits w 0 60 4
/-- MAINT and PROBE operation (Tables 12.8, 12.9). -/
def descOp (w : List Word64) : Nat := qBits w 1 56 8

/-- Table a descriptor names, if it names one. -/
def descTable (w : List Word64) : Option Nat :=
  let ty := descType w
  if ty = tyGather then some (qBits w 5 52 12)
  else if ty = tyUpdate || ty = tyProbe then some (qBits w 4 52 12)
  else if ty = tyMigrate then some (qBits w 2 52 12)
  else if ty = tyEpoch then some (qBits w 1 52 12)
  else if ty = tyMaint then
    match descOp w with
    | 0x02 => some (qBits w 2 52 12)
    | 0x03 => some (qBits w 3 52 12)
    | 0x04 => some (qBits w 2 52 12)
    | 0x05 => some (qBits w 3 52 12)
    | 0x06 => some (qBits w 3 52 12)
    | 0x07 => some (qBits w 3 52 12)
    | _ => none
  else none

end Sys2Proof.Machine
end

