-- ==== Sys2Proof/Machine/Operands.lean ====
section
/-! DEFINITION. Operand forms: the fields of an instruction and their checks (R210, R211), a core's registers and
scratch (R151, R157), the translation of a device address (R332, R333), the home of an address (R215, R249). -/

namespace Sys2Proof

/-! ### Fields (Table 6.11) -/

def Fields.imm20 (f : Fields) : Int := f.mod.toInt
def Fields.imm36 (f : Fields) : Int := (f.b ++ f.c ++ f.fmt ++ f.mod).toInt
def Fields.imm42 (f : Fields) : Int := (f.a ++ f.b ++ f.c ++ f.fmt ++ f.mod).toInt

/-- A register field of a file of n registers; n = 0: unused, so zero (R211). -/
def regOk (x : BitVec 6) (n : Nat) : Bool := if n = 0 then x = 0 else x.toNat < n

/-- Form R: register ranges, whether P may be used, FMT codes allowed (none: zero), MOD bits used (R211). -/
def Fields.legalR (f : Fields) (dn an bn cn : Nat) (pOk : Bool) (fmts : List Nat) (mask : BitVec 20) : Bool :=
  !f.imm && regOk f.d dn && regOk f.a an && regOk f.b bn && regOk f.c cn && (pOk || f.p = 0) &&
  (if fmts.isEmpty then f.fmt = 0 else fmts.contains f.fmt.toNat) && f.mod &&& ~~~mask = 0

/-- Form RI: IMM20 in MOD, B, C and FMT zero. `imm` tells the immediate forms of 0x0.20-38 apart. -/
def Fields.legalRI (f : Fields) (imm : Bool) (dn an : Nat) : Bool :=
  f.imm = imm && regOk f.d dn && regOk f.a an && f.b = 0 && f.c = 0 && f.fmt = 0 && f.p = 0

/-- Form I: D, A and IMM36. -/
def Fields.legalI (f : Fields) (dn an : Nat) (pOk : Bool) : Bool :=
  !f.imm && regOk f.d dn && regOk f.a an && (pOk || f.p = 0)

/-- Form L: D and IMM42. -/
def Fields.legalL (f : Fields) (dn : Nat) : Bool := !f.imm && regOk f.d dn && f.p = 0

end Sys2Proof

namespace Sys2Proof.Machine

/-! ### Registers of a core (R151) -/

def Core.sr (k : Core) (n : Nat) : Word64 := Map.get 0 k.s n
def Core.ar (k : Core) (n : Nat) : Word64 := Map.get 0 k.a n
/-- p0 reads as all ones. -/
def Core.pr (k : Core) (n : Nat) : Word64 := if n = 0 then BitVec.allOnes 64 else Map.get 0 k.p n
def Core.vr (k : Core) (n : Nat) : Sector := Map.get 0 k.v n
def Core.setS (k : Core) (n : Nat) (x : Word64) : Core := { k with s := Map.put k.s n x }
def Core.setA (k : Core) (n : Nat) (x : Word64) : Core := { k with a := Map.put k.a n x }
/-- Writes of p0 are ignored. -/
def Core.setP (k : Core) (n : Nat) (x : Word64) : Core := if n = 0 then k else { k with p := Map.put k.p n x }
def Core.setV (k : Core) (n : Nat) (x : Sector) : Core := { k with v := Map.put k.v n x }
def Core.tileRow (k : Core) (t r : Nat) : Sector := Map.get 0 k.t (64 * t + r)
def Core.setTileRow (k : Core) (t r : Nat) (x : Sector) : Core := { k with t := Map.put k.t (64 * t + r) x }
def Core.accAt (k : Core) (n i j : Nat) : Word32 := Map.get 0 k.accF (4096 * n + 64 * i + j)
def Core.setAcc (k : Core) (n i j : Nat) (x : Word32) : Core := { k with accF := Map.put k.accF (4096 * n + 64 * i + j) x }
def Core.accXAt (k : Core) (n i j : Nat) : Exact := Map.get .zero k.accX (4096 * n + 64 * i + j)
def Core.setAccX (k : Core) (n i j : Nat) (x : Exact) : Core := { k with accX := Map.put k.accX (4096 * n + 64 * i + j) x }

/-- The next code offset. -/
def Core.next (k : Core) : Core := { k with pc := k.pc + 8 }

/-! ### Scratch (R155, R157) -/

def Core.scratchSize (k : Core) : Nat := if k.wide then 262144 else 491520
def Core.scratchByte (k : Core) (o : Nat) : Byte := Map.get 0 k.scratch o
def Core.scratchBytes (k : Core) : Nat → Nat → List Byte
  | _, 0 => []
  | o, n + 1 => k.scratchByte o :: Core.scratchBytes k (o + 1) n
def Core.scratchNat (k : Core) (o n : Nat) : Nat := leNat (k.scratchBytes o n)
def Core.putScratch (k : Core) (o : Nat) : List Byte → Core
  | [] => k
  | b :: bs => Core.putScratch { k with scratch := Map.put k.scratch o b } (o + 1) bs
def Core.scratchSector (k : Core) (o : Nat) : Sector := Sector.ofBytes (k.scratchBytes o 64)

/-! ### Device addresses (R13, R332, R333) -/

inductive Right | read | write | exec | atomic | update
  deriving DecidableEq, Repr

def SegRec.has (r : SegRec) : Right → Bool
  | .read => r.read
  | .write => r.write
  | .exec => r.exec
  | .atomic => r.atomic
  | .update => r.update

/-- Why a translation fails: SEGMENT_LIMIT or ACCESS_DENIED (R333). -/
inductive XlateErr | limit | access
  deriving DecidableEq, Repr

def daSeg (da : Word64) : Nat := (da.extractLsb' 61 3).toNat
def daOff (da : Word64) : Nat := (da.extractLsb' 0 48).toNat

def hostDpa : Nat := 0x80000000000000
def regDpa : Nat := 0xF00000000000
def resDpa : Nat := 0x200000000000

/-- Offset to DPA (R332); for a PEER target the offset within the remote segment. -/
def SegRec.dpa (r : SegRec) (o : Nat) : Nat :=
  if r.target ≤ 1 then
    if r.ilv then
      let lead := r.base % 2 ^ 30
      let p := lead + o
      (r.base - lead) + (p / 2 ^ 30) * 2 ^ 32 + p % 2 ^ 30
    else r.base + o
  else if r.target = 2 then hostDpa + r.base + o
  else if r.target = 4 then regDpa + r.base + o
  else r.base + o

/-- The checks of R333 in order over len bytes (len at least 1), then the DPA of the first byte. -/
def SegRec.translate (r : SegRec) (da : Word64) (len : Nat) (right : Right) : Except XlateErr Nat :=
  if !r.valid || da.extractLsb' 48 13 ≠ 0 then .error .limit
  else if r.limit < daOff da + (len - 1) then .error .limit
  else if !r.has right then .error .access
  else .ok (r.dpa (daOff da))

def SegRec.region (r : SegRec) : RType := if r.rtype = 1 then .stream else if r.rtype = 2 then .device else .normal

/-! ### DPA map and homes (Table 0.7, R214, R215, R249) -/

def isDram (dpa : Nat) : Bool := dpa < 0x6000000000
def isRes (dpa : Nat) : Bool := resDpa ≤ dpa && dpa < 0x380000000000
def isTier (dpa : Nat) : Bool := isDram dpa || isRes dpa
def isReg (dpa : Nat) : Bool := regDpa ≤ dpa && dpa < regDpa + 2 ^ 40
def isHost (dpa : Nat) : Bool := hostDpa ≤ dpa && dpa < hostDpa + 2 ^ 52
def mapped (dpa : Nat) : Bool := isTier dpa || isReg dpa || isHost dpa

/-- Bits [lo + n - 1 : lo] of a number. -/
def field (x lo n : Nat) : Nat := x / 2 ^ lo % 2 ^ n

/-- Whether the DPA's interleave group is LOCAL, as applied at tier initialisation (R214). -/
def Dev.groupLocal (d : Dev) (dpa : Nat) : Bool :=
  if isDram dpa then d.ilvDram.testBit (dpa / 2 ^ 32) else d.ilvRes.testBit ((dpa - resDpa) / 2 ^ 32)

/-- Home node of a DPA (R215 for the tiers, R249 for host memory). -/
def Dev.homeOf (d : Dev) (dpa : Nat) : Nat :=
  if isHost dpa then
    let a := dpa - hostDpa
    field a 8 6 ^^^ field a 14 6 ^^^ field a 20 6 ^^^ field a 26 6 ^^^ field a 32 6 ^^^ field a 38 6 ^^^ field a 44 6 ^^^
      field a 50 2
  else
    let t := if isDram dpa then dpa else dpa - resDpa
    let u := t % 2 ^ 32
    if d.groupLocal dpa then
      16 * field u 30 2 +
        (field u 8 4 ^^^ field u 12 4 ^^^ field u 16 4 ^^^ field u 20 4 ^^^ field u 24 4 ^^^ field u 28 2)
    else field u 8 6 ^^^ field u 14 6 ^^^ field u 20 6 ^^^ field u 26 6

/-- Granule's place in its stack or die (R215): pos_res for the resistive tier, pos_dram for the DRAM tier. -/
def Dev.posOf (d : Dev) (dpa : Nat) : Nat :=
  let u := (if isDram dpa then dpa else dpa - resDpa) % 2 ^ 32
  let r := if d.groupLocal dpa then field u 12 18 else field u 14 18
  if isDram dpa then r * 8 + field u 8 3 else r

/-- Memory controller of a tier DPA: stack 2q + i[3] as 0-7, die 16q + i as 8-71. -/
def Dev.controllerOf (d : Dev) (dpa : Nat) : Nat :=
  let h := d.homeOf dpa
  if isDram dpa then 2 * (h / 16) + (h % 16) / 8 else 8 + h

/-- Source code of the memory-side update unit that serves a controller's stack or die (R462, Table 1.4): of a
stack's four units the first names it (notes/assumptions 21). -/
def controllerSource (k : Nat) : Nat :=
  if k < 8 then 0x300 + 0x10 * (k / 2) + 4 * (k % 2) else 0x308 + 0x10 * ((k - 8) / 16) + (k - 8) % 16 / 2

def dpaLine (dpa : Nat) : Nat := dpa / 256
def lineDpa (line : Nat) : Nat := line * 256
def secDpa (line sec : Nat) : Nat := line * 256 + sec * 64

end Sys2Proof.Machine
end

