-- ==== Sys2Proof/Machine/FaultOps.lean ====
section
/-! DEFINITION. Reporting a fault (R461-R469), the calendar stamp (R456), MSI-X (R379), the boundary outputs
(R487, R488), reset triggers (R474). -/

namespace Sys2Proof

/-- SEV codes of Table 16.1. -/
def Severity.code : Severity → Nat
  | .alert => 0
  | .fatal => 1
  | .critical => 2

end Sys2Proof

namespace Sys2Proof.Machine

/-- A calendar stamp: seconds, with bit 63 set when the calendar is not synced (R456). -/
def Dev.stamp (d : Dev) : Word64 := BitVec.ofBool (!d.mg.synced) ++ d.mg.seconds

/-- Raise MSI-X vector v: sent when its entry is not masked, else pending (R379). -/
def Dev.msixRaise (d : Dev) (v : Nat) : Dev :=
  let e := Map.get .reset d.msix v
  if e.masked then { d with msixPend := Map.put d.msixPend v true } else d.emit (.msix v e.addr e.data)

/-- Quarter whose collector serves a source code (R462, R465); parts that exist once report to Q0. -/
def quarterOfSource (c : Nat) : Nat :=
  if c < 0x110 then c / 68
  else if c < 0x180 then 0
  else if c < 0x1C0 then (c - 0x180) / 16
  else if c < 0x240 then (c - 0x200) / 16
  else if c < 0x264 then (c - 0x240) / 9
  else if c < 0x2A0 then (c - 0x280) / 8
  else if c < 0x2C4 then c - 0x2C0
  else if c < 0x340 then (c - 0x300) / 16
  else if c < 0x3E4 then c - 0x3E0
  else if c < 0x3EC then c - 0x3E8
  else 0

def isCoreCode (c : Nat) : Bool := c < 0x110

def Dev.coll (d : Dev) (q : Nat) : Collector := Map.get .reset d.flt.coll q
def Dev.slot (d : Dev) (c : Nat) : SrcSlot := Map.get .reset d.flt.slots c

/-- A slot holds a message of this severity. -/
def Dev.slotHas (d : Dev) (sv : Severity) : Bool :=
  d.flt.slots.any fun p => match p.2.msg with
    | some m => m.sev = sv
    | none => false

/-- A collector holds this severity's event bit. -/
def Dev.evSet (d : Dev) (sv : Severity) : Bool :=
  (List.range 4).any fun q => match sv with
    | .alert => (d.coll q).alertEv
    | .fatal => (d.coll q).fatalEv
    | .critical => (d.coll q).critEv

/-- Output levels of FAULT_N, ALERT_N and MGMT_IRQ_N by their rules, while they are driven (R468, R469, R488). -/
def Dev.refreshPins (d : Dev) : Dev :=
  if d.pins.driven then
    { d with pins := { d.pins with
        faultN := !(d.flt.pulse || Map.get 0 d.mg.vals 0x801100 = 1)
        alertN := !(d.evSet .alert || d.slotHas .alert)
        mgmtIrqN := !(d.evSet .fatal || d.evSet .critical || d.slotHas .fatal || d.slotHas .critical) } }
  else d

/-- The cause bits of FaultPinCause, and the pulse a change from 0 to 1 starts (R468). -/
def Dev.pinCause (d : Dev) (m : FaultMsg) : Dev :=
  let big := m.sev != .alert
  let marg := m.kind = 0x10
  let rises := (big && !d.flt.pinFault) || (marg && !d.flt.pinMargin)
  { d with flt := { d.flt with
      pinFault := d.flt.pinFault || big
      pinMargin := d.flt.pinMargin || marg
      lastAlert := if marg then m.info.toNat % 256 else d.flt.lastAlert
      pulse := d.flt.pulse || rises } }

/-- The collector's handling of one message (R465): log, count, event bit. -/
def Dev.collect (d : Dev) (m : FaultMsg) : Dev :=
  let q := quarterOfSource m.source
  let k := d.coll q
  let e : FaultEntry := { msg := m, stamp := d.stamp, count := (d.qr q).refCount }
  let first := match m.sev with
    | .alert => false
    | .fatal => !k.fatalEv
    | .critical => !k.critEv
  let k' := { k with
    log := (e :: k.log).take 256
    logCount := k.logCount + 1
    alertEv := k.alertEv || m.sev = .alert
    fatalEv := k.fatalEv || m.sev = .fatal
    critEv := k.critEv || m.sev = .critical }
  let d1 := { d with flt := { d.flt with
      coll := Map.put d.flt.coll q k'
      kindCount := Map.put d.flt.kindCount m.kind (Map.get 0 d.flt.kindCount m.kind + 1) } }
  let d2 := d1.pinCause m
  (if first then d2.msixRaise 0 else d2).refreshPins

/-- The sequence that runs reaches part c: of Table 16.5's EX and CH, by quarter or by name. -/
def ResetSeq.reaches (s : ResetSeq) (c : Nat) : Bool :=
  let ex := isCoreCode c || (decide (0x200 ≤ c) && decide (c < 0x240)) || (decide (0x280 ≤ c) && decide (c < 0x2C4))
  ex && (s.parts.contains c || s.quarters.contains (quarterOfSource c) || (s.all && s.domains.contains .ex))

/-- Parts for which an isolation wrapper acts (R29, R480): isolated parts, and from step 3 the reached parts of EX. An L1
answers for itself until its domain is held (R252, R471; notes/assumptions 34). -/
def Dev.partHeld (d : Dev) (c : Nat) : Bool :=
  d.rst.isolated.contains c ||
  match d.rst.seq with
  | some s => decide ((if isCoreCode c then 7 else 3) ≤ s.step) && s.reaches c
  | none => false

/-- Every home and slice is reached (Table 16.5). -/
def ResetSeq.inCh (s : ResetSeq) : Bool := s.all && s.domains.contains .ch

/-- Cache n of Table 9.9 is reached. -/
def ResetSeq.cache (s : ResetSeq) (n : Nat) : Bool :=
  s.inCh || (if n < 256 then s.quarters.contains (n / 16) else s.quarters.contains ((n - 256) / 68) || s.parts.contains (n - 256))

/-- Cache n is held: all of them are, or the sequence that runs reaches it and is in its hold (R472). -/
def Dev.cacheHeld (d : Dev) (n : Nat) : Bool :=
  d.rst.held.contains .ch ||
  match d.rst.seq with
  | some s => decide (7 ≤ s.step) && s.cache n
  | none => false

/-- Part c takes no new work: it is isolated, or the sequence that runs reaches it (R26, Table 16.7 step 3). -/
def Dev.partClosed (d : Dev) (c : Nat) : Bool :=
  d.rst.isolated.contains c ||
  match d.rst.seq with
  | some s => decide (3 ≤ s.step) && s.reaches c
  | none => false

/-- The register at an offset of the register space belongs to a part that is held: an access is answered with an error
(R26). -/
def Dev.regHeld (d : Dev) (off : Nat) : Bool :=
  let within (a b : Nat) : Bool := decide (a ≤ off) && decide (off < b)
  let dom (x : Domain) : Bool := d.rst.held.contains x
  (within 0x40 0x48 && dom .mem) || (within 0x200000 0x202000 && dom .ch) ||
  (within 0x210000 0x211000 && d.cacheHeld ((off - 0x210000) / 64)) ||
  (within 0x220000 0x224400 && d.cacheHeld (256 + (off - 0x220000) / 64)) ||
  ((within 0x400000 0x502000 || within 0x1000000 0x1110000 || within 0x2000000 0x3000000) && dom .cp) ||
  (within 0x600000 0x600900 && dom .tl) || (within 0x3000000 0x3008100 && dom .hl)

/-- A register of a sector belongs to a held part. -/
def Dev.regSecHeld (d : Dev) (off : Nat) : Bool := (List.range 8).any fun i => d.regHeld (off / 64 * 64 + 8 * i)

/-- From step 3 of a reset that reaches every home until release, host requests are served as though MetaValue were I
(Table 16.7). -/
def Dev.hostAsI (d : Dev) : Bool :=
  match d.rst.seq with
  | some s => decide (3 ≤ s.step) && s.all && s.domains.contains .ch
  | none => false

/-- The block is out of ACTIVE, or on its way. -/
def Dev.lowPower (d : Dev) : Bool := d.pwr.state ≠ 0 || d.pwr.busy

/-- A wake source (R513): the exit starts, or follows the entry's current step (R516). -/
def Dev.wakeBy (d : Dev) (src : Nat) : Dev :=
  if d.pwr.busy then
    if d.pwr.exiting || d.pwr.wake.isSome then d else { d with pwr := { d.pwr with wake := some src } }
  else if d.pwr.state = 0 then d
  else { d with pwr := { d.pwr with
    busy := true, exiting := true, step := 1, target := 0, wakeEv := true, wakeSrc := src, exitStart := (d.qr 0).refCount } }

/-- A part raises a fault (R465-R467). In collected mode the slot is free again once the collector has handled the
message, which is within this step; with the management plane held the message of source 0x3F1 waits in its slot. -/
def Dev.faultRaw (d : Dev) (m : FaultMsg) : Dev :=
  if d.rst.held.contains .mg || d.flt.distributed then
    let sl := d.slot m.source
    match sl.msg with
    | some _ =>
      if d.flt.distributed then { d with flt := { d.flt with slots := Map.put d.flt.slots m.source { sl with overrun := true } } }
      else d
    | none =>
      let d1 := { d with flt := { d.flt with slots := Map.put d.flt.slots m.source { sl with msg := some m } } }
      if d.rst.held.contains .mg then d1
      else
        let d2 := d1.pinCause m
        (if m.sev != .alert then d2.msixRaise 0 else d2).refreshPins
  else
    match (d.slot m.source).msg with
    | some _ =>
      let q := quarterOfSource m.source
      { d with flt := { d.flt with coll := Map.put d.flt.coll q { d.coll q with overrun := true } } }
    | none => d.collect m

/-- The source of a fault is under reset: a part behind its wrapper, or a part of a domain that is held (Table 16.4). -/
def Dev.sourceHeld (d : Dev) (c : Nat) : Bool :=
  let within (a b : Nat) : Bool := decide (a ≤ c) && decide (c < b)
  d.partHeld c || (within 0x180 0x1C0 && d.rst.held.contains .ch) || (within 0x240 0x264 && d.rst.held.contains .tl) ||
    (within 0x300 0x340 && d.rst.held.contains .mem) || (within 0x3E0 0x3E4 && d.rst.held.contains .cp) ||
    (c = 0x3F0 && d.rst.held.contains .hl)

/-- A fault that a part raises; of a part under reset it is reported as an isolation event (R29). -/
def Dev.fault (d : Dev) (m : FaultMsg) : Dev :=
  d.faultRaw (if d.sourceHeld m.source then { m with kind := 0x05, info := BitVec.ofNat 32 m.kind, addrValid := false } else m)

/-- A fault without an address. -/
def mkFault (source : Nat) (sev : Severity) (kind info : Nat) : FaultMsg :=
  { source := source, sev := sev, kind := kind, addrValid := false, info := BitVec.ofNat 32 info, dpa := 0 }

def mkFaultAt (source : Nat) (sev : Severity) (kind info dpa : Nat) : FaultMsg :=
  { source := source, sev := sev, kind := kind, addrValid := true, info := BitVec.ofNat 32 info, dpa := BitVec.ofNat 56 dpa }

/-- Margin alert of quarter q with its cause in INFO (Table 16.3). -/
def Dev.marginAlert (d : Dev) (q cause : Nat) : Dev := d.fault (mkFault (0x3E8 + q) .alert 0x10 cause)

/-- A reset trigger reaches the reset controller; RESET_SEQUENCE takes it (R474). -/
def Dev.trigger (d : Dev) (t : Trigger) : Dev := { d with rst := { d.rst with waiting := d.rst.waiting ++ [t] } }

/-- A critical fault line: the message, and the CRIT trigger on its own line (R467, R477). -/
def Dev.crit (d : Dev) (origin : CritOrigin) (source kind info : Nat) : Dev :=
  (d.fault (mkFault source .critical kind info)).trigger { source := .crit, origin := origin, subject := source, info := info }

/-- KiB used by n records of a store of 4 MiB (R30). -/
def nvStoreKib (n : Nat) : Nat := Nat.min 4096 (Config.nvKib n)
/-- A store is 75 % full (R435). -/
def nvFull (n : Nat) : Bool := decide (3072 ≤ nvStoreKib n)
/-- Kind of a record of quarter q's repair maps, which its own store holds (R30). -/
def nvRepair (q : Nat) : Nat := 16 + q
/-- Stores that take a record: both copies of a persisted value (R435), or the one of its quarter. -/
def nvStores (kind : Nat) : List Nat := if kind < 16 then [0, 2] else [kind - 16]

/-- An NV record written; a store that is then 75 % full compacts itself (R435). -/
def Dev.nvWrite (d : Dev) (kind : Nat) : Dev :=
  (nvStores kind).foldl (fun (e : Dev) q =>
    let n := Map.get 0 e.mg.nvUsed q + 1
    { e with mg := { e.mg with
        nvRecords := e.mg.nvRecords + 1, nvUsed := Map.put e.mg.nvUsed q (if nvFull n then 0 else n)
        nvCompactions := if nvFull n then e.mg.nvCompactions + 1 else e.mg.nvCompactions } }) d

/-- An NV record starts a pulse when the interlock permits one and none runs, else it waits (R483). A value whose record
waits is in force, and taken as written after a power loss meanwhile (notes/assumptions 141). -/
def Dev.nvRecord (d : Dev) (kind : Nat) : Dev :=
  if d.pins.bkGood && !d.rst.nvPulse then { d.nvWrite kind with rst := { d.rst with nvPulse := true } }
  else { d with rst := { d.rst with nvWaiting := d.rst.nvWaiting ++ [kind] } }

/-- An entry of the life log (R458), persisted; the ring keeps the newest 512. -/
def Dev.lifeLog (d : Dev) (kind subject : Nat) (value : Word64) : Dev :=
  let e : LifeEntry := { kind := kind, subject := subject, stamp := d.stamp, value := value }
  let d1 : Dev := { d with mg := { d.mg with life := (e :: d.mg.life).take 512, lifeCount := d.mg.lifeCount + 1 } }
  d1.nvRecord 2

/-- An event bit of TIER_STATUS: vector 0 when it changes from 0 to 1 (R245, R379). -/
def Dev.tierEvent (d : Dev) (was : Bool) (f : Tier → Tier) : Dev :=
  let d1 := { d with tier := f d.tier }
  if was then d1 else d1.msixRaise 0

/-- Value of a dictionary setting, with its default (R431-R434). The key is 256 × index + sub-index. -/
def Dev.od (d : Dev) (key dflt : Nat) : Nat := Map.get dflt d.mg.vals key

/-! Settings used by the meanings, with the defaults of their tables. -/

def Dev.marginTarget (d : Dev) : Nat := d.od 0x204001 1150
def Dev.alertLevel (d : Dev) : Nat := d.od 0x204002 1080
def Dev.driftLimit (d : Dev) : Nat := d.od 0x204003 100
def Dev.replanInterval (d : Dev) : Nat := d.od 0x204004 86400
def Dev.powerLimit (d : Dev) : Nat := d.od 0x204007 350
def Dev.staggerCores (d : Dev) : Nat := d.od 0x204101 8
def Dev.planRate (d : Dev) (q : Nat) : Nat := d.od (0x204201 + q) 1200
def Dev.vcoreMin (d : Dev) (q : Nat) : Nat := d.od (0x204205 + q) 680
def Dev.admitWindow (d : Dev) : Nat := d.od 0x209001 4096
def Dev.admitWindowMin (d : Dev) : Nat := d.od 0x209004 64

end Sys2Proof.Machine
end

