-- ==== Sys2Proof/Machine/Clock.lean ====
section
/-! DEFINITION. What passes with one count of the reference clock (R71, R72, R456; notes/assumptions 8): the four
reference counts and the calendar's fraction. Everything else that time brings is a command of its own. -/

namespace Sys2Proof.Machine

def Quarter.tick (q : Quarter) : Quarter := { q with refCount := q.refCount + 1 }

/-- One reference count. The four counts move together (R71), and stand still while a quarter's clock is lost (R72). The
fraction stays at its last value until CALENDAR_ADVANCE takes the second. Nothing counts while the block holds COLD. -/
def Dev.tick (d : Dev) : Dev :=
  if d.rst.startStep = 0 || d.refStopped then d
  else
    let qs := (List.range 4).foldl (fun m i => Map.put m i (Quarter.tick (Map.get .reset m i))) d.quarters
    let fr := if 99999999 ≤ d.mg.fraction then d.mg.fraction else d.mg.fraction + 1
    -- steps 1 to 3 of Table 7.6 have no command of their own (notes/assumptions 153)
    let step := if d.rst.held.contains .mem then d.tier.initStep else Nat.max d.tier.initStep (Nat.min 3 (d.tier.initStep + 1))
    { d with quarters := qs, mg := { d.mg with fraction := fr }, tier := { d.tier with initStep := step } }

end Sys2Proof.Machine
end

