-- ==== Sys2Proof/Machine/CoreOps.lean ====
section
/-! DEFINITION. Issue at a Nytrix core: the checks every instruction passes, stalls on decoupled units (R152), precise
exceptions and the team stop (R171-R174). -/

namespace Sys2Proof.Machine

/-! Completion STATUS codes (Table 12.13). -/

def stOk : Nat := 0x00
def stPartial : Nat := 0x01
def stPoisoned : Nat := 0x02
def stSnapshot : Nat := 0x03
def stInProgress : Nat := 0x0F
def stRefusedBusy : Nat := 0x10
def stTimeout : Nat := 0x11
def stAborted : Nat := 0x12
def stFormat : Nat := 0x20
def stLimit : Nat := 0x21
def stDenied : Nat := 0x22
def stTableInvalid : Nat := 0x23
def stTableBusy : Nat := 0x24
def stShardMap : Nat := 0x25
def stImage : Nat := 0x26
def stVisMode : Nat := 0x27
def stEpoch : Nat := 0x28
def stNoSpace : Nat := 0x29
def stCacheEnabled : Nat := 0x2A
def stRevoked : Nat := 0x30
def stTag : Nat := 0x31
def stTier : Nat := 0x32
def stIndexRange : Nat := 0x33
def stRowMissing : Nat := 0x34
def stMismatch : Nat := 0x35
def stGradient : Nat := 0x36
def stStepClosed : Nat := 0x37
def stKernelFault : Nat := 0x38
def stHostError : Nat := 0x39
def stIsolated : Nat := 0x3A
def stPeerError : Nat := 0x3B
def stMarginSuspect : Nat := 0x3C
def stCoresUnavail : Nat := 0x3D

/-! ### Registers that decoupled instructions have not finished with (R152) -/

/-- Vector registers holding the MX scales of a tile instruction (R198). -/
def Queued.scaleRegs (x : Queued) : List Nat :=
  let n := if x.f.fmt = 8 then 4 else if x.f.fmt = 5 || x.f.fmt = 6 then 2 else 0
  match x.op with
  | .tmma | .tl2 | .tl1 | .tmins | .tmaxs =>
    (List.range n).map (x.f.c.toNat + ·) ++ (List.range n).map (x.f.mod.toNat % 64 + ·)
  | _ => []

/-- Scalar register a queued instruction will write: the entry count of TKOUT. -/
def Queued.sWrite (x : Queued) : List Nat := if x.op = .tkout then [x.f.d.toNat] else []

/-- Accumulators a queued instruction writes. -/
def Queued.accWrite (x : Queued) : List Nat :=
  match x.op with
  | .tmma | .tl2 | .tl1 | .tham | .tmins | .tmaxs | .acczero | .accld | .accrestore | .accmrg => [x.f.d.toNat]
  | _ => []

/-- Accumulators a queued instruction reads or writes. -/
def Queued.accUse (x : Queued) : List Nat :=
  match x.op with
  | .accst | .accsave | .tkpush => [x.f.a.toNat]
  | _ => x.accWrite

def Core.stallS (k : Core) (rs : List Nat) : Bool := k.topQ.any fun x => x.sWrite.any rs.contains
def Core.stallV (k : Core) (ws : List Nat) : Bool := k.tileQ.any fun x => x.scaleRegs.any ws.contains

/-! ### Stops (R171, R172) -/

/-- Queue numbers under which the descriptors of mailboxes and GSUBs stand. -/
def mbxQueue (m : Nat) : Nat := 16384 + m
def gsubQueue (c : Nat) : Nat := 20480 + c


/-! ### Tables and their epochs (R105-R110) -/

def Dev.table (d : Dev) (t : Nat) : Option Table := Map.get none d.tb.store t
def Dev.setTable (d : Dev) (t : Nat) (x : Option Table) : Dev := { d with tb := { d.tb with store := Map.put d.tb.store t x } }

/-- a is earlier than b along the cycle of 65,535 (R106). -/
def earlier (a b : Nat) : Bool :=
  let k := (b + 65535 - a % 65535) % 65535
  1 ≤ k && k ≤ 32767

def epochNext (e : Nat) : Nat := if e = 0xFFFF then 1 else e + 1

/-- Stamps in use: those of live lookup epochs and of the current update epoch. -/
def Table.inUse (t : Table) (s : Nat) : Bool := s ≠ 0 && (t.live.contains s || s = t.updEp)

/-- A stored stamp is earlier than live epoch e (R106). -/
def Table.before (t : Table) (s e : Nat) : Bool := !t.inUse s || earlier s e

/-- A GATHER of the table bound to the epoch that has not completed. -/
def Dev.epochBound (d : Dev) (t ep : Nat) : Bool :=
  d.cp.runs.any fun r => descType r.w = tyGather && descTable r.w = some t && r.epoch = ep

/-- Older lookup epochs without a GATHER retire, their pre-images and lost-snapshot marks with them (R108-R110). -/
def Dev.retireEpochs (d : Dev) (t : Nat) : Dev :=
  match d.table t with
  | none => d
  | some x =>
    let live := x.live.filter fun e => e = x.lookEp || d.epochBound t e
    let loss := x.loss.filter fun u => live.contains u || u = x.updEp
    let d1 := d.setTable t (some { x with live := live, loss := loss })
    { d1 with tb := { d1.tb with pre := d1.tb.pre.filter fun p => p.table ≠ t || live.any fun e => e = p.newer || earlier e p.newer } }

/-! ### Ends of a core's work -/

/-- A core stops at an instruction boundary (R172). Its GSUBs are abandoned, and its tile and top-k work, but at a core that
stops for its own exception: there the instructions older than the faulting one go on until they have taken effect (R171).
The store buffer stays to be drained. -/
def Core.halt (k : Core) (own : Bool) : Core :=
  { k with status := .stopped, wait := .none, gsubs := [], tileQ := if own then k.tileQ else [], topQ := if own then k.topQ else [] }

/-- Scratch ranges that a queued instruction writes: offset and length. -/
def Queued.scratchOut (k : Core) (x : Queued) : List (Nat × Nat) :=
  match x.op with
  | .tst => [(x.x.toNat, 4096)]
  | .accsave => [(x.x.toNat, if k.exact then 65536 else 16384)]
  | .accst =>
    let w := 64 * fmtWidth x.f.fmt.toNat / 8
    (List.range 64).map (fun i => (x.x.toNat + x.y.toNat * i, w)) ++
      (if x.f.fmt = 5 || x.f.fmt = 6 || x.f.fmt = 8 then [(x.x.toNat + x.y.toNat * 64, 128)] else [])
  | .tkout => [(x.x.toNat, 16 * k.tkK)]
  | _ => []

/-- n bytes of scratch from o become undefined. -/
def Dev.scratchFree (d : Dev) (c o : Nat) : Nat → Dev
  | 0 => d
  | n + 1 =>
    let (w, d1) := d.freeWord
    Dev.scratchFree (d1.updCore c fun k => k.putScratch o (leBytes 1 w.toNat)) c (o + 1) n

/-- A core's stop: what abandoned work was to write into scratch becomes undefined (R172, R177; notes/assumptions 151), and
an abandoned GSUB's GATHER leaves the block. -/
def Dev.haltCore (d : Dev) (c : Nat) (own : Bool) : Dev :=
  let k := d.core c
  let lost := k.gsubs.map (fun g => (g.output, g.len)) ++ (if own then [] else (k.tileQ ++ k.topQ).flatMap (Queued.scratchOut k))
  let d1 := lost.foldl (fun (e : Dev) (x : Nat × Nat) => e.scratchFree c x.1 x.2) d
  let (mine, rest) := d1.cp.runs.partition fun r => r.id.queue = gsubQueue c
  let d2 := { d1.updCore c (Core.halt · own) with cp := { d1.cp with runs := rest } }
  (mine.filterMap fun r => descTable r.w).foldl (fun e t => e.retireEpochs t) d2

def Dev.team (d : Dev) (t : Nat) : Option Team := (d.teams.find? fun p => p.1 = t).map (·.2)

/-- Descriptor of the kernel that core c runs. -/
def Dev.coreDesc (d : Dev) (c : Nat) : Option DescId :=
  match (d.core c).team with
  | some t => (d.team t).map (·.desc)
  | none => none

/-- cnt numbers of settings kept at admission, plus one (R21): SliceAllocMask, L1PrefetchDepth, CoreHoldOps. -/
def rcAlloc : Nat := 32
def rcDepth : Nat := 33
def rcHold : Nat := 34

/-- A setting for the work of a descriptor: as it stood at the admission, else as it stands (R21). -/
def Dev.keptSetting (d : Dev) (id : Option DescId) (k key dflt : Nat) : Nat :=
  match id.bind fun i => d.cp.runs.find? fun r => r.id = i with
  | some r => match Map.get 0 r.cnt k with
    | 0 => d.od key dflt
    | n + 1 => n
  | none => d.od key dflt

/-- Status of a stopping team that is stopped again: an isolation follows the stop, and MARGIN_SUSPECT goes before ABORTED; else the
first stands (R478, R484). -/
def stopWith (was st : Nat) : Nat :=
  if was = 0 || st = stIsolated || (st = stMarginSuspect && was = stAborted) then st else was

/-- The team of a core stops: every core still running stops at an instruction boundary (R172). -/
def Dev.teamStop (d : Dev) (t status : Nat) : Dev :=
  match d.team t with
  | none => d
  | some tm =>
    let d1 := tm.cores.foldl (fun e c =>
      let k := e.core c
      if k.team = some t && (k.status = .running || k.status = .reserved) then e.haltCore c false else e) d
    { d1 with teams := Map.put d1.teams t { tm with stop := stopWith tm.stop status } }

/-- An exception at the instruction core c would issue next: it has no effect, the core and its team stop (R171-R173). -/
def Dev.raise (d : Dev) (c code : Nat) (da : Word64) : Dev :=
  let k := d.core c
  let d1 := (d.setCore c { k with exc := some { code := code, ioff := k.pc, da := da } }).haltCore c true
  match k.team with
  | none => d1
  | some t =>
    let first : Bool := match d1.team t with
      | some tm => decide (tm.stop = 0)
      | none => false
    let d2 := d1.teamStop t stKernelFault
    if first then { d2 with cmap := { d2.cmap with faults := d2.cmap.faults + 1 } } else d2

/-- Issue of an instruction at core c: nothing while the core does not run or an issued instruction waits for data;
FETCH at or beyond CODE_SIZE; ILLEGAL for an encoding R211 refuses; a stall (no change) while a decoupled instruction
has not finished with a scalar register in `ss` or a vector register written in `vw` (R152, R171, R211). -/
def Dev.issue (d : Dev) (c : Nat) (legal : Bool) (ss vw : List Nat) (run : Dev → Core → Dev) : Dev :=
  let k := d.core c
  if k.status ≠ .running || k.wait ≠ .none then d
  else if k.codeSize ≤ k.pc then d.raise c 0x02 0
  else if !legal then d.raise c 0x01 0
  else if k.stallS ss || k.stallV vw then d
  else run { d with cores := Map.put d.cores c { k with waves := k.waves + 1 } } { k with waves := k.waves + 1 }

/-- An instruction whose whole effect is on the core's registers; the pc moves to the next instruction. -/
def Dev.issueReg (d : Dev) (c : Nat) (legal : Bool) (ss vw : List Nat) (g : Core → Core) : Dev :=
  d.issue c legal ss vw fun e k => e.setCore c (g k).next

end Sys2Proof.Machine
end

