-- ==== Sys2Proof/Machine/CacheOps.lean ====
section
/-! DEFINITION. Lookup, placement and replacement in the caches (R277-R287), the home copy (R248), tier writes with
their metadata (R219, R236-R238), lost sectors (R239). -/

namespace Sys2Proof.Machine

/-! ### Lines and ways -/

def CLine.sector (l : CLine) (s : Nat) : CSector := Map.get .none l.sec s
def CLine.live (l : CLine) : Bool := l.sec.any fun p => p.2.st != .I
def CLine.setSec (l : CLine) (s : Nat) (x : CSector) : CLine := { l with sec := Map.put l.sec s x }

/-- Cache number of core c's L1 (Table 9.9). -/
def l1No (c : Nat) : Nat := 256 + c

/-- Ways and set of a line in cache n (Table 9.1, R281). -/
def Dev.placeOf (d : Dev) (n line : Nat) : Nat × Nat :=
  if n < 256 then (12, field line 0 10 ^^^ field line 10 10 ^^^ field line 20 10)
  else if (d.core (n - 256)).wide then (8, line % 128) else (4, line % 32)

/-- Disabled ways of cache n in its present configuration. -/
def Dev.disabledWays (d : Dev) (n : Nat) : BitVec 12 :=
  if 256 ≤ n && (d.core (n - 256)).wide then (d.cache n).disabledW else (d.cache n).disabled

/-- A cache serves: enabled, with a way left (R289, R300). -/
def Dev.serves (d : Dev) (n : Nat) : Bool :=
  let (w, _) := d.placeOf n 0
  (d.cache n).enable && (List.range w).any fun i => !(d.disabledWays n).getLsbD i

def Dev.wayLine (d : Dev) (n key : Nat) : CLine := Map.get .empty (d.cache n).ways key

/-- Way key holding a line, if a way does. -/
def Dev.findWay (d : Dev) (n line : Nat) : Option Nat :=
  let (w, x) := d.placeOf n line
  ((List.range w).map (16 * x + ·)).find? fun key => (d.wayLine n key).line = line && (d.wayLine n key).live

/-- Sector of a line in the ways of cache n; state I when absent. -/
def Dev.waySec (d : Dev) (n line sec : Nat) : CSector :=
  match d.findWay n line with
  | some key => (d.wayLine n key).sector sec
  | none => .none

def Dev.sideLine (d : Dev) (n line : Nat) : Option CLine := (d.cache n).side.find? fun l => l.line = line

/-- Sector in ways or side buffer. -/
def Dev.cacheSec (d : Dev) (n line sec : Nat) : CSector :=
  let x := d.waySec n line sec
  if x.st != .I then x
  else match d.sideLine n line with
    | some l => l.sector sec
    | none => x

/-- Replace a sector where it stands, in ways or side buffer; an absent sector goes where its line stands. -/
def Dev.cacheSet (d : Dev) (n line sec : Nat) (x : CSector) : Dev :=
  let inSide : Bool := match d.sideLine n line with
    | some l => (l.sector sec).st != .I
    | none => false
  let bySide := d.updCache n fun k =>
    { k with side := (k.side.map fun l => if l.line = line then l.setSec sec x else l).filter CLine.live }
  match d.findWay n line with
  | some key =>
    if ((d.wayLine n key).sector sec).st = .I && inSide then bySide
    else d.updCache n fun k => { k with ways := Map.put k.ways key ((d.wayLine n key).setSec sec x) }
  | none => bySide

def Dev.cacheDrop (d : Dev) (n line sec : Nat) : Dev :=
  if (d.cacheSec n line sec).st = .I then d else d.cacheSet n line sec .none

/-- One step of the register with polynomial x^16 + x^14 + x^13 + x^11 + 1 (R283; notes/assumptions 27). -/
def lfsrNext (r : BitVec 16) : BitVec 16 :=
  let b := r.getLsbD 0 ^^ r.getLsbD 2 ^^ r.getLsbD 3 ^^ r.getLsbD 5
  BitVec.ofBool b ++ r.extractLsb' 1 15

/-! ### Homes' bookkeeping used by placement -/

/-- A transaction stands at the line's home (R260). -/
def Dev.lineBusy (d : Dev) (line : Nat) : Bool :=
  (d.home (d.homeOf (lineDpa line))).txns.any fun p => match p.2 with
    | some t => t.req.line = line
    | none => false

/-- L1 lines with a fill or an eviction pending (R283). -/
def Dev.l1Pending (d : Dev) (c line : Nat) : Bool :=
  let k := d.core c
  (match k.miss with
    | some s => s / 4 = line
    | none => false) || k.evict.any (fun p => p.1 / 4 = line)

/-- Candidate ways of a set: enabled, unlocked, no busy line (R283). -/
def Dev.candidates (d : Dev) (n line : Nat) : List Nat :=
  let (w, x) := d.placeOf n line
  (List.range w).filter fun i =>
    let l := d.wayLine n (16 * x + i)
    !(d.disabledWays n).getLsbD i && !(d.cache n).locked.getLsbD i &&
      !(l.live && (if n < 256 then d.lineBusy l.line else d.l1Pending (n - 256) l.line))

/-- The victim's way key (R283): the lowest candidate without a valid sector, else the candidate the register picks. -/
def Dev.victim (d : Dev) (n line : Nat) : Option Nat :=
  let (_, x) := d.placeOf n line
  let cs := d.candidates n line
  match cs.find? fun i => !(d.wayLine n (16 * x + i)).live with
  | some i => some (16 * x + i)
  | none => (cs[(d.cache n).lfsr.toNat % cs.length]?).map (16 * x + ·)

/-! ### Tier memory -/

/-- Source code of home h (R462). -/
def homeSource (h : Nat) : Nat := 0x180 + h

/-- A block of the resistive tier to be stored in cells enters its die's queue (R226), once; `counts` when its write moves
the region's gap nearer (R230): a demand write or a rewrite of the sweep, no copy of upkeep's. -/
def Dev.queueBlock (d : Dev) (die line : Nat) (counts : Bool) : Dev :=
  { d with wq := Map.put d.wq die (insertNew (line, counts) (Map.get [] d.wq die)) }

/-- A written sector's block enters the queue of its die. -/
def Dev.noteWrite (d : Dev) (sector : Nat) : Dev :=
  if isRes (64 * sector) then
    let die := d.controllerOf (64 * sector) - 8
    d.queueBlock die (sector / 4) true
  else d

/-- Armed injection of a checker for one of these parts, by or through which a write goes (R470): the symbols to invert, and
the block with it disarmed. -/
def Dev.takeInject (d : Dev) (parts : List Nat) (checker : Nat) : Nat × Dev :=
  let w := d.flt.inject
  if w.getLsbD 63 && (w.extractLsb' 60 3).toNat = checker && parts.contains (w.extractLsb' 48 10).toNat then
    ((w.extractLsb' 58 2).toNat, { d with flt := { d.flt with inject := 0 } })
  else (0, d)

/-- An injection armed at the maker of a write to home h's copy of a line: it goes to the slice there. -/
def Dev.aimInject (d : Dev) (by_ h : Nat) : Dev :=
  let w := d.flt.inject
  if w.getLsbD 63 && (w.extractLsb' 60 3).toNat = 1 && (w.extractLsb' 48 10).toNat = by_ then
    { d with flt := { d.flt with inject := (w &&& ~~~(BitVec.ofNat 64 (1023 * 2 ^ 48))) ||| BitVec.ofNat 64 (homeSource h * 2 ^ 48) } }
  else d

/-- A write at a memory controller under a byte mask, made by some part for another (R219, R236-R238): metadata by the rules,
the tag kept. -/
def Dev.memWrite (d : Dev) (by_ : List Nat) (sector : Nat) (x : Sector) (mask : Word64) (poison : Bool) (epoch wclass : Nat) : Dev :=
  let old := d.secInfo sector
  let full := mask = BitVec.allOnes 64
  let (inj, d0) := d.takeInject ([controllerSource (d.controllerOf (64 * sector)), homeSource (d.homeOf (64 * sector))] ++ by_) 0
  let data := if full then x else Sector.merge (d.secData sector) x mask
  let info := { old with epoch := epoch, wclass := wclass, poison := poison || (!full && old.poison) }
  let d1 := d0.putSec sector data info
  { d1 with symErr := Map.put d1.symErr sector inj }.noteWrite sector

/-- A sector poisoned whole: zero data and POISON (R236). -/
def Dev.poisonSec (d : Dev) (sector : Nat) : Dev :=
  (d.putSec sector 0 { d.secInfo sector with epoch := 0, wclass := 0, poison := true }).noteWrite sector

/-- Entry of LostSectorLog, and LOST_SECTOR with vector 0 when the bit rises (R239, R245). -/
def Dev.lostEntry (d : Dev) (dpa cause : Nat) : Dev :=
  let e : LostEntry := { dpa := dpa, time := d.stamp, tag := if isTier dpa then (d.secInfo (dpa / 64)).tag else 0, cause := cause }
  let d1 := { d with tier := { d.tier with
    lostLog := (e :: d.tier.lostLog).take 256, lost := d.tier.lost + 1, lostCold := d.tier.lostCold + 1, lostEv := true } }
  if d.tier.lostEv then d1 else d1.msixRaise 0

/-- A lost sector of a tier (R239): written poisoned, logged, reported. -/
def Dev.loseSector (d : Dev) (sector cause : Nat) : Dev :=
  let dpa := 64 * sector
  ((d.lostEntry dpa cause).poisonSec sector).fault
    (mkFaultAt (controllerSource (d.controllerOf dpa)) .fatal 0x01 cause dpa)

/-! ### The directory (R253-R256) -/

def dirSet (line : Nat) : Nat := field line 6 13
def dirKey (h line way : Nat) : Nat := 65536 * h + 8 * dirSet line + way

def Dev.dirAt (d : Dev) (key : Nat) : DirEntry := Map.get .empty d.dir key
def Dev.dirWay (d : Dev) (line : Nat) : Option Nat :=
  let h := d.homeOf (lineDpa line)
  ((List.range 8).map (dirKey h line ·)).find? fun k => (d.dirAt k).v && (d.dirAt k).line = line

/-- The line's entry; an empty one when it has none. -/
def Dev.dirEntry (d : Dev) (line : Nat) : DirEntry :=
  match d.dirWay line with
  | some k => d.dirAt k
  | none => { DirEntry.empty with line := line }

def DirEntry.sector (e : DirEntry) (s : Nat) : DirSector := Map.get .none e.sec s

/-- An entry still names a copy or a host pointer. -/
def DirEntry.used (e : DirEntry) : Bool := (List.range 4).any fun s => (e.sector s).ds != .I || (e.sector s).hs ≠ 0

/-- BCAST and the pointers clear when no sector is left in S or O (R254). -/
def DirEntry.tidy (e : DirEntry) : DirEntry :=
  if (List.range 4).any fun s => (e.sector s).ds = .S || (e.sector s).ds = .O then e else { e with bcast := false, shr := [] }

/-- Write back the line's entry where it has one; an unused entry is freed, of a busy line when its transaction ends. -/
def Dev.setEntry (d : Dev) (e : DirEntry) : Dev :=
  match d.dirWay e.line with
  | some k => let e' := e.tidy; { d with dir := Map.put d.dir k { e' with v := e'.used || d.lineBusy e.line } }
  | none => d

def Dev.updSector (d : Dev) (line sec : Nat) (f : DirSector → DirSector) : Dev :=
  let e := d.dirEntry line
  d.setEntry { e with sec := Map.put e.sec sec (f (e.sector sec)) }

/-! ### Evictions -/

/-- Message skeleton of a request. -/
def mkReq (kind : ReqKind) (src line : Nat) (smask : BitVec 4) : ReqMsg :=
  { kind := kind, src := src, line := line, smask := smask, bmask := 0, pay := [], ctx := 0, seg := 0, gen := 0, rt := .normal,
    issue := 0, origin := .load, op := .add, off := 0, narrow := false, operand := 0, cmp := 0, mval := .I, tag := 0, upd := none }

def secMask (sec : Nat) : BitVec 4 := BitVec.ofNat 4 (2 ^ sec)

/-- ISSUE: the requester's quarter count ÷ 100 modulo 2^16 (R258). -/
def Dev.issueStamp (d : Dev) (q : Nat) : Word16 := BitVec.ofNat 16 ((d.qr q).refCount.toNat / 100)

/-- A request of core c for a sector, with the segment and generation of the access that needs it (R158, R258). -/
def Dev.coreReq (d : Dev) (c : Nat) (kind : ReqKind) (sector : Nat) (da : Word64) (rt : RType) (f : ReqMsg → ReqMsg) : Dev :=
  let k := d.core c
  d.send (.req (f { mkReq kind c (sector / 4) (secMask (sector % 4)) with
    ctx := k.ctx, seg := daSeg da, gen := Map.get 0 k.gens (daSeg da), rt := rt, issue := d.issueStamp (quarterOfCore c) }))

/-- A core that waits in TBAR on a copy its L1 has lost reads the word again (R169). -/
def Dev.reread (d : Dev) (c sector : Nat) : Dev :=
  match (d.core c).wait with
  | .gen _ dpa da =>
    if dpa / 64 = sector && (d.core c).miss.isNone then
      (d.updCore c fun k => { k with miss := some sector }).coreReq c .rdShared sector da .normal id
    else d
  | _ => d

/-- An L1 gives up one sector (R252, R284): O and M by EVICTDIRTY through the eviction buffer, E by EVICTCLEAN, S
silently. -/
def Dev.l1Release (d : Dev) (c line sec : Nat) (x : CSector) : Dev :=
  let d0 := (d.updCore c fun k => { k with held := Map.put k.held (4 * line + sec) none }).reread c (4 * line + sec)
  match x.st with
  | .O | .M =>
    let d1 := d0.updCore c fun k => { k with evict := k.evict ++ [(4 * line + sec, x)] }
    d1.send (.req { mkReq .evictDirty c line (secMask sec) with
      pay := [{ sec := sec, data := x.data, info := x.info }], issue := d.issueStamp (quarterOfCore c) })
  | .E => d0.send (.req { mkReq .evictClean c line (secMask sec) with issue := d.issueStamp (quarterOfCore c) })
  | _ => d0

def Dev.l1ReleaseLine (d : Dev) (c : Nat) (l : CLine) : Dev :=
  (List.range 4).foldl (fun e s => e.l1Release c l.line s (l.sector s)) d

/-- Write one slice sector back: to memory, or to the host for a host line by DirtyEvict, which gives its grant back
(R284, Table 8.10). The controller takes it ahead of every later access of the home to the sector. -/
def Dev.sliceWriteBack (d : Dev) (line sec : Nat) (x : CSector) : Dev :=
  let dpa := secDpa line sec
  if isHost dpa then
    ((d.putHost (dpa - hostDpa) (Sector.bytes x.data)).updSector line sec fun y => { y with hs := 0 }).emit
      (.d2h .dirtyEvict line sec x.data (BitVec.allOnes 64) x.info.poison)
  else
    let d1 := (d.putSec (dpa / 64) x.data x.info).noteWrite (dpa / 64)
    { d1 with tier := { d1.tier with memWrites := d1.tier.memWrites + 1 } }

/-- A slice gives up a line (R284); with a host line's copy goes its grant (Table 8.10). -/
def Dev.sliceRelease (d : Dev) (l : CLine) : Dev :=
  (List.range 4).foldl (fun e s =>
    let x := l.sector s
    let host := isHost (lineDpa l.line)
    let e1 := if x.st = .M then e.sliceWriteBack l.line s x
      else if x.st = .E && host then e.emit (.d2h .cleanEvict l.line s x.data 0 false)
      else e
    if host && x.st != .I then e1.updSector l.line s fun y => { y with hs := 0 } else e1) d

/-- Make room in cache n for a line: the victim's line is released and the way emptied; none when the set has no
candidate (R283). -/
def Dev.allocWay (d : Dev) (n line : Nat) : Option Nat × Dev :=
  match d.victim n line with
  | none => (none, d)
  | some key =>
    let l := d.wayLine n key
    let d1 := if l.live then (if n < 256 then d.sliceRelease l else d.l1ReleaseLine (n - 256) l) else d
    (some key, d1.updCache n fun k => { k with lfsr := lfsrNext k.lfsr, ways := Map.put k.ways key .empty })

/-- Put a sector into cache n, in its line's way or a new one; absent when the set has no candidate. -/
def Dev.cacheFill (d : Dev) (n line sec : Nat) (x : CSector) : Dev :=
  match d.findWay n line with
  | some key => d.updCache n fun k => { k with ways := Map.put k.ways key ((d.wayLine n key).setSec sec x) }
  | none =>
    match d.allocWay n line with
    | (some key, e) => e.updCache n fun k => { k with ways := Map.put k.ways key ({ line := line, sec := [(sec, x)] } : CLine) }
    | (none, e) => e

/-- A side-buffer line moves into the ways (R286, R287); it stays where its set has no candidate. -/
def Dev.sidePull (d : Dev) (n line : Nat) : Dev :=
  match d.sideLine n line with
  | none => d
  | some l =>
    let gone (e : Dev) : Dev := e.updCache n fun k => { k with side := k.side.filter fun x => x.line ≠ line }
    let live := l.sec.filter fun p => p.2.st != .I
    match d.findWay n line with
    | some key => gone (d.updCache n fun k => { k with
        ways := Map.put k.ways key (live.foldl (fun (w : CLine) p => w.setSec p.1 p.2) (d.wayLine n key)) })
    | none =>
      match d.allocWay n line with
      | (some key, e) => gone (e.updCache n fun k => { k with ways := Map.put k.ways key l })
      | (none, e) => e

/-- A line enters a side buffer of `size` lines; its oldest leaves when it is full (R286, R287). -/
def Dev.sideFill (d : Dev) (n size line sec : Nat) (x : CSector) : Dev :=
  if (d.sideLine n line).isSome then
    d.updCache n fun k => { k with side := k.side.map fun l => if l.line = line then l.setSec sec x else l }
  else
    let olds := (d.cache n).side
    let d1 := if olds.length < size then d
      else match olds.head? with
        | some l => if n < 256 then d else d.l1ReleaseLine (n - 256) l
        | none => d
    d1.updCache n fun k => { k with side := (if olds.length < size then k.side else k.side.drop 1) ++ [({ line := line, sec := [(sec, x)] } : CLine)] }

/-! ### The home copy (R248) -/

def Dev.sliceNo (d : Dev) (line : Nat) : Nat := d.homeOf (lineDpa line)

/-- Sector in the slice's ways or side buffer. -/
def Dev.sliceSec (d : Dev) (line sec : Nat) : CSector := d.cacheSec (d.sliceNo line) line sec

/-- Spares of a region, and fewer than 10 % of them free (R233). -/
def regionSpares : Nat := 8192
def sparesLowAt (used : Nat) : Bool := (regionSpares - used) * 10 < regionSpares
def Die.sparesLow (x : Die) : Bool := x.spares.any fun p => sparesLowAt p.2

/-! ### Reading stored sectors (R216, R224, R239) -/

def Dev.stack (d : Dev) (s : Nat) : Stack := Map.get .reset d.tier.drams s
def Dev.setStack (d : Dev) (s : Nat) (x : Stack) : Dev := { d with tier := { d.tier with drams := Map.put d.tier.drams s x } }
def Dev.updStack (d : Dev) (s : Nat) (f : Stack → Stack) : Dev := d.setStack s (f (d.stack s))

/-- Granule of a sector in its stack. -/
def Dev.stackGranule (d : Dev) (sector : Nat) : Nat := 64 * sector / 2 ^ 32 * 2 ^ 21 + d.posOf (64 * sector)

/-- Bin of a refresh group: as tested at first calibration, or 1 once moved there. -/
def Dev.refreshBinOf (d : Dev) (s g : Nat) : Nat := (Map.get none (d.stack s).bins g).getD (Config.refreshBin s g)

/-- A sector with a corrected error is rewritten and counted; in a stack, which counts it too, its refresh group goes to
bin 1 for good (R224, R225, R246). -/
def Dev.correctSec (d : Dev) (sector : Nat) : Dev :=
  let d1 := { d with symErr := Map.put d.symErr sector 0, tier := { d.tier with corrected := d.tier.corrected + 1 } }
  if isDram (64 * sector) then
    let s := d.controllerOf (64 * sector)
    let g := Config.rowGroup s (d.stackGranule sector)
    d1.updStack s fun x => { x with
      corrected := x.corrected + 1, bins := if 1 < d.refreshBinOf s g then Map.put x.bins g (some 1) else x.bins }
  else d1

/-- The L1's copy, or the eviction buffer's, of a core. -/
def Dev.ownerCopy (d : Dev) (c sector : Nat) : Option CSector :=
  let x := d.cacheSec (l1No c) (sector / 4) (sector % 4)
  if x.st != .I then some x else ((d.core c).evict.find? fun p => p.1 = sector && p.2.st != .I).map (·.2)

/-- A modified copy of a sector in the block. -/
def Dev.modified (d : Dev) (sector : Nat) : Option CSector :=
  let s := (d.dirEntry (sector / 4)).sector (sector % 4)
  let own := if s.ds = .E || s.ds = .O then d.ownerCopy s.own sector else none
  let x := d.sliceSec (sector / 4) (sector % 4)
  match own with
  | some y => if y.st = .M || y.st = .O then some y else if x.st = .M then some x else none
  | none => if x.st = .M then some x else none

/-- A sector that cannot be corrected is reported to its home. A modified copy in the block is written over it; one that the
host may hold is called back first, the sector meanwhile staying as it is; else the sector is lost (R239). -/
def Dev.reportBad (d : Dev) (sector cause : Nat) : Dev :=
  match d.modified sector with
  | some y => (d.putSec sector y.data y.info).noteWrite sector
  | none =>
    if ((d.dirEntry (sector / 4)).sector (sector % 4)).hs = 2 then
      { d with symErr := Map.put d.symErr sector 3, tier := { d.tier with suspects := insertNew (sector, cause) d.tier.suspects } }
    else d.loseSector sector cause

/-- A controller's read of a stored sector: one or two symbol errors are corrected and rewritten, three or more reported
(R216, R239). -/
def Dev.memRead (d : Dev) (sector : Nat) : Sector × SectorMeta × Dev :=
  let e := Map.get 0 d.symErr sector
  if e = 0 then (d.secData sector, d.secInfo sector, d)
  else if e ≤ 2 then (d.secData sector, d.secInfo sector, d.correctSec sector)
  else
    let d1 := d.reportBad sector 0
    if Map.get 0 d1.symErr sector = 0 then (d1.secData sector, d1.secInfo sector, d1)
    else (0, { d1.secInfo sector with poison := true }, d1)

/-- Remove a line from the slice's side buffer before a write at the home (R287). -/
def Dev.sideRemove (d : Dev) (line : Nat) : Dev :=
  d.updCache (d.sliceNo line) fun k => { k with side := k.side.filter fun l => l.line ≠ line }

/-- Quarter of cache n, whose repair map its store holds (R30). -/
def quarterOfCache (n : Nat) : Nat := if n < 256 then n / 16 else quarterOfCore (n - 256)

/-- A way that met an error (R299): counted; four in a day, or one uncorrectable, disable it. -/
def Dev.wayError (d : Dev) (n key : Nat) (uncorr : Bool) : Dev :=
  let w := key % 16
  let now := d.mg.seconds.toNat
  let k := d.cache n
  let recent := (now :: Map.get [] k.errs w).filter fun t => now < t + 86400
  let d1 := d.updCache n fun k => { k with errs := Map.put k.errs w recent, uncorr := k.uncorr || uncorr }
  let d2 := if uncorr then d1 else { d1 with coh := { d1.coh with corrected := d1.coh.corrected + 1 } }
  if uncorr || 4 ≤ recent.length then
    let lines := (d2.cache n).ways.filter fun p => p.1 % 16 = w && p.2.live
    let d3 := lines.foldl (fun e p => if n < 256 then e.sliceRelease p.2 else e.l1ReleaseLine (n - 256) p.2) d2
    let wideL1 := 256 ≤ n && (d.core (n - 256)).wide
    let bit : BitVec 12 := BitVec.ofNat 12 (2 ^ w)
    let d4 := d3.updCache n fun k => { k with
      ways := k.ways.filter fun p => p.1 % 16 ≠ w
      locked := k.locked &&& ~~~bit
      disabled := if wideL1 then k.disabled else k.disabled ||| bit
      disabledW := if wideL1 then k.disabledW ||| bit else k.disabledW
      wayEv := true }
    let src := if n < 256 then homeSource n else n - 256
    ((d4.nvRecord (nvRepair (quarterOfCache n))).lifeLog 4 n 0).fault (mkFault src .alert 0x07 (16 * n + w))
  else d2

end Sys2Proof.Machine
end

