-- ==== Sys2Proof/Machine/HomeOps.lean ====
section
/-! DEFINITION. A home node's work on one line (R253-R274): the check of R220, the directory, transactions with the
answers they wait for, and the steps from acceptance to the freed line. -/

namespace Sys2Proof

/-- Source code and agent IDs of Table 1.4. -/
def hostAgent : Nat := 0x3F0
def mgmtAgent : Nat := 0x3F1

def isCore (a : Nat) : Bool := a < 0x110

/-- Slice allocation class bit of a request (Table 9.2); none for requests that never allocate by class: MemInv, which
brings no data, and MemRdFwd, which its origin `dump` tells from MemRd. -/
def ReqMsg.allocBit (m : ReqMsg) : Option Nat :=
  match m.kind with
  | .rdShared | .rdOwn => if m.src = hostAgent then some 3 else some 0
  | .claim => if m.src = hostAgent then none else some 0
  | .rdCurrent =>
    if m.src = hostAgent then (if m.origin = .dump then none else some 3)
    else if isCore m.src then (if m.origin = .fill then some 1 else none)
    else if 0x200 ≤ m.src ∧ m.src < 0x240 then some 2 else some 4
  | _ => none

/-- Requests that need a directory entry to record a copy or host pointer. -/
def ReqKind.tracks : ReqKind → Bool
  | .rdShared | .rdOwn | .claim | .memInvS => true
  | _ => false

/-- A write, for the requests R256 ends. -/
def ReqKind.writes : ReqKind → Bool
  | .wrFull | .wrPart | .evictDirty => true
  | _ => false

/-- Recalls of R255 ask every holder for its data, D = 1. -/
def ReqKind.recalls : ReqKind → Bool
  | .recall | .snpInv => true
  | _ => false

/-- Payload of sector s of a request. -/
def ReqMsg.payOf (m : ReqMsg) (s : Nat) : Payload := (m.pay.find? fun p => p.sec = s).getD { sec := s, data := 0, info := .zero }
def ReqMsg.maskOf (m : ReqMsg) (s : Nat) : Word64 := m.bmask.extractLsb' (64 * s) 64

/-- HS the host keeps after its write, from the MetaValue (Table 8.9). -/
def MetaValue.hs : MetaValue → Nat
  | .I => 0
  | .S => 1
  | .A => 2

end Sys2Proof

namespace Sys2Proof.Machine

def secsOf (m : BitVec 4) : List Nat := (List.range 4).filter m.getLsbD

/-! ### The check of R220 -/

/-- A copy's generation of segment s of context c: copies 0-63 homes, 64-135 controllers, 136-139 link layers. -/
def Dev.copyGen (d : Dev) (copy ctx seg : Nat) : Nat :=
  (Map.get 0 d.segs.copies (32768 * copy + 8 * ctx + seg) + d.segs.genBase) % 16

def Dev.tierReady (d : Dev) (dpa : Nat) : Bool := if isDram dpa then d.tier.hdm0 else if isRes dpa then d.tier.hdm1 else true

/-- Metadata of a sector where it is served: an owner's L1, the slice, or memory (R220, R259). -/
def Dev.servedInfo (d : Dev) (line sec : Nat) : SectorMeta :=
  let x := d.sliceSec line sec
  if x.st != .I then x.info else d.secInfo (4 * line + sec)

/-- The host answers: the link is in L0, or in Recovery on its way back to it (R396, R398). -/
def Dev.hostUp (d : Dev) : Bool := d.hl.state = 2 || d.hl.state = 3

/-- D2H requests have stopped for a global persistent flush (R392). -/
def Dev.d2hStopped (d : Dev) (line : Nat) : Bool := d.hl.gpf ≠ 0 && isHost (lineDpa line)

/-- The checks in order, for one sector of a request: readiness of the tier (R244), a host that
answers (R398), generation, tag. The host,
management and context 0 skip the last two (R221), EVICTDIRTY carries no check (R259); a host line has no tag (R334). An
L1 sends EVICTCLEAN in context 0 (notes/assumptions 140). -/
def Dev.checkSec (d : Dev) (m : ReqMsg) (sec : Nat) : Option ErrStatus :=
  let dpa := secDpa m.line sec
  if isTier dpa && !d.tierReady dpa then some .tierNotReady
  else if isHost dpa && !d.hostUp && m.kind ≠ .evictDirty && m.kind ≠ .evictClean then some .hostError
  else if m.src = hostAgent || m.src = mgmtAgent || m.ctx = 0 || m.kind = .evictDirty then none
  else
    let h := d.homeOf dpa
    let copy := if isHost dpa || (d.sliceSec m.line sec).st != .I then h else 64 + d.controllerOf dpa
    if d.copyGen copy m.ctx m.seg ≠ m.gen then some .revoked
    else if isHost dpa then none
    else if (d.servedInfo m.line sec).tag ≠ m.ctx then some .tagMismatch
    else none

/-- Count a rejection, in its counter and in a running REVOKE of the segment (R220, R336). -/
def Dev.countReject (d : Dev) (ctx seg : Nat) (e : ErrStatus) : Dev :=
  match e with
  | .revoked =>
    let rs := d.segs.revokes.map fun r =>
      if r.ctx = ctx && r.seg = seg && 3 ≤ r.step then { r with rejects := r.rejects + 1 } else r
    { d with tier := { d.tier with genRejects := d.tier.genRejects + 1 }, segs := { d.segs with revokes := rs } }
  | .tagMismatch => { d with tier := { d.tier with tagRejects := d.tier.tagRejects + 1 } }
  | _ => d

/-! ### Sharers and owners as a request sees them (R254, R261) -/

/-- Cores not in `but` that may hold an S copy: by pointer, or none known by name under BCAST. -/
def DirEntry.sharers (e : DirEntry) (but : List Nat) : List Nat := if e.bcast then [] else e.shr.filter (!but.contains ·)

/-- A sharer's pointer; a fifth sets BCAST (R254). -/
def DirEntry.addSharer (e : DirEntry) (c : Nat) : DirEntry :=
  if e.bcast || e.shr.contains c then e else if e.shr.length < 4 then { e with shr := e.shr ++ [c] } else { e with bcast := true }

/-- DS of a sector as a request of agent a sees it: an agent named as owner is served as though it held I (R261). -/
def DirEntry.dsFor (e : DirEntry) (sec a : Nat) : MState :=
  let s := e.sector sec
  if (s.ds = .E || s.ds = .O) && s.own = a then (if s.ds = .O && (e.bcast || !(e.sharers [a]).isEmpty) then .S else .I) else s.ds

/-! ### Transactions -/

def Dev.txn (d : Dev) (h slot : Nat) : Option Txn := Map.get none (d.home h).txns slot
/-- A transaction enters or leaves its slot; when it ends, a directory entry that names nothing goes with it. -/
def Dev.setTxn (d : Dev) (h slot : Nat) (t : Option Txn) : Dev :=
  let d1 := d.updHome h fun x => { x with txns := Map.put x.txns slot t }
  match t, d.txn h slot with
  | none, some o => d1.setEntry (d1.dirEntry o.req.line)
  | _, _ => d1
def Dev.freeSlot (d : Dev) (h : Nat) : Option Nat := (List.range 512).find? fun i => (d.txn h i).isNone
def txidOf (h slot : Nat) : Nat := 1024 * h + slot

def Await.sec : Await → Nat
  | .ack _ s => s
  | .bi s => s
  | .fwd _ s => s
  | .comp s => s
  | .mem s => s
  | .cmp s => s
  | .go s => s

/-- A response message skeleton. -/
def mkRsp (kind : RspKind) (dst txid line sec : Nat) : RspMsg :=
  { kind := kind, dst := dst, txid := txid, line := line, sec := sec, st := .I, data := 0, info := .zero, old := 0, status := .revoked,
    origin := .load }

/-- ERR to a requester (R258); the host's read of a refused sector gets poisoned data, its write its completion
(R244, R256), counted while its tier is not ready (R246). -/
def Dev.sendErr (d : Dev) (m : ReqMsg) (txid : Nat) (e : ErrStatus) : Dev :=
  if m.src = hostAgent then
    match m.kind with
    | .wrFull | .wrPart | .evictDirty =>
      ({ d with tier := { d.tier with earlyHost := if e = .tierNotReady then d.tier.earlyHost + 1 else d.tier.earlyHost } } : Dev).emit
        (.memCmp m.tag .I)
    | .rdShared | .rdOwn | .rdCurrent => d.emit (.memData m.tag .I 0 true)
    | _ => d.emit (.memCmp m.tag .I)
  else (secsOf m.smask).foldl (fun x s => x.send (.rsp { mkRsp .err m.src txid m.line s with status := e, origin := m.origin })) d

/-- An owner under isolation leaves its sector poisoned (R274). -/
def Dev.isoLose (d : Dev) (h c line sec : Nat) : Dev :=
  let d1 := if isTier (lineDpa line) then (d.cacheDrop (d.sliceNo line) line sec).poisonSec (4 * line + sec) else d
  let d2 := (d1.updHome h fun x => { x with isoPoison := true }).updSector line sec fun s => { s with ds := .I, own := 0x3FF }
  { d2 with coh := { d2.coh with isoPois := d2.coh.isoPois + 1 } }.fault (mkFaultAt (homeSource h) .fatal 0x02 c (secDpa line sec))

/-- Snoop of a core, or the wrapper's answer for a core under isolation (R274, R480): the message and what to await. -/
def Dev.snoop (d : Dev) (h slot : Nat) (kind : SnpKind) (c line sec : Nat) (ret owner : Bool) (m : ReqMsg) : List Await × Dev :=
  if d.partHeld c then ([], if owner then d.isoLose h c line sec else d)
  else
    let a := if kind = .inv then Await.ack c sec else Await.fwd c sec
    ([a], d.send (.snp { kind := kind, core := c, txid := txidOf h slot, line := line, sec := sec, ret := ret, req := m.src, ctx := m.ctx, origin := m.origin }))

def Dev.snoops (d : Dev) (h slot : Nat) (cs : List Nat) (line sec : Nat) (ret : Bool) (m : ReqMsg) : List Await × Dev :=
  cs.foldl (fun p c => let (a, e) := p.2.snoop h slot .inv c line sec ret false m; (p.1 ++ a, e)) ([], d)

/-- A broadcast invalidation is sent: HOME_STATUS and its counter (R275, R276). -/
def Dev.noteBcast (d : Dev) (h : Nat) : Dev :=
  { (d.updHome h fun x => { x with bcast := true }) with coh := { d.coh with bcasts := d.coh.bcasts + 1 } }

/-- Invalidation of the S copies but those of `but`: by pointers, or by broadcast to every quarter's fan-out (R254). A
fan-out spares the L1 of its message's requester, who asks for ownership; other requesters' own copies go too. -/
def Dev.invSharers (d : Dev) (h slot : Nat) (e : DirEntry) (sec : Nat) (but : List Nat) (m : ReqMsg) : List Await × Dev :=
  if e.bcast then
    (d.noteBcast h).snoops h slot ((List.range 4).map (0x400 + ·)) e.line sec m.kind.recalls
      (if m.kind = .rdOwn || m.kind = .claim then m else { m with src := mgmtAgent })
  else d.snoops h slot (e.sharers but) e.line sec m.kind.recalls m

/-- Back-invalidate snoop of a line's sectors that the host may hold, in Blk form for more than one (R272); none for no
sector. -/
def Dev.biSnoop (d : Dev) (kind : SnpKind) (line : Nat) (secs : List Nat) : Dev :=
  if secs.isEmpty then d
  else { d with coh := { d.coh with bisnps := d.coh.bisnps + 1 } }.emit
    (.bisnp kind line (secs.foldl (fun m s => m ||| secMask s) 0) (decide (1 < secs.length)))

/-- BISnpData for a read that shares, BISnpCur for one that leaves the host's copy, else BISnpInv (R262). -/
def biKind : ReqKind → SnpKind
  | .rdShared => .fwdShared
  | .rdCurrent => .fwdCurrent
  | _ => .inv

/-- A request to the host for a host line (Table 8.10). -/
def Dev.d2h (d : Dev) (op : D2H) (line sec : Nat) (x : Sector) (mask : Word64) (poison : Bool) : Dev :=
  d.emit (.d2h op line sec x mask poison)

/-- What the acceptance of one sector of a request sends and waits for: before the request is served, and after. -/
structure Plan where
  pre  : List Await
  post : List Await
  fwd  : Bool
  deriving DecidableEq, Repr

def Plan.none : Plan := { pre := [], post := [], fwd := false }

/-- Recall of every L1 copy of a sector: the owner with data return where `ret`, sharers as the request's kind has it
(R255, R262, R266). -/
def Dev.recallSec (d : Dev) (h slot : Nat) (m : ReqMsg) (line sec : Nat) (ret : Bool) : List Await × Dev :=
  let e := d.dirEntry line
  let s := e.sector sec
  let (a1, d1) := if s.ds = .E || s.ds = .O then d.snoop h slot .inv s.own line sec ret true m else ([], d)
  let (a2, d2) := if s.ds = .S || s.ds = .O then d1.invSharers h slot e sec (if s.ds = .O then [s.own] else []) m else ([], d1)
  (a1 ++ a2, d2.updSector line sec fun x => { x with ds := .I, own := 0x3FF })

/-- The home's first action on one sector (Table 8.6 with its rules, Tables 8.9 and 8.10). -/
def Dev.planSec (d : Dev) (h slot : Nat) (m : ReqMsg) (sec : Nat) : Plan × Dev :=
  let line := m.line
  let e := d.dirEntry line
  let s := e.sector sec
  let ds := e.dsFor sec m.src
  let host := isHost (lineDpa line)
  let held := (d.sliceSec line sec).st != .I
  let byHost := m.src = hostAgent
  -- the transaction sends one snoop for all its sectors
  let biPre (hs : Nat) (d : Dev) : List Await × Dev :=
    if !host && s.hs ≠ 0 && !byHost then ([.bi sec], d.updSector line sec fun x => { x with hs := hs })
    else ([], d)
  match m.kind with
  | .rdShared =>
    match ds with
    | .E | .O => let (a, d1) := d.snoop h slot .fwdShared s.own line sec false true m; ({ Plan.none with pre := a, fwd := !a.isEmpty }, d1)
    | _ =>
      if host && !held && s.hs = 0 then ({ Plan.none with pre := [.go sec] }, d.d2h .rdShared line sec 0 0 false)
      else if s.hs = 2 then let (a, d1) := biPre 1 d; ({ Plan.none with pre := a }, d1)
      else (.none, d)
  | .rdOwn | .claim =>
    if m.kind = .claim && ds = .S && (e.sharers []).contains m.src then
      let (a, d1) := d.invSharers h slot e sec [m.src] m
      let (b, d2) := biPre 0 d1
      let (g, d3) := if host && s.hs < 2 then ([Await.go sec], d2.d2h .rdOwn line sec 0 0 false) else ([], d2)
      ({ Plan.none with pre := a ++ b ++ g }, d3)
    else
      match ds with
      | .E => let (a, d1) := d.snoop h slot .fwdOwned s.own line sec false true m; ({ Plan.none with pre := a, fwd := !a.isEmpty }, d1)
      | .O =>
        let (a, d1) := d.snoop h slot .fwdOwned s.own line sec false true m
        let (b, d2) := d1.invSharers h slot e sec [s.own, m.src] m
        let (c, d3) := biPre 0 d2
        ({ Plan.none with pre := a ++ b ++ c, fwd := !a.isEmpty }, d3)
      | _ =>
        let (b, d1) := if ds == MState.S then d.invSharers h slot e sec [m.src] m else ([], d)
        let (c, d2) := biPre 0 d1
        let (g, d3) := if host && s.hs < 2 then ([Await.go sec], d2.d2h .rdOwn line sec 0 0 false) else ([], d2)
        ({ Plan.none with pre := b ++ c ++ g }, d3)
  | .rdCurrent =>
    -- the mover's and the bypassing accesses' own L1 may be the owner: it is asked like any other (R251, R261)
    match s.ds with
    | .E | .O => let (a, d1) := d.snoop h slot .fwdCurrent s.own line sec false true m; ({ Plan.none with pre := a, fwd := !a.isEmpty }, d1)
    | _ =>
      if host && !held then ({ Plan.none with pre := [.go sec] }, d.d2h .rdCurr line sec 0 0 false)
      else if s.hs = 2 then let (a, d1) := biPre 2 d; ({ Plan.none with pre := a }, d1)
      else (.none, d)
  | .wrFull =>
    let (a, d1) := d.recallSec h slot m line sec false
    let (b, d2) := biPre 0 d1
    ({ Plan.none with pre := a, post := b }, d2)
  | .wrPart =>
    let (a, d1) := d.recallSec h slot m line sec true
    let (b, d2) := biPre 0 d1
    ({ Plan.none with pre := a, post := b }, d2)
  | .atomic | .updRow | .recall =>
    let (a, d1) := d.recallSec h slot m line sec true
    let (b, d2) := biPre 0 d1
    let (g, d3) := if host && s.hs < 2 && m.kind = .atomic then ([Await.go sec], d2.d2h .rdOwn line sec 0 0 false) else ([], d2)
    -- only a dirty host copy is waited for (R307, R266): its data is needed
    let wait := s.hs = 2 || m.kind = .recall
    ({ Plan.none with pre := a ++ (if wait then b else []) ++ g, post := if wait then [] else b }, d3)
  | .snpInv =>
    let (a, d1) := d.recallSec h slot m line sec true
    ({ Plan.none with pre := a }, d1)
  | .memInvS =>
    -- the owner alone: S copies stay, and without an owner they share the home copy
    if s.ds = .E || s.ds = .O then
      let (a, d1) := d.snoop h slot .inv s.own line sec true true m
      let ds' : MState := if s.ds = .O && (e.bcast || !(e.sharers [s.own]).isEmpty) then .S else .I
      ({ Plan.none with pre := a }, d1.updSector line sec fun x => { x with ds := ds', own := 0x3FF })
    else (.none, d)
  | .snpData =>
    match s.ds with
    | .O => let (a, d1) := d.snoop h slot .fwdShared s.own line sec false true m; ({ Plan.none with pre := a }, d1)
    | .E => let (a, d1) := d.recallSec h slot m line sec true; ({ Plan.none with pre := a }, d1)
    | _ => (.none, d)
  | .snpCur =>
    match s.ds with
    | .E | .O => let (a, d1) := d.snoop h slot .fwdCurrent s.own line sec false true m; ({ Plan.none with pre := a }, d1)
    | _ => (.none, d)
  | .evictDirty | .evictClean => (.none, d)

/-- Begin the transaction in a slot: every sector's first action. A caching core will owe COMPACK (R263). -/
def Dev.begin (d : Dev) (h slot : Nat) (t : Txn) : Dev :=
  let m := t.req
  let (pre, post, fw, d1) := (secsOf m.smask).foldl (fun acc sec =>
    let (p, e) := acc.2.2.2.planSec h slot m sec
    (acc.1 ++ p.pre, acc.2.1 ++ p.post, if p.fwd then acc.2.2.1 ++ [sec] else acc.2.2.1, e)) ([], [], [], d.setTxn h slot (some t))
  let comps := if isCore m.src && (m.kind = .rdShared || m.kind = .rdOwn || m.kind = .claim) && !d.partHeld m.src
    then (secsOf m.smask).map Await.comp else []
  let t' : Txn := { t with stage := .recall, await := pre, post := post ++ comps, fwded := fw }
  (d1.biSnoop (biKind m.kind) m.line ((secsOf m.smask).filter fun s => (pre ++ post).contains (.bi s))).setTxn h slot (some t')

/-! ### Serving -/

/-- Whether a read that misses the slice allocates there (R282, R289), for the descriptor the request works for. -/
def Dev.allocates (d : Dev) (id : Option DescId) (m : ReqMsg) : Bool :=
  match m.allocBit with
  | some b => m.rt = .normal && (d.keptSetting id rcAlloc 0x207001 0x0F).testBit b && d.serves (d.sliceNo m.line) &&
      !(isHost (lineDpa m.line) && m.kind = .rdCurrent)
  | none => false

/-- Write a sector of the home copy whole: into the slice where present, or where asked to allocate; else to memory.
The metadata given is stored as it is. -/
def Dev.homeStore (d : Dev) (line sec : Nat) (x : Sector) (i : SectorMeta) (alloc : Bool) : Dev :=
  let n := d.sliceNo line
  let d0 := d.sideRemove line
  let (inj, d1) := d0.takeInject [homeSource n] 1
  let cs : CSector := { st := .M, data := x, info := i, err := inj }
  if (d1.waySec n line sec).st != .I then d1.cacheSet n line sec cs
  else if alloc && d1.serves n then
    let e := d1.cacheFill n line sec cs
    if (e.waySec n line sec).st = .I then
      (if isTier (lineDpa line) then (e.putSec (4 * line + sec) x i).noteWrite (4 * line + sec) else e.sliceWriteBack line sec cs)
    else e
  else if isTier (lineDpa line) then (d0.putSec (4 * line + sec) x i).noteWrite (4 * line + sec)
  else d0.sliceWriteBack line sec cs

/-- Data a home serves for a sector from the slice; a code error met there is handled as R299 and Table 8.12 give. -/
def Dev.sliceRead (d : Dev) (line sec : Nat) : Option (Sector × SectorMeta) × Dev :=
  let n := d.sliceNo line
  let x := d.cacheSec n line sec
  if x.st = .I then (none, d)
  else if x.err = 0 then (some (x.data, x.info), d)
  else
    match d.findWay n line with
    | none => (some (x.data, x.info), d.cacheSet n line sec { x with err := 0 })
    | some key =>
      if x.err ≤ 2 then (some (x.data, x.info), (d.cacheSet n line sec { x with err := 0 }).wayError n key false)
      else if x.st = .E then (none, (d.cacheSet n line sec .none).wayError n key true)
      else
        let dpa := secDpa line sec
        let d1 := d.cacheSet n line sec .none
        let d2 := if isTier dpa then d1.loseSector (dpa / 64) 0
          else ((d1.d2h .dirtyEvict line sec 0 (BitVec.allOnes 64) true).lostEntry dpa 0).fault (mkFaultAt (homeSource n) .fatal 0x01 0 dpa)
        let d3 := d2.wayError n key true
        (some (0, { x.info with poison := true }), d3)

/-- Merged sector and poison of a write under a mask: a full write of poisoned data poisons the sector whole, its data zero
(R236-R238). -/
def mergeWrite (old : Sector) (oi : SectorMeta) (x : Sector) (mask : Word64) (poison : Bool) : Sector × SectorMeta :=
  let full := mask = BitVec.allOnes 64
  (if full then (if poison then 0 else x) else Sector.merge old x mask,
    { oi with epoch := 0, wclass := 0, poison := poison || (!full && oi.poison) })

/-- Table 8.7 on a word of w bits. -/
def atomicOp (op : AtomicOp) (w : Nat) (old operand cmp : Nat) : Nat :=
  let o := BitVec.ofNat w old
  let x := BitVec.ofNat w operand
  match op with
  | .add => (o + x).toNat
  | .swap => x.toNat
  | .cas => if o = BitVec.ofNat w cmp then x.toNat else o.toNat
  | .and => (o &&& x).toNat
  | .or => (o ||| x).toNat
  | .xor => (o ^^^ x).toNat
  | .smin => if o.slt x then o.toNat else x.toNat
  | .smax => if o.slt x then x.toNat else o.toNat
  | .umin => if o.ult x then o.toNat else x.toNat
  | .umax => if o.ult x then x.toNat else o.toNat
  | .addsat => if 2 ^ w ≤ o.toNat + x.toNat then 2 ^ w - 1 else o.toNat + x.toNat
  | .barrierArrive =>
    let arr := lowBits 32 o.toNat
    let gen := o.toNat / 2 ^ 32
    if arr + 1 = x.toNat then lowBits 32 (gen + 1) * 2 ^ 32 else gen * 2 ^ 32 + lowBits 32 (arr + 1)

/-- The word of an ATOMIC in a sector: old value, and the sector with the result written (R266). -/
def atomicSector (m : ReqMsg) (x : Sector) : Word64 × Sector :=
  let w := if m.narrow then 32 else 64
  let i := m.off * 8 / w
  let old := Sector.lane x w i
  let new := atomicOp m.op w old m.operand.toNat m.cmp.toNat
  (BitVec.ofNat 64 old, ofLanes w fun j => if j = i then new else Sector.lane x w j)

end Sys2Proof.Machine
end

