-- ==== Sys2Proof/Machine/HomeTxn.lean ====
section
/-! DEFINITION. The course of a home transaction (R260-R263): acceptance, snoops answered, data of the home copy fetched,
the answer to the requester, the freed line and the requests that waited for it. -/

namespace Sys2Proof.Machine

/-- Data of a sector for the transaction: returned to it, or in the slice. -/
def Dev.txnData (d : Dev) (t : Txn) (sec : Nat) : Option (Sector × SectorMeta) × Dev :=
  match t.got.find? fun p => p.sec = sec with
  | some p => (some (p.data, p.info), d)
  | none => d.sliceRead t.req.line sec

/-- The D2H request that reads an absent host line: with a grant where the directory has not the one the request needs,
else RdCurr, which leaves the grant (R262, Table 8.10; notes/assumptions 127). -/
def hostRead (kind : ReqKind) (hs : Nat) : D2H :=
  match kind with
  | .rdShared => if hs = 0 then .rdShared else .rdCurr
  | .rdOwn | .claim | .atomic => if hs < 2 then .rdOwn else .rdCurr
  | _ => .rdCurr

/-- Ask the controller, or the host, for the sectors whose home copy is absent from the slice. -/
def Dev.fetchSecs (d : Dev) (h slot : Nat) (t : Txn) (secs : List Nat) : List Await × Dev :=
  secs.foldl (fun p sec =>
    let (x, e) := p.2.txnData t sec
    match x with
    | some _ => (p.1, { e with coh := { e.coh with hits := e.coh.hits + 1 } })
    | none =>
      let line := t.req.line
      if isHost (lineDpa line) then
        (p.1 ++ [Await.go sec],
          { e with coh := { e.coh with misses := e.coh.misses + 1 } }.d2h (hostRead t.req.kind ((e.dirEntry line).sector sec).hs) line sec 0 0 false)
      else
      (p.1 ++ [Await.mem sec],
        { e with coh := { e.coh with misses := e.coh.misses + 1 } }.send (.mem
          { kind := .rd, txid := txidOf h slot, line := t.req.line, sec := sec, data := 0, info := .zero, req := some { t.req with upd := none },
            old := 0, refused := none }))) ([], d)

/-- A write of one sector at the home (R262, R273, R282): the slice copy where present, else memory or the host. -/
def Dev.writeSec (d : Dev) (h slot : Nat) (m : ReqMsg) (sec : Nat) : List Await × Dev :=
  let line := m.line
  let p := m.payOf sec
  let mask := if m.kind = .wrFull then BitVec.allOnes 64 else m.maskOf sec
  let d0 := d.sideRemove line
  let x := d0.waySec (d0.sliceNo line) line sec
  if isHost (lineDpa line) then
    let d1 := if x.st = .M && mask ≠ BitVec.allOnes 64 then d0.sliceWriteBack line sec x else d0
    let d2 := d1.cacheDrop (d1.sliceNo line) line sec
    let d3 := d2.updSector line sec fun s => { s with hs := 0 }
    let op := if m.kind = .wrFull then D2H.itoMWr else D2H.woWrInv
    ([.go sec], d3.d2h op line sec p.data mask p.info.poison)
  else if x.st != .I then
    let (y, i) := mergeWrite x.data x.info p.data mask p.info.poison
    ([], (d0.aimInject m.src (d0.homeOf (lineDpa line))).homeStore line sec y i false)
  else
    ([.cmp sec], d0.send (.mem
      { kind := .wr, txid := txidOf h slot, line := line, sec := sec, data := p.data, info := p.info,
        req := some { m with bmask := m.bmask }, old := 0, refused := none }))

/-- The sector as a host snoop finds it at the home: returned by an L1, else in the slice. -/
def Dev.snpFound (d : Dev) (t : Txn) (sec : Nat) : CSector :=
  match t.got.find? fun p => p.sec = sec with
  | some p => { st := .M, data := p.data, info := p.info, err := 0 }
  | none => d.cacheSec (d.sliceNo t.req.line) t.req.line sec

/-- The answer to a host snoop (Table 8.10); dirty data goes to the host with it. -/
def Dev.snpAnswer (d : Dev) (t : Txn) (sec : Nat) : Dev :=
  let line := t.req.line
  let n := d.sliceNo line
  let x := d.snpFound t sec
  let s := (d.dirEntry line).sector sec
  match t.req.kind with
  | .snpInv =>
    -- RspIFwdM with dirty data, RspIHitSE, RspIHitI
    let d1 := if x.st = .M then d.emit (.snpRsp 0 line sec x.data x.info.poison)
      else d.emit (.snpRsp (if s.hs ≠ 0 then 1 else 2) line sec 0 false)
    let d2 := if x.st = .M then d1.putHost (secDpa line sec - hostDpa) (Sector.bytes x.data) else d1
    (d2.cacheDrop n line sec).updSector line sec fun y => { y with hs := 0 }
  | .snpData =>
    let d1 := if x.st = .M then
        let e := (d.emit (.snpRsp 3 line sec x.data x.info.poison)).putHost (secDpa line sec - hostDpa) (Sector.bytes x.data)
        if (e.cacheSec n line sec).st = .I then e else e.cacheSet n line sec { x with st := .E }
      else d.emit (.snpRsp 4 line sec 0 false)
    d1.updSector line sec fun y => { y with hs := 1 }
  | _ => if x.st = .M then d.emit (.snpRsp 5 line sec x.data x.info.poison) else d.emit (.snpRsp 6 line sec 0 false)

/-- One read sector goes to its requester, and the directory records the copy (Tables 8.6, 8.9). -/
def Dev.giveSec (d : Dev) (h slot : Nat) (t : Txn) (sec : Nat) : Dev :=
  let m := t.req
  let line := m.line
  let e := d.dirEntry line
  let s := e.sector sec
  let ds := e.dsFor sec m.src
  let host := isHost (lineDpa line)
  if m.kind = .claim && ds = .S && (e.sharers []).contains m.src && m.src ≠ hostAgent then
    (d.updSector line sec fun y => { y with ds := .E, own := m.src }).send
      (.rsp { mkRsp .grant m.src (txidOf h slot) line sec with st := .E, origin := m.origin })
  else
    let (x, d1) := d.txnData t sec
    let (data, info) := x.getD (0, SectorMeta.zero)
    let n := d1.sliceNo line
    let d2 := if (d1.cacheSec n line sec).st = .I then
        (if d1.allocates (d1.coreDesc m.src) m then d1.cacheFill n line sec { st := .E, data := data, info := info, err := 0 } else d1)
      else if (d1.waySec n line sec).st = .I then
        let d1' := { d1 with coh := { d1.coh with sideHits := d1.coh.sideHits + 1 } }
        if d1.allocates (d1.coreDesc m.src) m then d1'.sidePull n line else d1'
      else d1
    let rsp := { mkRsp .data m.src (txidOf h slot) line sec with data := data, info := info, origin := m.origin }
    match m.kind with
    | .rdShared =>
      if m.src = hostAgent then (d2.updSector line sec fun y => { y with hs := 1 }).emit (.memData m.tag .S data (info.poison || t.suspect))
      else
        let excl := (ds == MState.I) && (if host then s.hs = 2 else s.hs = 0)
        if excl then (d2.updSector line sec fun y => { y with ds := .E, own := m.src }).send (.rsp { rsp with st := .E })
        else
          let e2 := (d2.dirEntry line).addSharer m.src
          ((d2.setEntry { e2 with sec := Map.put e2.sec sec { e2.sector sec with ds := .S, own := 0x3FF } })).send (.rsp { rsp with st := .S })
    | .rdOwn | .claim =>
      if m.src = hostAgent then
        let d3 := d2.updSector line sec fun y => { y with ds := .I, own := 0x3FF, hs := 2 }
        if m.kind = .claim then d3.emit (.memCmp m.tag .A) else d3.emit (.memData m.tag .A data (info.poison || t.suspect))
      else (d2.updSector line sec fun y => { y with ds := .E, own := m.src }).send (.rsp { rsp with st := .E })
    | _ =>
      if m.src = hostAgent then d2.emit (.memData m.tag .I data (info.poison || t.suspect)) else d2.send (.rsp rsp)

/-- The atomic at its home or host site, on the sector's current data (R266, R289). -/
def Dev.doAtomic (d : Dev) (h slot : Nat) (t : Txn) (sec : Nat) : Dev :=
  let m := t.req
  let line := m.line
  let (x, d1) := d.txnData t sec
  let (data, info) := x.getD (0, SectorMeta.zero)
  let (old, new) := atomicSector m data
  let i := { info with epoch := 0, wclass := 0 }
  let d2 := if isHost (lineDpa line) && m.rt ≠ .normal then
      ((d1.cacheDrop (d1.sliceNo line) line sec).updSector line sec fun y => { y with hs := 0 }).sliceWriteBack line sec
        { st := .M, data := new, info := i, err := 0 }
    else d1.homeStore line sec new i true
  d2.send (.rsp { mkRsp .atomRsp m.src (txidOf h slot) line sec with old := old, info := info })

/-- Line of mailbox m in the Demitasse window (R372). -/
def mailboxLine (m : Nat) : Nat := (0x5FFFE00000 + 0x1000 * m) / 256

/-- A host write of word 0 of an enabled mailbox triggers the hand-off: the home copies the line as the write leaves it
(R374). -/
def Dev.mailboxTrigger (d : Dev) (q : ReqMsg) : Dev :=
  let m := (q.line - mailboxLine 0) / 16
  if q.src ≠ hostAgent || q.line < mailboxLine 0 || 256 ≤ m || mailboxLine m ≠ q.line || !q.smask.getLsbD 0 then d
  else
    let x := Map.get .reset d.cp.mbx m
    let mask := if q.kind = .wrFull then BitVec.allOnes 64 else q.maskOf 0
    let w := (q.payOf 0).data.extractLsb' 0 64
    let seq := (w.extractLsb' 48 16).toNat
    if !x.enable || mask.extractLsb' 0 8 ≠ 0xFF#8 || seq = 0 || seq = x.lastSeq then d
    else
      let y : Mailbox :=
        if x.pending then { x with overruns := if x.overruns < 65535 then x.overruns + 1 else x.overruns, overEv := true }
        else
          let sec (s : Nat) : Sector := let c := d.sliceSec q.line s; if c.st != .I then c.data else d.secData (4 * q.line + s)
          { x with lastSeq := seq, pending := true
                   copy := Sector.bytes (Sector.merge (sec 0) (q.payOf 0).data mask) ++ Sector.bytes (sec 1) ++ Sector.bytes (sec 2) ++
                     Sector.bytes (sec 3) }
      { d with cp := { d.cp with mbx := Map.put d.cp.mbx m y, overruns := if x.pending then d.cp.overruns + 1 else d.cp.overruns } }

/-- All answers before serving are in: serve the request (R262-R266). -/
def Dev.serve (d : Dev) (h slot : Nat) (t : Txn) : Dev :=
  let m := t.req
  let secs := (secsOf m.smask).filter fun s => !t.fwded.contains s
  match m.kind with
  | .rdShared | .rdOwn | .rdCurrent =>
    let (aw, e) := d.fetchSecs h slot t secs
    e.setTxn h slot (some { t with stage := .fetch, await := aw })
  | .claim =>
    let need := secs.filter fun s =>
      !((d.dirEntry m.line).dsFor s m.src == MState.S && ((d.dirEntry m.line).sharers []).contains m.src) || m.src = hostAgent
    let need' := if m.src = hostAgent then [] else need
    let (aw, e) := d.fetchSecs h slot t need'
    e.setTxn h slot (some { t with stage := .fetch, await := aw })
  | .wrFull | .wrPart =>
    let (aw, e) := secs.foldl (fun (p : List Await × Dev) s => let (a, x) := p.2.writeSec h slot m s; (p.1 ++ a, x))
      ([], d.mailboxTrigger m)
    e.setTxn h slot (some { t with stage := .fetch, await := aw })
  | .atomic =>
    if !isHost (lineDpa m.line) && m.rt ≠ .normal then
      let d1 := secs.foldl (fun (e : Dev) s =>
        let x := e.cacheSec (e.sliceNo m.line) m.line s
        let e1 := if x.st = .M then e.sliceWriteBack m.line s x else e
        (e1.cacheDrop (e1.sliceNo m.line) m.line s).send (.mem
          { kind := .rmw, txid := txidOf h slot, line := m.line, sec := s, data := 0, info := .zero, req := some m, old := 0,
            refused := none })) (d.sideRemove m.line)
      d1.setTxn h slot (some { t with stage := .fetch, await := secs.map Await.cmp })
    else
      let (aw, e) := d.fetchSecs h slot t secs
      e.setTxn h slot (some { t with stage := .fetch, await := aw })
  | _ => d.setTxn h slot (some { t with stage := .fetch, await := [] })

/-- Data and completions are in: answer the requester; the line then stays busy for what is still owed. -/
def Dev.deliver (d : Dev) (h slot : Nat) (t : Txn) : Dev :=
  let m : ReqMsg := t.req
  let secs := (secsOf m.smask).filter fun s => !t.fwded.contains s
  let d1 := match m.kind with
    | .rdShared | .rdOwn | .claim | .rdCurrent => secs.foldl (fun (e : Dev) s => e.giveSec h slot t s) d
    | .wrFull | .wrPart =>
      if (secsOf m.smask).isEmpty then d
      else if m.src = hostAgent then
        (secs.foldl (fun (e : Dev) s => e.updSector m.line s fun y => if m.kind = ReqKind.wrFull then { y with hs := m.mval.hs } else y) d).emit
          (.memCmp m.tag m.mval)
      else d.send (.rsp { mkRsp .cmp m.src (txidOf h slot) m.line ((secsOf m.smask).headD 0) with origin := m.origin })
    | .atomic =>
      if !isHost (lineDpa m.line) && m.rt ≠ RType.normal then d else secs.foldl (fun (e : Dev) s => e.doAtomic h slot t s) d
    | .memInvS =>
      (secs.foldl (fun (e : Dev) s => e.updSector m.line s fun y => { y with hs := 1 }) d).emit (.memCmp m.tag .S)
    | .snpInv | .snpData | .snpCur => secs.foldl (fun (e : Dev) s => e.snpAnswer t s) d
    | .recall =>
      let e := d.dirEntry m.line
      d.setEntry { e with sec := [] }
    | _ => d
  d1.setTxn h slot (some { t with stage := .close, await := t.post, post := [] })

/-! ### Directory entries and acceptance -/

/-- Give a line an entry in a free way of its set. -/
def Dev.newEntry (d : Dev) (line : Nat) : Option Dev :=
  let h := d.homeOf (lineDpa line)
  match ((List.range 8).map (dirKey h line ·)).find? fun k => !(d.dirAt k).v with
  | some k =>
    let (inj, d1) := d.takeInject [homeSource h] 2
    some { d1 with dir := Map.put d1.dir k { DirEntry.empty with v := true, line := line, err := inj } }
  | none => none

/-- Entries of a line's set whose line is not busy: the candidates for a recall (R255). -/
def Dev.idleEntries (d : Dev) (line : Nat) : List Nat :=
  ((List.range 8).map (dirKey (d.homeOf (lineDpa line)) line ·)).filter fun k => (d.dirAt k).v && !d.lineBusy (d.dirAt k).line

/-- A transaction of the line's set waits for an entry that no running recall will free, and one can be recalled. -/
def Dev.recallDue (d : Dev) (line : Nat) : Bool :=
  let h := d.homeOf (lineDpa line)
  let count (f : Txn → Bool) : Nat := ((d.home h).txns.filter fun p => match p.2 with
    | some t => dirSet t.req.line = dirSet line && f t
    | none => false).length
  decide (count (fun t => t.req.kind = .recall) < count (fun t => t.stage = .entry)) && !(d.idleEntries line).isEmpty &&
    (d.freeSlot h).isSome

/-- Recall of a victim entry's line, chosen by the home's register among entries whose line is not busy (R255). -/
def Dev.recallVictim (d : Dev) (line : Nat) : Dev :=
  let h := d.homeOf (lineDpa line)
  let ks := d.idleEntries line
  match ks[(d.home h).lfsr.toNat % ks.length]?, d.freeSlot h with
  | some k, some slot =>
    let m := mkReq .recall mgmtAgent (d.dirAt k).line 0xF
    let d1 := d.updHome h fun x => { x with lfsr := lfsrNext x.lfsr }
    let d2 := { d1 with coh := { d1.coh with recalls := d1.coh.recalls + 1 } }
    d2.begin h slot { req := m, stage := .recall, await := [], post := [], got := [], fwded := [], desc := none, suspect := false }
  | _, _ => d

/-- EVICTDIRTY and EVICTCLEAN are served in the step that accepts them (Table 8.6). -/
def Dev.serveEvict (d : Dev) (m : ReqMsg) : Dev :=
  let e := d.dirEntry m.line
  let d1 := (secsOf m.smask).foldl (fun (x : Dev) sec =>
    let s := e.sector sec
    let named := (s.ds = .E || s.ds = .O) && s.own = m.src
    if m.kind = .evictDirty then
      if m.src = hostAgent then
        let p := m.payOf sec
        let i := { x.servedInfo m.line sec with epoch := 0, wclass := 0, poison := p.info.poison }
        (x.homeStore m.line sec (if p.info.poison then 0 else p.data) i true).updSector m.line sec fun y => { y with hs := m.mval.hs }
      else if named then
        let p := m.payOf sec
        (x.homeStore m.line sec p.data p.info true).updSector m.line sec fun y =>
          { y with ds := if s.ds = .E then .I else .S, own := 0x3FF }
      else { x with coh := { x.coh with stale := x.coh.stale + 1 } }
    else if m.src = hostAgent then x.updSector m.line sec fun y => { y with hs := 0 }
    else if s.ds = .E && named then x.updSector m.line sec fun y => { y with ds := .I, own := 0x3FF }
    else if !e.bcast then
      let e1 := x.dirEntry m.line
      x.setEntry { e1 with shr := e1.shr.filter (· ≠ m.src) }
    else x) d
  if m.src = hostAgent then d1.emit (.memCmp m.tag m.mval)
  else (secsOf m.smask).foldl (fun (x : Dev) sec => x.send (.ans
    { kind := .ack, src := mgmtAgent, toCore := some m.src, txid := 0, line := m.line, sec := sec, st := .I, data := 0, info := .zero })) d1

/-- A directory read: one or two symbols corrected and counted; three or more close the set and lead to CRIT (R256). -/
def Dev.dirRead (d : Dev) (line : Nat) : Bool × Dev :=
  let h := d.homeOf (lineDpa line)
  match d.dirWay line with
  | none => (true, d)
  | some k =>
    let e := d.dirAt k
    if e.err = 0 then (true, d)
    else if e.err ≤ 2 then
      let d1 := { d with dir := Map.put d.dir k { e with err := 0 }, coh := { d.coh with dirCorr := d.coh.dirCorr + 1 } }
      (true, d1.updHome h fun x => { x with dirCorr := true })
    else (false, (d.updHome h fun x => { x with closed := insertNew (dirSet line) x.closed }).crit .directory (homeSource h) 0x20 (dirSet line))

/-- Start an accepted request whose line is idle: the check, the directory read, an entry when it will record a copy,
then the first actions (R255-R262). -/
def Dev.startReq (d : Dev) (h : Nat) (m : ReqMsg) : Dev :=
  let (ok, d0) := d.dirRead m.line
  if !ok then d0.updHome h fun x => { x with stuck := x.stuck ++ [m] }
  else
    match (secsOf m.smask).findSome? fun s => d0.checkSec m s with
    | some e => (d0.countReject m.ctx m.seg e).sendErr m (txidOf h 0) e
    | none =>
      -- a host's full write of a line it holds dirty is its eviction (Table 8.9)
      let owned := m.src = hostAgent && m.kind = .wrFull && (secsOf m.smask).all fun s => ((d0.dirEntry m.line).sector s).hs = 2
      if owned then d0.serveEvict { m with kind := .evictDirty }
      else if m.kind = .evictDirty || m.kind = .evictClean then d0.serveEvict m
      else
        match d0.freeSlot h with
        | none => d0.updHome h fun x => { x with queue := { req := m, starved := false } :: x.queue }
        | some slot =>
          let (inj, d1) := d0.takeInject [homeSource h] 3
          let d2 := if inj = 0 then d1 else d1.crit .homeState (homeSource h) 0x21 slot
          let t : Txn := { req := m, stage := .entry, await := [], post := [], got := [], fwded := [], desc := none, suspect := false }
          -- an ATOMIC of a host line records the grant it takes (R266, R273)
          let grants := m.kind = .atomic && isHost (lineDpa m.line)
          if (m.kind.tracks || grants || (m.src = hostAgent && m.kind = .wrFull && m.mval ≠ .I)) && (d2.dirWay m.line).isNone then
            match d2.newEntry m.line with
            | some e => e.begin h slot t
            | none => d2.setTxn h slot (some t)
          else d2.begin h slot t

/-- A transaction ready for its next stage. -/
def Dev.readySlot (d : Dev) (h : Nat) : Option (Nat × Txn) :=
  (d.home h).txns.findSome? fun p => match p.2 with
    | some t =>
      if t.stage = .entry then (if (d.newEntry t.req.line).isSome || d.recallDue t.req.line then some (p.1, t) else none)
      else if t.await.isEmpty then some (p.1, t) else none
    | none => none

/-- The home holds a sector of the line for row updates (R129, R268). -/
def Dev.homeHeld (d : Dev) (line : Nat) : Bool :=
  (List.range 4).any fun s => (Map.get none (d.home (d.homeOf (lineDpa line))).held (4 * line + s)).isSome

/-- The first waiting request of each line; while starved requests wait for a line, the first of those (R269). -/
def Home.heads (x : Home) : List WaitReq :=
  let first (w : WaitReq) : Bool :=
    (x.queue.find? fun v => v.req.line = w.req.line && (v.starved || !x.queue.any fun u => u.starved && u.req.line = w.req.line)) = some w
  x.queue.filter first

/-- The next waiting request that can start: the first of its line, which is idle, its set open, a slot free. A row
update is begun by its own command's operation and keeps its line's place (R260, R267). -/
def Dev.readyReq (d : Dev) (h : Nat) : Option WaitReq :=
  (d.home h).heads.find? fun w =>
    w.req.kind ≠ .updRow && !d.lineBusy w.req.line && !d.homeHeld w.req.line && !d.d2hStopped w.req.line &&
      !(d.home h).closed.contains (dirSet w.req.line) && (d.freeSlot h).isSome

/-- One move of a home: a transaction's next stage, or the start of a waiting request. -/
def Dev.homeMove (d : Dev) (h : Nat) : Option Dev :=
  match d.readySlot h with
  | some (slot, t) =>
    some (match t.stage with
      | .entry =>
        match d.newEntry t.req.line with
        | some e => e.begin h slot t
        | none => d.recallVictim t.req.line
      | .recall => d.serve h slot t
      | .fetch => d.deliver h slot t
      | .close => d.setTxn h slot none)
  | none =>
    match d.readyReq h with
    | some w => some ((d.updHome h fun x => { x with queue := eraseFirst w x.queue }).startReq h w.req)
    | none => none

/-- Moves of a home until nothing is ready, at most n. -/
def Dev.settleN (d : Dev) (h : Nat) : Nat → Dev
  | 0 => d
  | n + 1 =>
    match d.homeMove h with
    | some e => Dev.settleN e h n
    | none => d

/-- Each transaction has four stages and each waiting request starts once. -/
def Dev.settle1 (d : Dev) (h : Nat) : Dev := d.settleN h (8 * ((d.home h).txns.length + (d.home h).queue.length) + 16)

/-! ### Bias of pages (R389-R391) -/

/-- Lowest device-owned address of the DRAM tier (R243). -/
def Dev.ownedFrom (d : Dev) : Nat := Nat.min d.tier.devBase 0x5FFFE00000

/-- Bias code of a 2 MiB page; device-owned pages are DEVICE for good. -/
def Dev.biasOf (d : Dev) (page : Nat) : Nat :=
  if isDram (page * 2 ^ 21) && decide (d.ownedFrom ≤ page * 2 ^ 21) then 0 else (Map.get none d.hl.bias page).getD d.hl.biasDef

def Dev.setBias (d : Dev) (page code : Nat) : Dev :=
  { d with hl := { d.hl with bias := Map.put d.hl.bias page (if code = d.hl.biasDef then none else some code) } }

/-- A host request that would leave the host with a copy (R390). -/
def reqCaches (m : ReqMsg) : Bool :=
  match m.kind with
  | .rdShared | .rdOwn | .claim | .memInvS => true
  | .wrFull | .wrPart => m.mval ≠ .I
  | _ => false

/-- Lines of a page whose directory entry holds a host pointer. -/
def Dev.hostLines (d : Dev) (page : Nat) : List Nat :=
  d.dir.filterMap fun p =>
    if p.2.v && p.2.line / 2 ^ 13 = page && (List.range 4).any fun s => (p.2.sector s).hs ≠ 0 then some p.2.line else none

/-- A line of the page waits for the host's answer to a BISnp. -/
def Dev.pageAsks (d : Dev) (page : Nat) : Bool :=
  d.homes.any fun p => p.2.txns.any fun x => match x.2 with
    | some t => decide (t.req.line / 2 ^ 13 = page) && (t.await ++ t.post).any fun w => match w with
      | .bi _ => true
      | _ => false
    | none => false

/-- BISnpInv of every sector of an idle line with HS not 0, in Blk form for several (R391). -/
def Dev.biInvLine (d : Dev) (line : Nat) : Dev :=
  let h := d.homeOf (lineDpa line)
  let secs := (List.range 4).filter fun s => ((d.dirEntry line).sector s).hs ≠ 0
  if secs.isEmpty || d.lineBusy line then d
  else
    match d.freeSlot h with
    | none => d
    | some slot =>
      let t : Txn := { req := mkReq .recall mgmtAgent line 0, stage := .close, await := secs.map Await.bi, post := [], got := [], fwded := [], desc := none, suspect := false }
      let d1 := secs.foldl (fun (e : Dev) s => e.updSector line s fun y => { y with hs := 0 }) (d.setTxn h slot (some t))
      d1.biSnoop .inv line secs

/-- A flip to SHARED for a host request (R390), a reflip when the request waited for a FLIPPING page (R391). -/
def Dev.toShared (d : Dev) (page : Nat) (re : Bool) : Dev :=
  let d1 := d.setBias page 1
  { d1 with hl := { d1.hl with
      toShared := d1.hl.toShared + 1
      reflips := if re && d1.hl.reflips < 0xFFFF then d1.hl.reflips + 1 else d1.hl.reflips } }

/-- A request waits at its home behind those that came before it (R260). -/
def Dev.enqueue (d : Dev) (m : ReqMsg) : Dev :=
  d.updHome (d.homeOf (lineDpa m.line)) fun x => { x with queue := x.queue ++ [{ req := m, starved := false }] }

/-- The home of a line holds its 4,096 waiting requests (R260). -/
def Dev.homeFull (d : Dev) (line : Nat) : Bool := decide (4096 ≤ (d.home (d.homeOf (lineDpa line))).queue.length)

/-- A request of the host enters its home; beyond the limit, or behind one that waits there, it stays in its channel. -/
def Dev.hostIn (d : Dev) (m : ReqMsg) : Dev :=
  let behind (x : Msg) : Bool := match x with
    | .req r => decide (r.src = hostAgent) && decide (d.homeOf (lineDpa r.line) = d.homeOf (lineDpa m.line))
    | _ => false
  if d.homeFull m.line || d.net.any behind then d.send (.req m) else d.enqueue m

/-- Put a host request into its home's queue, its page flipped where it asks for that. -/
def Dev.hostQueue (d : Dev) (m : ReqMsg) (re : Bool) : Dev :=
  let page := m.line / 2 ^ 13
  let d1 := if reqCaches m && d.biasOf page = 0 then d.toShared page re else d
  d1.hostIn m

/-- A page is DEVICE: the requests that waited for it go on. -/
def Dev.pageDevice (d : Dev) (page : Nat) : Dev × List Nat :=
  let mine := d.hl.heldReqs.filter fun m => m.line / 2 ^ 13 = page
  let d1 := { (d.setBias page 0) with hl := { (d.setBias page 0).hl with
    toDevice := d.hl.toDevice + 1, done := d.hl.done + 1, heldReqs := d.hl.heldReqs.filter fun m => m.line / 2 ^ 13 ≠ page } }
  (mine.foldl (fun (e : Dev) m => e.hostQueue m true) d1, mine.map fun m => d.homeOf (lineDpa m.line))

/-- The bias command moves on: up to 16 pages are FLIPPING, and each becomes DEVICE when no host copy of its lines is left;
after the last BUSY clears and vector 0 is raised (R391). -/
def Dev.biasGo (d : Dev) : Nat → List Nat → Dev × List Nat
  | 0, hs => (d, hs)
  | n + 1, hs =>
    if !d.hl.busy then (d, hs)
    else if d.hl.runCount ≤ d.hl.done then (({ d with hl := { d.hl with busy := false } } : Dev).msixRaise 0, hs)
    else
      let pages := (List.range (Nat.min 16 (d.hl.runCount - d.hl.done))).map (d.hl.runPage + d.hl.done + ·)
      let d1 := pages.foldl (fun (e : Dev) p => ((e.hostLines p).foldl (fun (x : Dev) l => x.biInvLine l) (e.setBias p 2))) d
      let p := d.hl.runPage + d.hl.done
      if (d1.hostLines p).isEmpty && !d1.pageAsks p then
        let (d2, more) := d1.pageDevice p
        Dev.biasGo d2 n (hs ++ more)
      else (d1, hs)

/-- What a home has ready, and what a running bias command can do then. -/
def Dev.settle (d : Dev) (h : Nat) : Dev :=
  let d1 := d.settle1 h
  if !d1.hl.busy then d1
  else
    let (d2, hs) := d1.biasGo (d1.hl.runCount - d1.hl.done + 1) []
    hs.foldl (fun (e : Dev) k => e.settle1 k) d2

/-- Requests of one agent to one home arrive in the order sent (R257): no earlier one is still on its way. -/
def Dev.reqInOrder (d : Dev) (m : ReqMsg) : Bool :=
  let mine (x : Msg) : Bool := match x with
    | .req r => decide (r.src = m.src) && decide (d.homeOf (lineDpa r.line) = d.homeOf (lineDpa m.line))
    | _ => false
  match d.net.find? mine with
  | some x => decide (x = Msg.req m) || !d.net.contains (.req m)
  | none => true

/-- Snoops of one home to one agent arrive in the order sent (R257); a fan-out's come after those of its cores. -/
def Dev.snpInOrder (d : Dev) (m : SnpMsg) : Bool :=
  let mine (x : Msg) : Bool := match x with
    | .snp r => (decide (r.core = m.core) || decide (m.core = 0x400 + quarterOfCore r.core)) &&
        decide (d.homeOf (lineDpa r.line) = d.homeOf (lineDpa m.line))
    | _ => false
  match d.net.find? mine with
  | some x => decide (x = Msg.snp m) || !d.net.contains (.snp m)
  | none => true

/-- The home takes a request in, as m': it waits behind its line's transaction, or starts (R260). Beyond 4,096 waiting
requests it stays in its channel. -/
def Dev.acceptAs (d : Dev) (m m' : ReqMsg) : Dev :=
  let h := d.homeOf (lineDpa m.line)
  if !d.reqInOrder m then d
  else if (d.home h).closed.contains (dirSet m.line) then
    (d.taken (.req m)).updHome h fun x => { x with stuck := x.stuck ++ [m] }
  else if d.homeFull m.line then d
  else ((d.taken (.req m)).enqueue m').settle h

def Dev.acceptReq (d : Dev) (m : ReqMsg) : Dev := d.acceptAs m m

/-! ### Answers -/

/-- Remove one awaited answer. -/
def Txn.got1 (t : Txn) (a : Await) : Txn := { t with await := eraseFirst a t.await, post := eraseFirst a t.post }
def Txn.waits (t : Txn) (a : Await) : Bool := t.await.contains a || t.post.contains a

/-- The transaction of a line at its home. -/
def Dev.lineTxn (d : Dev) (line : Nat) : Option (Nat × Nat × Txn) :=
  let h := d.homeOf (lineDpa line)
  (d.home h).txns.findSome? fun p => match p.2 with
    | some t => if t.req.line = line then some (h, p.1, t) else none
    | none => none

/-- An answer for the line's transaction: f changes the transaction and the block; with none waiting for it nothing
happens. -/
def Dev.answer (d : Dev) (line : Nat) (a : Await) (f : Nat → Nat → Txn → Dev → Txn × Dev) : Dev :=
  match d.lineTxn line with
  | some (h, slot, t) =>
    if t.waits a then
      let (t', e) := f h slot (t.got1 a) d
      (e.setTxn h slot (some t')).settle h
    else d
  | none => d

end Sys2Proof.Machine
end

