-- ==== Sys2Proof/Machine/Flags.lean ====
section
/-! DEFINITION. Status words and the reading of registers: every register the manual places in the on-block register
space, as one 64-bit word made from the fields of State (R245, R275, R302-R305, R327-R329, R343-R346, R373, R379, R391,
R429, R485, R515). -/

namespace Sys2Proof

/-- Codes of RST_STATUS.CAUSE (R485). -/
def ResetSource.code : ResetSource → Nat
  | .cold => 0
  | .perst => 1
  | .hostloss => 2
  | .warm => 3
  | .crit => 4
  | .margin => 5
  | .wdog => 6
  | .isolate => 7

/-- Codes of RST_STATUS.ORIGIN (R485). -/
def CritOrigin.code : CritOrigin → Nat
  | .none => 0
  | .directory => 1
  | .homeState => 2
  | .segment => 3
  | .resetCtrl => 4

end Sys2Proof

namespace Sys2Proof.Machine

/-- A word from its fields: (lowest bit, width, value). -/
def packBits : List (Nat × Nat × Nat) → Word64
  | [] => 0
  | (lo, n, v) :: rest => BitVec.ofNat 64 (lowBits n v * 2 ^ lo) ||| packBits rest

def bit (b : Bool) : Nat := if b then 1 else 0

/-! ### Parts kept under their own accessors -/

def Dev.queue (d : Dev) (q : Nat) : Queue := Map.get .reset d.cp.queues q
def Dev.setQueue (d : Dev) (q : Nat) (x : Queue) : Dev := { d with cp := { d.cp with queues := Map.put d.cp.queues q x } }
def Dev.updQueue (d : Dev) (q : Nat) (f : Queue → Queue) : Dev := d.setQueue q (f (d.queue q))
def Dev.mailbox (d : Dev) (m : Nat) : Mailbox := Map.get .reset d.cp.mbx m
def Dev.setMailbox (d : Dev) (m : Nat) (x : Mailbox) : Dev := { d with cp := { d.cp with mbx := Map.put d.cp.mbx m x } }
def Dev.seg (d : Dev) (ctx s : Nat) : SegRec := Map.get .reset d.segs.recs (8 * ctx + s)
def Dev.setSeg (d : Dev) (ctx s : Nat) (r : SegRec) : Dev :=
  { d with segs := { d.segs with recs := Map.put d.segs.recs (8 * ctx + s) r } }
/-- Live generation in the control plane. -/
def Dev.gen (d : Dev) (ctx s : Nat) : Nat := (Map.get 0 d.segs.gen (8 * ctx + s) + d.segs.genBase) % 16
/-- A generation as the tables hold it, beside `genBase`. -/
def Dev.genRaw (d : Dev) (g : Nat) : Nat := (g + 16 - d.segs.genBase % 16) % 16
def Dev.ctxCtrl (d : Dev) (c : Nat) : CtxCtrl := Map.get .reset d.segs.ctxs c
/-- Context 0 always reads as VALID (R328). -/
def Dev.ctxValid (d : Dev) (c : Nat) : Bool := c = 0 || (d.ctxCtrl c).valid
def Dev.lnk (d : Dev) (n : Nat) : Link := Map.get .reset d.tr.links n
def Dev.setLnk (d : Dev) (n : Nat) (x : Link) : Dev := { d with tr := { d.tr with links := Map.put d.tr.links n x } }
def Dev.updLnk (d : Dev) (n : Nat) (f : Link → Link) : Dev := d.setLnk n (f (d.lnk n))

/-- Descriptors of a queue admitted and not complete. -/
def Dev.inExec (d : Dev) (q : Nat) : Nat := (d.cp.runs.filter fun r => r.id.queue = q && r.stage ≠ .waiting && r.admCode < 2).length
/-- The head descriptor that waits for admission, if any. -/
def Dev.headWaiting (d : Dev) (q : Nat) : Bool := d.cp.runs.any fun r => r.id.queue = q && r.stage = .waiting

/-! ### Register words -/

/-- TIER_STATUS (Table 7.7). -/
def Dev.tierStatus (d : Dev) : Word64 :=
  let t := d.tier
  packBits [(16, 16, if t.lostCold < 0xFFFF then t.lostCold else 0xFFFF), (15, 1, bit t.hdm1), (14, 1, bit t.hdm0),
    (13, 1, bit t.retained), (12, 1, bit t.sparesLow), (11, 1, bit t.remapHigh), (10, 1, bit t.lostEv), (9, 1, bit t.overtemp),
    (8, 1, bit t.sweepLate), (0, 8, t.initStep)]

/-- HOME_STATUS of home h (Table 8.13). -/
def Dev.homeStatus (d : Dev) (h : Nat) : Word64 :=
  let x := d.home h
  packBits [(32, 16, (x.queue.filter (·.starved)).length), (16, 16, (x.txns.filter fun p => p.2.isSome).length),
    (3, 1, bit x.dirCorr), (2, 1, bit x.starve), (1, 1, bit x.bcast), (0, 1, bit x.isoPoison)]

/-- CACHE_CTRL and CACHE_STATUS of cache n (Tables 9.6, 9.7). -/
def Dev.cacheCtrl (d : Dev) (n : Nat) : Word64 :=
  let k := d.cache n
  packBits [(2, 1, if n < 256 then 0 else bit k.streamEn), (1, 1, bit k.pfEn), (0, 1, bit k.enable)]

def Dev.cacheStatus (d : Dev) (n : Nat) : Word64 :=
  let k := d.cache n
  packBits [(28, 12, if n < 256 then k.locked.toNat else 0), (16, 12, (d.disabledWays n).toNat), (6, 1, bit k.uncorr),
    (5, 1, bit k.wayEv), (4, 1, bit k.enRefused), (3, 1, bit k.pcRefused), (2, 1, bit k.streaming), (1, 1, bit k.invDone),
    (0, 1, bit k.busy)]

/-- The seven registers of queue q (Table 12.3), by index. -/
def Dev.queueReg (d : Dev) (q i : Nat) : Word64 :=
  let x := d.queue q
  match i with
  | 0 => packBits [(63, 1, bit x.enable), (62, 1, bit x.irqEn), (60, 2, x.cls), (48, 12, x.ctx), (37, 11, x.vec), (32, 4, x.size),
      (0, 32, x.tmoDef)]
  | 1 => packBits [(12, 44, x.ring / 4096)]
  | 2 => packBits [(12, 44, x.cmpl / 4096)]
  | 3 => packBits [(32, 32, x.done), (0, 32, x.head)]
  | 4 => packBits [(0, 32, x.tail)]
  | 5 => packBits [(32, 16, d.inExec q), (16, 8, x.cfgErr), (8, 8, x.cause), (3, 1, bit (!x.enable && d.inExec q = 0)),
      (2, 1, bit (d.headWaiting q)), (1, 1, bit x.halted)]
  | 6 => packBits [(32, 32, x.refused), (0, 32, x.late)]
  | _ => 0

/-- The three registers of mailbox m (Table 12.15). -/
def Dev.mailboxReg (d : Dev) (m i : Nat) : Word64 :=
  let x := d.mailbox m
  match i with
  | 0 => packBits [(63, 1, bit x.enable), (62, 1, bit x.kind), (50, 12, x.ctx), (42, 8, x.target), (31, 11, x.slot)]
  | 1 => packBits [(6, 46, x.reply / 64)]
  | 2 => packBits [(48, 16, x.lastSeq), (16, 16, x.overruns), (2, 1, bit x.pending), (1, 1, bit x.overEv), (0, 1, bit x.refEv)]
  | _ => 0

/-- SEG_ATTR from a record and its live generation (Table 11.2). -/
def SegRec.attr (r : SegRec) (gen : Nat) : Word64 :=
  packBits [(63, 1, bit r.valid), (60, 3, r.target), (59, 1, bit r.read), (58, 1, bit r.write), (57, 1, bit r.exec),
    (56, 1, bit r.atomic), (55, 1, bit r.update), (53, 2, r.rtype), (52, 1, bit r.ilv), (50, 2, r.homeq), (46, 4, gen),
    (42, 4, r.err), (16, 16, r.peerDev), (4, 12, r.remCtx), (0, 3, r.remSeg)]

/-- The three registers of a segment. -/
def Dev.segReg (d : Dev) (ctx s i : Nat) : Word64 :=
  let r := d.seg ctx s
  match i with
  | 0 => packBits [(0, 56, r.base)]
  | 1 => packBits [(0, 48, r.limit)]
  | 2 => r.attr (d.gen ctx s)
  | _ => 0

/-- CTX_CTRL (Table 11.1). -/
def Dev.ctxReg (d : Dev) (c : Nat) : Word64 :=
  packBits [(8, 8, (d.ctxCtrl c).peerExport.toNat), (0, 1, bit (d.ctxValid c))]

/-- HOME_BIAS_RANGE, HOME_BIAS_CMD and HOME_BIAS_STATUS (Table 13.6). -/
def Dev.biasReg (d : Dev) (i : Nat) : Word64 :=
  let x := d.hl
  match i with
  | 0 => packBits [(21, 35, x.page)]
  | 1 => packBits [(24, 1, bit x.target), (0, 24, x.count)]
  | 2 => packBits [(24, 24, x.done), (8, 16, x.reflips), (3, 1, bit x.rangeErr), (2, 1, bit x.refused), (1, 1, bit x.abandoned),
      (0, 1, bit x.busy)]
  | _ => 0

/-- TRC_LINK_CTRL and TRC_LINK_STATUS of link n (Table 14.11). -/
def Dev.linkReg (d : Dev) (n i : Nat) : Word64 :=
  let x := d.lnk n
  match i with
  | 0 => packBits [(0, 1, bit x.enable)]
  | 1 => packBits [(48, 16, x.dev), (42, 6, x.plink), (30, 12, x.depth), (4, 3, x.state), (3, 1, bit x.dupEv), (2, 1, bit x.downEv),
      (1, 1, bit x.retrainEv), (0, 1, bit x.crcEv)]
  | _ => 0

/-- FLT_Q_STATUS of quarter q (Table 16.9). -/
def Dev.fltStatus (d : Dev) (q : Nat) : Word64 :=
  let x := d.coll q
  packBits [(32, 32, x.logCount.toNat), (15, 1, bit d.flt.distributed), (4, 1, bit x.refused), (3, 1, bit x.overrun),
    (2, 1, bit x.critEv), (1, 1, bit x.fatalEv), (0, 1, bit x.alertEv)]

/-- RST_STATUS. -/
def Dev.rstStatus (d : Dev) : Word64 :=
  let x := d.rst
  packBits [(32, 32, x.count.toNat), (28, 4, x.cause.code), (24, 4, x.origin.code), (14, 10, x.subject), (3, 1, bit x.bkLost),
    (2, 1, bit x.nvPulse), (1, 1, bit d.pins.bkGood), (0, 1, bit (!x.held.isEmpty))]

/-- FLT_SRC_INFO and FLT_SRC_ADDR of source code c. -/
def Dev.srcReg (d : Dev) (c i : Nat) : Word64 :=
  let s := d.slot c
  match s.msg with
  | none => if i = 0 then packBits [(33, 1, bit s.overrun)] else 0
  | some m =>
    if i = 0 then packBits [(54, 10, m.source), (52, 2, m.sev.code), (44, 8, m.kind), (33, 1, bit s.overrun), (32, 1, 1),
      (0, 32, m.info.toNat)]
    else packBits [(63, 1, bit m.addrValid), (0, 56, m.dpa.toNat)]

/-- RST_PWR_STATUS (Table 18.9). -/
def Dev.pwrStatus (d : Dev) : Word64 :=
  let x := d.pwr
  packBits [(16, 16, if x.lastExit < 0xFFFF then x.lastExit else 0xFFFF), (8, 4, x.refuseCause), (7, 1, bit x.refused),
    (6, 1, bit x.wakeEv), (4, 2, x.wakeSrc), (3, 1, bit x.busy), (0, 3, x.state)]

/-- One 8-byte word of the MSI-X table: address, then data and vector control. -/
def Dev.msixReg (d : Dev) (i : Nat) : Word64 :=
  let e := Map.get MsixEntry.reset d.msix (i / 2)
  if i % 2 = 0 then e.addr else packBits [(32, 1, bit e.masked), (0, 32, e.data.toNat)]

/-- 64 pending bits from vector 64i. -/
def Dev.msixPba (d : Dev) (i : Nat) : Word64 :=
  packBits ((List.range 64).map fun k => (k, 1, bit (Map.get false d.msixPend (64 * i + k))))

/-- Registers that BAR0 does not map (Table 12.1). -/
def hiddenFromHost (off : Nat) : Bool := 0x600000 ≤ off && off < 0x800000

/-- The 8-byte register word at an offset of the register space; an offset not listed reads as zero (R343). -/
def Dev.readReg (d : Dev) (src : RegSource) (off : Nat) : Word64 :=
  if src = .host && hiddenFromHost off then 0
  else if off = 0 then packBits [(32, 1, bit d.cp.ready), (0, 32, d.cp.resetGen.toNat)]
  else if off = 0x40 then d.tierStatus
  else if 0x200000 ≤ off && off < 0x201000 then (if off % 64 = 0 then d.homeStatus ((off - 0x200000) / 64) else 0)
  else if 0x201000 ≤ off && off < 0x201018 then d.biasReg ((off - 0x201000) / 8)
  else if (0x210000 ≤ off && off < 0x211000) || (0x220000 ≤ off && off < 0x224400) then
    let n := if off < 0x220000 then (off - 0x210000) / 64 else 256 + (off - 0x220000) / 64
    if off % 64 = 0 then d.cacheCtrl n else if off % 64 = 8 then d.cacheStatus n else 0
  else if 0x400000 ≤ off && off < 0x500000 then d.queueReg ((off - 0x400000) / 64) (off % 64 / 8)
  else if 0x500000 ≤ off && off < 0x502000 then d.mailboxReg ((off - 0x500000) / 32) (off % 32 / 8)
  else if 0x600000 ≤ off && off < 0x600900 then d.linkReg ((off - 0x600000) / 64) (off % 64 / 8)
  else if 0x700000 ≤ off && off < 0x700100 then (if off % 64 = 0 then d.fltStatus ((off - 0x700000) / 64) else 0)
  else if off = 0x701000 then d.flt.inject
  else if off = 0x702000 then d.rstStatus
  else if off = 0x703008 then d.pwrStatus
  else if 0x710000 ≤ off && off < 0x718000 then
    (if off % 32 < 16 then d.srcReg ((off - 0x710000) / 32) (off % 32 / 8) else 0)
  else if 0x1000000 ≤ off && off < 0x1100000 then
    d.segReg ((off - 0x1000000) / 256) ((off - 0x1000000) % 256 / 32) (off % 32 / 8)
  else if 0x1100000 ≤ off && off < 0x1110000 then (if off % 16 = 0 then d.ctxReg ((off - 0x1100000) / 16) else 0)
  else if 0x3000000 ≤ off && off < 0x3008000 then d.msixReg ((off - 0x3000000) / 8)
  else if 0x3008000 ≤ off && off < 0x3008100 then d.msixPba ((off - 0x3008000) / 8)
  else 0

end Sys2Proof.Machine
end

