-- ==== Sys2Proof/Machine/Engine.lean ====
section
/-! DEFINITION. Accesses of the block's engines (Grinders, copy engines, Percolators, ingress agents, the control plane):
each reads or writes current data as the protocol of 08_coherence.md leaves it, a line at a time, inside one command
(notes/assumptions 12). Translation at queue time (R333, R334). -/

namespace Sys2Proof.Machine

/-! ### An L1 copy ended from outside -/

/-- An L1 loses its copy of a sector. -/
def Dev.l1Lose (d : Dev) (c line sec : Nat) : Dev := (d.cacheDrop (l1No c) line sec).reread c (4 * line + sec)

/-! ### Engine steps -/

/-- Why an engine's command does not go on now: a line has a transaction of another agent; a host copy must be recalled
first; the line's directory set holds an uncorrectable entry. -/
inductive Blocked
  | busy
  | recall (line : Nat)
  | crit (line : Nat)
  deriving DecidableEq, Repr

/-- A step of an engine over the block. -/
abbrev Eng := StateT Dev (Except Blocked)

/-- A transaction an engine opens. -/
def engTxn (m : ReqMsg) (st : Stage) (ws : List Await) (desc : Option DescId) : Txn :=
  { req := m, stage := st, await := ws, post := [], got := [], fwded := [], desc := desc, suspect := false }

/-- Start the recall of a line's copies, host copies included, in a slot of its home. -/
def Dev.beginRecall (d : Dev) (line : Nat) : Dev :=
  let h := d.homeOf (lineDpa line)
  match d.freeSlot h with
  | some slot =>
    (d.begin h slot (engTxn (mkReq .recall mgmtAgent line 0xF) .recall [] none)).settle h
  | none => d

/-- A reported sector whose host copy is called back: settled once its line is idle, by the copy that came back or by its
loss; until then the recall (R239). -/
def Dev.retrySuspect (d : Dev) (p : Nat × Nat) : Dev :=
  let d1 := { d with tier := { d.tier with suspects := d.tier.suspects.filter (· ≠ p) } }
  if Map.get 0 d.symErr p.1 < 3 then d1
  else if d.lineBusy (p.1 / 4) then d
  else
    let e := d1.reportBad p.1 p.2
    if e.tier.suspects.contains p then e.beginRecall (p.1 / 4) else e

def Dev.retrySuspects (d : Dev) : Dev := d.tier.suspects.foldl Dev.retrySuspect d

/-- A sector that upkeep cannot correct (R239). -/
def Dev.upkeepBad (d : Dev) (sector cause : Nat) : Dev := (d.reportBad sector cause).retrySuspects

/-- Run an engine step: blocked, the block is as before but for the recall or the report that unblocks it. -/
def Dev.engine (d : Dev) (e : Eng Unit) : Dev :=
  match e d with
  | .ok (_, d') => d'
  | .error .busy => d
  | .error (.recall line) => d.beginRecall line
  | .error (.crit line) => (d.dirRead line).2

/-- Apply a change of the block. -/
def Eng.upd (f : Dev → Dev) : Eng Unit := modify f

/-- Who accesses, and with what translation: agent, context, segment, generation, region type; data the host supplies in
this command; the descriptor that waits for the host's answers to its writes. -/
structure Acc where
  src  : Nat
  ctx  : Nat
  seg  : Nat
  gen  : Nat
  rt   : RType
  h    : List HostAnswer
  desc : Option DescId
  /-- a row update at this home, whose hold does not stop it -/
  upd  : Option Nat := none
  deriving DecidableEq, Repr

/-- The request of an access, for the check of R220. -/
def Acc.req (a : Acc) (kind : ReqKind) (sector : Nat) : ReqMsg :=
  { mkReq kind a.src (sector / 4) (secMask (sector % 4)) with ctx := a.ctx, seg := a.seg, gen := a.gen, rt := a.rt }

/-- The line's transaction, unless it only waits for the host's answers to this descriptor's own writes; or the home's
hold of the line (R268). -/
def Dev.blocks (d : Dev) (a : Acc) (line : Nat) : Bool :=
  (a.upd ≠ some (d.homeOf (lineDpa line)) && d.homeHeld line) || d.d2hStopped line ||
  match d.lineTxn line with
  | some (_, _, t) => !(t.stage = .close && t.desc.isSome && t.desc = a.desc)
  | none => false

/-- The line can be accessed now, and its directory entry reads well. -/
def engLine (a : Acc) (line : Nat) : Eng Unit := do
  let d ← get
  if d.blocks a line || (d.home (d.homeOf (lineDpa line))).closed.contains (dirSet line) then throw .busy
  let (ok, d1) := d.dirRead line
  if !ok then throw (.crit line)
  set d1

/-- The check of R220 for an access; a rejection is counted. -/
def engCheck (a : Acc) (kind : ReqKind) (sector : Nat) : Eng (Option ErrStatus) := do
  let d ← get
  match d.checkSec (a.req kind sector) (sector % 4) with
  | some e => do
    set (d.countReject a.ctx a.seg e)
    return some e
  | none => return none

/-- Host data of a sector supplied with the command. -/
def Acc.answer (a : Acc) (sector : Nat) : Option HostAnswer := a.h.find? fun x => x.sector = sector

/-- An owner no longer holds the sector: FWDMISS, counted, and the sector as without it, S while sharers remain
(R263, R276). -/
def Dev.ownerGone (d : Dev) (line sec own : Nat) : Dev :=
  let e := d.dirEntry line
  let more : Bool := e.bcast || !(e.sharers [own]).isEmpty
  let o : Bool := (e.sector sec).ds = .O
  let d1 := d.updSector line sec fun y => { y with ds := if o && more then .S else .I, own := 0x3FF }
  { d1 with coh := { d1.coh with fwdMiss := d1.coh.fwdMiss + 1 } }

/-- FWDCURRENT of an engine's read: the owner's copy. A held one makes the read wait (R268); an owner behind its wrapper
leaves the sector poisoned (R274); one that dropped its copy answers FWDMISS; the owner compares the tag (R259). -/
def engOwner (a : Acc) (line sec : Nat) : Eng (Option (Except ErrStatus CSector)) := do
  let d ← get
  let s := (d.dirEntry line).sector sec
  if s.ds ≠ .E && s.ds ≠ .O then return none
  if d.partHeld s.own then
    set (d.isoLose (d.homeOf (lineDpa line)) s.own line sec)
    return none
  if (Map.get none (d.core s.own).held (4 * line + sec)).isSome then throw .busy
  match d.ownerCopy s.own (4 * line + sec) with
  | none =>
    set (d.ownerGone line sec s.own)
    return none
  | some x =>
    if a.ctx ≠ 0 && a.src ≠ hostAgent && a.src ≠ mgmtAgent && !isHost (lineDpa line) && x.info.tag ≠ a.ctx then
      set (d.countReject a.ctx a.seg .tagMismatch)
      return some (.error .tagMismatch)
    return some (.ok x)

/-- Current data of a sector (RDCURRENT): owner, slice, host, memory; the slice may allocate it (R282), a line of its
side buffer moves into the ways then (R287). An absent host line is read by RdCurr; with HS 2 the host is asked by BISnpCur,
whose dirty data, if any, comes with the command (R262, R272). -/
def engRead (a : Acc) (sector : Nat) : Eng (Except ErrStatus (Sector × SectorMeta)) := do
  if isReg (64 * sector) then
    let d ← get
    let off := 64 * sector - regDpa
    if d.regSecHeld off then return .error .isolated
    return .ok (ofLanes 64 fun i => (d.readReg (if a.ctx = 0 then .context0 else .other) (off + 8 * i)).toNat, SectorMeta.zero)
  let line := sector / 4
  let sec := sector % 4
  engLine a line
  match ← engCheck a .rdCurrent sector with
  | some e => return .error e
  | none =>
    let m := a.req .rdCurrent sector
    match ← engOwner a line sec with
    | some (.error e) => return .error e
    | some (.ok x) => return .ok (x.data, x.info)
    | none =>
      let d ← get
      let s := (d.dirEntry line).sector sec
      let d := if isTier (64 * sector) && s.hs = 2 then
          let e := d.biSnoop .fwdCurrent line [sec]
          match a.answer sector with
          | some x => e.homeStore line sec (if x.poison then 0 else x.data)
              { e.servedInfo line sec with epoch := 0, wclass := 0, poison := x.poison } true
          | none => e
        else d
      let side := (d.waySec (d.sliceNo line) line sec).st = .I
      let (hit, d1) := d.sliceRead line sec
      match hit with
      | some y =>
        let d2 := { d1 with coh := { d1.coh with hits := d1.coh.hits + 1, sideHits := if side then d1.coh.sideHits + 1 else d1.coh.sideHits } }
        set (if side && d2.allocates a.desc m then d2.sidePull (d2.sliceNo line) line else d2)
        return .ok y
      | none =>
        let d2 := { d1 with coh := { d1.coh with misses := d1.coh.misses + 1 } }
        if isHost (64 * sector) then
          let d3 := d2.d2h .rdCurr line sec 0 0 false
          match a.answer sector with
          | some x =>
            set (d3.putHost (64 * sector - hostDpa) (Sector.bytes x.data))
            return .ok (x.data, { SectorMeta.zero with poison := x.poison })
          | none =>
            set d3
            return .ok (d2.hostSector ((64 * sector - hostDpa) / 64), SectorMeta.zero)
        else
          let (x, i, d3) := d2.memRead sector
          set (if d3.allocates a.desc m then d3.cacheFill (d3.sliceNo line) line sec { st := .E, data := x, info := i, err := 0 } else d3)
          return .ok (x, i)

/-- Every L1 copy of a sector ends: an owner's data goes to the home copy when `keep`, sharers are invalidated, by name or
by broadcast (R254, R262). A held copy makes the command wait (R268); an owner behind its wrapper leaves the sector
poisoned (R274). -/
def engInvalidate (line sec : Nat) (keep : Bool) : Eng Unit := do
  let d ← get
  let e := d.dirEntry line
  let s := e.sector sec
  let cs := if e.bcast && (s.ds = .S || s.ds = .O) then List.range 272 else e.shr
  let named := if s.ds = .E || s.ds = .O then insertNew s.own cs else if s.ds = .S then cs else []
  if named.any fun c => (Map.get none (d.core c).held (4 * line + sec)).isSome then throw .busy
  let h := d.homeOf (lineDpa line)
  let own := if (s.ds = .E || s.ds = .O) && !d.partHeld s.own then d.ownerCopy s.own (4 * line + sec) else none
  let d0 := if e.bcast && (s.ds = .S || s.ds = .O) then d.noteBcast h else d
  let d00 := if (s.ds = .E || s.ds = .O) && d.partHeld s.own then d0.isoLose h s.own line sec else d0
  let d1 := named.foldl (fun (x : Dev) c => x.l1Lose c line sec) d00
  let d2 := d1.updSector line sec fun y => { y with ds := .I, own := 0x3FF }
  match own with
  | some x => set (if keep && (x.st = .M || x.st = .O) then d2.homeStore line sec x.data x.info false else d2)
  | none => set d2

/-- The line stays busy until the host has answered for a sector (R272, R264); `kind` tells what becomes of data the host
returns: a full write supersedes it. -/
def engOweAs (a : Acc) (kind : ReqKind) (line : Nat) (w : Await) : Eng Unit := do
  let d ← get
  match d.lineTxn line with
  | some (h, slot, t) => set (d.setTxn h slot (some { t with await := t.await ++ [w] }))
  | none =>
    let h := d.homeOf (lineDpa line)
    match d.freeSlot h with
    | some slot =>
      set (d.setTxn h slot (some (engTxn { mkReq kind a.src line 0 with ctx := a.ctx, seg := a.seg, gen := a.gen } .close [w] a.desc)))
    | none => throw .busy

/-- The host's answer to this descriptor's own write. -/
def engOwe (a : Acc) (line : Nat) (w : Await) : Eng Unit := engOweAs a .wrFull line w

/-- Host memory as a masked write of the block leaves it. -/
def Dev.putHostMasked (d : Dev) (hpa : Nat) (x : Sector) (mask : Word64) : Dev :=
  (List.range 64).foldl (fun (e : Dev) i => if mask.getLsbD i then e.putHost (hpa + i) [Sector.byte x i] else e) d

/-- A write at the home (WRFULL, or WRPART under a mask) with its stamp and width class (R219, R262, R273). The write of a
line with HS not 0 is settled when the host has answered; a write to host memory is complete at GO (R307). -/
def engWrite (a : Acc) (sector : Nat) (x : Sector) (mask : Word64) (poison : Bool) (epoch wclass : Nat) :
    Eng (Option ErrStatus) := do
  if isReg (64 * sector) then
    if (← get).regSecHeld (64 * sector - regDpa) then return some .isolated
    modify fun (d : Dev) => { d with regq := d.regq ++ [(sector, x, mask)] }
    return none
  let line := sector / 4
  let sec := sector % 4
  let full := mask = BitVec.allOnes 64
  engLine a line
  match ← engCheck a (if full then .wrFull else .wrPart) sector with
  | some e => return some e
  | none =>
    engInvalidate line sec (!full)
    let d ← get
    let s := (d.dirEntry line).sector sec
    if isHost (64 * sector) then
      let d0 := d.sideRemove line
      let y := d0.waySec (d0.sliceNo line) line sec
      let d1 := if y.st = .M && !full then d0.sliceWriteBack line sec y else d0
      let d2 := (d1.cacheDrop (d1.sliceNo line) line sec).updSector line sec fun z => { z with hs := 0 }
      set ((d2.putHostMasked (64 * sector - hostDpa) x mask).d2h (if full then .itoMWr else .woWrInv) line sec x mask poison)
      engOwe a line (.go sec)
      return none
    else
      if s.hs = 2 && !full then
        match a.answer sector with
        | some z =>
          let i := { d.secInfo sector with epoch := 0, wclass := 0, poison := z.poison }
          set (d.homeStore line sec (if z.poison then 0 else z.data) i false)
        | none => throw (.recall line)
      let d1 ← get
      if s.hs ≠ 0 then
        set ((d1.biSnoop .inv line [sec]).updSector line sec fun z => { z with hs := 0 })
        engOwe a line (.bi sec)
      let d2 ← get
      let d3 := d2.sideRemove line
      let y := d3.waySec (d3.sliceNo line) line sec
      if y.st != .I then
        let (z, i) := mergeWrite y.data y.info x mask poison
        set ((d3.aimInject a.src (d3.homeOf (64 * sector))).homeStore line sec z { i with epoch := epoch, wclass := wclass } false)
      else set (d3.memWrite [a.src] sector (if full && poison then 0 else x) mask poison epoch wclass)
      return none

/-! ### Ranges of bytes -/

/-- An access within a segment: the record used, its translation, and the rest. -/
structure SegAcc where
  acc : Acc
  sg  : SegRec
  deriving DecidableEq, Repr

/-- Tier or host sector of 64-byte unit k of a segment's offsets. -/
def SegAcc.sector (a : SegAcc) (k : Nat) : Nat := a.sg.dpa (64 * k) / 64

/-- The units of 64 bytes from k on, n of them, read in order up to the first refusal. -/
def engReadUnits (a : SegAcc) (k : Nat) : Nat → Eng (Except ErrStatus (List (Sector × SectorMeta)))
  | 0 => return .ok []
  | n + 1 => do
    match ← engRead a.acc (a.sector k) with
    | .error e => return .error e
    | .ok x =>
      match ← engReadUnits a (k + 1) n with
      | .error e => return .error e
      | .ok xs => return .ok (x :: xs)

/-- n bytes from an offset: the bytes, whether any sector read was poisoned, and the metadata of the sectors. -/
def engReadBytes (a : SegAcc) (off n : Nat) : Eng (Except ErrStatus (List Byte × Bool × List SectorMeta)) := do
  if n = 0 then return .ok ([], false, [])
  let k := off / 64
  match ← engReadUnits a k ((off + n - 1) / 64 - k + 1) with
  | .error e => return .error e
  | .ok xs =>
    let bytes := (xs.flatMap fun p => Sector.bytes p.1).drop (off % 64)
    return .ok (bytes.take n, xs.any fun p => p.2.poison, xs.map (·.2))

/-- Data and mask of the bytes that fall into one unit, from the byte `at` of the unit. -/
def placeBytes (at_ : Nat) (bs : List Byte) : Sector × Word64 :=
  let c := bs.take (64 - at_)
  (BitVec.ofNat 512 (leNat c * 256 ^ at_), BitVec.ofNat 64 ((2 ^ c.length - 1) * 2 ^ at_))

/-- Write bytes from an offset, a unit of 64 bytes at a time, whole units by WRFULL, edges by WRPART; the first refusal
ends it. Unit i takes the i-th stamp, those beyond the list its last. `fuel` bounds the units. -/
def engWriteUnits (a : SegAcc) (poison : Bool) (epochs : List Nat) (wclass : Nat) : Nat → Nat → List Byte → Eng (Option ErrStatus)
  | 0, _, _ => return none
  | fuel + 1, off, bs => do
    if bs.isEmpty then return none
    let (x, mask) := placeBytes (off % 64) bs
    match ← engWrite a.acc (a.sector (off / 64)) x mask poison (epochs.headD 0) wclass with
    | some e => return some e
    | none => engWriteUnits a poison (if epochs.length ≤ 1 then epochs else epochs.tail) wclass fuel (64 * (off / 64 + 1)) (bs.drop (64 - off % 64))

def engWriteBytes (a : SegAcc) (off : Nat) (bs : List Byte) (poison : Bool) (epoch wclass : Nat) : Eng (Option ErrStatus) :=
  engWriteUnits a poison [epoch] wclass (bs.length / 64 + 2) off bs

/-! ### Translation at queue time (R333) -/

/-- Status of a failed translation. -/
def XlateErr.status : XlateErr → Nat
  | .limit => stLimit
  | .access => stDenied

/-- Status of a refusal at memory (R220, R273). -/
def errStat : ErrStatus → Nat
  | .revoked => stRevoked
  | .tagMismatch => stTag
  | .tierNotReady => stTier
  | .hostError => stHostError
  | .isolated => stIsolated

/-- Segment and generation records noted by a translation (8 × context + segment). -/
structure Notes where
  segs : Map SegRec
  gens : Map Nat
  deriving DecidableEq, Repr

def Notes.none : Notes := { segs := [], gens := [] }

/-- Translate len bytes at a DA in a context and note record and generation; a range of no byte needs no translation. -/
def Dev.xlate (d : Dev) (ctx : Nat) (da : Word64) (len : Nat) (right : Right) (n : Notes) : Except Nat Notes :=
  if len = 0 then .ok n
  else
    let s := daSeg da
    let r := d.seg ctx s
    match r.translate da len right with
    | .error e => .error e.status
    | .ok _ => .ok { segs := Map.put n.segs (8 * ctx + s) r, gens := Map.put n.gens (8 * ctx + s) (d.gen ctx s) }

/-- Translations in order, up to the first that fails. -/
def Dev.xlates (d : Dev) (ctx : Nat) : List (Word64 × Nat × Right) → Notes → Except Nat Notes
  | [], n => .ok n
  | (da, len, r) :: rest, n =>
    match d.xlate ctx da len r n with
    | .error e => .error e
    | .ok n' => d.xlates ctx rest n'

/-- Access of a descriptor through a segment it translated. Copies of context 0 carry the contexts they name (R221). -/
def Run.acc (r : Run) (src ctx seg : Nat) (h : List HostAnswer) : SegAcc :=
  let k := 8 * ctx + seg
  let sr := Map.get SegRec.reset r.segs k
  { sg := sr, acc := { src := src, ctx := ctx, seg := seg, gen := Map.get 0 r.gens k, rt := sr.region, h := h, desc := some r.id } }

/-- Access of the control plane as context 0 (R221), at DPAs. -/
def ctrlAcc (h : List HostAnswer) (desc : Option DescId) : Acc :=
  { src := mgmtAgent, ctx := 0, seg := 0, gen := 0, rt := .normal, h := h, desc := desc }

/-- n units of 64 bytes from a DPA as the control plane reads them. -/
def ctrlRead (h : List HostAnswer) (dpa : Nat) : Nat → Eng (Except ErrStatus (List (Sector × SectorMeta)))
  | 0 => return .ok []
  | n + 1 => do
    match ← engRead (ctrlAcc h none) (dpa / 64) with
    | .error e => return .error e
    | .ok x =>
      match ← ctrlRead h (dpa + 64) n with
      | .error e => return .error e
      | .ok xs => return .ok (x :: xs)

end Sys2Proof.Machine
end

