-- ==== Sys2Proof/Machine/QueueOps.lean ====
section
/-! DEFINITION. Descriptors in the device: their fields, admission (R364-R366), their end and completion records
(R359-R363, R320, R337), queue halts (R352), progress objects (R370, R371). -/

namespace Sys2Proof.Machine

/-- Reference count by which descriptors are timed. -/
def Dev.now (d : Dev) : Word64 := (d.qr 0).refCount

/-- A run that can go on takes its step as running. -/
def Run.isOp (r : Run) (ty : Nat) (op : Option Nat) : Bool :=
  descType r.w = ty && match op with
    | some o => descOp r.w = o
    | none => true

/-- v limited to n bits. -/
def satBits (n v : Nat) : Nat := if v < 2 ^ n then v else 2 ^ n - 1

def Dev.run (d : Dev) (id : DescId) : Option Run := d.cp.runs.find? fun r => r.id = id
def Dev.updRun (d : Dev) (id : DescId) (f : Run → Run) : Dev :=
  { d with cp := { d.cp with runs := d.cp.runs.map fun r => if r.id = id then f r else r } }
def Dev.dropRun (d : Dev) (id : DescId) : Dev :=
  { d with cp := { d.cp with runs := d.cp.runs.filter fun r => r.id ≠ id } }
def Dev.addRun (d : Dev) (r : Run) : Dev := { d with cp := { d.cp with runs := d.cp.runs ++ [r] } }

def Run.count (r : Run) (i : Nat) : Nat := Map.get 0 r.cnt i
def Run.setCount (r : Run) (i v : Nat) : Run := { r with cnt := Map.put r.cnt i v }
def Run.addCount (r : Run) (i v : Nat) : Run := r.setCount i (r.count i + v)

/-- cnt number of the mark of a run that a reset ended: its record raises no queue vector (R475). -/
def rcFinal : Nat := 30
/-- The setting in force when a GATHER (SplitBags), an UPDATE (PredictorThreshold) or a KERNEL (LaunchStaggerCores) was
admitted (R21, R74). -/
def rcSetting : Nat := 31

/-- The run is admitted and has not ended. -/
def Run.live (r : Run) : Bool := r.stage = .admitted || r.stage = .running

/-- Work on a live descriptor of a type and operation. -/
def Dev.withRun (d : Dev) (id : DescId) (ty : Nat) (op : Option Nat) (f : Run → Dev → Dev) : Dev :=
  match d.run id with
  | some r => if r.live && r.isOp ty op then f r (d.updRun id fun x => { x with stage := .running }) else d
  | none => d

/-! ### Ends -/

/-- A progress object by its index minus 0x5000. -/
def Dev.prog (d : Dev) (i : Nat) : Progress := Map.get .idle d.cp.progs i
def Dev.setProg (d : Dev) (i : Nat) (p : Progress) : Dev := { d with cp := { d.cp with progs := Map.put d.cp.progs i p } }

/-- States 1-3 serve an operation. -/
def Progress.busy (p : Progress) : Bool := 1 ≤ p.state && p.state ≤ 3

/-- The lowest free object of n from index lo (R371). -/
def Dev.freeProg (d : Dev) (lo n : Nat) : Option Nat := ((List.range n).map (lo + ·)).find? fun i => !(d.prog i).busy

/-- A descriptor takes an object. -/
def Dev.takeProg (d : Dev) (id : DescId) (tag i total : Nat) : Dev :=
  (d.setProg i { state := 1, position := 0, total := total, queue := id.queue, tag := tag, start := d.stamp }).updRun id
    fun r => { r with prog := i }

/-- POSITION moves on, in the run and in its object; it never decreases (R370). -/
def Dev.setPos (d : Dev) (id : DescId) (pos : Nat) : Dev :=
  match d.run id with
  | none => d
  | some r =>
    let d1 := d.updRun id fun x => { x with pos := pos }
    if r.prog = 0 then d1
    else
      let p := d1.prog r.prog
      d1.setProg r.prog { p with position := if p.position < pos then pos else p.position }

/-- Codes 0x00-0x03 mean that a descriptor ran to its end (R362). -/
def ranToEnd (st : Nat) : Bool := st ≤ 3

/-- A descriptor ends with a status; its object shows DONE or FAILED. The first end stands. -/
def Dev.endRun (d : Dev) (id : DescId) (status : Nat) : Dev :=
  match d.run id with
  | none => d
  | some r =>
    if r.live || r.stage = .waiting then
      let d1 := d.updRun id fun x => { x with
        stage := .ended, status := status
        admCode := if r.stage = .waiting then 3 else x.admCode
        charged := if r.stage = .waiting then [] else x.charged
        waited := if r.stage = .waiting || ((descType r.w = tyKernel || r.isOp tyMaint (some 0x08)) && r.stage = .admitted)
          then satBits 32 (d.now - r.fetched).toNat else x.waited }
      if r.prog = 0 then d1
      else d1.setProg r.prog { d1.prog r.prog with state := if ranToEnd status then 4 else 5 }
    else d

/-! ### Admission -/

/-- Throttle window of quarter q: the least of the standing requests (R28, R39, R58, R63, R496). -/
def Dev.throttle (d : Dev) (q : Nat) : Nat :=
  let x := d.qr q
  let em := if !x.emGroups.isEmpty && !x.emRestored then d.admitWindowMin else 16384 / x.gateDiv
  let th := if d.pins.throttle then d.admitWindowMin else 16384
  Nat.min (Nat.min em th) (Nat.min d.mg.limiter (x.budget.getD 16384))

def Dev.latencyShare (d : Dev) : Nat := d.od 0x209002 25
def Dev.backgroundShare (d : Dev) : Nat := d.od 0x209003 10

/-- Charged descriptors of a quarter, of one class or of all (class 3). -/
def Dev.charged (d : Dev) (q cls : Nat) : Nat :=
  (d.cp.runs.filter fun r => r.charged.contains q && r.stage ≠ .waiting && (cls = 3 || r.cls = cls)).length

/-- The rule of R365 in one quarter. -/
def Dev.admitRule (d : Dev) (cls q : Nat) : Bool :=
  let w := Nat.min d.admitWindow (d.throttle q)
  let s := w * d.latencyShare / 100
  let b := w * d.backgroundShare / 100
  let n := d.charged q 3
  let l := d.charged q 0
  let g := d.charged q 2
  -- N − L < W − S, without subtraction
  let tp := n + s < w + l && n < w
  match cls with
  | 0 => l < s || n < w
  | 1 => tp
  | _ => tp && g < b

/-- Nothing is admitted outside ACTIVE (R47). -/
def Dev.admitOk (d : Dev) (cls : Nat) (qs : List Nat) : Bool := !d.lowPower && qs.all (d.admitRule cls)

/-- The next EPOCH descriptor of a table begins when none runs: from here updates carry the next stamp (R107). -/
def Dev.epochBegin (d : Dev) (t : Nat) : Dev :=
  let mine := d.cp.runs.filter fun r => descType r.w = tyEpoch && descTable r.w = some t
  if mine.any fun r => r.stage = .running then d
  else
    match mine.find? fun r => r.stage = .admitted, Map.get none d.tb.store t with
    | some r, some x =>
      let e := if x.updEp = 0xFFFF then 1 else x.updEp + 1
      { (d.updRun r.id fun y => { y with stage := .running }) with
        tb := { d.tb with store := Map.put d.tb.store t (some { x with updEp := e }) } }
    | _, _ => d

/-- Descriptors that a retiring table refuses (R77). -/
def refusedByRetire (w : List Word64) : Bool := [tyGather, tyUpdate, tyMigrate, tyEpoch].contains (descType w)

/-- TABLE_RETIRE closes its table; heads that wait for admission are refused with the new ones (R77). -/
def Dev.closeTable (d : Dev) (t : Nat) : Dev :=
  match d.table t with
  | none => d
  | some x =>
    let late := d.cp.runs.filter fun r => r.stage = .waiting && refusedByRetire r.w && descTable r.w = some t
    late.foldl (fun (e : Dev) r => e.endRun r.id stTableInvalid) (d.setTable t (some { x with retired := true }))

/-! ### CACHE_RANGE at its admission (R296) -/

/-- OP and CACHES of a CACHE_RANGE. -/
def crOp (w : List Word64) : Nat := qBits w 4 60 4
def crCaches (w : List Word64) : Nat := qBits w 4 58 2

/-- Caches an operation names: slices 0-63 and L1s 256-527. -/
def namedCaches (caches : Nat) : List Nat :=
  (if caches = 2 then [] else List.range 64) ++ (if caches = 1 then [] else (List.range 272).map (256 + ·))

/-- cnt number of the bytes of cache n when an _ALL operation was admitted. -/
def crBytes (n : Nat) : Nat := 128 + n

/-- Bytes of the lines of its enabled ways, in the configuration it holds (R296). -/
def Dev.cacheBytes (d : Dev) (n : Nat) : Nat :=
  let (w, _) := d.placeOf n 0
  let sets := if n < 256 then 1024 else if (d.core (n - 256)).wide then 128 else 32
  256 * sets * ((List.range w).filter fun i => !(d.disabledWays n).getLsbD i).length

/-- What an admission brings about at once: CACHE_RANGE takes the sizes of the caches it names (R296), TABLE_RETIRE closes its table (R77), REVOKE clears VALID (R336), EPOCH sets
the stamp that UPDATEs take (R107). -/
def Dev.onAdmit (d : Dev) (id : DescId) : Dev :=
  match d.run id with
  | none => d
  | some r =>
    let ty := descType r.w
    if ty = tyEpoch then d.epochBegin (qBits r.w 1 52 12)
    else if ty = tyUpdate then
      match Map.get none d.tb.store (qBits r.w 4 52 12) with
      | some x => d.updRun id fun y => { y.setCount rcSetting (d.od 0x281004 2) with epoch := x.updEp }
      | none => d
    else if ty = tyGather then d.updRun id fun y => y.setCount rcSetting (d.od 0x280004 64)
    else if ty = tyKernel then d.updRun id fun y => y.setCount rcSetting d.staggerCores
    else if ty = tyMaint && descOp r.w = 0x09 && 6 ≤ crOp r.w then
      d.updRun id fun y => (namedCaches (crCaches r.w)).foldl (fun (z : Run) n => z.setCount (crBytes n) (d.cacheBytes n)) y
    else if ty = tyMaint && descOp r.w = 0x02 then d.closeTable (qBits r.w 2 52 12)
    else if ty = tyMaint && descOp r.w = 0x0A then
      let ctx := qBits r.w 2 52 12
      let seg := qBits r.w 2 49 3
      let first := !d.segs.revokes.any fun x => x.ctx = ctx && x.seg = seg
      let v : Revoke := { desc := id, ctx := ctx, seg := seg, step := if first then 1 else 0, waited := false, copies := [],
                          markers := [], rejects := 0 }
      let d1 := { d with segs := { d.segs with revokes := d.segs.revokes ++ [v] } }
      if first then
        let rec' := { d.seg ctx seg with valid := false }
        let d2 := d1.setSeg ctx seg rec'
        if ctx = 0 then { d2 with segs := { d2.segs with saved := Map.put d2.segs.saved seg none } } else d2
      else d1
    else d

/-- Admission of a descriptor: charged from here, its WAIT ended unless it still waits for cores (R360). -/
def Dev.admitRun (d : Dev) (id : DescId) (delayed : Bool) : Dev :=
  let now := d.now
  let d1 := d.updRun id fun r => { r with
    cnt := Map.put (Map.put (Map.put r.cnt rcAlloc (d.od 0x207001 0x0F + 1)) rcDepth (d.od 0x207002 4 + 1)) rcHold (d.od 0x206002 24 + 1)
    stage := .admitted, admCode := bit delayed, seq := d.cp.nextSeq
    waited := if descType r.w = tyKernel then r.waited else satBits 32 (now - r.fetched).toNat }
  { d1 with cp := { d1.cp with
      nextSeq := d1.cp.nextSeq + 1, admitted := d1.cp.admitted + 1
      delayed := if delayed then d1.cp.delayed + 1 else d1.cp.delayed } }.onAdmit id

/-- The context of a queue's head is valid: queues of an invalid context admit nothing (R328). -/
def Dev.admissible (d : Dev) (r : Run) : Bool := 16384 ≤ r.id.queue || d.ctxValid r.ctx

/-- Some waiting head of class at most `cls` (0 LATENCY, 1 THROUGHPUT) waits for one of these quarters. -/
def Dev.headsBefore (d : Dev) (cls : Nat) (qs : List Nat) (but : DescId) : Bool :=
  d.cp.runs.any fun r => r.stage = .waiting && r.id ≠ but && r.cls ≤ cls && d.admissible r && r.charged.any qs.contains

/-- Waiting heads in the order of R366: LATENCY by fetch, then THROUGHPUT round robin after the queue served last. -/
def Dev.waitOrder (d : Dev) : List Run :=
  let ws := d.cp.runs.filter fun r => r.stage = .waiting && d.admissible r
  let tp := ws.filter fun r => r.cls ≠ 0
  let ring := (tp.map fun r => ((r.id.queue + 16384 - d.cp.rr - 1) % 16384, r))
  let rec ins : Nat × Run → List (Nat × Run) → List (Nat × Run)
    | x, [] => [x]
    | x, y :: ys => if x.1 ≤ y.1 then x :: y :: ys else y :: ins x ys
  (ws.filter fun r => r.cls = 0) ++ (ring.foldr ins []).map (·.2)

/-- Admit waiting heads, none past a head that stays and waits for one of its quarters (R366). -/
def Dev.admitWaiting (d : Dev) : Dev :=
  (d.waitOrder.foldl (fun (p : Dev × List Nat) r =>
    if !(r.charged.any p.2.contains) && p.1.admitOk r.cls r.charged then
      let e := p.1.admitRun r.id true
      (if r.cls = 1 then { e with cp := { e.cp with rr := r.id.queue } } else e, p.2)
    else (p.1, p.2 ++ r.charged)) (d, [])).1

/-! ### Holders of a generation (R337) -/

/-- Descriptors and GSUBs that translated the segment with generation g and are not complete, heads that wait for admission
among them (Table 12.17), and running kernels of its context. -/
def Dev.holders (d : Dev) (ctx seg g : Nat) : Nat :=
  let k := 8 * ctx + seg
  let byRun := (d.cp.runs.filter fun r => r.admCode < 2 &&
    r.gens.any fun p => p.1 = k && p.2 = g).length
  let byTeam := (d.teams.filter fun p => p.2.ctx = ctx && p.2.cores.any fun c =>
    Map.get 0 (d.core c).gens seg = g && (d.core c).team = some p.1).length
  byRun + byTeam

/-! ### Records -/

/-- A response or event of a descriptor whose timeout won is discarded and counted (R369). -/
def Dev.lateFor (d : Dev) (id : DescId) : Dev :=
  match d.run id with
  | some r =>
    if r.stage = .ended && r.status = stTimeout then
      let d1 := if id.queue < 16384 then d.updQueue id.queue fun x => { x with late := satBits 32 (x.late + 1) } else d
      { d1 with cp := { d1.cp with late := d1.cp.late + 1 } }
    else d
  | none => d

/-- A record with STATUS TIMEOUT is counted (OD 0x2091.04). -/
def Dev.countTimeout (d : Dev) (st : Nat) : Dev :=
  if st = stTimeout then { d with cp := { d.cp with timeouts := d.cp.timeouts + 1 } } else d

/-- Transactions that still wait for the host on behalf of a descriptor: GO only, or any answer (R307, R320). -/
def Dev.owes (d : Dev) (id : DescId) (anyAnswer : Bool) : Bool :=
  d.homes.any fun p => p.2.txns.any fun x => match x.2 with
    | some t => t.desc = some id && t.stage = .close &&
        t.await.any fun w => match w with
          | .go _ => true
          | _ => anyAnswer
    | none => false

/-- A queue halts (R352): fetching stops and its vector is raised whatever IRQ_EN says. -/
def Dev.haltQueue (d : Dev) (q cause : Nat) : Dev :=
  (d.updQueue q fun x => { x with halted := true, cause := cause }).msixRaise (d.queue q).vec

/-- Ring entries of a queue (R347). -/
def Queue.entries (x : Queue) : Nat := 64 * 2 ^ x.size

/-- Words Q1-Q3 of a completion record (Tables 12.11, 12.12). -/
def Run.recWords (r : Run) : Word64 × Word64 × Word64 :=
  let q1 := packBits [(52, 12, r.prog), (0, 52, r.pos)]
  let c (n i : Nat) : Nat := satBits n (r.count i)
  let ty := descType r.w
  if ty = tyGather then
    (q1, packBits [(42, 21, c 21 0), (21, 21, c 21 1), (0, 21, c 21 2)],
      packBits [(42, 21, c 21 3), (21, 21, c 21 4), (0, 21, c 21 5)])
  else if ty = tyUpdate then
    (q1, packBits [(43, 21, c 21 0), (22, 21, c 21 1), (0, 22, c 22 2)],
      packBits [(43, 21, c 21 3), (22, 21, c 21 4), (11, 11, c 11 5), (0, 11, c 11 6)])
  else if ty = tyKernel then
    (BitVec.ofNat 64 (r.count 6), BitVec.ofNat 64 (r.count 0),
      packBits [(55, 9, c 9 1), (46, 9, c 9 2), (38, 8, r.count 3), (30, 8, r.count 4), (9, 21, r.count 5)])
  else if ty = tyMigrate then (q1, packBits [(32, 32, c 32 0), (0, 32, c 32 1)], 0)
  else if ty = tyEpoch then (q1, packBits [(32, 32, c 32 0), (0, 16, r.count 1)], 0)
  else if ty = tyProbe then (q1, BitVec.ofNat 64 (r.count 0), 0)
  else if ty = tyMaint then
    match descOp r.w with
    | 0x03 => (q1, packBits [(32, 32, c 32 0), (0, 32, c 32 1)], packBits [(0, 32, c 32 2)])
    | 0x09 => (q1, 0, BitVec.ofNat 64 (r.count 0))
    | 0x0A => (q1, packBits [(32, 32, c 32 0)], BitVec.ofNat 64 (r.count 1))
    | _ => (q1, 0, 0)
  else (q1, 0, 0)

/-- The 32-byte record (Table 12.11); `admCode` and `phase` as given, so that a mailbox reply can use it (R377). -/
def Run.record (r : Run) (status admCode : Nat) (phase : Bool) : List Word64 :=
  let q0 := packBits [(48, 16, qBits r.w 0 0 16), (40, 8, status), (36, 4, descType r.w), (34, 2, admCode), (33, 1, bit phase),
    (0, 32, r.waited)]
  let (q1, q2, q3) := r.recWords
  [q0, q1, q2, q3]

/-- Bytes of words, lowest first. -/
def wordBytes (ws : List Word64) : List Byte := ws.flatMap fun w => leBytes 8 w.toNat

/-- Words of bytes. -/
def bytesWords : Nat → List Byte → List Word64
  | 0, _ => []
  | n + 1, bs => BitVec.ofNat 64 (leNat (bs.take 8)) :: bytesWords n (bs.drop 8)

/-- PHASE of a descriptor's pass through the ring (R359). -/
def Queue.phase (x : Queue) (index : Nat) : Bool := !(index.testBit (6 + x.size))

/-- Write the record of a queue's descriptor into its slot, as context 0 (R351). -/
def recordWrite (x : Queue) (r : Run) (status : Nat) : Eng (Option ErrStatus) :=
  let dpa := x.cmpl + 32 * (r.id.index % x.entries)
  let (data, mask) := placeBytes (dpa % 64) (wordBytes (r.record status r.admCode (x.phase r.id.index)))
  engWrite (ctrlAcc [] (some r.id)) (dpa / 64) data mask false 0 0

end Sys2Proof.Machine
end

