-- ==== Sys2Proof/Machine/TarucOps.lean ====
section
/-! DEFINITION. Taruc messages and their way out of the device: header fields (R405), CRC (R404, R406), routing
(R415-R417), credits, flits and retry buffers (R407, R410), transactions (R419). -/

namespace Sys2Proof

/-! ### Header of a message (Table 14.3) -/

def tmBits (m : List Word64) (w lo n : Nat) : Nat := qBits m w lo n
def tmType (m : List Word64) : Nat := tmBits m 0 56 8
def tmVc (m : List Word64) : Nat := tmBits m 0 53 3
def tmPhase (m : List Word64) : Nat := tmBits m 0 52 1
def tmTtl (m : List Word64) : Nat := tmBits m 0 48 4
def tmLen (m : List Word64) : Nat := tmBits m 0 38 10
def tmDst (m : List Word64) : Nat := tmBits m 0 16 16
def tmSrc (m : List Word64) : Nat := tmBits m 0 0 16
def tmTxid (m : List Word64) : Nat := tmBits m 1 48 16
/-- BODY of W1. -/
def tmBody (m : List Word64) : Nat := tmBits m 1 0 48

end Sys2Proof

namespace Sys2Proof.Machine

/-! Message types (Table 14.4) with their virtual channels. -/

def mtLookup : Nat := 0x10
def mtBkrd : Nat := 0x11
def mtLookrsp : Nat := 0x20
def mtAck : Nat := 0x21
def mtErr : Nat := 0x22
def mtRedirect : Nat := 0x23
def mtUpdate : Nat := 0x30
def mtStepend : Nat := 0x31
def mtMigcommit : Nat := 0x32
def mtMigabort : Nat := 0x33
def mtBkwr : Nat := 0x40
def mtBkdata : Nat := 0x41
def mtMigcopy : Nat := 0x42
def mtCapx : Nat := 0x50
def mtLenprobe : Nat := 0x51
def mtLenecho : Nat := 0x52
def mtPing : Nat := 0x60
def mtPong : Nat := 0x61

/-- Virtual channel of a message type; none for a reserved type. -/
def vcOf (mt : Nat) : Option Nat :=
  if mt = 0x10 ∨ mt = 0x11 then some 0
  else if 0x20 ≤ mt ∧ mt ≤ 0x23 then some 1
  else if 0x30 ≤ mt ∧ mt ≤ 0x33 then some 2
  else if 0x40 ≤ mt ∧ mt ≤ 0x42 then some 3
  else if 0x50 ≤ mt ∧ mt ≤ 0x52 then some 4
  else if mt = 0x60 ∨ mt = 0x61 then some 5
  else none

/-- ERR causes (Table 14.4). -/
def causeNone : Nat := 0
def causeUnreachable : Nat := 1
def causeTtl : Nat := 2
def causeUnsupported : Nat := 3

/-! ### CRC -/

/-- n steps of an unreflected 64-bit CRC register. -/
def crc64Bits (r : Word64) : Nat → Word64
  | 0 => r
  | n + 1 => crc64Bits (if r.getLsbD 63 then (r <<< 1) ^^^ 0x42F0E1EBA9EA3693 else r <<< 1) n

/-- CRC-64 of bytes in address order (R404). -/
def crc64 (bs : List Byte) : Word64 :=
  ~~~(bs.foldl (fun r b => crc64Bits (r ^^^ (BitVec.ofNat 64 b.toNat <<< 56)) 8) (BitVec.allOnes 64))

def crc32cBits (r : Word32) : Nat → Word32
  | 0 => r
  | n + 1 => crc32cBits (if r.getLsbD 0 then (r >>> 1) ^^^ 0x82F63B78 else r >>> 1) n

/-- CRC-32C of bytes (R406). -/
def crc32c (bs : List Byte) : Word32 :=
  ~~~(bs.foldl (fun r b => crc32cBits (r ^^^ BitVec.ofNat 32 b.toNat) 8) (BitVec.allOnes 32))

/-- Definition digest of a table: TABLE_ID, VIS, OPT, F16, WMASK, DIM_M1 of Q0, and Q1 (R406). -/
def defsum (w : List Word64) : Word32 :=
  let q0 := qWord w 0 &&& packBits [(52, 12, 0xFFF), (36, 4, 0xF), (16, 15, 0x7FFF)]
  crc32c (leBytes 8 q0.toNat ++ leBytes 8 (qWord w 1).toNat)

/-! ### This device, routes -/

def Link.up (l : Link) : Bool := l.state = 2

def Dev.anyUp (d : Dev) : Bool := d.tr.links.any fun p => p.2.up

/-- This device's ID: as taken at the last link-up, or the setting while no link is up (R414). -/
def Dev.devId (d : Dev) : Nat := if d.anyUp then d.tr.id else d.od 0x400001 0

/-- Links a bundle holds (R416). -/
def Dev.bundleUp (d : Dev) (b : Nat) : List Nat :=
  (List.range 36).filter fun n => (d.od (0x400301 + b) 0).testBit n && (d.lnk n).up

/-- The link a code names for a message, if one is UP (R415, R416). -/
def Dev.codeLink (d : Dev) (code dst txid : Nat) : Option Nat :=
  if code < 36 then (if (d.lnk code).up then some code else none)
  else if code < 0x2C then
    let ms := d.bundleUp (code - 36)
    if ms.isEmpty then none else ms[(dst * 0x9E37 + txid) % 65536 % ms.length]?
  else none

/-- The entry for a destination: group table for another group, member table within this one (R415). -/
def Dev.routeEntry (d : Dev) (dst : Nat) : Nat :=
  let me := d.devId
  if dst / 256 ≠ me / 256 then d.od 0x400100 0 / 2 ^ (32 * (dst / 256)) % 2 ^ 32
  else d.od 0x400200 0 / 2 ^ (32 * (dst % 256)) % 2 ^ 32

/-- The link a message takes: PRIMARY, ALT1, ALT2 (R415). -/
def Dev.route (d : Dev) (dst txid : Nat) : Option Nat :=
  let e := d.routeEntry dst
  if e.testBit 31 then
    [field e 18 6, field e 12 6, field e 6 6].findSome? fun c => d.codeLink c dst txid
  else none

/-! ### Messages out -/

/-- A message of this device: W0 with LEN from the words, TTL and PHASE set at sending (R405, R417). -/
def mkMsg (mt dst src txid body : Nat) (rest : List Word64) : List Word64 :=
  packBits [(56, 8, mt), (53, 3, (vcOf mt).getD 0), (38, 10, 2 + rest.length), (16, 16, dst), (0, 16, src)] ::
    packBits [(48, 16, txid), (0, 48, body)] :: rest

/-- W0 with TTL and PHASE replaced. -/
def setHop (m : List Word64) (ttl phase : Nat) : List Word64 :=
  match m with
  | [] => []
  | w :: ws => ((w &&& ~~~(packBits [(48, 5, 31)])) ||| packBits [(48, 4, ttl), (52, 1, phase)]) :: ws

/-- Credit pool of a message (R410). -/
def poolOf (m : List Word64) : Nat :=
  let vc := tmVc m
  if vc = 4 then 12
  else
    let v := if vc = 2 then (if tmType m = mtStepend || (tmType m = mtUpdate && qBit m 3 63) then 3 else 2)
      else if vc = 3 then 4 else vc
    2 * v + tmPhase m

/-- A flit: header, 31 words, CRC (Table 14.2). -/
def flitBits (hdr : Word64) (words : List Word64) : Word64 := crc64 (wordBytes (hdr :: words))

/-- 31 words of a message area, padded. -/
def padFlit (ws : List Word64) : List Word64 := ws ++ List.replicate (31 - ws.length) 0

/-- The pool whose words this end returns next, and their number (R404). -/
def Link.creditDue (l : Link) : Nat × Nat :=
  match l.owed.find? fun p => p.2 ≠ 0 with
  | some p => (p.1, Nat.min p.2 8191)
  | none => (15, 0)

/-- Send one flit of link n as it stands now: a header with ACKSEQ and returned credits. NAK carries the sequence number
expected next. -/
def Dev.flitOut (d : Dev) (n : Nat) (f : FlitRec) (bad : Bool) : Dev :=
  let l := d.lnk n
  let (pool, ws) := l.creditDue
  let hdr := packBits [(52, 12, f.fseq), (40, 12, (l.rxSeq + 4095) % 4096), (38, 2, f.kind), (33, 5, f.fstart), (29, 4, pool),
    (16, 13, ws)]
  let crc := flitBits hdr (padFlit f.words)
  let d1 := d.emit (.flit n (hdr :: padFlit f.words ++ [if bad then ~~~crc else crc]))
  d1.setLnk n { l with owed := if pool = 15 then l.owed else Map.put l.owed pool (Map.get 0 l.owed pool - ws) }

/-- Split words into message areas. -/
def chunks31 : Nat → List Word64 → List (List Word64)
  | 0, _ => []
  | _, [] => []
  | n + 1, ws => ws.take 31 :: chunks31 n (ws.drop 31)

/-- A new sequenced flit: kept in the retry buffer, sent now unless the link retrains. An armed INJECT_CRC spoils it. -/
def Dev.flitNew (d : Dev) (n kind fstart : Nat) (ws : List Word64) : Dev :=
  let l := d.lnk n
  let f : FlitRec := { fseq := l.txSeq, kind := kind, fstart := fstart, words := ws }
  let bad := l.injectCrc && kind = 0
  let d1 := d.setLnk n { l with txSeq := (l.txSeq + 1) % 4096, retry := l.retry ++ [f], injectCrc := l.injectCrc && !bad }
  if l.state = 3 then d1 else d1.flitOut n f bad

/-- A message enters its flits (R404). -/
def Dev.flitMsg (d : Dev) (n : Nat) (m : List Word64) : Dev :=
  let d1 := d.updLnk n fun l => { l with txWords := l.txWords + BitVec.ofNat 64 m.length }
  ((chunks31 20 m).foldl (fun (p : Dev × Bool) ws => (p.1.flitNew n 0 (if p.2 then 0 else 31) ws, false)) (d1, true)).1

/-- Room for a message: credit in its pool and retry flits; a link in training has no depth yet. -/
def Link.room (l : Link) (m : List Word64) : Bool :=
  m.length ≤ Map.get 0 l.credit (poolOf m) && l.retry.length + (m.length + 30) / 31 ≤ (if l.depth = 0 then 2048 else l.depth)

/-- Words of a received message go back to the sender's pool, with the next flit (R410); on a link that has gone down none
do. -/
def Dev.giveBack (d : Dev) (n pool len : Nat) : Dev :=
  let l := d.lnk n
  if l.state = 0 || 3 < l.state then d
  else
  let d1 := d.setLnk n { l with owed := Map.put l.owed pool (Map.get 0 l.owed pool + len) }
  if l.up then d1.flitNew n 1 31 [] else d1

/-- Words a waiting message's going returns on the link it came on. -/
def Dev.passed (d : Dev) (m : OutMsg) : Dev :=
  match m.came with
  | some (n, pool) => d.giveBack n pool m.words.length
  | none => d

/-- The next of a pool's waiting messages: transit and local ones take turns (R409). -/
def Link.poolNext (l : Link) (pool : Nat) : Option OutMsg :=
  let ms := l.outq.filter fun x => poolOf x.words = pool
  let own := ms.find? fun x => x.came.isNone
  let transit := ms.find? fun x => x.came.isSome
  if Map.get false l.lastOwn pool then transit.orElse fun _ => own else own.orElse fun _ => transit

/-- The message of a virtual channel that can go now. -/
def Link.nextOf (l : Link) (vc : Nat) : Option OutMsg :=
  l.outq.find? fun x => tmVc x.words = vc && l.poolNext (poolOf x.words) = some x && l.room x.words

/-- A round of the weighted round robin of REQ, UPD and BULK with weights 2, 2 and 4 (R409). -/
def wrrRound : List Nat := [0, 0, 2, 2, 3, 3, 3, 3]

/-- The message whose turn it is, and the place of the turn in its round. -/
def Link.wrr (l : Link) : Option (OutMsg × Nat) :=
  (List.range 8).findSome? fun k =>
    (l.nextOf (wrrRound.getD ((l.turn + k) % 8) 0)).map fun x => (x, (l.turn + k) % 8)

/-- Egress order (R409): CTRL, then RSP, then the round robin, with every sixteenth turn for MGMT. -/
def Link.pick (l : Link) : Option (OutMsg × Link) :=
  match (l.nextOf 4).orElse fun _ => l.nextOf 1 with
  | some x => some (x, l)
  | none =>
    let mgmt := (l.nextOf 5).map fun x => (x, { l with mgmtTurn := 0 })
    let data := l.wrr.map fun p => (p.1, { l with turn := (p.2 + 1) % 8, mgmtTurn := (l.mgmtTurn + 1) % 16 })
    if l.mgmtTurn = 15 then mgmt.orElse fun _ => data else data.orElse fun _ => mgmt

/-- Waiting messages of a link go while there is room. -/
def Dev.pumpOut (d : Dev) (n : Nat) : Nat → Dev
  | 0 => d
  | k + 1 =>
    match (d.lnk n).pick with
    | none => d
    | some (m, l) =>
      let p := poolOf m.words
      let l1 := { l with outq := eraseFirst m l.outq, credit := Map.put l.credit p (Map.get 0 l.credit p - m.words.length)
                         lastOwn := Map.put l.lastOwn p m.came.isNone }
      Dev.pumpOut (((d.setLnk n l1).flitMsg n m.words).passed m) n k

def Dev.linkPump (d : Dev) (n : Nat) : Dev := d.pumpOut n (d.lnk n).outq.length

/-- Send a message on a link, or let it wait there for credit (R410). -/
def Dev.linkPass (d : Dev) (n : Nat) (m : OutMsg) : Dev := (d.updLnk n fun l => { l with outq := l.outq ++ [m] }).linkPump n

/-- A message of this device's own. -/
def Dev.linkSend (d : Dev) (n : Nat) (m : List Word64) : Dev := d.linkPass n { words := m, came := none }

/-- A message for this device, to be served by the command of its type. -/
def Dev.deliverMsg (d : Dev) (m : TMsg) : Dev := { d with tr := { d.tr with inbox := d.tr.inbox ++ [m] } }

/-- Link number of messages that come from this device itself. -/
def ownLink : Nat := 36

/-- ERR in answer to a message (R419); `dst` is the message's originator. -/
def errMsg (me : Nat) (m : List Word64) (st cause : Nat) : List Word64 :=
  mkMsg mtErr (tmSrc m) me (tmTxid m) (st * 2 ^ 40 + cause * 2 ^ 32 + me * 2 ^ 16) []

/-- Send a message by its route (R415-R417, R419); one in transit returns the words of the link it came on when it goes.
Without an UP link an RSP is dropped, and for any other the originator gets ERR UNREACHABLE, at once when it is this device. -/
def Dev.sendTo (d0 : Dev) (ttl : Nat) (m : List Word64) (came : Option (Nat × Nat) := none) : Dev :=
  let dst := tmDst m
  let me := d0.devId
  match d0.route dst (tmTxid m) with
  | some n => d0.linkPass n { words := setHop m ttl (bit (dst / 256 = me / 256)), came := came }
  | none =>
    let d := d0.passed { words := m, came := came }
    if tmVc m = 1 || tmVc m = 5 then d
    else
      let d1 := { d with tr := { d.tr with unreach := d.tr.unreach + 1 } }
      let e := errMsg me m stPeerError causeUnreachable
      if tmSrc m = me then d1.deliverMsg { link := ownLink, words := e }
      else match d1.route (tmSrc m) (tmTxid m) with
        | some n => d1.linkSend n (setHop e (d.od 0x400002 12) (bit (tmSrc m / 256 = me / 256)))
        | none => d1

/-- A message this device originates or answers with. -/
def Dev.sendMsg (d : Dev) (m : List Word64) : Dev :=
  if tmDst m = d.devId then d.deliverMsg { link := ownLink, words := m } else d.sendTo (d.od 0x400002 12) m

/-- ACK of this device to a message, with a status. -/
def Dev.ackMsg (d : Dev) (m : List Word64) (st : Nat) : Dev :=
  d.sendMsg (mkMsg mtAck (tmSrc m) d.devId (tmTxid m) (st * 2 ^ 40) [])

/-! ### Transactions -/

def Dev.tx (d : Dev) (i : Nat) : Option Tx := Map.get none d.tr.txs i

/-- A TXID not in use, from i on. -/
def Dev.findTx (d : Dev) (i : Nat) : Nat → Nat
  | 0 => i % 65536
  | n + 1 => if (d.tx (i % 65536)).isNone then i % 65536 else d.findTx (i + 1) n

/-- Open a transaction and send its message. -/
def Dev.request (d : Dev) (use : TxUse) (mt dst body : Nat) (rest : List Word64) : Dev :=
  let t := d.findTx d.tr.nextTx d.tr.txs.length
  let m := mkMsg mt dst d.devId t body rest
  ({ d with tr := { d.tr with txs := Map.put d.tr.txs t (some { use := use, words := m }), nextTx := (t + 1) % 65536 } }).sendMsg m

/-- Close a transaction. -/
def Dev.closeTx (d : Dev) (t : Nat) : Dev :=
  { d with tr := { d.tr with txs := d.tr.txs.filter fun p => p.1 ≠ t } }

/-- Take a served message out of the inbox, and return its credit; one handed in from outside was not there. -/
def Dev.tookMsg (d : Dev) (m : TMsg) : Dev :=
  if d.tr.inbox.contains m then
    let d1 := { d with tr := { d.tr with inbox := eraseFirst m d.tr.inbox } }
    if m.link < 36 then d1.giveBack m.link (poolOf m.words) m.words.length else d1
  else d

/-! ### Relays (R422) -/

/-- Messages of quarter q's relay buffer that still wait for a link. -/
def Dev.relayed (d : Dev) (q : Nat) : List (List Word64) :=
  (Map.get [] d.tr.relay q).filter fun m => (List.range 36).any fun n => (d.lnk n).outq.any fun x => setHop x.words 0 0 = m

/-- Relay a message to a new owner; with the buffer full its originator is redirected. -/
def Dev.relayMsg (d : Dev) (q : Nat) (m : List Word64) (dev : Nat) : Dev :=
  let ws := d.relayed q
  if 512 ≤ ws.length then
    { d with tr := { d.tr with redirects := d.tr.redirects + 1 } }.sendMsg (mkMsg mtRedirect (tmSrc m) d.devId (tmTxid m) (dev * 2 ^ 32) [])
  else { d with tr := { d.tr with relay := Map.put d.tr.relay q (ws ++ [setHop m 0 0]) } }.sendTo (d.od 0x400002 12) m

end Sys2Proof.Machine
end

