-- ==== Sys2Proof/Machine/TableOps.lean ====
section
/-! DEFINITION. Tables and rows (R75-R83, R98, R141, R145): fields of the images, where a row lies, its stored image and
its decoding (R79, R91), epochs (R105-R110), heat and shard load (R102, R103). -/

namespace Sys2Proof

/-! ### TABLE image (Table 3.1) -/

def tbId (w : List Word64) : Nat := qBits w 0 52 12
def tbCtx (w : List Word64) : Nat := qBits w 0 40 12
def tbEpoch (w : List Word64) : Bool := qBit w 0 39
def tbOpt (w : List Word64) : Nat := qBits w 0 36 3
def tbMerge (w : List Word64) : Bool := qBit w 0 35
def tbDeterm (w : List Word64) : Bool := qBit w 0 34
def tbCarafe (w : List Word64) : Bool := qBit w 0 33
def tbSketch (w : List Word64) : Bool := qBit w 0 32
def tbDirect (w : List Word64) : Bool := qBit w 0 31
def tbF16 (w : List Word64) : Bool := qBit w 0 30
def tbWmask (w : List Word64) : Nat := qBits w 0 26 4
def tbDim (w : List Word64) : Nat := qBits w 0 16 10 + 1
def tbShards (w : List Word64) : Nat := qBits w 0 0 16 + 1
def tbRows (w : List Word64) : Nat := qBits w 1 0 40
def tbFirst (w : List Word64) : Nat := qBits w 2 0 40
def tbCount (w : List Word64) : Nat := qBits w 3 0 40
def tbRowmap (w : List Word64) : Word64 := qWord w 4
def tbShardmap (w : List Word64) : Word64 := qWord w 5
def tbCarafeDa (w : List Word64) : Word64 := qWord w 6
def tbDramSeg (w : List Word64) : Nat := qBits w 7 61 3
def tbResSeg (w : List Word64) : Nat := qBits w 7 58 3
def tbCarafeLog (w : List Word64) : Nat := qBits w 7 53 5
def tbSampleLog (w : List Word64) : Nat := qBits w 7 48 5
def tbDirClass (w : List Word64) : Nat := qBits w 7 46 2
def tbDirSize (w : List Word64) : Nat := qBits w 7 40 6
def tbDirPool (w : List Word64) : Nat := qBits w 7 39 1

/-- Number of width classes allowed. -/
def tbClasses (w : List Word64) : Nat := ((List.range 4).filter (tbWmask w).testBit).length
/-- WMASK is W1 alone. -/
def tbBinary (w : List Word64) : Bool := tbWmask w = 8

end Sys2Proof

namespace Sys2Proof.Machine

/-! ### Row images (Table 3.2) and slots (R80, Table 4.3) -/

def ceilDiv (a b : Nat) : Nat := (a + b - 1) / b
def roundUp (a b : Nat) : Nat := ceilDiv a b * b

/-- Image size of a width class: 0 W16, 1 W8, 2 W4, 3 W1. -/
def imageSize (wc d : Nat) : Nat :=
  match wc with
  | 0 => 2 * d
  | 1 => d + ceilDiv d 32
  | 2 => ceilDiv d 2 + ceilDiv d 32
  | _ => ceilDiv d 8

/-- Offset A of the optimiser state. -/
def stateOff (wc d : Nat) : Nat := roundUp (imageSize wc d) 8

/-- Bytes a slot needs: image, and state at A where the optimiser keeps one. -/
def slotNeed (opt wc d : Nat) : Nat :=
  let a := stateOff wc d
  match opt with
  | 2 => a + 8
  | 3 => a + 4 * d
  | 4 => a + 2 * a
  | 5 => a + 8 * d
  | _ => imageSize wc d

/-- Format of a class's elements. -/
def classFmt (f16 : Bool) (wc : Nat) : FloatFmt :=
  match wc with
  | 0 => if f16 then .fp16 else .bf16
  | 1 => .e4m3
  | _ => .e2m1

def byteAt (bs : List Byte) (i : Nat) : Nat := (bs.getD i 0).toNat
def leAt (bs : List Byte) (i n : Nat) : Nat := leNat ((bs.drop i).take n)

/-- Exact value of element i of a stored image (R79, R187). W1 elements are 0 and 1. -/
def rowElem (f16 : Bool) (wc d : Nat) (img : List Byte) (i : Nat) : Val :=
  match wc with
  | 0 => (classFmt f16 0).decode (leAt img (2 * i) 2)
  | 1 => mxValue .e4m3 (byteAt img (d + i / 32)) (byteAt img i)
  | 2 => mxValue .e2m1 (byteAt img (ceilDiv d 2 + i / 32)) (byteAt img (i / 2) / 16 ^ (i % 2) % 16)
  | _ => Val.ofInt (byteAt img (i / 8) / 2 ^ (i % 8) % 2 : Nat)

def decodeRow (f16 : Bool) (wc d : Nat) (img : List Byte) : List Val := (List.range d).map (rowElem f16 wc d img)

/-- Blocks of 32 elements. -/
def blocks32 : Nat → List Val → List (List Val)
  | 0, _ => []
  | _, [] => []
  | n + 1, xs => xs.take 32 :: blocks32 n (xs.drop 32)

/-- Pack 4-bit codes, two a byte. -/
def packNibbles : List Nat → List Byte
  | [] => []
  | [a] => [BitVec.ofNat 8 a]
  | a :: b :: rest => BitVec.ofNat 8 (a + 16 * b) :: packNibbles rest

def packBits8 : Nat → List Nat → List Byte
  | 0, _ => []
  | _, [] => []
  | n + 1, xs => BitVec.ofNat 8 (xs.take 8 |>.foldr (fun b acc => b + 2 * acc) 0) :: packBits8 n (xs.drop 8)

/-- Stored image of values in a class (R124 stage 3, R188). A W1 element is 1 when its value is above 0. -/
def encodeRow (f16 : Bool) (wc : Nat) (xs : List Val) : List Byte :=
  match wc with
  | 0 => xs.flatMap fun v => leBytes 2 ((classFmt f16 0).round true v)
  | 1 =>
    let bs := (blocks32 xs.length xs).map (mxEncode .e4m3)
    (bs.flatMap fun p => p.2.map (BitVec.ofNat 8)) ++ bs.map fun p => BitVec.ofNat 8 p.1
  | 2 =>
    let bs := (blocks32 xs.length xs).map (mxEncode .e2m1)
    packNibbles (bs.flatMap (·.2)) ++ bs.map fun p => BitVec.ofNat 8 p.1
  | _ => packBits8 xs.length (xs.map fun v => if Val.zero.lt v then 1 else 0)

/-! ### Row-map entries (Table 3.3) -/

structure RowEnt where
  valid  : Bool
  fwd    : Bool
  carafe : Bool
  wclass : Nat
  slotsz : Nat
  pool   : Nat
  slot   : Nat
  deriving DecidableEq, Repr

def RowEnt.ofWord (w : Nat) : RowEnt :=
  { valid := w.testBit 63, fwd := w.testBit 62, carafe := w.testBit 61, wclass := field w 59 2, slotsz := field w 53 6,
    pool := field w 52 1, slot := field w 0 43 }

def RowEnt.word (e : RowEnt) : Word64 :=
  packBits [(63, 1, bit e.valid), (62, 1, bit e.fwd), (61, 1, bit e.carafe), (59, 2, e.wclass), (53, 6, e.slotsz),
    (52, 1, e.pool), (0, 43, e.slot)]

/-- The forward entry of a device move to `dev` (R141). -/
def forwardEntry (dev : Nat) : RowEnt :=
  { valid := true, fwd := true, carafe := false, wclass := 0, slotsz := 0, pool := 1, slot := (2 ^ 27 - 1) * 2 ^ 16 + dev }

/-- New owner of a forward entry. -/
def RowEnt.forwardTo (e : RowEnt) : Option Nat :=
  if e.valid && e.fwd && e.wclass = 0 && e.slotsz = 0 && e.pool = 1 && e.slot / 2 ^ 16 = 2 ^ 27 - 1 then some (e.slot % 2 ^ 16)
  else none

def RowEnt.bytes (e : RowEnt) : Nat := 32 * (e.slotsz + 1)

/-! ### The table store -/

def Dev.updTable (d : Dev) (t : Nat) (f : Table → Table) : Dev :=
  match d.table t with
  | some x => d.setTable t (some (f x))
  | none => d

/-- Hash constant of the Carafe, the sketch and the predictor (R98, R103, R128). -/
def goldenHash (x : Nat) : Nat := x * 0x9E3779B97F4A7C15 % 2 ^ 64

/-- Pre-images of a row, newest first. -/
def Dev.preOf (d : Dev) (t row : Nat) : List PreImage := d.tb.pre.filter fun p => p.table = t && p.row = row

/-- The stamp of a row of several sectors: one not in use where some sector has one, as after a write that is no
update's (R111), else the earliest (R106, R109; notes/assumptions 129). -/
def Table.rowStamp (t : Table) (is : List SectorMeta) : Nat :=
  match is.find? fun i => !t.inUse i.epoch with
  | some i => i.epoch
  | none => is.tail.foldl (fun s i => if earlier i.epoch s then i.epoch else s) ((is.map (·.epoch)).headD 0)

/-- Status an ended GATHER completes with: SNAPSHOT_INCOMPLETE for one that ran to its end while a pre-image of its epoch
or a later one is lost (R96, R110). -/
def Dev.finalStatus (d : Dev) (r : Run) : Nat :=
  let lost : Bool := descType r.w = tyGather && match (descTable r.w).bind d.table with
    | some t => tbEpoch t.w && t.loss.any fun u => u = r.epoch || earlier r.epoch u
    | none => false
  if lost && ranToEnd r.status then stSnapshot else r.status

/-! ### Where a row lies -/

/-- Access by segment number of the table's context. -/
abbrev SegBy := Nat → SegAcc

/-- A read of n bytes at a DA, through the segment the DA names. -/
def readDa (ac : SegBy) (da : Word64) (off n : Nat) : Eng (Except ErrStatus (List Byte × Bool × List SectorMeta)) :=
  engReadBytes (ac (daSeg da)) (daOff da + off) n

/-- What becomes of one index. `fail` ends the descriptor; `bad` is a bad row of R86; `poison` poisons its bag; `ent` is
a row of this device with the address of its entry (none for a DIRECT table). -/
inductive Where
  | fail (st : Nat)
  | bad (st : Nat)
  | poison
  | remote (dev : Nat) (fwded : Bool)
  | ent (e : RowEnt) (at_ : Option Word64)
  deriving DecidableEq, Repr

/-- Shard-map entries k to k + n - 1, in one read: FIRST_ROW and DEVICE_ID of each (R83). -/
def shardEntries (ac : SegBy) (w : List Word64) (k n : Nat) : Eng (Except Where (List (Nat × Nat))) := do
  match ← readDa ac (tbShardmap w) (8 * k) (8 * n) with
  | .error e => return .error (.fail (errStat e))
  | .ok (bs, p, _) =>
    if p then return .error .poison
    return .ok ((List.range n).map fun i => (field (leAt bs (8 * i) 8) 24 40, field (leAt bs (8 * i) 8) 8 16))

def shardEntry (ac : SegBy) (w : List Word64) (k : Nat) : Eng (Except Where (Nat × Nat)) := do
  match ← shardEntries ac w k 1 with
  | .error e => return .error e
  | .ok xs => return .ok (xs.headD (0, 0))

/-- Binary search: entry lo, with what it holds, covers r, entry hi lies beyond it. Each read halves the range, so 16 serve
65,536 shards; entry 0, never a middle, is read together with entry 1 (R83). -/
def shardSearch (ac : SegBy) (w : List Word64) (r : Nat) : Nat → Nat → Nat × Nat → Nat → Eng (Except Where (Nat × Nat × Nat))
  | 0, lo, x, _ => return .ok (lo, x.1, x.2)
  | n + 1, lo, x, hi => do
    if hi ≤ lo + 1 then return .ok (lo, x.1, x.2)
    let mid := (lo + hi) / 2
    if mid = 1 then
      match ← shardEntries ac w 0 2 with
      | .error e => return .error e
      | .ok ys =>
        let y := ys.getD 1 (0, 0)
        if r < y.1 then return .ok (0, ys.headD (0, 0)) else shardSearch ac w r n 1 y hi
    else
      match ← shardEntry ac w mid with
      | .error e => return .error e
      | .ok y => if r < y.1 then shardSearch ac w r n lo x mid else shardSearch ac w r n mid y hi

/-- Shard of a row: entry number, FIRST_ROW, device. One shard is this device's. -/
def shardOf (ac : SegBy) (w : List Word64) (me r : Nat) : Eng (Except Where (Nat × Nat × Nat)) :=
  if tbShards w = 1 then return .ok (0, 0, me) else shardSearch ac w r 17 0 (0, 0) (tbShards w)

/-- DA of a row's entry: in the row map, or in a guest row map (R81, R145). -/
def Dev.entryDa (d : Dev) (w : List Word64) (k first r : Nat) : Option Word64 :=
  if tbFirst w ≤ r && r < tbFirst w + tbCount w then some (tbRowmap w + BitVec.ofNat 64 (8 * (r - tbFirst w)))
  else (d.tb.guests.find? fun g => g.table = tbId w && g.entry = k).map fun g => g.da + BitVec.ofNat 64 (8 * (r - first))

/-- Access through a guest row map's segment: as the map was attached. -/
def Dev.guestAcc (d : Dev) (ac : SegBy) (w : List Word64) (r : Nat) (da : Word64) : SegAcc :=
  let a := ac (daSeg da)
  if tbFirst w ≤ r && r < tbFirst w + tbCount w then a
  else match d.tb.guests.find? fun g => g.table = tbId w && daSeg g.da = daSeg da with
    | some g => { sg := g.seg, acc := { a.acc with seg := daSeg da, gen := g.gen, rt := g.seg.region } }
    | none => a

/-- The entry of a row that this device owns, with its checks (R80, R81, R85, R89). -/
def rowEntry (ac : SegBy) (w : List Word64) (k first r : Nat) : Eng Where := do
  let d ← get
  let dim := tbDim w
  let check (e : RowEnt) (at_ : Option Word64) : Where :=
    let sa := ac (if e.pool = 0 then tbDramSeg w else tbResSeg w)
    if !e.valid then .bad stRowMissing
    else match e.forwardTo with
      | some dev => .remote dev true
      | none =>
        if !(tbWmask w).testBit e.wclass then .bad stFormat
        else if e.bytes < slotNeed (tbOpt w) e.wclass dim then .bad stRowMissing
        else if !sa.sg.valid || sa.sg.limit < 32 * e.slot + e.bytes - 1 then .bad stRowMissing
        else .ent e at_
  if tbDirect w then
    if tbFirst w ≤ r && r < tbFirst w + tbCount w then
      return check { valid := true, fwd := false, carafe := false, wclass := tbDirClass w, slotsz := tbDirSize w,
                     pool := tbDirPool w, slot := (r - tbFirst w) * (tbDirSize w + 1) } none
    else return .bad stRowMissing
  else
    match d.entryDa w k first r with
    | none => return .bad stRowMissing
    | some da =>
      set { d with tb := { d.tb with rowReqs := d.tb.rowReqs + 1 } }
      match ← engReadBytes (d.guestAcc ac w r da) (daOff da) 8 with
      | .error e => return .fail (errStat e)
      | .ok (bs, p, _) =>
        if p then return .poison
        return check (RowEnt.ofWord (leNat bs)) (some da)

/-- Resolve one index that is no pad (R86, R89): its owner, then its entry. A request forwarded here finds an entry that
this device holds whatever its shard map still says, for during a move the maps differ (R141, R142, R146). -/
def resolveRow (ac : SegBy) (w : List Word64) (me r : Nat) (fwded : Bool) : Eng (Nat × Where) := do
  if tbRows w ≤ r then return (0, .bad stIndexRange)
  match ← shardOf ac w me r with
  | .error e => return (0, e)
  | .ok (k, first, dev) =>
    if dev ≠ me && !(fwded && ((← get).entryDa w k first r).isSome) then return (k, .remote dev false)
    return (k, ← rowEntry ac w k first r)

/-- A step whose row requests are no GATHER's: their counter stays (R115). -/
def uncounted {α : Type} (x : Eng α) : Eng α := do
  let n := (← get).tb.rowReqs
  let y ← x
  modify fun (d : Dev) => { d with tb := { d.tb with rowReqs := n } }
  return y

/-! ### Reading a row -/

/-- Segment and offset of a slot. -/
def slotAcc (ac : SegBy) (w : List Word64) (e : RowEnt) : SegAcc := ac (if e.pool = 0 then tbDramSeg w else tbResSeg w)

/-- A row as a lookup gets it. -/
inductive Served
  | fail (st : Nat)
  | poison
  | row (wclass : Nat) (image : List Byte) (carafe pre : Bool)
  deriving DecidableEq, Repr

/-- Entry words of a Carafe bucket: index of the entry for row r (Table 3.5). -/
def bucketFind (bs : List Byte) (r : Nat) : Option Nat :=
  (List.range 4).find? fun i => (leAt bs (16 * i) 8).testBit 63 && field (leAt bs (16 * i) 8) 12 40 = r

def carafeBucket (w : List Word64) (r : Nat) : Nat := goldenHash r / 2 ^ (64 - tbCarafeLog w)

/-- The home holds the row's lock for an update in memory (R117). -/
def Dev.updLocked (d : Dev) (t row : Nat) : Bool := d.tb.locks.any fun l => l.table = t && l.row = row

/-- The home holds the row's lock for an update or for a commit (R117, R140). -/
def Dev.rowLocked (d : Dev) (t row : Nat) : Bool :=
  d.updLocked t row || d.tb.migr.any fun m => m.table = t && m.row = row && m.locked

/-- A replica serves a lookup of epoch `ep` when its stamp does (R99, R105; notes/assumptions 130). -/
def Dev.replicaServes (d : Dev) (t : Nat) (ep : Option Nat) (stamp : Nat) : Bool :=
  match ep, d.table t with
  | some b, some tb => tb.before stamp b
  | _, _ => true

/-- Serve a row of this device, once its lock is free (R117): Carafe, then the home copy in the version of epoch `ep`
(R89, R105, R109). A bucket that cannot be read, or reads as poisoned, is a miss (notes/assumptions 131). -/
def serveRow (ac : SegBy) (t : Nat) (w : List Word64) (r : Nat) (e : RowEnt) (ep : Option Nat) (skipCar : Bool) : Eng Served := do
  if (← get).rowLocked t r then throw .busy
  let n := imageSize e.wclass (tbDim w)
  let car : Option (Nat × Nat) ←
    if tbCarafe w && e.carafe && !skipCar then do
      match ← readDa ac (tbCarafeDa w) (64 * carafeBucket w r) 64 with
      | .error _ => pure none
      | .ok (bs, p, _) =>
        modify fun (d : Dev) => { d with tb := { d.tb with rowReqs := d.tb.rowReqs + 1 } }
        pure (if p then none else (bucketFind bs r).map fun i =>
          (field (leAt bs (16 * i + 8) 8) 0 43, field (leAt bs (16 * i + 8) 8) 48 16))
    else pure none
  let d0 ← get
  match car.filter fun x => d0.replicaServes t ep x.2 with
  | some (rep, _) =>
    modify fun (d : Dev) => { d with tb := { d.tb with rowReqs := d.tb.rowReqs + 1 } }
    match ← engReadBytes (ac (daSeg (tbCarafeDa w))) (32 * rep) n with
    | .error x => return .fail (errStat x)
    | .ok (bs, p, _) =>
      if p then return .poison
      modify fun (d : Dev) => { d with tb := { d.tb with carHits := d.tb.carHits + 1 } }
      return .row e.wclass bs true false
  | none =>
    if tbCarafe w && e.carafe && !skipCar && car.isNone then
      modify fun (d : Dev) => { d with tb := { d.tb with carMiss := d.tb.carMiss + 1 } }
    modify fun (d : Dev) => { d with tb := { d.tb with rowReqs := d.tb.rowReqs + 1 } }
    match ← engReadBytes (slotAcc ac w e) (32 * e.slot) n with
    | .error x => return .fail (errStat x)
    | .ok (bs, p, is) =>
      let d ← get
      match ep, d.table t with
      | some b, some tb =>
        if tb.before (tb.rowStamp is) b then return (if p then .poison else .row e.wclass bs false false)
        -- each pre-image examined is one row request
        let new := (d.preOf t r).takeWhile fun x => !tb.before x.stamp b
        let found := ((d.preOf t r).drop new.length).head?
        let reqs := d.tb.rowReqs + BitVec.ofNat 64 (new.length + bit found.isSome)
        set { d with tb := { d.tb with preReads := if found.isSome then d.tb.preReads + 1 else d.tb.preReads, rowReqs := reqs } }
        match found with
        | some x =>
          return (if x.poison then .poison else .row x.wclass (x.slot.take (imageSize x.wclass (tbDim w))) false true)
        | none => return (if p then .poison else .row e.wclass bs false false)
      | _, _ => return (if p then .poison else .row e.wclass bs false false)

/-! ### Heat and shard load (R102, R103) -/

/-- Column of sketch row j for a row index. -/
def sketchCol (r j : Nat) : Nat := goldenHash ((r + j * 2 ^ 40) % 2 ^ 64) / 2 ^ 50

/-- Count a lookup at a Grinder: its local shard load, and on every 2^S-th the four sketch counters, saturating. -/
def Dev.countLookup (d : Dev) (g t : Nat) (w : List Word64) (r shard : Nat) : Dev :=
  if !tbSketch w then d
  else
    let lk := 2 ^ 28 * g + 65536 * t + shard
    let sk := 4096 * g + t
    let n := Map.get 0 d.tb.sampled sk + 1
    let sketch :=
      if n % 2 ^ tbSampleLog w = 0 then
        (List.range 4).foldl (fun (m : Map Nat) j =>
          let key := 65536 * t + 16384 * j + sketchCol r j
          Map.put m key (satBits 32 (Map.get 0 m key + 1))) d.tb.sketch
      else d.tb.sketch
    { d with tb := { d.tb with
        localLoad := Map.put d.tb.localLoad lk (Map.get 0 d.tb.localLoad lk + 1)
        sampled := Map.put d.tb.sampled sk n
        sketch := sketch } }

/-- A Grinder's local counts go to the counters (R102). -/
def Dev.flushLoad (d : Dev) (g : Nat) : Dev :=
  let mine := d.tb.localLoad.filter fun p => p.1 / 2 ^ 28 = g
  { d with tb := { d.tb with
      load := mine.foldl (fun (m : Map Word64) p =>
        Map.put m (p.1 % 2 ^ 28) (Map.get 0 m (p.1 % 2 ^ 28) + BitVec.ofNat 64 p.2)) d.tb.load
      localLoad := d.tb.localLoad.filter fun p => p.1 / 2 ^ 28 ≠ g } }

end Sys2Proof.Machine
end

