-- ==== Sys2Proof/Machine/Gather.lean ====
section
/-! DEFINITION. GATHER (R84-R97, R105, R420): its checks at queue time, the service of one index, pooling, outputs, and its
end, for descriptors of queues, mailbox lookups (R376) and GSUBs (R177). -/

namespace Sys2Proof

/-! ### GATHER image (Table 3.4) -/

def gaTable (w : List Word64) : Nat := qBits w 5 52 12
def gaPool (w : List Word64) : Nat := qBits w 5 49 3
def gaExact (w : List Word64) : Bool := qBit w 5 48
def gaOutFmt (w : List Word64) : Nat := qBits w 5 46 2
def gaIdx32 (w : List Word64) : Bool := qBit w 5 45
def gaFp8 (w : List Word64) : Bool := qBit w 5 44
def gaSkipCar (w : List Word64) : Bool := qBit w 5 43
def gaNoCount (w : List Word64) : Bool := qBit w 5 42
def gaSkipBad (w : List Word64) : Bool := qBit w 5 41
def gaAccLsb (w : List Word64) : Int := (BitVec.ofNat 8 (qBits w 5 33 8)).toInt
def gaScope (w : List Word64) : Nat := qBits w 5 30 3
def gaStride (w : List Word64) : Nat := qBits w 6 32 32
def gaBags (w : List Word64) : Nat := qBits w 6 0 32
def gaPin (w : List Word64) : Bool := qBit w 7 63
def gaEpoch (w : List Word64) : Nat := qBits w 7 32 16

end Sys2Proof

namespace Sys2Proof.Machine

/-! ### Pooling (R91-R95) -/

/-- FP32 pattern of a value, rounded to nearest even. -/
def toF32 (v : Val) : Nat := FloatFmt.fp32.round false v
/-- Value of an FP32 pattern. -/
def f32 (x : Nat) : Val := FloatFmt.fp32.decode x
/-- Value after decoding to FP32. -/
def asF32 (v : Val) : Val := f32 (toF32 v)

/-- OUTFMT's format: 0 FP32, 1 BF16, 2 FP16. -/
def outFmt : Nat → FloatFmt
  | 0 => .fp32
  | 1 => .bf16
  | _ => .fp16

/-- Ordered pooling of one element: rows with their weights in index order (R92). -/
def poolOrdered (pool : Nat) (F : FloatFmt) : List (Val × Val) → Nat
  | [] => 0
  | (x, wt) :: rest =>
    let n := rest.length + 1
    let acc :=
      match pool with
      | 3 => rest.foldl (fun a p => toF32 ((f32 a).add ((asF32 p.2).mul (asF32 p.1)))) (toF32 ((asF32 wt).mul (asF32 x)))
      | 4 => toF32 (rest.foldl (fun a p => Val.max a (asF32 p.1)) (asF32 x))
      | _ => rest.foldl (fun a p => toF32 ((f32 a).add (asF32 p.1))) (toF32 x)
    let acc := if pool = 2 then FloatFmt.fp32.divRound (f32 acc) (Val.ofInt n) else acc
    F.round false (f32 acc)

/-- Exact pooling of one element, and whether it was clamped (R93, R94). -/
def poolExact (pool : Nat) (F : FloatFmt) (lsb : Int) (xs : List (Val × Val)) : Nat × Bool :=
  match xs with
  | [] => (0, false)
  | (x, _) :: rest =>
    if pool = 4 then (F.round false (rest.foldl (fun a p => Val.max a p.1) x), false)
    else
      let e := xs.foldl (fun a p => Exact.addVal lsb a (if pool = 3 then p.2.mul p.1 else p.1)) Exact.zero
      (Exact.convert F false lsb (if pool = 2 then xs.length else 1) e, e.saturated)

/-- Output of a bag: its bytes, and whether it counts as saturated. -/
def poolBag (w : List Word64) (dim : Nat) (rows : List (List Val × Val)) : List Byte × Bool :=
  let F := outFmt (gaOutFmt w)
  let cols := (List.range dim).map fun i => rows.map fun p => (p.1.getD i Val.zero, p.2)
  let outs := cols.map fun c =>
    if gaExact w then poolExact (gaPool w) F (gaAccLsb w) c else (poolOrdered (gaPool w) F c, false)
  (outs.flatMap fun o => leBytes (F.width / 8) o.1, outs.any (·.2))

/-- Output of one index without pooling (R95). -/
def rawOut (w : List Word64) (f16 : Bool) (wc dim : Nat) (img : List Byte) : List Byte :=
  if gaOutFmt w = 3 then img
  else
    let F := outFmt (gaOutFmt w)
    (decodeRow f16 wc dim img).flatMap fun v => leBytes (F.width / 8) (F.round false v)

/-- Bytes of one output. -/
def outSize (w tb : List Word64) : Nat :=
  if gaOutFmt w = 3 then imageSize (((List.range 4).find? (tbWmask tb).testBit).getD 0) (tbDim tb)
  else tbDim tb * ((outFmt (gaOutFmt w)).width / 8)

def outStep (w tb : List Word64) : Nat := if gaStride w = 0 then outSize w tb else gaStride w

/-! ### Queue-time checks (R85, R105) -/

/-- Segments a table's lookups use, with the ranges translated. -/
def tableUses (tb : List Word64) (skipCar : Bool) : List (Word64 × Nat × Right) :=
  let segDa (s : Nat) : Word64 := BitVec.ofNat 64 (s * 2 ^ 61)
  (if tbDirect tb then [(segDa (if tbDirPool tb = 0 then tbDramSeg tb else tbResSeg tb), 1, Right.read)]
   else [(tbRowmap tb, 8 * tbCount tb, Right.read), (segDa (tbDramSeg tb), 1, Right.read), (segDa (tbResSeg tb), 1, Right.read)]) ++
  (if tbShards tb = 1 then [] else [(tbShardmap tb, 8 * tbShards tb, Right.read)]) ++
  (if tbCarafe tb && !skipCar then [(tbCarafeDa tb, 64 * 2 ^ tbCarafeLog tb, Right.read)] else [])

/-- A table that a descriptor of a context may name: its own context's, or any where the operation lets context 0 (R77, R85,
R120, R358; notes/assumptions 132). -/
def Dev.usable (d : Dev) (t ctx : Nat) (zero : Bool) : Option Table :=
  (d.table t).filter fun x => tbCtx x.w = ctx || (zero && ctx = 0)

/-- The same for GATHER, UPDATE, MIGRATE and EPOCH, which a retiring table refuses (R77). -/
def Dev.openTable (d : Dev) (t ctx : Nat) (zero : Bool) : Option Table := (d.usable t ctx zero).filter (!·.retired)

/-- Static checks of a GATHER image (R85). -/
def gatherForm (w tb : List Word64) : Bool :=
  qBits w 5 0 30 = 0 && qBits w 7 48 15 = 0 && qBits w 7 0 32 = 0 && gaPool w ≤ 4 && (gaScope w = 0 || 4 ≤ gaScope w) &&
  gaBags w ≠ 0 && !(gaOutFmt w = 3 && (gaPool w ≠ 0 || tbClasses tb ≠ 1)) &&
  !(tbBinary tb && (gaPool w ≠ 0 || gaOutFmt w ≠ 3)) && !(gaExact w && gaPool w = 3 && !gaFp8 w) &&
  (gaStride w = 0 || outSize w tb ≤ gaStride w)

/-- Lookup epoch a GATHER binds to (R105). -/
def bindEpoch (w : List Word64) (t : Table) : Except Nat Nat :=
  if gaPin w then
    (if !tbEpoch t.w then .error stVisMode else if t.live.contains (gaEpoch w) then .ok (gaEpoch w) else .error stEpoch)
  else .ok t.lookEp

/-- Checks of a GATHER: the translations, the number of indices X, the epoch. `inline` gives X where the message holds the
indices; `scratch` leaves OUTPUT_DA out. -/
def checkGather (w : List Word64) (ctx : Nat) (inlineX : Option Nat) (scratch : Bool) (h : List HostAnswer) :
    Eng (Except Nat (Notes × Nat × Nat)) := do
  let d ← get
  match d.openTable (gaTable w) ctx false with
  | none => return .error stTableInvalid
  | some t =>
    let tb := t.w
    if !gatherForm w tb then return .error stFormat
    match bindEpoch w t with
    | .error e => return .error e
    | .ok ep =>
      let tctx := tbCtx tb
      let rest (x : Nat) (n : Notes) : Except Nat (Notes × Nat × Nat) :=
        let outs := if gaPool w = 0 then x else gaBags w
        match d.xlates ctx ((if inlineX.isSome then [] else [(qWord w 1, x * (if gaIdx32 w then 4 else 8), Right.read)]) ++
            (if gaPool w = 3 then [(qWord w 3, x * (if gaFp8 w then 1 else 4), Right.read)] else []) ++
            (if scratch || outs = 0 then [] else [(qWord w 4, (outs - 1) * outStep w tb + outSize w tb, Right.write)])) n with
        | .error e => .error e
        | .ok n1 =>
          match d.xlates tctx (tableUses tb (gaSkipCar w)) n1 with
          | .error e => .error e
          | .ok n2 => .ok (n2, x, ep)
      match inlineX with
      | some x => return (if gaBags w = 1 then rest x .none else .error stFormat)
      | none =>
        match d.xlate ctx (qWord w 2) ((gaBags w + 1) * 4) .read .none with
        | .error e => return .error e
        | .ok n =>
          let s := daSeg (qWord w 2)
          let sr := d.seg ctx s
          let a : SegAcc := { sg := sr, acc := { src := mgmtAgent, ctx := ctx, seg := s, gen := d.gen ctx s, rt := sr.region,
                                                 h := h, desc := none } }
          match ← engReadBytes a (daOff (qWord w 2)) 4 with
          | .error e => return .error (errStat e)
          | .ok (b0, p0, _) =>
            match ← engReadBytes a (daOff (qWord w 2) + 4 * gaBags w) 4 with
            | .error e => return .error (errStat e)
            | .ok (b1, p1, _) =>
              if p0 || p1 || leNat b0 ≠ 0 then return .error stFormat
              return rest (leNat b1) n

/-! ### One bag -/

/-- cnt numbers of a GATHER: counts of Table 12.12, then X, the inline flag and the kept-open flags. -/
def gcCarafe : Nat := 0
def gcRemote : Nat := 1
def gcPre : Nat := 2
def gcSkipped : Nat := 3
def gcPoison : Nat := 4
def gcSat : Nat := 5
def gcX : Nat := 8
def gcInline : Nat := 9
/-- Grinder of a mailbox lookup, plus 1. -/
def gcGrinder : Nat := 10

/-- Grinder that serves a bag: groups of SplitBags go round the Grinders in scope (notes/assumptions 28). -/
def Run.grinder (r : Run) (split bag : Nat) : Nat :=
  if r.count gcGrinder ≠ 0 then r.count gcGrinder - 1
  else
    let g := bag / split
    if gaScope r.w = 0 then g % 64 else 16 * (gaScope r.w - 4) + g % 16

/-- Descriptor of a GSUB, and its core. -/
def Run.gsubCore (r : Run) : Option Nat := if 20480 ≤ r.id.queue then some (r.id.queue - 20480) else none

/-- Offset b of the bag list; inline messages hold one bag. -/
def bagOffset (r : Run) (ac : SegBy) (b : Nat) : Eng (Except Nat (Nat × Bool)) := do
  if r.count gcInline = 1 then return .ok (if b = 0 then 0 else r.count gcX, false)
  match ← readDa ac (qWord r.w 2) (4 * b) 4 with
  | .error e => return .error (errStat e)
  | .ok (bs, p, _) => return .ok (leNat bs, p)

/-- Index at a position: its value, or poisoned. -/
def indexAt (r : Run) (ac : SegBy) (p : Nat) : Eng (Except Nat (Nat × Bool)) := do
  let wd := if gaIdx32 r.w then 4 else 8
  if r.count gcInline = 1 then
    let ws := r.param
    return .ok (if gaIdx32 r.w then (ws.getD p 0).toNat else (ws.getD (2 * p) 0).toNat + 2 ^ 32 * (ws.getD (2 * p + 1) 0).toNat, false)
  match ← readDa ac (qWord r.w 1) (wd * p) wd with
  | .error e => return .error (errStat e)
  | .ok (bs, q, _) => return .ok (leNat bs, q)

def isPad (idx32 : Bool) (i : Nat) : Bool := i = 2 ^ 40 - 1 || (idx32 && i = 0xFFFFFFFF)

/-- An index of the bag resolved: position, row, shard-map entry, what it is. -/
inductive IdxRes
  | pad
  | at_ (row shard : Nat) (w : Where)
  deriving DecidableEq, Repr

/-- Resolve the indices of positions p to p + n - 1. -/
def resolveBag (r : Run) (ac : SegBy) (tac : SegBy) (tb : List Word64) (me p : Nat) :
    Nat → Eng (Except Nat (List (Nat × IdxRes)))
  | 0 => return .ok []
  | n + 1 => do
    match ← indexAt r ac p with
    | .error e => return .error e
    | .ok (i, bad) =>
      let x : IdxRes ←
        if bad then pure (IdxRes.at_ 0 0 .poison)
        else if isPad (gaIdx32 r.w) i then pure IdxRes.pad
        else do
          let (k, wh) ← resolveRow tac tb me i false
          pure (IdxRes.at_ i k wh)
      match ← resolveBag r ac tac tb me (p + 1) n with
      | .error e => return .error e
      | .ok xs => return .ok ((p, x) :: xs)

/-- Rows of the bag that other devices serve and that have not come. -/
def missingRows (r : Run) (xs : List (Nat × IdxRes)) : List (Nat × Nat × Nat × Bool) :=
  xs.filterMap fun p => match p.2 with
    | .at_ row _ (.remote dev f) => if r.rows.any fun q => q.1 = p.1 then none else some (p.1, row, dev, f)
    | _ => none

/-- Send the LOOKUPs of rows not asked for yet (R420, R422). -/
def Dev.askRows (d : Dev) (id : DescId) (tb : List Word64) (ep : Nat) (xs : List (Nat × Nat × Nat × Bool)) : Dev :=
  xs.foldl (fun (e : Dev) x =>
    let (p, row, dev, f) := x
    if e.tr.txs.any fun q => match q.2 with
      | some t => t.use = .row id p
      | none => false
    then e
    else
      let e1 := { e with tb := { e.tb with remote := e.tb.remote + 1, forwarded := e.tb.forwarded + (if f then 1 else 0) } }
      e1.request (.row id p) mtLookup dev (tbId tb * 2 ^ 36 + (if tbEpoch tb then ep else 0) * 2 ^ 20 + bit f * 2 ^ 19)
        [packBits [(32, 32, (defsum tb).toNat)], BitVec.ofNat 64 row]) d

/-- One row of the bag as it enters pooling, or why not. -/
inductive Item
  | none
  | skipped
  | poison
  | fail (st : Nat)
  | row (wclass : Nat) (image : List Byte) (carafe pre remote : Bool)
  deriving DecidableEq, Repr

/-- Serve one resolved index (R86, R89, R420). -/
def serveIdx (r : Run) (tac : SegBy) (t : Nat) (tb : List Word64) (p : Nat) (x : IdxRes) : Eng Item := do
  let bad (st : Nat) : Item := if gaSkipBad r.w then .skipped else .fail st
  match x with
  | .pad => return .none
  | .at_ row _ wh =>
    match wh with
    | .fail st => return .fail st
    | .bad st => return bad st
    | .poison => return .poison
    | .remote _ _ =>
      match r.rows.find? fun q => q.1 = p with
      | some q =>
        if q.2.wclass = 4 then return .fail q.2.status
        else if q.2.status = stPoisoned then return .poison
        else if q.2.status ≠ stOk then return bad q.2.status
        else return .row q.2.wclass q.2.image false q.2.pre true
      | none => return .fail stPeerError
    | .ent e _ =>
      match ← serveRow tac t tb row e (if tbEpoch tb then some r.epoch else Option.none) (gaSkipCar r.w) with
      | .fail st => return .fail st
      | .poison => return .poison
      | .row wc img car pre => return .row wc img car pre false

/-- Weight at a position (R91): its value, or poisoned. -/
def weightAt (r : Run) (ac : SegBy) (p : Nat) : Eng (Except Nat (Val × Bool)) := do
  if gaPool r.w ≠ 3 then return .ok (Val.ofInt 1, false)
  let n := if gaFp8 r.w then 1 else 4
  match ← readDa ac (qWord r.w 3) (n * p) n with
  | .error e => return .error (errStat e)
  | .ok (bs, q, _) => return .ok (if gaFp8 r.w then FloatFmt.e4m3.decode (leNat bs) else f32 (leNat bs), q)

/-- Write an output, or its poison mark (R96): to memory, or to the core's scratch, where poison leaves the bytes open. -/
def outWrite (r : Run) (ac : SegBy) (off : Nat) (bs : List Byte) (poison : Bool) : Eng (Option Nat) := do
  match r.gsubCore with
  | some c =>
    let d ← get
    let o := r.count 11
    -- without pooling the outputs are the indices', and may pass the scratch
    if (d.core c).scratchSize < o + off + bs.length then return some stLimit
    set (if poison then d.scratchFree c (o + off) bs.length else d.updCore c fun k => k.putScratch (o + off) bs)
    return none
  | none =>
    match ← engWriteBytes (ac (daSeg (qWord r.w 4))) (daOff (qWord r.w 4) + off) (if poison then bs.map fun _ => 0 else bs) poison 0 0 with
    | some e => return some (errStat e)
    | none => return none

/-- What a bag gathered: rows with weights in index order, poison, counts, shard-load counts to make. -/
structure BagAcc where
  rows    : List (List Val × Val)
  poison  : Bool
  carafe  : Nat
  remote  : Nat
  pre     : Nat
  skipped : Nat
  deriving DecidableEq, Repr

/-- Serve the indices in order; without pooling each writes its own output. -/
def bagRows (r : Run) (ac tac : SegBy) (t : Nat) (tb : List Word64) (g : Nat) :
    List (Nat × IdxRes) → BagAcc → Eng (Except Nat BagAcc)
  | [], acc => return .ok acc
  | (p, x) :: rest, acc => do
    match ← serveIdx r tac t tb p x with
    | .fail st => return .error st
    | .none => bagRows r ac tac t tb g rest acc
    | .skipped => bagRows r ac tac t tb g rest { acc with skipped := acc.skipped + 1 }
    | .poison =>
      if gaPool r.w = 0 then
        match ← outWrite r ac (p * outStep r.w tb) (List.replicate (outSize r.w tb) 0) true with
        | some st => return .error st
        | none => bagRows r ac tac t tb g rest { acc with poison := true }
      else bagRows r ac tac t tb g rest { acc with poison := true }
    | .row wc img car pre rem =>
      match x with
      | .at_ row shard _ => if !gaNoCount r.w then modify fun (d : Dev) => d.countLookup g t tb row shard
      | .pad => pure ()
      let acc1 := { acc with carafe := acc.carafe + bit car, remote := acc.remote + bit rem, pre := acc.pre + bit pre }
      if gaPool r.w = 0 then
        match ← outWrite r ac (p * outStep r.w tb) (rawOut r.w (tbF16 tb) wc (tbDim tb) img) false with
        | some st => return .error st
        | none => bagRows r ac tac t tb g rest acc1
      else
        match ← weightAt r ac p with
        | .error st => return .error st
        | .ok (wt, q) =>
          bagRows r ac tac t tb g rest { acc1 with
            rows := acc1.rows ++ [(decodeRow (tbF16 tb) wc (tbDim tb) img, wt)], poison := acc1.poison || q }

/-- The nearest offset at or below b that reads cleanly, and the nearest at or above (R96, POOL NONE). -/
def cleanBelow (r : Run) (ac : SegBy) : Nat → Eng (Except Nat Nat)
  | 0 => return .ok 0
  | b + 1 => do
    match ← bagOffset r ac (b + 1) with
    | .error e => return .error e
    | .ok (o, p) => if p then cleanBelow r ac b else return .ok o

def cleanAbove (r : Run) (ac : SegBy) (b : Nat) : Nat → Eng (Except Nat Nat)
  | 0 => return .ok (r.count gcX)
  | n + 1 => do
    match ← bagOffset r ac b with
    | .error e => return .error e
    | .ok (o, p) => if p then cleanAbove r ac (b + 1) n else return .ok o

/-- Poisoned outputs of positions p to p + n - 1. -/
def poisonOuts (r : Run) (ac : SegBy) (tb : List Word64) (p : Nat) : Nat → Eng (Option Nat)
  | 0 => return none
  | n + 1 => do
    match ← outWrite r ac (p * outStep r.w tb) (List.replicate (outSize r.w tb) 0) true with
    | some st => return some st
    | none => poisonOuts r ac tb (p + 1) n

/-- End of a GATHER with its status (R96); R110's is found when it completes. -/
def Dev.gatherEnd (d : Dev) (id : DescId) : Dev :=
  match d.run id with
  | none => d
  | some r => d.endRun id (if r.count gcPoison ≠ 0 && !gaSkipBad r.w then stPoisoned else stOk)

/-- Serve the bag at the run's position: ask for remote rows and wait, or pool it and write its output (R87-R96). -/
def gatherBag (id : DescId) (h : List HostAnswer) : Eng Unit := do
  let d ← get
  match d.run id with
  | none => return
  | some r =>
    if !r.live then return
    match d.table (gaTable r.w) with
    | none => set (d.endRun id stTableInvalid)
    | some t =>
      let tb := t.w
      let b := r.pos
      let split := r.count rcSetting
      let g := r.grinder split b
      let src := 0x200 + g
      let ac : SegBy := fun s => r.acc src r.ctx s h
      let tac : SegBy := fun s => r.acc src (tbCtx tb) s h
      if gaBags r.w ≤ b then set (d.gatherEnd id)
      else if d.partHeld src then set (d.endRun id stIsolated)
      else
        match ← bagOffset r ac b with
        | .error st => modify fun (e : Dev) => e.endRun id st
        | .ok (o0, p0) =>
          match ← bagOffset r ac (b + 1) with
          | .error st => modify fun (e : Dev) => e.endRun id st
          | .ok (o1, p1) =>
            let done (e : Dev) : Dev :=
              let e1 := e.setPos id (b + 1)
              if b + 1 = gaBags r.w then e1.gatherEnd id else e1
            let marked (e : Dev) : Dev := e.updRun id fun x => x.addCount gcPoison 1
            if p0 || p1 then
              if gaPool r.w = 0 then
                match ← cleanBelow r ac b with
                | .error st => modify fun (e : Dev) => e.endRun id st
                | .ok lo =>
                  match ← cleanAbove r ac (b + 1) (gaBags r.w - b) with
                  | .error st => modify fun (e : Dev) => e.endRun id st
                  | .ok hi =>
                    match ← poisonOuts r ac tb lo (hi - lo) with
                    | some st => modify fun (e : Dev) => e.endRun id st
                    | none => modify fun (e : Dev) => done (marked e)
              else
                match ← outWrite r ac (b * outStep r.w tb) (List.replicate (outSize r.w tb) 0) true with
                | some st => modify fun (e : Dev) => e.endRun id st
                | none => modify fun (e : Dev) => done (marked e)
            else if o1 < o0 || r.count gcX < o1 then modify fun (e : Dev) => e.endRun id stFormat
            else
              match ← resolveBag r ac tac tb d.devId o0 (o1 - o0) with
              | .error st => modify fun (e : Dev) => e.endRun id st
              | .ok xs =>
                let miss := missingRows r xs
                -- the pass that serves the bag counts its map reads
                if !miss.isEmpty then modify fun (e : Dev) => { e with tb := { e.tb with rowReqs := d.tb.rowReqs } }.askRows id tb r.epoch miss
                else
                  match ← bagRows r ac tac (gaTable r.w) tb g xs { rows := [], poison := false, carafe := 0, remote := 0, pre := 0, skipped := 0 } with
                  | .error st => modify fun (e : Dev) => e.endRun id st
                  | .ok acc =>
                    let (bs, sat) := poolBag r.w (tbDim tb) acc.rows
                    let out : Option Nat ←
                      if gaPool r.w = 0 then pure none
                      else outWrite r ac (b * outStep r.w tb) bs acc.poison
                    match out with
                    | some st => modify fun (e : Dev) => e.endRun id st
                    | none =>
                      modify fun (e : Dev) =>
                        let e1 := e.updRun id fun x =>
                          ((((((x.addCount gcCarafe acc.carafe).addCount gcRemote acc.remote).addCount gcPre acc.pre).addCount
                            gcSkipped acc.skipped).addCount gcPoison (bit acc.poison)).addCount gcSat
                              (bit (sat && !acc.poison && gaPool r.w ≠ 0)))
                        done { e1 with tb := { e1.tb with skipped := e1.tb.skipped + BitVec.ofNat 64 acc.skipped } }

/-! ### Outputs that a failure leaves undefined (R87) -/

/-- cnt number of the mark that a failed GATHER's undefined outputs are written. -/
def gcUndef : Nat := 12

/-- n free bytes. -/
def Dev.freeBytes (d : Dev) : Nat → List Byte × Dev
  | 0 => ([], d)
  | n + 1 =>
    let (w, d1) := d.freeWord
    let (bs, d2) := Dev.freeBytes d1 n
    (w.extractLsb' 0 8 :: bs, d2)

/-- Outputs from number i on hold free bytes, up to a refused write. -/
def freeOuts (r : Run) (ac : SegBy) (tb : List Word64) (i : Nat) : Nat → Eng Unit
  | 0 => return
  | n + 1 => do
    let (bs, d1) := (← get).freeBytes (outSize r.w tb)
    set d1
    match ← outWrite r ac (i * outStep r.w tb) bs false with
    | some _ => return
    | none => freeOuts r ac tb (i + 1) n

/-- A GATHER that failed after its admission, its undefined outputs not written yet. -/
def Run.undefDue (r : Run) : Bool :=
  descType r.w = tyGather && r.stage = .ended && !ranToEnd r.status && r.admCode < 2 && r.count gcUndef = 0

/-- The bag at its position and every later bag hold undefined output. -/
def gatherUndef (id : DescId) : Eng Unit := do
  let d ← get
  match d.run id with
  | none => return
  | some r =>
    if !r.undefDue then return
    let ac : SegBy := fun s => r.acc (0x200 + r.grinder (r.count rcSetting) r.pos) r.ctx s []
    match d.table (gaTable r.w) with
    | none => pure ()
    | some t =>
      if gaPool r.w = 0 then
        match ← bagOffset r ac r.pos with
        | .error _ => pure ()
        | .ok (o, _) => freeOuts r ac t.w o (r.count gcX - o)
      else freeOuts r ac t.w r.pos (gaBags r.w - r.pos)
    modify fun (e : Dev) => e.updRun id fun x => x.setCount gcUndef 1

def Dev.undefOuts (d : Dev) (id : DescId) : Dev := d.engine (gatherUndef id)

/-! ### Completion in scratch and by mailbox -/

/-- Up to n bags. -/
def Dev.gatherBags (d : Dev) (id : DescId) (h : List HostAnswer) : Nat → Dev
  | 0 => d
  | n + 1 => Dev.gatherBags (d.engine (gatherBag id h)) id h n

/-- The completion record of an ended GSUB goes to scratch, and the GSUB leaves the core (R177). -/
def Dev.gsubDone (d0 : Dev) (c : Nat) (id : DescId) : Dev :=
  let d := d0.undefOuts id
  match d.run id, (d.core c).gsubs.find? fun g => g.index = id.index with
  | some r, some g =>
    if r.stage = .ended && !r.undefDue then
      ((((d.updCore c fun k => { k.putScratch g.record (wordBytes (r.record (d.finalStatus r) r.admCode true)) with
        gsubs := k.gsubs.filter fun x => x.index ≠ id.index }).countTimeout r.status).dropRun id).retireEpochs (gaTable r.w)).admitWaiting
    else d
  | _, _ => d

/-- A mailbox lookup that has ended owes its reply (R376, R377). -/
def Dev.mailboxDone (d0 : Dev) (m : Nat) (id : DescId) : Dev :=
  let d := d0.undefOuts id
  match d.run id with
  | some r =>
    if r.stage = .ended && !r.undefDue && !d.owes id (qBit r.w 0 59 && r.status ≠ stTimeout) then
      (((d.setMailbox m { d.mailbox m with answer := some (d.finalStatus r, r.record (d.finalStatus r) 0 true), answerSeq := id.index }).countTimeout
        r.status).dropRun id).retireEpochs
        (gaTable r.w)
    else d
  | none => d

/-- GATHER: an admitted descriptor starts, or goes on with up to n bags (R85, R87). A tracked one takes a general progress
object (R371). -/
def Dev.gather (d : Dev) (id : DescId) (n : Nat) (h : List HostAnswer) : Dev :=
  match d.run id with
  | none => d
  | some r =>
    if descType r.w ≠ tyGather then d
    else
      let d0 :=
        if r.stage = .admitted then
          let d1 := d.updRun id fun x => { x with stage := .running }
          if qBit r.w 0 56 && id.queue < 16384 then
            match d1.freeProg 0x60 32 with
            | some i => d1.takeProg id (qBits r.w 0 0 16) i (gaBags r.w)
            | none => d1
          else d1
        else d
      let d2 := d0.gatherBags id h n
      if 20480 ≤ id.queue then d2.gsubDone (id.queue - 20480) id
      else if 16384 ≤ id.queue then d2.mailboxDone (id.queue - 16384) id
      else d2

end Sys2Proof.Machine
end

