-- ==== Sys2Proof/Machine/Tables.lean ====
section
/-! DEFINITION. MAINT and PROBE operations on tables (R76, R77, R100-R103, R358), and epochs (R107-R110). -/

namespace Sys2Proof.Machine

/-! ### TABLE_DEFINE, TABLE_RETIRE (R76, R77) -/

/-- Checks of a TABLE image before its segments are looked at: TABLE_BUSY, TABLE_INVALID, FORMAT_INVALID in order. -/
def Dev.tableForm (d : Dev) (w : List Word64) (qctx : Nat) (poison : Bool) : Nat :=
  if (d.table (tbId w)).isSome then stTableBusy
  else if tbCtx w = 0 || (qctx ≠ 0 && tbCtx w ≠ qctx) then stTableInvalid
  else if 6 ≤ tbOpt w || (tbCarafe w && (tbCarafeLog w < 10 || 30 < tbCarafeLog w)) || (tbSketch w && 16 < tbSampleLog w) then
    stFormat
  else if tbWmask w = 0 || ((tbWmask w).testBit 3 && tbWmask w ≠ 8) then stFormat
  else if poison then stFormat
  else stOk

/-- Segments a table uses (R76). -/
def tableSegs (w : List Word64) : List Nat :=
  (if tbDirect w then [if tbDirPool w = 0 then tbDramSeg w else tbResSeg w]
   else [tbDramSeg w, tbResSeg w, daSeg (tbRowmap w)]) ++
  (if tbShards w = 1 then [] else [daSeg (tbShardmap w)]) ++ (if tbCarafe w then [daSeg (tbCarafeDa w)] else [])

/-- The shard map is strictly ascending from row 0 and names this device for all of LOCAL; `prev` is the entry before k. -/
def shardMapOk (ac : SegBy) (w : List Word64) (me k : Nat) (prev : Option (Nat × Nat)) : Nat → Eng (Except Nat Bool)
  | 0 => return .ok (match prev with
      | some (f, dv) => dv = me || tbFirst w + tbCount w ≤ f || tbCount w = 0
      | none => false)
  | n + 1 => do
    match ← shardEntry ac w k with
    | .error (.fail st) => return .error st
    | .error _ => return .ok false
    | .ok (f, dv) =>
      let ok : Bool := match prev with
        | none => decide (f = 0)
        | some (pf, pd) => pf < f && (pd = me || tbCount w = 0 || f ≤ tbFirst w || tbFirst w + tbCount w ≤ pf)
      if ok then shardMapOk ac w me (k + 1) (some (f, dv)) n else return .ok false

/-- Heat-region slots of 768 KiB (R102, R103), and the lowest free one. -/
def Dev.heatFree (d : Dev) : Option Nat :=
  (List.range (d.tb.heatSize * 1024 / 768)).find? fun i =>
    !d.tb.store.any fun p => match p.2 with
      | some t => t.heat = some i
      | none => false

/-- Access through a segment as it stands now, outside a descriptor's notes. -/
def Dev.liveAcc (d : Dev) (src ctx s : Nat) (h : List HostAnswer) : SegAcc :=
  let a : Acc := { src := src, ctx := ctx, seg := s, gen := d.gen ctx s, rt := (d.seg ctx s).region, h := h, desc := none }
  { sg := d.seg ctx s, acc := a }

/-- A table just defined: epoch 1 live for a VIS EPOCH table (R76, R105). Steps are counted from 1: LAST_STEP is 0 before the
first (R134; notes/assumptions 133). -/
def mkTable (w : List Word64) (ep : Nat) (heat : Option Nat) : Table :=
  { w := w, retired := false, lookEp := ep, updEp := ep, live := if tbEpoch w then [1] else [], loss := [], heat := heat,
    lastStep := 0, peers := [] }

def tableDefineStep (id : DescId) (h : List HostAnswer) : Eng Unit := do
  let d ← get
  match d.run id with
  | none => return
  | some r =>
    let ac : SegBy := fun s => r.acc mgmtAgent r.ctx s h
    match ← readDa ac (qWord r.w 2) 0 64 with
    | .error e => modify fun (e1 : Dev) => e1.endRun id (errStat e)
    | .ok (bs, poison, _) =>
      let w := bytesWords 8 bs
      let st := d.tableForm w r.ctx poison
      if st ≠ stOk then modify fun (e : Dev) => e.endRun id st
      else
        let tac : SegBy := fun s => d.liveAcc mgmtAgent (tbCtx w) s h
        let denied := (tableSegs w).any fun s =>
          !(d.seg (tbCtx w) s).valid || !(d.seg (tbCtx w) s).read || (tbOpt w ≠ 0 && !(d.seg (tbCtx w) s).update)
        if denied then modify fun (e : Dev) => e.endRun id stDenied
        else
          let ok : Except Nat Bool ← if tbShards w = 1 then pure (.ok true) else shardMapOk tac w d.devId 0 none (tbShards w)
          match ok with
          | .error e => modify fun (e1 : Dev) => e1.endRun id e
          | .ok false => modify fun (e : Dev) => e.endRun id stShardMap
          | .ok true =>
            if tbSketch w && d.heatFree.isNone then modify fun (e : Dev) => e.endRun id stNoSpace
            else
              let ep := bit (tbEpoch w)
              let t := mkTable w ep (if tbSketch w then d.heatFree else none)
              modify fun (e : Dev) => (e.setTable (tbId w) (some t)).endRun id stOk

/-- TABLE_DEFINE. -/
def Dev.tableDefine (d : Dev) (id : DescId) (h : List HostAnswer) : Dev :=
  d.withRun id tyMaint (some 0x01) fun _ e => e.engine (tableDefineStep id h)

/-- Descriptors of a table admitted and not complete. -/
def Dev.tableInExec (d : Dev) (t : Nat) : Nat :=
  (d.cp.runs.filter fun r => r.stage ≠ .waiting && r.admCode < 2 && descTable r.w = some t).length

/-- Everything a table left in the tables' store goes with it. -/
def Dev.dropTable (d : Dev) (t : Nat) : Dev :=
  { d with tb := { d.tb with
      store := Map.put d.tb.store t none
      pre := d.tb.pre.filter fun p => p.table ≠ t
      guests := d.tb.guests.filter fun g => g.table ≠ t
      guestFrom := d.tb.guestFrom.filter fun p => p.1 / 2 ^ 40 ≠ t
      steps := d.tb.steps.filter fun x => x.table ≠ t
      load := d.tb.load.filter fun p => p.1 / 65536 ≠ t
      localLoad := d.tb.localLoad.filter fun p => p.1 % 2 ^ 28 / 65536 ≠ t
      sketch := d.tb.sketch.filter fun p => p.1 / 65536 ≠ t
      sampled := d.tb.sampled.filter fun p => p.1 % 4096 ≠ t } }

/-- TABLE_RETIRE completes when only it is left of the table's descriptors (R77). -/
def Dev.tableRetire (d : Dev) (id : DescId) : Dev :=
  d.withRun id tyMaint (some 0x02) fun r e =>
    let t := qBits r.w 2 52 12
    if e.tableInExec t = 1 then (e.dropTable t).endRun id stOk else e

/-! ### CARAFE_REFRESH (R100) -/

def ccInstalled : Nat := 0
def ccEvicted : Nat := 1
def ccSkipped : Nat := 2

/-- Write the CARAFE bit of a row's entry (R81). -/
def setCarafeBit (ac : SegBy) (w : List Word64) (r : Nat) (e : RowEnt) (da : Word64) (v : Bool) : Eng (Option ErrStatus) := do
  let d ← get
  engWriteBytes (d.guestAcc ac w r da) (daOff da) (leBytes 8 ({ e with carafe := v } : RowEnt).word.toNat) false 0 0

/-- VALID of a row's Carafe entry clears, and CARAFE in its row-map entry (R101). -/
def clearCarafe (ac : SegBy) (w : List Word64) (r : Nat) (e : RowEnt) (da : Word64) : Eng (Option ErrStatus) := do
  let off := 64 * carafeBucket w r
  match ← readDa ac (tbCarafeDa w) off 64 with
  | .error x => return some x
  | .ok (bs, _, _) =>
    match bucketFind bs r with
    | some i =>
      let q0 := leAt bs (16 * i) 8
      match ← engWriteBytes (ac (daSeg (tbCarafeDa w))) (daOff (tbCarafeDa w) + off + 16 * i) (leBytes 8 (q0 % 2 ^ 63)) false 0 0 with
      | some x => return some x
      | none => setCarafeBit ac w r e da false
    | none => setCarafeBit ac w r e da false

/-- One operation of the list: 0 installed, 1 evicted, 2 skipped. An install of a row that is bad or whose slot is poisoned is
skipped, one of a row already in its bucket takes that entry (R100; notes/assumptions 134). -/
def carafeOp (ac : SegBy) (t : Nat) (w : List Word64) (evict : Bool) (row rep : Nat) : Eng (Except Nat Nat) := do
  let d ← get
  match ← uncounted (resolveRow ac w d.devId row false) with
  | (_, .fail st) => return .error st
  | (_, .ent e (some da)) =>
    if evict then
      match ← clearCarafe ac w row e da with
      | some x => return .error (errStat x)
      | none => return .ok ccEvicted
    else if e.fwd || d.tb.migr.any fun m => m.table = t && m.row = row && m.step < 4 then return .ok ccSkipped
    else
      if d.rowLocked t row then throw .busy
      let off := 64 * carafeBucket w row
      match ← readDa ac (tbCarafeDa w) off 64 with
      | .error x => return .error (errStat x)
      | .ok (bs, _, _) =>
        let free := (List.range 4).find? fun i => !(leAt bs (16 * i) 8).testBit 63
        match (bucketFind bs row).orElse fun _ => free with
        | none => return .ok ccSkipped
        | some i =>
          match ← engReadBytes (slotAcc ac w e) (32 * e.slot) e.bytes with
          | .error x => return .error (errStat x)
          | .ok (img, poison, is) =>
            if poison then return .ok ccSkipped
            let ca := ac (daSeg (tbCarafeDa w))
            match ← engWriteBytes ca (32 * rep) img false 0 0 with
            | some x => return .error (errStat x)
            | none =>
              let q0 := packBits [(63, 1, 1), (12, 40, row)]
              let q1 := packBits [(48, 16, ((d.table t).map (·.rowStamp is)).getD 0), (0, 43, rep)]
              match ← engWriteBytes ca (daOff (tbCarafeDa w) + off + 16 * i) (wordBytes [q0, q1]) false 0 0 with
              | some x => return .error (errStat x)
              | none =>
                match ← setCarafeBit ac w row e da true with
                | some x => return .error (errStat x)
                | none => return .ok ccInstalled
  | _ => return .ok ccSkipped

def carafeStep (id : DescId) (h : List HostAnswer) : Eng Unit := do
  let d ← get
  match d.run id with
  | none => return
  | some r =>
    match d.table (qBits r.w 3 52 12) with
    | none => set (d.endRun id stTableInvalid)
    | some t =>
      if !r.live then return
      if qBits r.w 3 0 32 ≤ r.pos then set (d.endRun id stOk)
      else
        match ← readDa (fun s => r.acc mgmtAgent r.ctx s h) (qWord r.w 2) (16 * r.pos) 16 with
        | .error e => modify fun (e1 : Dev) => e1.endRun id (errStat e)
        | .ok (bs, poison, _) =>
          let q0 := leAt bs 0 8
          let q1 := leAt bs 8 8
          let res : Except Nat Nat ←
            if poison then pure (.ok ccSkipped)
            else carafeOp (fun s => r.acc mgmtAgent (tbCtx t.w) s h) (qBits r.w 3 52 12) t.w (q0.testBit 63) (field q0 0 40) (field q1 0 43)
          match res with
          | .error st => modify fun (e : Dev) => e.endRun id st
          | .ok k => modify fun (e : Dev) =>
              let e1 := (e.updRun id fun x => x.addCount k 1).setPos id (r.pos + 1)
              if r.pos + 1 = qBits r.w 3 0 32 then e1.endRun id stOk else e1

def Dev.carafeLoop (d : Dev) (id : DescId) (h : List HostAnswer) : Nat → Dev
  | 0 => d
  | n + 1 => Dev.carafeLoop (d.engine (carafeStep id h)) id h n

/-- CARAFE_REFRESH: up to n operations of the list. -/
def Dev.carafeRefresh (d : Dev) (id : DescId) (n : Nat) (h : List HostAnswer) : Dev :=
  d.withRun id tyMaint (some 0x03) fun _ e => e.carafeLoop id h n

/-! ### Counters -/

/-- SKETCH_DECAY halves every sketch counter of the table (R103). -/
def Dev.sketchDecay (d : Dev) (id : DescId) : Dev :=
  d.withRun id tyMaint (some 0x04) fun r e =>
    let t := qBits r.w 2 52 12
    { e with tb := { e.tb with sketch := e.tb.sketch.map fun (p : Nat × Nat) => (p.1, if p.1 / 65536 = t then p.2 / 2 else p.2) } }.endRun id stOk

/-- Results of a PROBE go to RESULT_DA; POSITION counts bytes (R358). -/
def probeWrite (id : DescId) (h : List HostAnswer) (bs : List Byte) : Eng Unit := do
  let d ← get
  match d.run id with
  | none => return
  | some r =>
    let da := qWord r.w 2
    match ← engWriteBytes (r.acc mgmtAgent r.ctx (daSeg da) h) (daOff da) bs false 0 0 with
    | some e => modify fun (e1 : Dev) => e1.endRun id (errStat e)
    | none => modify fun (e : Dev) => ((e.updRun id fun x => x.setCount 0 bs.length).setPos id bs.length).endRun id stOk

/-- SHARD_LOAD: every Grinder's local counts flush, then the counters are written (R102). -/
def Dev.shardLoad (d : Dev) (id : DescId) : Dev :=
  d.withRun id tyProbe (some 0x01) fun r e =>
    let t := qBits r.w 4 52 12
    match e.table t with
    | none => e.endRun id stTableInvalid
    | some x =>
      let e1 := (List.range 64).foldl (fun (y : Dev) g => y.flushLoad g) e
      e1.engine (probeWrite id [] (wordBytes ((List.range (tbShards x.w)).map fun k => Map.get 0 e1.tb.load (65536 * t + k))))

/-- Sketch estimate of a row: the least of its four counters, times 2^S (R103). -/
def Dev.sketchEst (d : Dev) (t : Nat) (w : List Word64) (r : Nat) : Nat :=
  let c (j : Nat) : Nat := Map.get 0 d.tb.sketch (65536 * t + 16384 * j + sketchCol r j)
  Nat.min (Nat.min (c 0) (c 1)) (Nat.min (c 2) (c 3)) * 2 ^ tbSampleLog w

def sketchReadStep (id : DescId) (h : List HostAnswer) : Eng Unit := do
  let d ← get
  match d.run id with
  | none => return
  | some r =>
    let t := qBits r.w 4 52 12
    let n := qBits r.w 4 0 32
    match d.table t with
    | none => set (d.endRun id stTableInvalid)
    | some x =>
      match ← readDa (fun s => r.acc mgmtAgent r.ctx s h) (qWord r.w 3) 0 (8 * n) with
      | .error e => modify fun (e1 : Dev) => e1.endRun id (errStat e)
      | .ok (bs, poison, _) =>
        if poison then modify fun (e : Dev) => e.endRun id stPoisoned
        else probeWrite id h (wordBytes ((bytesWords n bs).map fun i => BitVec.ofNat 64 (d.sketchEst t x.w i.toNat)))

/-- SKETCH_READ. -/
def Dev.sketchRead (d : Dev) (id : DescId) (h : List HostAnswer) : Dev :=
  d.withRun id tyProbe (some 0x02) fun _ e => e.engine (sketchReadStep id h)

/-- The 64-byte state record of a table (Table 12.10). -/
def Dev.tableRecord (d : Dev) (t : Nat) (x : Table) : List Word64 :=
  let pre := (d.tb.pre.filter fun p => p.table = t && !p.borrowed).foldl (fun n p => n + 64 * p.units) 0
  [packBits [(52, 12, t), (51, 1, bit (tbEpoch x.w)), (48, 3, x.live.length), (32, 16, x.lookEp), (16, 16, x.updEp),
      (0, 16, x.live.headD 0)],
    BitVec.ofNat 64 x.lastStep, BitVec.ofNat 64 (d.tableInExec t),
    match x.heat with
    | some i => BitVec.ofNat 64 (i * 768 * 1024)
    | none => BitVec.allOnes 64,
    BitVec.ofNat 64 pre, 0, 0, 0]

/-- TABLE_READ (R358). -/
def Dev.tableRead (d : Dev) (id : DescId) (h : List HostAnswer) : Dev :=
  d.withRun id tyProbe (some 0x03) fun r e =>
    match e.table (qBits r.w 4 52 12) with
    | none => e.endRun id stTableInvalid
    | some x => e.engine (probeWrite id h (wordBytes (e.tableRecord (qBits r.w 4 52 12) x)))

/-! ### Epochs -/

/-- Updates stamped ep that have not completed at their home (R107, R136). -/
def Dev.updatesOpen (d : Dev) (t ep : Nat) : Bool :=
  (d.cp.runs.any fun r => descType r.w = tyUpdate && descTable r.w = some t && r.epoch = ep && r.live) ||
  (d.tb.steps.any fun b => b.table = t && b.upds.any fun u => u.upd.stamp = ep) ||
  (d.tb.locks.any fun l => l.table = t && l.upd.stamp = ep) ||
  (d.net.any fun m => match m with
    | .req q => match q.upd with
      | some u => u.table = t && u.stamp = ep
      | none => false
    | _ => false)

/-- EPOCH_OPEN: the descriptor begins, or waits for the one before it (R107 step 1). -/
def Dev.epochOpen (d : Dev) (id : DescId) : Dev :=
  match d.run id with
  | some r => if r.isOp tyEpoch none && r.stage = .admitted then d.epochBegin (qBits r.w 1 52 12) else d
  | none => d

/-- EPOCH_ADVANCE: steps 2 and 3 of R107; with four lookup epochs live it waits, and the wait is noted (R108). -/
def Dev.epochAdvance (d : Dev) (t : Nat) : Dev :=
  match d.table t, d.cp.runs.find? fun r => descType r.w = tyEpoch && descTable r.w = some t && r.stage = .running with
  | some x, some r =>
    if d.updatesOpen t x.lookEp then d
    else if 4 ≤ x.live.length then
      if r.count 5 = 0 then d.updRun r.id fun y => y.setCount 5 (d.now.toNat + 1) else d
    else
      let e := epochNext x.lookEp
      let wait := if r.count 5 = 0 then 0 else d.now.toNat + 1 - r.count 5
      let d1 := (d.setTable t (some { x with lookEp := e, live := x.live ++ [e] })).retireEpochs t
      let d2 := ((d1.updRun r.id fun y => (y.setCount 0 wait).setCount 1 e).endRun r.id stOk).epochBegin t
      let (now, later) := d2.tr.held.partition fun m => tmBits m.words 1 36 12 = t
      { d2 with tr := { d2.tr with held := later, inbox := d2.tr.inbox ++ now } }
  | _, _ => d

/-! ### Meanings -/

def execTableDefine (d : DescId) (h : List HostAnswer) (s : State) : Host.Outcome State Fault Refusal :=
  s.goes (s.dev.tableDefine d h)
def execTableRetire (d : DescId) (s : State) : Host.Outcome State Fault Refusal := s.goes (s.dev.tableRetire d)
/-- SHARD_LOAD_FLUSH (R102). -/
def execShardLoadFlush (g : GrinderId) (s : State) : Host.Outcome State Fault Refusal := s.goes (s.dev.flushLoad g.val)
def execCarafeRefresh (d : DescId) (n : Nat) (h : List HostAnswer) (s : State) : Host.Outcome State Fault Refusal :=
  s.goes (s.dev.carafeRefresh d n h)
def execSketchDecay (d : DescId) (s : State) : Host.Outcome State Fault Refusal := s.goes (s.dev.sketchDecay d)
def execEpochOpen (d : DescId) (s : State) : Host.Outcome State Fault Refusal := s.goes (s.dev.epochOpen d)
def execEpochAdvance (t : TableId) (s : State) : Host.Outcome State Fault Refusal := s.goes (s.dev.epochAdvance t.val)

end Sys2Proof.Machine
end

