-- ==== Sys2Proof/Machine/UpdateOps.lean ====
section
/-! DEFINITION. Row updates at their home: optimisers (R123-R126), predictor (R128), pre-images (R109, R110, R147, R148),
the write of the slot, the end of an update for its origin (R118, R121, R122, R134). -/

namespace Sys2Proof

/-! ### UPDATE image (Table 4.1) -/

def upTable (w : List Word64) : Nat := qBits w 4 52 12
def upMode (w : List Word64) : Nat := qBits w 4 50 2
def upVfmt (w : List Word64) : Nat := qBits w 4 48 2
def upIdx32 (w : List Word64) : Bool := qBit w 4 47
def upSkipBad (w : List Word64) : Bool := qBit w 4 46
def upPlace (w : List Word64) : Nat := qBits w 4 44 2
def upScope (w : List Word64) : Nat := qBits w 4 41 3
def upStepEnd (w : List Word64) : Bool := qBit w 4 40
def upStep (w : List Word64) : Nat := qBits w 5 32 32
def upCount (w : List Word64) : Nat := qBits w 5 0 32
def upStride (w : List Word64) : Nat := qBits w 6 32 32
def upSeq (w : List Word64) : Nat := qBits w 6 0 32

end Sys2Proof

namespace Sys2Proof.Machine

/-! ### FP32 operations on patterns (R124) -/

def fadd (a b : Nat) : Nat := toF32 ((f32 a).add (f32 b))
def fsub (a b : Nat) : Nat := toF32 ((f32 a).sub (f32 b))
def fmul (a b : Nat) : Nat := toF32 ((f32 a).mul (f32 b))
def fdiv (a b : Nat) : Nat := FloatFmt.fp32.divRound (f32 a) (f32 b)
def fsqrt (a : Nat) : Nat := FloatFmt.fp32.sqrtRound (f32 a)
def fone : Nat := 0x3F800000

/-! ### Parameter image (Table 4.2) -/

def pW (p : List Word32) (i : Nat) : Nat := (p.getD i 0).toNat
def pLr (p : List Word32) : Nat := pW p 0
def pEps (p : List Word32) : Nat := pW p 1
def pWd (p : List Word32) : Nat := pW p 2
def pB1 (p : List Word32) : Nat := pW p 3
def pB2 (p : List Word32) : Nat := pW p 4
def pC1 (p : List Word32) : Nat := pW p 5
def pC2 (p : List Word32) : Nat := pW p 6
def pAlpha (p : List Word32) : Nat := pW p 7
def pFbeta (p : List Word32) : Nat := pW p 8
def pL1 (p : List Word32) : Nat := pW p 9
def pL2 (p : List Word32) : Nat := pW p 10

/-- Parameters an optimiser uses (Table 4.3). -/
def optParams (opt : Nat) : List Nat :=
  match opt with
  | 1 => [0, 2]
  | 2 => [0, 1]
  | 3 => [0, 1]
  | 4 => [0, 1, 2, 3, 4, 5, 6]
  | 5 => [7, 8, 9, 10]
  | _ => []

/-! ### Optimisers (Table 4.3), element by element on patterns -/

def sgdStep (p : List Word32) (w g : Nat) : Nat := fsub w (fmul (pLr p) (fadd g (fmul (pWd p) w)))

/-- Weight of an Adagrad rule with accumulator G. -/
def adaStep (p : List Word32) (gAcc w g : Nat) : Nat := fsub w (fdiv (fmul (pLr p) g) (fadd (fsqrt gAcc) (pEps p)))

/-- m, v and w of ADAM. -/
def adamStep (p : List Word32) (m v w g : Nat) : Nat × Nat × Nat :=
  let m' := fadd (fmul (pB1 p) m) (fmul (fsub fone (pB1 p)) g)
  let v' := fadd (fmul (pB2 p) v) (fmul (fsub fone (pB2 p)) (fmul g g))
  let den := fadd (fsqrt (fmul v' (pC2 p))) (pEps p)
  (m', v', fsub w (fmul (pLr p) (fadd (fdiv (fmul m' (pC1 p)) den) (fmul (pWd p) w))))

/-- z, n and w of FTRL. -/
def ftrlStep (p : List Word32) (z n w g : Nat) : Nat × Nat × Nat :=
  let n' := fadd n (fmul g g)
  let sg := fdiv (fsub (fsqrt n') (fsqrt n)) (pAlpha p)
  let z' := fadd z (fsub g (fmul sg w))
  let l1 := f32 (pL1 p)
  let small := !(l1.lt (f32 z').abs) && !(f32 z').isNan && !l1.isNan
  let sl := fmul (if Val.zero.lt (f32 z') then fone else if (f32 z').lt .zero then fone + 2 ^ 31 else 0) (pL1 p)
  let den := fadd (fdiv (fadd (pFbeta p) (fsqrt n')) (pAlpha p)) (pL2 p)
  (z', n', if small then 0 else toF32 (f32 (fdiv (fsub z' sl) den)).neg)

/-- Words of FP32 state at offset a. -/
def stateWords (bs : List Byte) (a n : Nat) : List Nat := (List.range n).map fun i => leAt bs (a + 4 * i) 4

def f32Bytes (xs : List Nat) : List Byte := xs.flatMap (leBytes 4)

/-- FP32 patterns of a stored image. -/
def imageF32 (f16 : Bool) (wc dim : Nat) (img : List Byte) : List Nat := (decodeRow f16 wc dim img).map toF32

/-- Stored image of FP32 patterns. -/
def encodeF32 (f16 : Bool) (wc : Nat) (xs : List Nat) : List Byte := encodeRow f16 wc (xs.map f32)

/-- Sum of squares of ROW_ADAGRAD. -/
def sumSquares : List Nat → Nat
  | [] => 0
  | g :: gs => gs.foldl (fun s x => fadd s (fmul x x)) (fmul g g)

/-- GRAD on a slot: new image and new state (R124). -/
def gradSlot (opt : Nat) (f16 : Bool) (wc dim : Nat) (p : List Word32) (slot : List Byte) (g : List Nat) : List Byte × List Byte :=
  let a := stateOff wc dim
  let ws := imageF32 f16 wc dim slot
  let wg := ws.zip g
  match opt with
  | 1 => (encodeF32 f16 wc (wg.map fun x => sgdStep p x.1 x.2), [])
  | 2 =>
    let gAcc := fadd (leAt slot a 4) (fdiv (sumSquares g) (toF32 (Val.ofInt dim)))
    (encodeF32 f16 wc (wg.map fun x => adaStep p gAcc x.1 x.2), leBytes 4 gAcc ++ leBytes 4 0)
  | 3 =>
    let ga := ((stateWords slot a dim).zip g).map fun x => fadd x.1 (fmul x.2 x.2)
    (encodeF32 f16 wc ((ga.zip wg).map fun x => adaStep p x.1 x.2.1 x.2.2), f32Bytes ga)
  | 4 =>
    let m := imageF32 f16 wc dim (slot.drop a)
    let v := imageF32 f16 wc dim (slot.drop (2 * a))
    let r := ((m.zip v).zip wg).map fun x => adamStep p x.1.1 x.1.2 x.2.1 x.2.2
    let enc (f : Nat × Nat × Nat → Nat) : List Byte := encodeF32 f16 wc (r.map f)
    let mi := enc (·.1)
    (enc (·.2.2), mi ++ ((slot.drop (a + mi.length)).take (a - mi.length)) ++ enc (·.2.1))
  | 5 =>
    let zs := stateWords slot a dim
    let ns := stateWords slot (a + 4 * dim) dim
    let r := ((zs.zip ns).zip wg).map fun x => ftrlStep p x.1.1 x.1.2 x.2.1 x.2.2
    (encodeF32 f16 wc (r.map (·.2.2)), f32Bytes (r.map (·.1)) ++ f32Bytes (r.map (·.2.1)))
  | _ => (slot.take (imageSize wc dim), [])

/-- A slot after an update: GRAD, ADD, ASSIGN (R124, R125). Bytes of the slot outside image and state stay. -/
def updateSlot (tb : List Word64) (wc : Nat) (u : RowUpdate) (slot : List Byte) : List Byte :=
  let dim := tbDim tb
  let a := stateOff wc dim
  let need := slotNeed (tbOpt tb) wc dim
  let vs := u.values.map (·.toNat)
  let old := (slot.drop a).take (need - a)
  let (img, st) : List Byte × List Byte :=
    match u.mode with
    | 0 => gradSlot (tbOpt tb) (tbF16 tb) wc dim u.param slot vs
    | 1 => (encodeF32 (tbF16 tb) wc (((imageF32 (tbF16 tb) wc dim slot).zip vs).map fun x => fadd x.1 x.2), old)
    | _ => (if u.vfmt = 2 then vs.map (BitVec.ofNat 8) else encodeF32 (tbF16 tb) wc vs, old.map fun _ => 0)
  let n := imageSize wc dim
  if need ≤ n then img ++ slot.drop n
  else img ++ (slot.drop n).take (a - n) ++ st ++ slot.drop (a + st.length)

/-! ### Predictor (R128) -/

def predIndex (t r : Nat) : Nat := goldenHash (t * 2 ^ 40 + r) / 2 ^ 54

def Dev.predicted (d : Dev) (unit t r : Nat) : Nat := Map.get 0 d.tb.pred (1024 * unit + predIndex t r)

def Dev.trainPred (d : Dev) (u : RowUpdate) (contended : Bool) : Dev :=
  let k := 1024 * u.unit + predIndex u.table u.row
  let v := Map.get 0 d.tb.pred k
  { d with tb := { d.tb with pred := Map.put d.tb.pred k (if contended then Nat.min 3 (v + 1) else v - 1) } }

/-- Agent of a unit: a Grinder, or a quarter's ingress agent. -/
def unitAgent (unit : Nat) : Nat := if unit < 64 then 0x200 + unit else 0x2C0 + (unit - 64)

/-- Sender's choice of memory: PLACE MEMORY, or AUTO below the threshold (Table 4.4). -/
def Dev.wantsMemory (d : Dev) (place unit t r threshold : Nat) : Bool :=
  place = 2 || (place = 0 && d.predicted unit t r < threshold)

/-! ### Crema store (R109, R110, R147, R148) -/

def preUnits (bytes : Nat) : Nat := ceilDiv (bytes + 32) 64
def mibUnits (mib : Nat) : Nat := mib * 16384

def sumUnits (xs : List Nat) : Nat := xs.foldl (· + ·) 0

/-- Units of the epoch partition and of the migration partition in use. -/
def Dev.epochUsed (d : Dev) : Nat := sumUnits ((d.tb.pre.filter fun p => !p.borrowed).map (·.units))
def Dev.migrUsed (d : Dev) : Nat :=
  sumUnits ((d.tb.pre.filter fun p => p.borrowed).map (·.units)) + sumUnits (d.tb.migr.map (·.units))
def Dev.migrRoom (d : Dev) (units : Nat) : Bool := d.migrUsed + units ≤ mibUnits (d.tb.cremaSize - d.tb.cremaEpoch)

/-- The pre-image of a row before its first update stamped u, or its loss. -/
def Dev.storePre (d : Dev) (t row stamp newer wc : Nat) (slot : List Byte) (poison : Bool) : Dev :=
  let n := preUnits slot.length
  let own := d.epochUsed + n ≤ mibUnits d.tb.cremaEpoch
  if own || d.migrRoom n then
    let p : PreImage := { table := t, row := row, stamp := stamp, newer := newer, wclass := wc, slot := slot, poison := poison, units := n, borrowed := !own }
    { d with tb := { d.tb with pre := p :: d.tb.pre } }
  else
    { d.updTable t fun x => { x with loss := insertNew newer x.loss } with tb :=
      { (d.updTable t fun x => { x with loss := insertNew newer x.loss }).tb with lossEvents := d.tb.lossEvents + 1 } }

/-! ### The write of the slot -/

/-- Segments of the table as an update at a home reaches them: as its descriptor translated them, else as they stand. -/
def Dev.updAcc (d : Dev) (u : RowUpdate) (tb : List Word64) (home : Nat) : SegBy := fun s =>
  let a := match u.orig with
    | .desc id _ => match d.run id with
      | some r => r.acc (unitAgent u.unit) (tbCtx tb) s []
      | none => d.liveAcc (unitAgent u.unit) (tbCtx tb) s []
    | _ => d.liveAcc (unitAgent u.unit) (tbCtx tb) s []
  { a with acc := { a.acc with upd := some home } }

/-- Units of 64 bytes a slot touches. -/
def slotUnits (e : RowEnt) : List Nat :=
  (List.range ((32 * e.slot % 64 + e.bytes + 63) / 64)).map (32 * e.slot / 64 + ·)

/-- The home takes a sector of a NORMAL slot into its slice and holds it (R129, R267). Sectors of other homes stay theirs:
they are read and written by RDCURRENT, WRFULL and WRPART. -/
def holdSector (a : SegAcc) (k : Nat) : Eng Unit := do
  let d ← get
  let sector := a.sector k
  let line := sector / 4
  let n := d.sliceNo line
  if a.acc.upd = some n && a.acc.rt = .normal && d.serves n && isTier (64 * sector) then
    let d1 := if (d.cacheSec n line (sector % 4)).st = .I then
        d.cacheFill n line (sector % 4) { st := .E, data := d.secData sector, info := d.secInfo sector, err := 0 } else d
    set (d1.updHome n fun x => { x with held := Map.put x.held sector (some ((Map.get none x.held sector).getD 0 + 1)) })

def holdSectors (a : SegAcc) : List Nat → Eng Unit
  | [] => return
  | k :: ks => do
    holdSector a k
    holdSectors a ks

/-- An update at a home node: pre-image, then the slot written whole (R109, R125, R267). -/
def applyHome (a : SegAcc) (t : Table) (u : RowUpdate) (e : RowEnt) : Eng (Option ErrStatus) := do
  match ← engReadBytes a (32 * e.slot) e.bytes with
  | .error x => return some x
  | .ok (bs, poison, is) =>
    if tbEpoch t.w && t.before (t.rowStamp is) u.stamp then
      modify fun (d : Dev) => d.storePre u.table u.row (t.rowStamp is) u.stamp e.wclass bs poison
    holdSectors a (slotUnits e)
    engWriteBytes a (32 * e.slot) (updateSlot t.w e.wclass u bs) (poison && u.mode ≠ 2) (if tbEpoch t.w then u.stamp else 0) e.wclass

/-! ### The end of an update -/

/-- Statuses of a bad row (R86, R121). -/
def badRow (st : Nat) : Bool := st = stIndexRange || st = stRowMissing || st = stFormat || st = stMismatch || st = stGradient

/-- cnt numbers of an UPDATE beyond the seven counts of Table 12.12: entries read, failing status + 1 and its position,
poison met, STEP_END sent. -/
def ucRead : Nat := 15
def ucFail : Nat := 16
def ucFailPos : Nat := 17
def ucPoison : Nat := 19
def ucStepEnd : Nat := 18

/-- The descriptor fails at a position; the lowest stands. -/
def Run.failAt (r : Run) (pos st : Nat) : Run :=
  if r.count ucFail = 0 || pos < r.count ucFailPos then (r.setCount ucFail (st + 1)).setCount ucFailPos pos else r

/-- A bad row at a position (R86, R121): skipped and counted, or the descriptor fails. -/
def Run.badAt (r : Run) (pos st : Nat) : Run :=
  let r1 := if st = stGradient then r.addCount 6 1 else r
  if upSkipBad r.w then (if st = stGradient then r1 else r1.addCount 5 1) else r1.failAt pos st

/-- Segment that holds a row's entry at a line: the row map's, a guest map's, or a DIRECT table's pool. -/
def Dev.entrySeg (d : Dev) (tb : List Word64) (row line : Nat) : Nat :=
  if tbDirect tb then (if tbDirPool tb = 0 then tbDramSeg tb else tbResSeg tb)
  else if tbFirst tb ≤ row && row < tbFirst tb + tbCount tb then daSeg (tbRowmap tb)
  else match d.tb.guests.find? fun g => g.table = tbId tb && dpaLine (g.seg.dpa (daOff g.da)) ≤ line with
    | some g => daSeg g.da
    | none => daSeg (tbRowmap tb)

/-- An update's message to its row's home, with the segment of the row's entry (R258). -/
def Dev.updMsg (d : Dev) (tb : List Word64) (line : Nat) (u : RowUpdate) : ReqMsg :=
  let src := unitAgent u.unit
  let a := (d.updAcc u tb 0 (d.entrySeg tb u.row line)).acc
  { mkReq .updRow src line 0xF with
    ctx := a.ctx, seg := a.seg, gen := a.gen, rt := a.rt, issue := d.issueStamp (quarterOfSource src), upd := some u }

/-- Bytes of a value row of n items: FP32, BF16, or the bytes of an image. -/
def valueSize (vfmt n : Nat) : Nat :=
  match vfmt with
  | 0 => 4 * n
  | 1 => 2 * n
  | _ => n

/-- Hold an update of a DETERM table for its step (R133, R135): 0 taken, 1 late, 2 duplicate, 3 no room. -/
def Dev.acceptStep (d : Dev) (t step : Nat) (x : StepUpd) : Nat × Dev :=
  match d.table t with
  | none => (1, d)
  | some tb =>
    let late (e : Dev) : Dev := { e with tb := { e.tb with lateSteps := e.tb.lateSteps + 1 } }
    let b := (d.tb.steps.find? fun b => b.table = t && b.step = step).getD
      { table := t, step := step, upds := [], ends := [], ready := false, busy := false }
    if step ≤ tb.lastStep || b.busy then (1, late d)
    else if b.upds.any fun y => y.src = x.src && y.seq = x.seq then (2, late d)
    else
      let size (y : StepUpd) : Nat := 32 + valueSize y.upd.vfmt y.upd.values.length
      let used := d.tb.steps.foldl (fun n s => n + sumUnits (s.upds.map size)) 0
      if d.tb.stepSize * 2 ^ 20 < used + size x then (3, d)
      else
        let rest := d.tb.steps.filter fun s => !(s.table = t && s.step = step)
        (0, { d with tb := { d.tb with steps := rest ++ [{ b with upds := b.upds ++ [x] }] } })

/-- Order of a step: source device, then sequence (R133). -/
def StepUpd.before (a b : StepUpd) : Bool := a.src < b.src || (a.src = b.src && a.seq ≤ b.seq)

def insertStep (x : StepUpd) : List StepUpd → List StepUpd
  | [] => [x]
  | y :: ys => if x.before y then x :: y :: ys else y :: insertStep x ys

def Dev.setStep (d : Dev) (t step : Nat) (b : Option StepBuf) : Dev :=
  { d with tb := { d.tb with steps := (d.tb.steps.filter fun s => !(s.table = t && s.step = step)) ++ b.toList } }

/-- The next update of a step being applied goes to its row's home; after the last the step is applied, and the next step
follows when it is complete (R134). -/
def Dev.stepNext (d : Dev) (t : Nat) : Nat → Dev
  | 0 => d
  | n + 1 =>
    match d.table t with
    | none => d
    | some tb =>
      match d.tb.steps.find? fun b => b.table = t && b.busy with
      | some b =>
        match b.upds with
        | x :: xs => (d.setStep t b.step (some { b with upds := xs })).send (.req (d.updMsg tb.w x.line x.upd))
        | [] => Dev.stepNext ((d.setStep t b.step none).updTable t fun y => { y with lastStep := Nat.max y.lastStep b.step }) t n
      | none =>
        match d.tb.steps.find? fun b => b.table = t && b.ready && b.step = tb.lastStep + 1 with
        | some b => Dev.stepNext (d.setStep t b.step (some { b with busy := true, upds := b.upds.foldr insertStep [] })) t n
        | none => d

def Dev.stepRun (d : Dev) (t : Nat) : Dev := d.stepNext t (2 * d.tb.steps.length + 2)

/-- The words of a value row in a message: its bytes, eight a word (R423). -/
def valueWords (vfmt : Nat) (vs : List Word32) : List Word64 :=
  let bs := match vfmt with
    | 0 => vs.flatMap fun v => leBytes 4 v.toNat
    | 1 => vs.flatMap fun v => leBytes 2 (v.toNat / 65536)
    | _ => vs.map fun v => BitVec.ofNat 8 v.toNat
  bytesWords ((bs.length + 7) / 8) bs

/-- An UPDATE message's body and words (Table 14.4). A folded value row travels as FP32. -/
def updateWords (tb : List Word64) (u : RowUpdate) (determ : Bool) (step seq : Nat) : Nat × List Word64 :=
  let vfmt := if u.mode ≠ 2 && tbMerge tb then 0 else u.vfmt
  let prm := if u.mode = 0 then (List.range 8).map fun i =>
      BitVec.ofNat 64 (pW u.param (2 * i) + 2 ^ 32 * pW u.param (2 * i + 1)) else []
  (u.table * 2 ^ 36 + u.mode * 2 ^ 34 + vfmt * 2 ^ 32 + seq,
    [packBits [(32, 32, (defsum tb).toNat), (0, 32, step)],
     packBits [(63, 1, bit determ), (62, 1, bit u.fwded), (61, 1, bit (u.mode = 0)), (0, 40, u.row)]] ++ prm ++ valueWords vfmt u.values)

/-- Issue one waiting update of a descriptor: to the row's home, into the step buffer, or to its owner. -/
def Dev.issueUpd (d : Dev) (id : DescId) (x : PendUpd) : Dev :=
  match d.run id with
  | none => d
  | some r =>
    match d.table (upTable r.w) with
    | none => d.updRun id fun y => { y.failAt x.pos stTableInvalid with upds := y.upds.filter fun z => z.pos ≠ x.pos }
    | some t =>
      let determ := tbDeterm t.w
      let seq := (upSeq r.w + x.pos) % 2 ^ 32
      let u : RowUpdate := { table := upTable r.w, row := x.row, mode := upMode r.w, vfmt := upVfmt r.w, values := x.values,
                             param := r.param, stamp := if tbEpoch t.w then r.epoch else 0,
                             memory := d.wantsMemory (upPlace r.w) x.unit (upTable r.w) x.row (r.count rcSetting), granule := none,
                             waited := false, fwded := x.fwded, unit := x.unit, orig := .desc id x.pos }
      let gone (y : Run) : Run := { y with upds := y.upds.filter fun z => z.pos ≠ x.pos }
      let sent (e : Dev) : Dev := e.updRun id fun y => { y with upds := y.upds.map fun z => if z.pos = x.pos then { z with stage := 2 } else z }
      match x.dev with
      | some dev =>
        let (body, ws) := updateWords t.w u determ (if determ then upStep r.w else 0) (if determ then seq else 0)
        let e := (sent d).updRun id fun y => y.addCount 3 1
        { e with tb := { e.tb with sentUpd := e.tb.sentUpd + 1 } }.request (.upd id x.pos x.row) mtUpdate dev body ws
      | none =>
        if determ then
          let su : StepUpd := { src := d.devId, seq := seq, line := x.line,
                                upd := { u with orig := .step (upStep r.w), stamp := if tbEpoch t.w then t.updEp else 0 } }
          let (k, e) := d.acceptStep (upTable r.w) (upStep r.w) su
          match k with
          | 0 => e.updRun id fun y => gone (y.addCount 4 1)
          | 1 => e.updRun id fun y => gone (y.failAt x.pos stStepClosed)
          | 2 => e.updRun id gone
          | _ => d
        else (sent d).send (.req (d.updMsg t.w x.line u))

/-- Issue every update whose row has no earlier one outstanding (R130). -/
def Dev.pumpUpd (d : Dev) (id : DescId) : Dev :=
  match d.run id with
  | none => d
  | some r => if !r.live then d else (r.upds.foldl (fun (p : Dev × List Nat) x =>
      if x.stage = 0 then p
      else if x.stage = 2 || p.2.contains x.row then (p.1, x.row :: p.2)
      else (p.1.issueUpd id x, x.row :: p.2)) (d, [])).1

/-- What the descriptor does next: a failure drops what waits above its position; the position is the lowest that is not
complete; with nothing outstanding it ends, or, with STEP_END, waits for UPDATE to close the step. -/
def Dev.settleUpd (d : Dev) (id : DescId) : Dev :=
  let d0 := d.updRun id fun r => if r.count ucFail = 0 then r else
    { r with upds := r.upds.filter fun x => x.stage = 2 || x.pos < r.count ucFailPos }
  let d1 := d0.pumpUpd id
  match d1.run id with
  | none => d1
  | some r =>
    if !r.live then d1
    else
    let failed := r.count ucFail ≠ 0
    let top := if failed then r.count ucFailPos else r.count ucRead
    let low := r.upds.foldl (fun n x => Nat.min n x.pos) top
    let d2 := d1.setPos id low
    if !r.upds.isEmpty then d2
    else if failed then d2.endRun id (r.count ucFail - 1)
    else if r.count ucRead < upCount r.w then d2
    else if upStepEnd r.w && r.count ucStepEnd = 0 && (match d1.table (upTable r.w) with
      | some t => tbDeterm t.w
      | none => false) then d2
    else d2.endRun id (if r.count ucPoison ≠ 0 && !upSkipBad r.w then stPoisoned else stOk)

/-- A position of a descriptor is done with a status; `site` 0 home node, 1 memory, 2 elsewhere (R121). -/
def Dev.updPos (d : Dev) (id : DescId) (pos st site : Nat) : Dev :=
  (d.lateFor id).updRun id (fun r =>
    let r1 := { r with upds := r.upds.filter fun x => x.pos ≠ pos }
    if st = stOk then (if site < 2 then r1.addCount site 1 else r1)
    else if st = stPoisoned then (r1.addCount 6 1).setCount ucPoison 1
    else if badRow st then r1.badAt pos st
    else r1.failAt pos st) |>.settleUpd id

/-- An update has completed at its row's home or was refused there: lock released, its origin told (R118, R423). -/
def Dev.updEnd (d : Dev) (u : RowUpdate) (st site : Nat) : Dev :=
  let d1 := { d with tb := { d.tb with
    locks := d.tb.locks.filter fun l => !(l.table = u.table && l.row = u.row)
    atHome := if st = stOk && site = 0 then d.tb.atHome + 1 else d.tb.atHome
    inMem := if st = stOk && site = 1 then d.tb.inMem + 1 else d.tb.inMem } }
  match u.orig with
  | .desc id pos => d1.updPos id pos st site
  | .peer dev txid => d1.sendMsg (mkMsg mtAck dev d1.devId txid (st * 2 ^ 40) [])
  | .step _ => d1.stepRun u.table

end Sys2Proof.Machine
end

