-- ==== Sys2Proof/Machine/Updates.lean ====
section
/-! DEFINITION. UPDATE, UPDROW, the row update in memory, steps of DETERM tables (R116-R136, R267). -/

namespace Sys2Proof.Machine

/-! ### Reading the list -/

/-- FP32 patterns of a value row; RAW keeps one byte of the image in each. -/
def valueRow (vfmt n : Nat) (bs : List Byte) : List Word32 :=
  match vfmt with
  | 0 => (List.range n).map fun i => BitVec.ofNat 32 (leAt bs (4 * i) 4)
  | 1 => (List.range n).map fun i => BitVec.ofNat 32 (leAt bs (2 * i) 2 * 65536)
  | _ => bs.map fun b => BitVec.ofNat 32 b.toNat

/-- Bytes of one value row. -/
def valueBytes (w tb : List Word64) : Nat :=
  match upVfmt w with
  | 0 => 4 * tbDim tb
  | 1 => 2 * tbDim tb
  | _ => imageSize (((List.range 4).find? (tbWmask tb).testBit).getD 0) (tbDim tb)

def valueStep (w tb : List Word64) : Nat := if upStride w = 0 then valueBytes w tb else upStride w

/-- A NaN or infinite element (R121). -/
def valueBad (mode : Nat) (vs : List Word32) : Bool :=
  mode ≠ 2 && vs.any fun v => v.toNat / 2 ^ 23 % 256 = 255

/-- Grinder of a row within SCOPE, by its predictor hash (R130). -/
def updGrinder (scope t r : Nat) : Nat :=
  let k := predIndex t r
  if scope = 0 then k % 64 else 16 * (scope - 4) + k % 16

/-- Line of the row's home: of its entry, or of a DIRECT slot's first byte (R116). -/
def Dev.rowLine (d : Dev) (ac : SegBy) (w : List Word64) (r : Nat) (e : RowEnt) (at_ : Option Word64) : Nat :=
  match at_ with
  | some da => dpaLine ((d.guestAcc ac w r da).sg.dpa (daOff da))
  | none => dpaLine ((slotAcc ac w e).sg.dpa (32 * e.slot))

/-- Fold values into a merge-buffer entry (R131). -/
def foldValues (mode : Nat) (old new : List Word32) : List Word32 :=
  if mode = 2 then new else (old.zip new).map fun p => BitVec.ofNat 32 (fadd p.1.toNat p.2.toNat)

/-- An occurrence of a row: folded into its entry, or a new one; a full merge buffer of its Grinder releases its earliest
(R131). -/
def Run.putUpd (r : Run) (merge : Bool) (x : PendUpd) : Run × Nat :=
  if !merge then ({ r with upds := r.upds ++ [{ x with stage := 1 }] }, 0)
  else if r.upds.any fun y => y.stage = 0 && y.row = x.row then
    ({ r.addCount 2 1 with upds := r.upds.map fun y =>
        if y.stage = 0 && y.row = x.row then { y with values := foldValues (upMode r.w) y.values x.values } else y }, 1)
  else
    let mine := r.upds.filter fun y => y.stage = 0 && y.unit = x.unit
    let first : Nat := if mine.length < 512 then 2 ^ 32 else (mine.map (·.pos)).headD (2 ^ 32)
    ({ r with upds := (r.upds.map fun y => if y.pos = first then { y with stage := 1 } else y) ++ [x] }, 0)

/-- The merge buffers release what they hold. -/
def Run.release (r : Run) : Run := { r with upds := r.upds.map fun y => if y.stage = 0 then { y with stage := 1 } else y }

/-- Take the next index of the list (R121, R130). A value row that reads as poisoned is rejected like a poisoned index
(notes/assumptions 135). -/
def updateIndex (id : DescId) (h : List HostAnswer) : Eng Unit := do
  let d ← get
  match d.run id with
  | none => return
  | some r =>
    let p := r.count ucRead
    if !r.live || r.count ucFail ≠ 0 || upCount r.w ≤ p then return
    match d.table (upTable r.w) with
    | none => modify fun (e : Dev) => e.updRun id fun y => (y.release).failAt p stTableInvalid
    | some t =>
      let tb := t.w
      let next (y : Run) : Run := let y1 := y.setCount ucRead (p + 1); if p + 1 = upCount r.w then y1.release else y1
      let fail (st : Nat) : Eng Unit := modify fun (e : Dev) => e.updRun id fun y => (y.release).failAt p st
      let bad (st : Nat) : Eng Unit := modify fun (e : Dev) => e.updRun id fun y =>
        let y1 := y.badAt p st
        if y1.count ucFail = 0 then next y1 else y1.release
      let poisoned : Eng Unit := modify fun (e : Dev) => e.updRun id fun y => next ((y.addCount 6 1).setCount ucPoison 1)
      let ac : SegBy := fun s => r.acc 0x200 r.ctx s h
      let wd := if upIdx32 r.w then 4 else 8
      match ← readDa ac (qWord r.w 1) (wd * p) wd with
      | .error e => fail (errStat e)
      | .ok (ib, ip, _) =>
        let i := leNat ib
        if ip then poisoned
        else if isPad (upIdx32 r.w) i then modify fun (e : Dev) => e.updRun id next
        else
          match ← readDa ac (qWord r.w 2) (valueStep r.w tb * p) (valueBytes r.w tb) with
          | .error e => fail (errStat e)
          | .ok (vb, vp, _) =>
            let vs := valueRow (upVfmt r.w) (tbDim tb) vb
            let g := updGrinder (upScope r.w) (upTable r.w) i
            let tac : SegBy := fun s => r.acc (0x200 + g) (tbCtx tb) s h
            let put (x : PendUpd) : Eng Unit := modify fun (e : Dev) =>
              match e.run id with
              | none => e
              | some y =>
                let (y1, folded) := y.putUpd (tbMerge tb) x
                let e1 := e.updRun id fun _ => next y1
                { e1 with tb := { e1.tb with merged := e1.tb.merged + BitVec.ofNat 64 folded } }
            if d.partHeld (0x200 + g) then fail stIsolated
            else match ← uncounted (resolveRow tac tb d.devId i false) with
            | (_, .fail st) => fail st
            | (_, .bad st) => bad st
            | (_, .poison) => poisoned
            | (_, wh) =>
              if vp then poisoned
              else if valueBad (upMode r.w) vs then
                modify fun (e : Dev) => { e with tb := { e.tb with gradRej := e.tb.gradRej + 1 } }
                bad stGradient
              else
                match wh with
                | .remote dev f =>
                  if f then modify fun (e : Dev) => { e with tb := { e.tb with forwarded := e.tb.forwarded + 1 } }
                  put { pos := p, row := i, values := vs, line := 0, dev := some dev, fwded := f, stage := 0, unit := g }
                | .ent e at_ =>
                  put { pos := p, row := i, values := vs, line := d.rowLine tac tb i e at_, dev := none, fwded := false, stage := 0, unit := g }
                | _ => return

def Dev.updateLoop (d : Dev) (id : DescId) (h : List HostAnswer) : Nat → Dev
  | 0 => d
  | n + 1 => Dev.updateLoop (d.engine (updateIndex id h)) id h n

/-- Devices the shard map names, from entry k on (R134). -/
def shardDevs (ac : SegBy) (w : List Word64) (k : Nat) : Nat → Eng (Except Nat (List Nat))
  | 0 => return .ok []
  | n + 1 => do
    match ← shardEntry ac w k with
    | .error (.fail st) => return .error st
    | .error _ => return .error stPoisoned
    | .ok (_, dv) =>
      match ← shardDevs ac w (k + 1) n with
      | .error e => return .error e
      | .ok ds => return .ok (insertNew dv ds)

def owners (ac : SegBy) (w : List Word64) (me : Nat) : Eng (Except Nat (List Nat)) :=
  if tbShards w = 1 then return .ok [me] else shardDevs ac w 0 (tbShards w)

/-- Which steps of a table every participant has closed (R134). -/
def stepsReady (ac : SegBy) (t : Nat) : Eng Unit := do
  let d ← get
  match d.table t with
  | none => return
  | some x =>
    match ← owners ac x.w d.devId with
    | .error _ => return
    | .ok os =>
      let need := os ++ x.peers
      modify fun (e : Dev) =>
        { e with tb := { e.tb with steps := e.tb.steps.map fun (b : StepBuf) =>
            if b.table = t && need.all b.ends.contains then { b with ready := true } else b } }.stepRun t

/-- STEP_END of a device for a step of this owner. -/
def Dev.stepEnds (d : Dev) (t step dev : Nat) : Dev :=
  match d.table t with
  | none => d
  | some x =>
    if step ≤ x.lastStep then d
    else
      let b := (d.tb.steps.find? fun b => b.table = t && b.step = step).getD
        { table := t, step := step, upds := [], ends := [], ready := false, busy := false }
      d.setStep t step (some { b with ends := insertNew dev b.ends })

/-- Close the descriptor's step at every owner (R134, R424). -/
def closeStep (id : DescId) (h : List HostAnswer) : Eng Unit := do
  let d ← get
  match d.run id with
  | none => return
  | some r =>
    match d.table (upTable r.w) with
    | none => return
    | some t =>
      if !r.live || r.count ucFail ≠ 0 || r.count ucRead < upCount r.w || !r.upds.isEmpty || !upStepEnd r.w || !tbDeterm t.w ||
          r.count ucStepEnd ≠ 0 then return
      let tac : SegBy := fun s => r.acc 0x200 (tbCtx t.w) s h
      match ← owners tac t.w d.devId with
      | .error st => modify fun (e : Dev) => e.endRun id st
      | .ok os =>
        let ask (e : Dev) (o : Nat) : Dev :=
          if o = e.devId then e.stepEnds (upTable r.w) (upStep r.w) o
          else (e.updRun id fun y => { y with owed := y.owed + 1 }).request (.stepEnd id) mtStepend o (upTable r.w * 2 ^ 36)
            [BitVec.ofNat 64 (upStep r.w)]
        modify fun (e : Dev) => os.foldl ask (e.updRun id fun y => y.setCount ucStepEnd 1)
        stepsReady tac (upTable r.w)
        modify fun (e : Dev) => e.settleUpd id

/-- UPDATE: an admitted descriptor takes its list, issues its updates and closes its step. -/
def Dev.update (d : Dev) (id : DescId) (h : List HostAnswer) : Dev :=
  d.withRun id tyUpdate none fun r e =>
    let e1 := if qBit r.w 0 56 && r.prog = 0 then
        match e.freeProg 0x60 32 with
        | some i => e.takeProg id (qBits r.w 0 0 16) i (upCount r.w)
        | none => e
      else e
    ((e1.updateLoop id h (upCount r.w - r.count ucRead)).settleUpd id).engine (closeStep id h)

/-! ### UPDROW (R267) -/

inductive Site | home | memory | bad
  deriving DecidableEq, Repr

/-- Where an update runs (R127, Table 4.4). -/
def placeUpd (t : Table) (rt : RType) (spans : Bool) (u : RowUpdate) (place : Nat) : Site :=
  if tbEpoch t.w then .home
  else if rt ≠ .normal then (if spans then .bad else .memory)
  else if spans || tbMerge t.w || place = 1 then .home
  else if u.memory then .memory else .home

/-- PLACE of the descriptor; other updates are AUTO. -/
def Dev.placeOfUpd (d : Dev) (u : RowUpdate) : Nat :=
  match u.orig with
  | .desc id _ => match d.run id with
    | some r => upPlace r.w
    | none => 0
  | _ => 0

/-- The lines a slot overlaps. -/
def slotLines (a : SegAcc) (e : RowEnt) : List Nat := (slotUnits e).foldl (fun ls k => insertNew (a.sector k / 4) ls) []

/-- A cached copy of a sector of the slot, in an L1 or in the host (R127). -/
def Dev.slotCached (d : Dev) (a : SegAcc) (e : RowEnt) : Bool :=
  (slotUnits e).any fun k =>
    let s := (d.dirEntry (a.sector k / 4)).sector (a.sector k % 4)
    s.ds != .I || s.hs ≠ 0

/-- An update's message with the segment of its slot. -/
def slotReq (m : ReqMsg) (a : SegAcc) : ReqMsg := { m with ctx := a.acc.ctx, seg := a.acc.seg, gen := a.acc.gen, rt := a.acc.rt }

/-- Hand the update to the memory-side unit behind the slot's granule: slice copies go to memory first, and the line stays
busy until MEMCMP. -/
def toMemory (m : ReqMsg) (u : RowUpdate) (a : SegAcc) (e : RowEnt) : Eng Unit := do
  let d ← get
  let sector := a.sector (32 * e.slot / 64)
  let line := sector / 4
  let h := d.homeOf (lineDpa line)
  match d.freeSlot h with
  | none => throw .busy
  | some slot =>
    let back (x : Dev) (k : Nat) : Dev :=
      let s := a.sector k
      let c := x.cacheSec (x.sliceNo line) line (s % 4)
      let x1 := if c.st = .M then x.sliceWriteBack line (s % 4) c else x
      x1.cacheDrop (x1.sliceNo line) line (s % 4)
    let u1 : RowUpdate := { u with granule := some e.word.toNat }
    let m1 : ReqMsg := { slotReq m a with line := line, upd := some u1 }
    let d1 := (slotUnits e).foldl back (d.sideRemove line)
    let d2 := d1.setTxn h slot (some (engTxn m1 .fetch [.cmp (sector % 4)] none))
    set (d2.send (.mem { kind := .rmw, txid := txidOf h slot, line := line, sec := sector % 4, data := 0, info := .zero,
                         req := some m1, old := 0, refused := none }))

/-- The row's pending migration sees the update (R140 step 5); an in-progress mark without a record is cleared (R141). -/
def migrSees (ac : SegBy) (tb : List Word64) (u : RowUpdate) (e : RowEnt) (at_ : Option Word64) : Eng (Option ErrStatus) := do
  let d ← get
  let mine (m : Migr) : Bool := m.table = u.table && m.row = u.row && m.step < 4
  if d.tb.migr.any mine then
    set { d with tb := { d.tb with migr := d.tb.migr.map fun m => if mine m then { m with changed := true } else m } }
    return none
  else if e.fwd then
    match at_ with
    | some da => engWriteBytes (d.guestAcc ac tb u.row da) (daOff da) (leBytes 8 ({ e with fwd := false } : RowEnt).word.toNat) false 0 0
    | none => return none
  else return none

/-- A forward entry met by an update: relayed once (R141, R422). -/
def Dev.relayUpd (d : Dev) (u : RowUpdate) (dev : Nat) : Dev :=
  match d.table u.table with
  | none => d.updEnd u stTableInvalid 2
  | some t =>
    if u.fwded then d.updEnd u stRowMissing 2
    else
      let d1 := { d with tb := { d.tb with forwarded := d.tb.forwarded + 1 } }
      let (body, ws) := updateWords t.w { u with fwded := true } false 0 0
      match u.orig with
      | .desc id pos =>
        let e := d1.updRun id fun y => y.addCount 3 1
        { e with tb := { e.tb with sentUpd := e.tb.sentUpd + 1 } }.request (.upd id pos u.row) mtUpdate dev body ws
      | .peer src txid => d1.relayMsg (u.unit - 64) (mkMsg mtUpdate dev src txid body ws) dev
      | .step n => d1.request (.stepUpd u.table n) mtUpdate dev body ws

/-- A waiting row update leaves its home's queue. -/
def Dev.tookRow (d : Dev) (m : ReqMsg) : Dev :=
  d.updHome (d.homeOf (lineDpa m.line)) fun x => { x with queue := x.queue.eraseP fun w => w.req = m }

/-- UPDROW at the row's home, once the row's lock is free (R117); a forwarded one finds its row in a guest map whatever the
shard map still says (R146). -/
def rowHome (m : ReqMsg) (u : RowUpdate) : Eng Unit := do
  let d ← get
  match d.table u.table with
  | none => set ((d.tookRow m).updEnd u stTableInvalid 2)
  | some t =>
    let home := d.homeOf (lineDpa m.line)
    let ac := d.updAcc u t.w home
    if d.rowLocked u.table u.row then throw .busy
    match ← uncounted (resolveRow ac t.w d.devId u.row u.fwded) with
    | (_, .fail st) => modify fun (e : Dev) => (e.tookRow m).updEnd u st 2
    | (_, .bad st) => modify fun (e : Dev) => (e.tookRow m).updEnd u st 2
    | (_, .poison) => modify fun (e : Dev) => (e.tookRow m).updEnd u stPoisoned 2
    | (_, .remote dev _) => modify fun (e : Dev) => (e.tookRow m).relayUpd u dev
    | (_, .ent e at_) =>
      let a := slotAcc ac t.w e
      engLine a.acc m.line
      modify fun (x : Dev) => (x.tookRow m).trainPred u u.waited
      let done (r : Option ErrStatus) : Eng Unit := modify fun (x : Dev) => match r with
        | some er => x.updEnd u (errStat er) 2
        | none => x.updEnd u stOk 0
      match ← migrSees ac t.w u e at_ with
      | some er => done (some er)
      | none =>
        let cleared : Option ErrStatus ←
          match at_ with
          | some da => if e.carafe then clearCarafe ac t.w u.row e da else pure none
          | none => pure none
        match cleared with
        | some er => done (some er)
        | none =>
          let spans := decide (1 < (slotLines a e).length)
          match placeUpd t a.acc.rt spans u (d.placeOfUpd u) with
          | .bad => modify fun (x : Dev) => x.updEnd u stFormat 2
          | .home => done (← applyHome a t u e)
          | .memory =>
            let line := a.sector (32 * e.slot / 64) / 4
            modify fun (x : Dev) => { x with tb := { x.tb with locks := x.tb.locks ++ [{ table := u.table, row := u.row, line := m.line, upd := u }] } }
            if d.homeOf (lineDpa line) = home then
              if d.slotCached a e then done (← applyHome a t u e)
              else
                engLine a.acc line
                toMemory m u a e
            else
              modify fun (x : Dev) => x.send (.req { slotReq m a with line := line, upd := some { u with granule := some e.word.toNat } })

/-- TXID by which the CMP of a handed-on update names its row. -/
def rowTxid (u : RowUpdate) : Nat := u.table * 2 ^ 40 + u.row

/-- CMP of the slot's granule's home to the row's home (R267), with the site it ran at, 0 home node or 1 memory, for the
counts of R121 (notes/assumptions 128); a refusal is an ERR. -/
def Dev.granuleDone (d : Dev) (u : RowUpdate) (line : Nat) (r : Option ErrStatus) (site : Nat) : Dev :=
  d.send (.rsp (match r with
    | none => { mkRsp .cmp (homeSource (d.homeOf (lineDpa line))) (rowTxid u) line 0 with old := BitVec.ofNat 64 site }
    | some e => { mkRsp .err (homeSource (d.homeOf (lineDpa line))) (rowTxid u) line 0 with status := e }))

/-- UPDROW handed to the home of the slot's granule (R267). -/
def granuleHome (m : ReqMsg) (u : RowUpdate) (ent : Nat) : Eng Unit := do
  let d ← get
  match d.table u.table with
  | none => set ((d.tookRow m).updEnd u stTableInvalid 2)
  | some t =>
    let e := RowEnt.ofWord ent
    let a := slotAcc (d.updAcc u t.w (d.homeOf (lineDpa m.line))) t.w e
    engLine a.acc m.line
    modify fun (x : Dev) => x.tookRow m
    if d.slotCached a e then
      let r ← applyHome a t u e
      modify fun (x : Dev) => x.granuleDone u m.line r 0
    else toMemory m u a e

/-- The block without what makes an access wait, to see where a row lies. -/
def Dev.calm (d : Dev) : Dev :=
  { d with homes := Map.mapVals (fun _ (x : Home) => { x with txns := [], held := [], closed := [] }) d.homes }

/-- Lines of an update's slot as its entry stands; none where the row has none. -/
def Dev.updLines (d : Dev) (m : ReqMsg) (u : RowUpdate) : List Nat :=
  match d.table u.table with
  | none => []
  | some t =>
    let ac := d.updAcc u t.w (d.homeOf (lineDpa m.line))
    match u.granule with
    | some ent => slotLines (slotAcc ac t.w (RowEnt.ofWord ent)) (RowEnt.ofWord ent)
    | none => match resolveRow ac t.w d.devId u.row u.fwded d.calm with
      | .ok ((_, .ent e _), _) => slotLines (slotAcc ac t.w e) e
      | _ => []

/-- The row is contended as its update arrives (R128): its lock is held, or a request waits in the row's home's queue for
a line of that home that the slot overlaps. -/
def Dev.contended (d : Dev) (m : ReqMsg) (u : RowUpdate) : Bool :=
  let home := d.homeOf (lineDpa m.line)
  d.rowLocked u.table u.row ||
    (d.home home).queue.any fun w => d.homeOf (lineDpa w.req.line) = home && (d.updLines m u).contains w.req.line

/-- Begin a waiting row update, if it can begin (R127, R267). -/
def Dev.tryRow (d : Dev) (m : ReqMsg) : Dev :=
  match m.upd with
  | none => d.tookRow m
  | some u => d.engine (match u.granule with
    | some ent => granuleHome m u ent
    | none => rowHome m u)

/-- Row updates that head their lines. -/
def Dev.rowHeads (d : Dev) : List ReqMsg :=
  d.homes.flatMap fun p => (p.2.heads.filter fun w => w.req.kind = .updRow).map (·.req)

def Dev.rowsWaiting (d : Dev) : Nat :=
  sumUnits (d.homes.map fun p => (p.2.queue.filter fun w => w.req.kind = .updRow).length)

/-- Begin the row updates that can begin; what waited behind them follows. -/
def Dev.pumpRows (d : Dev) : Nat → Dev
  | 0 => d
  | n + 1 =>
    let e := d.rowHeads.foldl (fun (x : Dev) m => (x.tryRow m).settle (x.homeOf (lineDpa m.line))) d
    if e.rowsWaiting < d.rowsWaiting then Dev.pumpRows e n else e

/-- Host requests that waited in their channel enter homes that have room. -/
def Dev.pumpHost (d : Dev) : Dev :=
  d.net.foldl (fun (e : Dev) x => match x with
    | .req m => if m.src = hostAgent && !e.homeFull m.line then ((e.taken (.req m)).enqueue m).settle (e.homeOf (lineDpa m.line)) else e
    | _ => e) d

/-- The homes after a message: what the freed lines, locks and places in a queue let begin (R260, R267). -/
def Dev.pumpHomes (d : Dev) : Dev :=
  let e := d.pumpHost
  (e.pumpRows e.rowsWaiting).retrySuspects

/-- UPDROW arrives at a home (R127, R267): it is one of its line's requests, and notes whether its row is contended. -/
def Dev.updRow (d : Dev) (m : ReqMsg) : Dev :=
  match m.upd with
  | none => d.taken (.req m)
  | some u => d.acceptAs m { m with upd := some { u with waited := u.waited || d.contended m u } }

/-! ### In memory (R124, R267) -/

/-- The slot's read-modify-write at a controller; refused by the check of R220. -/
def Dev.rowRmw (d : Dev) (m : ReqMsg) (u : RowUpdate) : Option ErrStatus × Dev :=
  match d.table u.table, u.granule with
  | some t, some ent =>
    let e := RowEnt.ofWord ent
    let a := slotAcc (d.updAcc u t.w (d.homeOf (lineDpa m.line))) t.w e
    let ss := (slotUnits e).map a.sector
    match ss.findSome? fun s => (d.checkSec { m with line := s / 4 } (s % 4)) with
    | some er => (some er, d.countReject m.ctx m.seg er)
    | none =>
      let (xs, d1) := ss.foldl (fun (p : List (Sector × SectorMeta) × Dev) s =>
        let (x, i, y) := p.2.memRead s
        (p.1 ++ [(x, i)], y)) ([], d)
      let off := 32 * e.slot % 64
      let all := xs.flatMap fun x => Sector.bytes x.1
      let new := all.take off ++ updateSlot t.w e.wclass u ((all.drop off).take e.bytes) ++ all.drop (off + e.bytes)
      let mask (k : Nat) : Word64 :=
        BitVec.ofNat 64 (((List.range 64).filter fun b => off ≤ 64 * k + b && 64 * k + b < off + e.bytes).foldl (fun n b => n + 2 ^ b) 0)
      let wr (y : Dev) (p : (Nat × Nat) × (Sector × SectorMeta)) : Dev :=
        y.memWrite [] p.1.2 (Sector.ofBytes (new.drop (64 * p.1.1))) (mask p.1.1) (p.2.2.poison && u.mode ≠ 2) 0 e.wclass
      (none, (((List.range ss.length).zip ss).zip xs).foldl wr d1)
  | _, _ => (none, d)

/-- MEMCMP of a row update: the granule's line is free; at the row's own home the update completes, else CMP goes to it. -/
def Dev.rowMemDone (d : Dev) (h slot : Nat) (u : RowUpdate) (m : ReqMsg) (r : Option ErrStatus) : Dev :=
  let d1 := (d.setTxn h slot none).settle h
  match d.tb.locks.find? fun l => l.table = u.table && l.row = u.row with
  | some l =>
    if d.homeOf (lineDpa l.line) = h then
      match r with
      | none => d1.updEnd l.upd stOk 1
      | some e => d1.updEnd l.upd (errStat e) 2
    else d1.granuleDone u m.line r 1
  | none => d1

/-- CMP or ERR for a row the home holds locked: the update completes (R118), counted at the site the CMP names. -/
def Dev.rowCmp (d : Dev) (txid : Nat) (r : Option ErrStatus) (site : Nat) : Dev :=
  match d.tb.locks.find? fun l => l.table * 2 ^ 40 + l.row = txid with
  | some l => match r with
    | none => d.updEnd l.upd stOk site
    | some e => d.updEnd l.upd (errStat e) 2
  | none => d

/-! ### Steps -/

/-- DETERM_STEP_LIMIT: the owner applies what it holds of the step (R135). -/
def Dev.determLimit (d : Dev) (t step : Nat) : Dev :=
  match d.table t, d.tb.steps.find? fun b => b.table = t && b.step = step with
  | some _, some b =>
    if b.busy || b.ready || b.upds.isEmpty || d.tb.steps.any fun y => y.table = t && y.busy then d
    else
      let d1 := d.setStep t step (some { b with ready := true, busy := true, upds := b.upds.foldr insertStep [] })
      { d1 with tb := { d1.tb with incomplete := d1.tb.incomplete + 1 } }.stepRun t
  | _, _ => d

/-- Participants read from a list of 2-byte device IDs (R134); a later list takes an earlier one's place
(notes/assumptions 136). -/
def determPeersStep (id : DescId) (h : List HostAnswer) : Eng Unit := do
  let d ← get
  match d.run id with
  | none => return
  | some r =>
    let t := qBits r.w 3 52 12
    let n := qBits r.w 3 0 9
    match ← readDa (fun s => r.acc mgmtAgent r.ctx s h) (qWord r.w 2) 0 (2 * n) with
    | .error e => modify fun (x : Dev) => x.endRun id (errStat e)
    | .ok (bs, poison, _) =>
      if poison then modify fun (x : Dev) => x.endRun id stPoisoned
      else
        let ids := (List.range n).map fun i => leAt bs (2 * i) 2
        modify fun (x : Dev) => (x.updTable t fun y => { y with peers := ids.foldl (fun l k => insertNew k l) [] }).endRun id stOk
        match d.table t with
        | some x => stepsReady (fun s => d.liveAcc mgmtAgent (tbCtx x.w) s h) t
        | none => return

/-- DETERM_PEERS. -/
def Dev.determPeers (d : Dev) (id : DescId) (h : List HostAnswer) : Dev :=
  d.withRun id tyMaint (some 0x05) fun _ e => e.engine (determPeersStep id h)

/-! ### Meanings -/

/-- The answer of a command that reaches the homes. -/
def State.homes (s : State) (d : Dev) : Host.Outcome State Fault Refusal := s.goes d.pumpHomes

def execUpdate (d : DescId) (h : List HostAnswer) (s : State) : Host.Outcome State Fault Refusal := s.goes (s.dev.update d h)
def execUpdrow (m : ReqMsg) (s : State) : Host.Outcome State Fault Refusal := s.homes (s.dev.updRow { m with kind := .updRow })
def execDetermStepLimit (t : TableId) (step : Nat) (s : State) : Host.Outcome State Fault Refusal :=
  s.timed (s.dev.determLimit t.val step)
def execDetermPeers (d : DescId) (h : List HostAnswer) (s : State) : Host.Outcome State Fault Refusal :=
  s.goes (s.dev.determPeers d h)

end Sys2Proof.Machine
end

