-- ==== Sys2Proof/Machine/Migrate.lean ====
section
/-! DEFINITION. MIGRATE and guest row maps (R137-R149, R425): opening a row's move, its copy, commit, abandonment. -/

namespace Sys2Proof

/-- A migration list entry (Table 4.6). -/
structure MigEntry where
  dev    : Nat
  wclass : Nat
  pool   : Nat
  row    : Nat
  slotsz : Nat
  slot   : Nat
  deriving DecidableEq, Repr

def MigEntry.of (q0 q1 : Nat) : MigEntry :=
  { dev := q0 / 2 ^ 48 % 2 ^ 16, wclass := q0 / 2 ^ 46 % 4, pool := q0 / 2 ^ 45 % 2, row := q0 % 2 ^ 40,
    slotsz := q1 / 2 ^ 58 % 64, slot := q1 % 2 ^ 43 }

def MigEntry.bytes (e : MigEntry) : Nat := 32 * (e.slotsz + 1)

end Sys2Proof

namespace Sys2Proof.Machine

/-! ### Conversion (R139) -/

def convertImage (f16 : Bool) (dim a b : Nat) (img : List Byte) : List Byte :=
  if a = b then img.take (imageSize a dim) else encodeRow f16 b (decodeRow f16 a dim img)

/-- The slot of a row of class a as class b: image, optimiser state. Bytes that neither holds are zero. -/
def convertSlot (tb : List Word64) (a b size : Nat) (slot : List Byte) : List Byte :=
  let dim := tbDim tb
  let opt := tbOpt tb
  if a = b then (slot ++ List.replicate size 0).take size
  else
    let pad (n : Nat) (bs : List Byte) : List Byte := bs ++ List.replicate (n - bs.length) 0
    let conv (bs : List Byte) : List Byte := pad (stateOff b dim) (convertImage (tbF16 tb) dim a b bs)
    let oa := stateOff a dim
    let st :=
      if opt = 4 then conv (slot.drop oa) ++ conv (slot.drop (2 * oa))
      else (slot.drop oa).take (slotNeed opt a dim - oa)
    pad size (conv slot ++ st)

/-! ### Records -/

/-- cnt numbers of a MIGRATE: committed, skipped, then list entries opened or skipped, admission number at the last commit. -/
def mcCommitted : Nat := 0
def mcSkipped : Nat := 1
def mcRead : Nat := 15
def mcLast : Nat := 14

def Dev.updMigr (d : Dev) (t row : Nat) (f : Migr → Migr) : Dev :=
  { d with tb := { d.tb with migr := d.tb.migr.map fun m => if m.table = t && m.row = row && m.step < 4 then f m else m } }

def Dev.openMigr (d : Dev) (t row : Nat) : Option Migr := d.tb.migr.find? fun m => m.table = t && m.row = row && m.step < 4

/-- Records of a descriptor leave with it (R143). -/
def Dev.dropMigr (d : Dev) (id : DescId) : Dev :=
  { d with tb := { d.tb with migr := d.tb.migr.filter fun m => m.desc ≠ id } }

/-- The descriptor's position, and its end once the list is done (R138, R144). -/
def Dev.settleMigr (d : Dev) (id : DescId) : Dev :=
  match d.run id with
  | none => d
  | some r =>
    let n := r.count mcCommitted + r.count mcSkipped
    let d1 := d.setPos id n
    if n = qBits r.w 2 0 32 then d1.endRun id (if r.count mcSkipped = 0 then stOk else stPartial) else d1

def Dev.skipMigr (d : Dev) (id : DescId) : Dev := (d.updRun id fun r => r.addCount mcSkipped 1).settleMigr id

/-- DA of a row's entry, guest maps included. -/
def rowDa (ac : SegBy) (tb : List Word64) (r : Nat) : Eng (Option Word64) := do
  let d ← get
  if tbFirst tb ≤ r && r < tbFirst tb + tbCount tb then return d.entryDa tb 0 0 r
  else
    match ← shardOf ac tb d.devId r with
    | .error _ => return none
    | .ok (k, first, _) => return d.entryDa tb k first r

/-- The target of an abandoned move is told (R425). -/
def Dev.tellAbort (d : Dev) (m : Migr) : Dev :=
  if m.dev ≠ d.devId && 1 ≤ m.step then
    d.sendMsg (mkMsg mtMigabort m.dev d.devId 0 (m.table * 2 ^ 36) [BitVec.ofNat 64 m.row])
  else d

/-- The row's move ends without a commit: its record goes, its mark is cleared, a target device is told. Where the entry
cannot be written now, R141 clears the mark later. -/
def Dev.abandon (d : Dev) (m : Migr) : Dev :=
  let d1 := { d with tb := { d.tb with migr := d.tb.migr.filter fun x => !(x.table = m.table && x.row = m.row && x.step < 4) } }
  match d.table m.table with
  | none => d1
  | some t =>
    let ac : SegBy := fun s => d.liveAcc 0x200 (tbCtx t.w) s []
    let clear : Eng Unit := do
      match ← rowDa ac t.w m.row with
      | some da =>
        let e : RowEnt := { RowEnt.ofWord m.old with fwd := false, carafe := false }
        let _ ← engWriteBytes (d.guestAcc ac t.w m.row da) (daOff da) (leBytes 8 e.word.toNat) false 0 0
      | none => pure ()
    (d1.engine clear).tellAbort m

/-- Open moves of a MIGRATE. -/
def Dev.openMoves (d : Dev) (id : DescId) : List Migr := d.tb.migr.filter fun m => m.desc = id && m.step < 4

/-- The MIGRATE fails: every open move is abandoned, committed rows stay (R149). -/
def Dev.failMigr (d : Dev) (id : DescId) (st : Nat) : Dev :=
  ((d.openMoves id).foldl (fun (e : Dev) m => e.abandon m) d).endRun id st

/-- Steps 3 to 6: take space, convert the row, write the target slot or send it (R140). The target's sectors keep the stamps
of the slot's, in order (R139); MIGCOPY has no room for stamps or poison (notes/assumptions 137). -/
def migrCopy (id : DescId) (h : List HostAnswer) (m : Migr) : Eng Unit := do
  let d ← get
  match d.run id, d.table m.table with
  | some r, some t =>
    if d.updLocked m.table m.row then throw .busy
    let tb := t.w
    let ac : SegBy := fun s => r.acc 0x200 (tbCtx tb) s h
    let bytes := 32 * (m.slotsz + 1)
    let units := preUnits bytes
    if m.units = 0 && !d.migrRoom units then
      let p := d.prog r.prog
      if p.state ≠ 2 then
        set { (if r.prog = 0 then d else d.setProg r.prog { p with state := 2 }) with
              tb := { d.tb with cremaWaits := d.tb.cremaWaits + 1 } }
      return
    let old := RowEnt.ofWord m.old
    match ← engReadBytes (slotAcc ac tb old) (32 * old.slot) old.bytes with
    | .error e => modify fun (x : Dev) => x.failMigr id (errStat e)
    | .ok (bs, poison, is) =>
      let new := convertSlot tb old.wclass m.wclass bytes bs
      let mark (s : Nat) (x : Dev) : Dev := x.updMigr m.table m.row fun y => { y with units := units, changed := false, step := s }
      modify fun (x : Dev) => if r.prog = 0 then x else x.setProg r.prog { x.prog r.prog with state := 1 }
      if m.dev = d.devId then
        let a := ac (if m.pool = 0 then tbDramSeg tb else tbResSeg tb)
        match ← engWriteUnits a poison (is.map (·.epoch)) m.wclass (new.length / 64 + 2) (32 * m.slot) new with
        | some e => modify fun (x : Dev) => x.failMigr id (errStat e)
        | none => modify (mark 2)
      else
        modify fun (x : Dev) => (mark 1 x).request (.migr m.table m.row) mtMigcopy m.dev
          (m.table * 2 ^ 36 + m.wclass * 2 ^ 34 + m.pool * 2 ^ 33 + m.slotsz * 2 ^ 27)
          ([BitVec.ofNat 64 m.slot, BitVec.ofNat 64 m.row] ++ bytesWords (bytes / 8) new)
  | _, _ => return

/-- The checks of R138 on one entry that the device can make itself. The device whose LOCAL range covers a guest row is the
one that sent it here (notes/assumptions 138). -/
def Dev.migrOk (d : Dev) (tb : List Word64) (x : MigEntry) (guest : Bool) (e : RowEnt) : Bool :=
  let pool := d.seg (tbCtx tb) (if x.pool = 0 then tbDramSeg tb else tbResSeg tb)
  !(d.tb.migr.any fun m => m.table = tbId tb && m.row = x.row && m.step < 4) &&
  (tbWmask tb).testBit x.wclass && slotNeed (tbOpt tb) x.wclass (tbDim tb) ≤ x.bytes &&
  !(guest && (x.dev = d.devId || (Map.get none d.tb.guestFrom (2 ^ 40 * tbId tb + x.row)).any (· ≠ x.dev))) && e.valid && e.forwardTo.isNone &&
  (x.dev ≠ d.devId || (pool.valid && 32 * x.slot + x.bytes - 1 ≤ pool.limit))

/-- Take the next entry of the list: skip it, or open the row's move (R140 steps 1 and 2) and copy it. An entry that reads
as poisoned is skipped (notes/assumptions 139). -/
def migrNext (id : DescId) (h : List HostAnswer) : Eng Unit := do
  let d ← get
  match d.run id with
  | none => return
  | some r =>
    let t0 := qBits r.w 2 52 12
    let p := r.count mcRead
    match d.table t0 with
    | none => set (d.failMigr id stTableInvalid)
    | some t =>
      if !r.live then return
      match d.tb.migr.find? fun m => m.desc = id && m.step = 0 with
      | some m => migrCopy id h m
      | none =>
        if qBits r.w 2 0 32 ≤ p then return
        let tb := t.w
        let ac : SegBy := fun s => r.acc 0x200 (tbCtx tb) s h
        let skip : Eng Unit := modify fun (x : Dev) => (x.updRun id fun y => y.setCount mcRead (p + 1)).skipMigr id
        match ← readDa (fun s => r.acc mgmtAgent r.ctx s h) (qWord r.w 1) (16 * p) 16 with
        | .error e => modify fun (x : Dev) => x.failMigr id (errStat e)
        | .ok (bs, poison, _) =>
          let q0 := leAt bs 0 8
          let q1 := leAt bs 8 8
          if poison then skip
          else
            let x := MigEntry.of q0 q1
            let guest := !(tbFirst tb ≤ x.row && x.row < tbFirst tb + tbCount tb)
            match ← rowDa ac tb x.row with
            | none => skip
            | some da =>
              if tbRows tb ≤ x.row then skip
              else
                match ← engReadBytes (d.guestAcc ac tb x.row da) (daOff da) 8 with
                | .error e => modify fun (y : Dev) => y.failMigr id (errStat e)
                | .ok (eb, ep, _) =>
                  let w := leNat eb
                  let e := RowEnt.ofWord w
                  if ep || !d.migrOk tb x guest e then skip
                  else
                    let cleared : Option ErrStatus ← if e.carafe then clearCarafe ac tb x.row e da else pure none
                    match cleared with
                    | some er => modify fun (y : Dev) => y.failMigr id (errStat er)
                    | none =>
                      let e1 : RowEnt := { e with fwd := true, carafe := false }
                      match ← engWriteBytes (d.guestAcc ac tb x.row da) (daOff da) (leBytes 8 e1.word.toNat) false 0 0 with
                      | some er => modify fun (y : Dev) => y.failMigr id (errStat er)
                      | none =>
                        let m : Migr := { desc := id, table := t0, row := x.row, old := w, dev := x.dev, wclass := x.wclass, pool := x.pool,
                                          slotsz := x.slotsz, slot := x.slot, units := 0, changed := false, step := 0, locked := false }
                        modify fun (y : Dev) =>
                          { (y.updRun id fun z => z.setCount mcRead (p + 1)) with tb := { y.tb with migr := y.tb.migr ++ [m] } }
                        migrCopy id h m

def Dev.migrLoop (d : Dev) (id : DescId) (h : List HostAnswer) : Nat → Dev
  | 0 => d
  | n + 1 => Dev.migrLoop (d.engine (migrNext id h)) id h n

/-- MIGRATE: takes a progress object (R144), then opens the rows of its list until one waits for Crema space. -/
def Dev.migrate (d : Dev) (id : DescId) (h : List HostAnswer) : Dev :=
  match d.run id with
  | none => d
  | some r =>
    if !r.live || descType r.w ≠ tyMigrate then d
    else if r.prog = 0 then
      match d.freeProg 0x20 32 with
      | none => d
      | some i =>
        ((d.updRun id fun x => { x with stage := .running }).takeProg id (qBits r.w 0 0 16) i (qBits r.w 2 0 32)).migrLoop id h
          (qBits r.w 2 0 32)
    else d.migrLoop id h (qBits r.w 2 0 32 - r.count mcRead + 1)

/-- WAITING_CREMA_RESUME: with space free for the waiting row's copy the move goes on (R148). -/
def Dev.cremaResume (d : Dev) (id : DescId) : Dev :=
  match d.tb.migr.find? fun m => m.desc = id && m.step = 0 with
  | some m => if d.migrRoom (preUnits (32 * (m.slotsz + 1))) then d.engine (migrCopy id [] m) else d
  | none => d

/-- The commit is done: space freed, position moved (R140 step 9). -/
def Dev.committed (d : Dev) (t row : Nat) : Dev :=
  match d.openMigr t row with
  | none => d
  | some m =>
    let d1 := d.updMigr t row fun y => { y with step := 4, units := 0, locked := false }
    let d2 := { d1 with tb := { d1.tb with committed := d1.tb.committed + 1 } }
    (d2.updRun m.desc fun r => (r.addCount mcCommitted 1).setCount mcLast d2.cp.nextSeq).settleMigr m.desc

/-- The pool segments of a move let no more through: the first refusal of its slots (R149). -/
def migrRevoked (ac : SegBy) (tb : List Word64) (me : Nat) (m : Migr) : Eng (Option ErrStatus) := do
  let old := RowEnt.ofWord m.old
  let a := slotAcc ac tb old
  match ← engCheck a.acc .rdCurrent (a.sector (32 * old.slot / 64)) with
  | some e => return some e
  | none =>
    if m.dev ≠ me then return none
    let b := ac (if m.pool = 0 then tbDramSeg tb else tbResSeg tb)
    engCheck b.acc .wrFull (b.sector (32 * m.slot / 64))

/-- Steps 7 to 9 of a move: the row lock, replay of updates since the copy, then the commit (R140). A device move keeps the
lock while its messages are on their way. -/
def migrCommit (t row : Nat) (h : List HostAnswer) : Eng Unit := do
  let d ← get
  match d.openMigr t row, d.table t with
  | some m, some tbl =>
    if m.step ≠ 2 || d.updLocked t row then return
    match d.run m.desc with
    | none => return
    | some r =>
      let tb := tbl.w
      let ac : SegBy := fun s => r.acc 0x200 (tbCtx tb) s h
      match ← migrRevoked ac tb d.devId m with
      | some er => modify fun (x : Dev) => x.failMigr m.desc (errStat er)
      | none => do
      modify fun (x : Dev) => x.updMigr t row fun y => { y with locked := true }
      if m.changed then migrCopy m.desc h { m with locked := true }
      let d1 ← get
      match d1.openMigr t row with
      | none => return
      | some m1 =>
        if m1.step ≠ 2 then return
        match ← rowDa ac tb row with
        | none => return
        | some da =>
          let e : RowEnt := if m1.dev = d.devId then
              { valid := true, fwd := false, carafe := false, wclass := m1.wclass, slotsz := m1.slotsz, pool := m1.pool, slot := m1.slot }
            else forwardEntry m1.dev
          match ← engWriteBytes (d1.guestAcc ac tb row da) (daOff da) (leBytes 8 e.word.toNat) false 0 0 with
          | some er => modify fun (x : Dev) => x.failMigr m.desc (errStat er)
          | none =>
            if m1.dev = d.devId then modify fun (x : Dev) => x.committed t row
            else
              modify fun (x : Dev) => x.updMigr t row fun y => { y with step := 3 }
              modify fun (x : Dev) => x.request (.migr t row) mtMigcommit m1.dev (t * 2 ^ 36) [BitVec.ofNat 64 row]
  | _, _ => return

/-- MIGRATION_COMMIT. -/
def Dev.migrationCommit (d : Dev) (t row : Nat) (h : List HostAnswer) : Dev := d.engine (migrCommit t row h)

/-- An answer to MIGCOPY or MIGCOMMIT (R425, Table 4.8): a refusal or a lost peer abandons the move and skips the row. -/
def Dev.migrAnswer (d : Dev) (t row st : Nat) : Dev :=
  match d.openMigr t row with
  | none => d
  | some m =>
    if st ≠ stOk then (d.abandon m).skipMigr m.desc
    else if m.step = 1 then d.updMigr t row fun y => { y with step := 2 }
    else if m.step = 3 then d.committed t row
    else d

/-! ### Guest row maps (R144, R145) -/

/-- Rows of shard-map entry k: its FIRST_ROW, and how many up to the next entry or the end. -/
def shardSpan (ac : SegBy) (w : List Word64) (k : Nat) : Eng (Except Nat (Nat × Nat)) := do
  match ← shardEntry ac w k with
  | .error (.fail st) => return .error st
  | .error _ => return .error stPoisoned
  | .ok (f, _) =>
    if tbShards w ≤ k + 1 then return .ok (f, tbRows w - f)
    match ← shardEntry ac w (k + 1) with
    | .error (.fail st) => return .error st
    | .error _ => return .error stPoisoned
    | .ok (g, _) => return .ok (f, g - f)

/-- GUEST_ATTACH: the map's range is translated with READ and UPDATE for the table's context; at most 1,024 maps. -/
def guestAttach (id : DescId) : Eng Unit := do
  let d ← get
  match d.run id with
  | none => return
  | some r =>
    let t := qBits r.w 3 52 12
    let k := qBits r.w 3 0 16
    let da := qWord r.w 2
    match d.table t with
    | none => set (d.endRun id stTableInvalid)
    | some x =>
      let tac : SegBy := fun s => d.liveAcc mgmtAgent (tbCtx x.w) s []
      if tbShards x.w ≤ k || tbDirect x.w || tbShards x.w = 1 then set (d.endRun id stFormat)
      else if 1024 ≤ d.tb.guests.length then set (d.endRun id stNoSpace)
      else if d.tb.guests.any fun g => g.table = t && g.entry = k then set (d.endRun id stTableBusy)
      else
        match ← shardSpan tac x.w k with
        | .error st => modify fun (e : Dev) => e.endRun id st
        | .ok (_, n) =>
          match d.xlates (tbCtx x.w) [(da, 8 * n, .read), (da, 8 * n, .update)] .none with
          | .error st => modify fun (e : Dev) => e.endRun id st
          | .ok _ =>
            let s := daSeg da
            let g : Guest := { table := t, entry := k, da := da, seg := d.seg (tbCtx x.w) s, gen := d.gen (tbCtx x.w) s }
            if g.seg.target ≠ 0 then modify fun (e : Dev) => e.endRun id stDenied
            else modify fun (e : Dev) => { e with tb := { e.tb with guests := e.tb.guests ++ [g] } }.endRun id stOk

def Dev.guestAttach (d : Dev) (id : DescId) : Dev :=
  d.withRun id tyMaint (some 0x06) fun _ e => e.engine (Machine.guestAttach id)

/-- Some entry of the map is valid and not forwarded. -/
def liveGuest (a : SegAcc) (da : Word64) (i : Nat) : Nat → Eng (Except Nat Bool)
  | 0 => return .ok false
  | n + 1 => do
    match ← engReadBytes a (daOff da + 8 * i) 8 with
    | .error e => return .error (errStat e)
    | .ok (bs, _, _) =>
      let e := RowEnt.ofWord (leNat bs)
      if e.valid && e.forwardTo.isNone then return .ok true
      liveGuest a da (i + 1) n

/-- GUEST_DETACH, refused while the map holds a row that is valid and not forwarded. -/
def guestDetach (id : DescId) : Eng Unit := do
  let d ← get
  match d.run id with
  | none => return
  | some r =>
    let t := qBits r.w 3 52 12
    let k := qBits r.w 3 0 16
    match d.table t, d.tb.guests.find? fun g => g.table = t && g.entry = k with
    | some x, some g =>
      let tac : SegBy := fun s => d.liveAcc mgmtAgent (tbCtx x.w) s []
      match ← shardSpan tac x.w k with
      | .error st => modify fun (e : Dev) => e.endRun id st
      | .ok (_, n) =>
        let a0 := tac (daSeg g.da)
        let a : SegAcc := { sg := g.seg, acc := { a0.acc with gen := g.gen, rt := g.seg.region } }
        match ← liveGuest a g.da 0 n with
        | .error st => modify fun (e : Dev) => e.endRun id st
        | .ok true => modify fun (e : Dev) => e.endRun id stTableBusy
        | .ok false => modify fun (e : Dev) =>
            { e with tb := { e.tb with guests := e.tb.guests.filter fun y => !(y.table = t && y.entry = k) } }.endRun id stOk
    | none, _ => set (d.endRun id stTableInvalid)
    | _, none => set (d.endRun id stRowMissing)

def Dev.guestDetach (d : Dev) (id : DescId) : Dev :=
  d.withRun id tyMaint (some 0x07) fun _ e => e.engine (Machine.guestDetach id)

/-! ### Meanings -/

def execMigrate (d : DescId) (h : List HostAnswer) (s : State) : Host.Outcome State Fault Refusal := s.homes (s.dev.migrate d h)
def execWaitingCremaResume (d : DescId) (s : State) : Host.Outcome State Fault Refusal := s.homes (s.dev.cremaResume d)
def execMigrationCommit (t : TableId) (row : Nat) (h : List HostAnswer) (s : State) : Host.Outcome State Fault Refusal :=
  s.homes (s.dev.migrationCommit t.val row h)
def execGuestAttach (d : DescId) (s : State) : Host.Outcome State Fault Refusal := s.goes (s.dev.guestAttach d)
def execGuestDetach (d : DescId) (s : State) : Host.Outcome State Fault Refusal := s.goes (s.dev.guestDetach d)

end Sys2Proof.Machine
end

