-- ==== Sys2Proof/Machine/Kernel.lean ====
section
/-! DEFINITION. KERNEL (R161-R175, R178, R179): its checks, placement, the start of a team, launch stagger, retirement of
cores, the end of a team with its dumps and fault figures. -/

namespace Sys2Proof

/-! ### KERNEL image (Table 5.4) and the header of a kernel image (Table 5.3) -/

def kTeam (w : List Word64) : Nat := qBits w 5 56 8 + 1
def kPlace (w : List Word64) : Nat := qBits w 5 54 2
def kQsel (w : List Word64) : Nat := qBits w 5 52 2

def hdrWide (x : List Word64) : Bool := qBit x 0 31
def hdrExact (x : List Word64) : Bool := qBit x 0 30
def hdrKeep (x : List Word64) : Bool := qBit x 0 29
def hdrCodeOff (x : List Word64) : Nat := qBits x 1 32 32
def hdrCodeSize (x : List Word64) : Nat := qBits x 1 0 32
def hdrEntry (x : List Word64) : Nat := qBits x 2 32 32
def hdrPreOff (x : List Word64) : Nat := qBits x 3 32 32
def hdrPreSize (x : List Word64) : Nat := qBits x 3 0 32
def hdrPreDst (x : List Word64) : Nat := qBits x 4 32 32
def hdrMin (x : List Word64) : Nat := qBits x 4 16 16
def hdrMax (x : List Word64) : Nat := qBits x 4 0 16

def scratchOf (wide : Bool) : Nat := if wide then 262144 else 491520

/-- The checks of R162 that need no segment. -/
def headerOk (x : List Word64) (team : Nat) : Bool :=
  qBits x 0 48 16 = 0x4E58 && qBits x 0 40 8 = 1 && qBits x 0 32 8 ≤ 1 && qBits x 0 0 29 = 0 && qBits x 2 0 32 = 0 &&
  qWord x 5 = 0 && qWord x 6 = 0 && qWord x 7 = 0 && hdrCodeOff x % 64 = 0 && hdrCodeSize x % 8 = 0 && 8 ≤ hdrCodeSize x &&
  hdrCodeSize x ≤ 2 ^ 24 && hdrEntry x % 8 = 0 && hdrEntry x < hdrCodeSize x && hdrPreOff x % 64 = 0 &&
  hdrPreSize x % 64 = 0 && hdrPreDst x % 64 = 0 &&
  (hdrPreSize x = 0 || hdrPreDst x + hdrPreSize x ≤ scratchOf (hdrWide x)) &&
  1 ≤ hdrMin x && hdrMin x ≤ hdrMax x && hdrMax x ≤ 256 && hdrMin x ≤ team && team ≤ hdrMax x

end Sys2Proof

namespace Sys2Proof.Machine

/-! ### Cores in service (R178, R179) -/

def CoreMap.inService (m : CoreMap) (c : Nat) : Bool := m.enabled.contains c && !m.retired.contains c

/-- Physical core of a logical number, as numbered since the last reset. -/
def Dev.physical (d : Dev) (l : Nat) : Option Nat := d.cmap.enabled[l]?

def Dev.logical (d : Dev) (c : Nat) : Nat := d.cmap.enabled.idxOf c

def Dev.enabledIn (d : Dev) (q : Nat) : List Nat := d.cmap.enabled.filter fun c => quarterOfCore c = q && d.cmap.inService c

def Dev.enabledTotal (d : Dev) : Nat := (d.cmap.enabled.filter d.cmap.inService).length

def Dev.idleIn (d : Dev) (q : Nat) : List Nat := (d.enabledIn q).filter fun c =>
  (d.core c).status = .idle && (d.core c).team.isNone && !d.partClosed c

/-- Header words and mask of a checked KERNEL, as the run keeps them. -/
def Run.header (r : Run) : List Word64 :=
  (List.range 8).map fun i => BitVec.ofNat 64 ((r.param.getD (2 * i) 0).toNat + 2 ^ 32 * (r.param.getD (2 * i + 1) 0).toNat)

def maskBits (m : List Word32) : List Nat :=
  (List.range 256).filter fun l => (m.getD (l / 32) 0).getLsbD (l % 32)

def Run.mask (r : Run) : List Nat := maskBits (r.param.drop 16)

/-- Team-size rules of R164 against the present counts. -/
def Dev.fits (d : Dev) (w : List Word64) (mask : List Nat) : Bool :=
  kTeam w ≤ d.enabledTotal &&
  (kPlace w ≠ 1 || kTeam w ≤ (d.enabledIn (kQsel w)).length) &&
  (kPlace w ≠ 3 || (mask.length = kTeam w && mask.all fun l => match d.physical l with
    | some c => d.cmap.inService c
    | none => false))

/-! ### Checks at queue time (R162, R164) -/

/-- Translations of a KERNEL: image, barrier word, dump area, mask. -/
def Dev.kernelXlate (d : Dev) (w : List Word64) (ctx : Nat) : Except Nat Notes :=
  match d.xlate ctx (qWord w 1) 64 .exec .none with
  | .error e => .error e
  | .ok n1 =>
    match if qWord w 3 = 0 then Except.ok n1 else d.xlate ctx (qWord w 3) 8 .atomic n1 with
    | .error e => .error e
    | .ok n2 =>
      match if qWord w 4 = 0 then Except.ok n2 else d.xlate ctx (qWord w 4) (2560 * kTeam w) .write n2 with
      | .error _ => .error stDenied
      | .ok n3 => if kPlace w = 3 then d.xlate ctx (qWord w 7) 32 .read n3 else .ok n3

/-- All checks of a KERNEL: its notes, and header and mask words. -/
def checkKernel (w : List Word64) (ctx : Nat) (h : List HostAnswer) : Eng (Except Nat (Notes × List Word32)) := do
  let d ← get
  if qBits w 5 0 52 ≠ 0 || (qWord w 1).toNat % 64 ≠ 0 || (qWord w 3).toNat % 8 ≠ 0 || (qWord w 4).toNat % 64 ≠ 0 then
    return .error stFormat
  match d.kernelXlate w ctx with
  | .error e => return .error e
  | .ok n =>
    let ac : SegBy := fun s => d.liveAcc mgmtAgent ctx s h
    let mask : Except Nat (List Byte) ←
      if kPlace w = 3 then do
        match ← readDa ac (qWord w 7) 0 32 with
        | .error e => pure (.error (errStat e))
        | .ok (bs, p, _) => pure (if p then .error stPoisoned else .ok bs)
      else pure (.ok [])
    match mask with
    | .error e => return .error e
    | .ok mb =>
      let mw := (List.range 8).map fun i => BitVec.ofNat 32 (leAt mb (4 * i) 4)
      if !d.fits w (maskBits mw) then return .error stFormat
      match ← readDa ac (qWord w 1) 0 64 with
      | .error e => return .error (errStat e)
      | .ok (hb, p, _) =>
        let x := bytesWords 8 hb
        let sg := d.seg ctx (daSeg (qWord w 1))
        let o := daOff (qWord w 1)
        if p || !headerOk x (kTeam w) || sg.limit < o + hdrCodeOff x + hdrCodeSize x - 1 ||
            (hdrPreSize x ≠ 0 && sg.limit < o + hdrPreOff x + hdrPreSize x - 1) then return .error stImage
        else return .ok (n, (List.range 16).map (fun i => BitVec.ofNat 32 (leAt hb (4 * i) 4)) ++ mw)

/-! ### Waiting KERNELs (R165, R166) -/

/-- Admitted KERNELs whose team has not started, in the order in which they take cores. -/
def Dev.kernelOrder (d : Dev) : List Run :=
  let ks := d.cp.runs.filter fun r => descType r.w = tyKernel && r.live && r.team.isNone
  let rec ins : Run → List Run → List Run
    | x, [] => [x]
    | x, y :: ys =>
      let kx := (if x.cls = 0 then 0 else 1, x.seq)
      let ky := (if y.cls = 0 then 0 else 1, y.seq)
      if kx.1 < ky.1 || (kx.1 = ky.1 && kx.2 ≤ ky.2) then x :: y :: ys else y :: ins x ys
  ks.foldr ins []

/-- KERNELs that no longer fit complete with CORES_UNAVAILABLE (R166). -/
def Dev.dropUnfit (d : Dev) : Dev :=
  d.kernelOrder.foldl (fun (e : Dev) r => if e.fits r.w r.mask then e else e.endRun r.id stCoresUnavail) d

/-- Cores of the quarter with the most idle cores, then of the next. -/
def Dev.byIdle (d : Dev) : List Nat :=
  let rec ins : Nat → List Nat → List Nat
    | x, [] => [x]
    | x, y :: ys => if (d.idleIn y).length < (d.idleIn x).length || ((d.idleIn y).length = (d.idleIn x).length && x ≤ y)
        then x :: y :: ys else y :: ins x ys
  (((List.range 4).foldr ins []).map d.idleIn).flatten

/-- Shares of a spread team: the larger ones to the lower quarters. -/
def spreadShare (n q : Nat) : Nat := n / 4 + if q < n % 4 then 1 else 0

/-- The cores a KERNEL takes now, in rank order, if all are idle (R165). -/
def Dev.pickCores (d : Dev) (r : Run) : Option (List Nat) :=
  let n := kTeam r.w
  let cs : List Nat :=
    match kPlace r.w with
    | 0 => d.byIdle.take n
    | 1 => (d.idleIn (kQsel r.w)).take n
    | 2 => ((List.range 4).map fun q => (d.idleIn q).take (spreadShare n q)).flatten
    | _ => (r.mask.filterMap d.physical).filter fun c => (d.idleIn (quarterOfCore c)).contains c
  if cs.length = n then some (d.cmap.enabled.filter cs.contains) else none

/-! ### The start of a team (R167) -/

/-- Local state of a core at launch: L1, scratch, preload, registers (R154, R156, R158). -/
def Dev.prepCore (d : Dev) (r : Run) (team rank c : Nat) (pre : List Byte) : Dev :=
  let x := r.header
  let k := d.core c
  let wide := hdrWide x
  let same := k.prev = some (r.ctx, wide)
  let d1 := if same then d
    else
      let lines := ((d.cache (l1No c)).ways.map (·.2) ++ (d.cache (l1No c)).side).filter CLine.live
      (lines.foldl (fun (e : Dev) l => e.l1ReleaseLine c l) d).updCache (l1No c) fun y => { y with ways := [], side := [] }
  let kept := hdrKeep x && same && !d.pwr.scratchLost.contains c
  let d2 : Dev := { d1 with pwr := { d1.pwr with scratchLost := d1.pwr.scratchLost.filter (· ≠ c) } }
  d2.updCore c fun k0 =>
    let base : Core := { Core.reset with
      status := .reserved, wide := wide, exact := hdrExact x, codeDa := qWord r.w 1 + BitVec.ofNat 64 (hdrCodeOff x)
      codeSize := hdrCodeSize x, pc := hdrEntry x, ctx := r.ctx, cls := r.cls, team := some team, rank := rank
      segs := (List.range 8).map fun s => (s, d.seg r.ctx s), gens := (List.range 8).map fun s => (s, d.gen r.ctx s)
      scratch := if kept then k0.scratch else [], sramErr := k0.sramErr, evict := k0.evict, writes := k0.writes, sb := k0.sb
      held := k0.held, waitSnp := k0.waitSnp
      prev := some (r.ctx, wide), waves := k0.waves }
    let regs := ((((((base.setS 0 (BitVec.ofNat 64 rank)).setS 1 (BitVec.ofNat 64 (kTeam r.w))).setS 2
      (BitVec.ofNat 64 (d.logical c))).setS 3 (qWord r.w 6)).setA 0 (qWord r.w 2)).setA 1 (qWord r.w 3))
    regs.putScratch (hdrPreDst x) pre

/-- KERNEL: an admitted descriptor asks for its cores; one that no longer fits completes (R165, R166). -/
def Dev.kernel (d : Dev) (id : DescId) (_h : List HostAnswer) : Dev :=
  match d.run id with
  | some r =>
    if r.live && descType r.w = tyKernel && r.team.isNone then
      if d.fits r.w r.mask then d.updRun id fun y => y.setCount 20 1 else d.endRun id stCoresUnavail
    else d
  | none => d

/-- Steps 1 to 3: reserve the cores, write the barrier word, prepare each core, and hand them to the launch stagger. -/
def teamStart (id : DescId) (h : List HostAnswer) : Eng Unit := do
  let d ← get
  match d.kernelOrder.head? with
  | none => return
  | some r =>
    if r.id ≠ id || r.count 20 = 0 then return
    match d.pickCores r with
    | none => return
    | some cs =>
      let ac : SegBy := fun s => r.acc mgmtAgent r.ctx s h
      let x := r.header
      let bar : Option ErrStatus ←
        if qWord r.w 3 = 0 then pure none
        else engWriteBytes (ac (daSeg (qWord r.w 3))) (daOff (qWord r.w 3)) (leBytes 8 0) false 0 0
      match bar with
      | some e => modify fun (y : Dev) => y.endRun id (errStat e)
      | none =>
        match ← readDa ac (qWord r.w 1) (hdrPreOff x) (hdrPreSize x) with
        | .error e => modify fun (y : Dev) => y.endRun id (errStat e)
        | .ok (pre, poison, _) =>
          let key := r.seq
          let tm : Team := { desc := id, cores := cs, ctx := r.ctx, barrier := qWord r.w 3, dump := qWord r.w 4, stop := 0 }
          let prep (y : Dev) (p : Nat × Nat) : Dev :=
            let y1 := y.prepCore r key p.1 p.2 pre
            let y2 := if poison then y1.updCore p.2 fun k => { k with movPoison := some (qWord r.w 1) } else y1
            y2.updQ (quarterOfCore p.2) fun q => { q with stagger := q.stagger ++ [p.2] }
          modify fun (y : Dev) =>
            let y1 := ((List.range cs.length).zip cs).foldl prep y
            let y2 := y1.updRun id fun z => { z with
              stage := .running, team := some key, waited := satBits 32 (y1.now - z.fetched).toNat }
            { y2 with teams := Map.put y2.teams key tm, cmap := { y2.cmap with launched := y2.cmap.launched + 1 } }

/-- TEAM_START. -/
def Dev.teamStartCmd (d : Dev) (id : DescId) (h : List HostAnswer) : Dev := d.engine (teamStart id h)

/-- LaunchStaggerCores for a core of a launch: as it stood when the KERNEL was admitted (R74). -/
def Dev.staggerOf (d : Dev) (c : Nat) : Nat :=
  match (d.core c).team with
  | some t => match d.team t with
    | some tm => match d.run tm.desc with
      | some r => r.count rcSetting
      | none => d.staggerCores
    | none => d.staggerCores
  | none => d.staggerCores

/-- How many of the waiting cores start in a window that has started n: each while its own launch's setting allows it. -/
def Dev.staggerFit (d : Dev) : List Nat → Nat → Nat
  | [], n => n
  | c :: cs, n => if n < d.staggerOf c then d.staggerFit cs (n + 1) else n

/-- LAUNCH_STAGGER_WINDOW: at most LaunchStaggerCores cores of the quarter start, launches before tile restarts (R69). -/
def Dev.staggerWindow (d : Dev) (q : Nat) : Dev :=
  let x := d.qr q
  let n := d.staggerFit x.stagger 0
  let m := if n < x.stagger.length then n else d.staggerFit x.restart n
  let d1 := (x.stagger.take n).foldl (fun (e : Dev) c =>
    if (e.core c).status = .reserved then e.updCore c fun k => { k with status := .running } else e) d
  d1.setQ q { x with stagger := x.stagger.drop n, restart := x.restart.drop (m - n) }

/-! ### The end of a team (R168, R172-R175) -/

/-- A core of the team has nothing left to do: ended, or stopped with its stores complete; its units idle (R171); and no
answer to it on its way. -/
def Core.finished (k : Core) : Bool :=
  k.sb.isEmpty && k.writes.all (·.done) && k.movQ.isEmpty && k.tileQ.isEmpty && k.topQ.isEmpty && k.miss.isNone &&
    k.pfLines.isEmpty && (k.status = .ended || k.status = .stopped)

/-- What a team stop, an exception or a timeout leaves undefined: tiles, accumulators and top-k lists, from free value n on
(R209). -/
def Core.unitsFree (k : Core) (n : Nat) : Core :=
  let x (i : Nat) : Sector := Config.freeSector (n + 1024 + i)
  { k with
    t := (List.range 1024).map fun i => (i, Config.freeSector (n + i))
    accF := (List.range 16384).map fun i => (i, (x i).extractLsb' 0 32)
    accX := (List.range 16384).map fun i => (i, { t := (x i).extractLsb' 32 112, nan := (x i).getLsbD 144, pinf := (x i).getLsbD 145, ninf := (x i).getLsbD 146 })
    tkLists := (List.range k.tkL).map fun l => (l, (List.range (((x l).extractLsb' 160 32).toNat % (k.tkK + 1))).map fun i =>
      { id := (x i).extractLsb' 192 64, key := (x i).extractLsb' 256 32 }) }

/-- A core leaves its team: its units' contents are undefined where the team was stopped. -/
def Dev.coreIdle (d : Dev) (stopped : Bool) (c : Nat) : Dev :=
  let k := { d.core c with status := .idle, team := none, wait := .none }
  if stopped then { d with fresh := d.fresh + 17408 }.setCore c (k.unitsFree d.fresh) else d.setCore c k

/-- One dump (Table 5.8). -/
def Dev.dumpBytes (d : Dev) (tm : Team) (c : Nat) : List Byte :=
  let k := d.core c
  let (kind, ioff, da) : Nat × Nat × Word64 := match k.exc with
    | some e => (e.code, e.ioff, e.da)
    | none => (0, k.pc, 0)
  let cause := if k.exc.isSome then 0 else if k.status = .ended then 3 else if tm.stop = stTimeout then 2 else 1
  let q0 := packBits [(56, 8, kind), (54, 2, cause), (44, 10, c), (36, 8, d.logical c), (28, 8, k.rank)]
  wordBytes ([q0, BitVec.ofNat 64 ioff, da, 0, 0, 0, 0, 0] ++ (List.range 32).map k.sr ++ (List.range 16).map k.ar ++ (List.range 8).map k.pr) ++
    (List.range 32).flatMap fun i => Sector.bytes (k.vr i)

/-- Dumps of the team's cores, in rank order. -/
def dumpAll (a : SegAcc) (off : Nat) (tm : Team) : List Nat → Nat → Eng (Option ErrStatus)
  | [], _ => return none
  | c :: cs, rank => do
    let d ← get
    match ← engWriteBytes a (off + 2560 * rank) (d.dumpBytes tm c) false 0 0 with
    | some e => return some e
    | none => dumpAll a off tm cs (rank + 1)

/-- Fault figures and exits of a team (R168, R173). -/
def Dev.teamCounts (d : Dev) (tm : Team) (r : Run) : Run :=
  let exit := match tm.cores with
    | c :: _ => (d.core c).exitVal.toNat
    | [] => 0
  let nz := (tm.cores.filter fun c => (d.core c).status = .ended && (d.core c).exitVal ≠ 0).length
  let bad := tm.cores.filter fun c => (d.core c).exc.isSome
  let r1 := ((r.setCount 0 exit).setCount 1 nz).setCount 2 bad.length
  match bad with
  | [] => r1
  | c :: _ => match (d.core c).exc with
    | some e => (((r1.setCount 3 (d.core c).rank).setCount 4 e.code).setCount 5 (e.ioff / 8)).setCount 6 e.da.toNat
    | none => r1

/-- A team whose every core has ended, or has stopped and drained: dumps, the KERNEL's end, idle cores. -/
def teamDone (t : Nat) (h : List HostAnswer) : Eng Unit := do
  let d ← get
  match d.team t with
  | none => return
  | some tm =>
    if !(tm.cores.all fun c => (d.core c).finished) then return
    match d.run tm.desc with
    | none => return
    | some r =>
      let a : SegAcc := r.acc mgmtAgent r.ctx (daSeg tm.dump) h
      let dump : Option ErrStatus ←
        if tm.dump ≠ 0 && (tm.stop = stKernelFault || tm.stop = stTimeout) then dumpAll a (daOff tm.dump) tm tm.cores 0 else pure none
      modify fun (e : Dev) =>
        let e1 := (e.updRun tm.desc (e.teamCounts tm)).endRun tm.desc
          (match dump with
            | some er => if tm.stop = 0 then errStat er else tm.stop
            | none => tm.stop)
        let e2 := tm.cores.foldl (fun y c => y.coreIdle (decide (tm.stop ≠ 0)) c) e1
        { e2 with teams := e2.teams.filter fun p => p.1 ≠ t }

def Dev.teamEnd (d : Dev) (t : Nat) : Dev := d.engine (teamDone t [])

/-- The team may be complete. -/
def Dev.coreDone (d : Dev) (c : Nat) : Dev :=
  match (d.core c).team with
  | some t => d.teamEnd t
  | none => d

/-! ### Retirement (R179) -/

/-- A core leaves service, a spare too: the quarter's repair map is written, the total falls, KERNELs that no longer fit
complete. -/
def Dev.retireCore (d : Dev) (c : Nat) : Dev :=
  if 272 ≤ c || d.cmap.retired.contains c || d.cmap.failed.contains c then d
  else ({ d with cmap := { d.cmap with retired := insertNew c d.cmap.retired } }.nvRecord (nvRepair (quarterOfCore c))).dropUnfit

/-- An SRAM_ERROR of a core: a second kernel's within 24 h retires it when CoreRetireAuto is 1. -/
def Dev.sramError (d : Dev) (c : Nat) : Dev :=
  let k := d.core c
  let now := d.mg.seconds.toNat
  let t := k.team.getD 0
  let recent := k.sramErr.filter fun p => now < p.2 + 86400
  let d1 := (d.updCore c fun y => { y with sramErr := recent ++ [(t, now)] }).raise c 0x0C 0
  if d.od 0x205001 1 = 1 && recent.any fun p => p.1 ≠ t then d1.retireCore c else d1

/-! ### Meanings -/

def execKernel (d : DescId) (h : List HostAnswer) (s : State) : Host.Outcome State Fault Refusal := s.goes (s.dev.kernel d h)
def execTeamStart (d : DescId) (h : List HostAnswer) (s : State) : Host.Outcome State Fault Refusal :=
  s.goes (s.dev.teamStartCmd d h)
/-- CORE_RETIRE. -/
def execCoreRetire (id : Word16) (s : State) : Host.Outcome State Fault Refusal :=
  s.goes (if id.toNat < 272 then s.dev.retireCore id.toNat else s.dev)
def execLaunchStaggerWindow (q : QuarterId) (s : State) : Host.Outcome State Fault Refusal := s.timed (s.dev.staggerWindow q.val)

end Sys2Proof.Machine
end

