-- ==== Sys2Proof/Machine/Descriptor.lean ====
section
/-! DEFINITION. The checks every descriptor passes at queue time, by type (R353-R358, R85, R120, R138, R162, R164, R222,
R294, R333, R336). -/

namespace Sys2Proof

/-! ### COPY and CACHE_RANGE images (Tables 12.7, 9.3) -/

def coLen (w : List Word64) : Nat := qBits w 3 0 49
def coSrcCtx (w : List Word64) : Nat := qBits w 4 52 12
def coDstCtx (w : List Word64) : Nat := qBits w 4 40 12
def coFill (w : List Word64) : Bool := qBit w 4 39

def crHost (w : List Word64) : Bool := qBit w 4 57
def crWays (w : List Word64) : Nat := qBits w 4 45 12

/-- Words n to 7 are zero. -/
def zeroFrom (w : List Word64) (n : Nat) : Bool := (w.drop n).all (· = 0)

end Sys2Proof

namespace Sys2Proof.Machine

/-- What a check hands to the run: notes, parameter words, epoch, GATHER's number of indices. -/
structure Checked where
  notes : Notes
  param : List Word32
  epoch : Nat
  x     : Nat
  deriving DecidableEq, Repr

def Checked.ofNotes (n : Notes) : Checked := { notes := n, param := [], epoch := 0, x := 0 }

/-- Segments of a table as a device write of rows or entries needs them (Table 11.4). -/
def tableWrites (tb : List Word64) : List (Word64 × Nat × Right) :=
  let segDa (s : Nat) : Word64 := BitVec.ofNat 64 (s * 2 ^ 61)
  if tbDirect tb then [(segDa (if tbDirPool tb = 0 then tbDramSeg tb else tbResSeg tb), 1, .update)]
  else [(segDa (tbDramSeg tb), 1, .update), (segDa (tbResSeg tb), 1, .update)]

/-- Translations as notes, or the status. -/
def Dev.noted (d : Dev) (ctx : Nat) (uses : List (Word64 × Nat × Right)) (n : Notes) : Except Nat Checked :=
  match d.xlates ctx uses n with
  | .error e => .error e
  | .ok m => .ok (Checked.ofNotes m)

/-- Translations in the queue's context, then in the table's. -/
def Dev.noted2 (d : Dev) (ctx : Nat) (uses : List (Word64 × Nat × Right)) (tctx : Nat) (tuses : List (Word64 × Nat × Right)) :
    Except Nat Checked :=
  match d.xlates ctx uses .none with
  | .error e => .error e
  | .ok n => d.noted tctx tuses n

/-! ### COPY (R355, R356) -/

def Dev.checkCopy (d : Dev) (w : List Word64) (ctx : Nat) : Except Nat Checked :=
  if qBits w 3 49 15 ≠ 0 || qBits w 4 0 39 ≠ 0 || !zeroFrom w 6 || coLen w = 0 || 2 ^ 48 < coLen w then .error stFormat
  else if ctx ≠ 0 && (coSrcCtx w ≠ 0 || coDstCtx w ≠ 0) then .error stDenied
  else
    let sc := if ctx = 0 then coSrcCtx w else ctx
    let dc := if ctx = 0 then coDstCtx w else ctx
    let ts := if coFill w then 0 else (d.seg sc (daSeg (qWord w 1))).target
    let td := (d.seg dc (daSeg (qWord w 2))).target
    match d.xlates sc (if coFill w then [] else [(qWord w 1, coLen w, .read)]) .none with
    | .error e => .error e
    | .ok n =>
      match d.xlates dc [(qWord w 2, coLen w, .write)] n with
      | .error e => .error e
      | .ok m => if (ts = 2 || ts = 3) && (td = 2 || td = 3) then .error stFormat else .ok (Checked.ofNotes m)

/-! ### UPDATE (R120) -/

def updateForm (w tb : List Word64) : Bool :=
  qBits w 4 0 40 = 0 && qWord w 7 = 0 && upMode w ≤ 2 && upVfmt w ≤ 2 && upPlace w ≤ 2 && (upScope w = 0 || 4 ≤ upScope w) &&
  !(upMode w = 0 && tbOpt tb = 0) && !(upMode w ≤ 1 && tbBinary tb) && !(upVfmt w = 2 && upMode w ≠ 2) &&
  !(upVfmt w = 2 && tbClasses tb ≠ 1) && !(upCount w = 0 && !(upStepEnd w && tbDeterm tb)) &&
  !(upMode w = 0 && (qWord w 3).toNat % 64 ≠ 0)

def checkUpdate (w : List Word64) (ctx : Nat) (h : List HostAnswer) : Eng (Except Nat Checked) := do
  let d ← get
  match d.openTable (upTable w) ctx false with
  | none => return .error stTableInvalid
  | some t =>
    let tb := t.w
    if !updateForm w tb then return .error stFormat
    let n := upCount w
    let uses : List (Word64 × Nat × Right) :=
      (if n = 0 then [] else [(qWord w 1, n * (if upIdx32 w then 4 else 8), .read),
        (qWord w 2, (n - 1) * valueStep w tb + valueBytes w tb, .read)]) ++
      (if upMode w = 0 then [(qWord w 3, 64, .read)] else [])
    match d.noted2 ctx uses (tbCtx tb) (tableUses tb false ++ tableWrites tb) with
    | .error e => return .error e
    | .ok c =>
      if upMode w ≠ 0 then return .ok c
      match ← readDa (fun s => d.liveAcc mgmtAgent ctx s h) (qWord w 3) 0 64 with
      | .error e => return .error (errStat e)
      | .ok (bs, poison, _) =>
        let p := (List.range 16).map fun i => BitVec.ofNat 32 (leAt bs (4 * i) 4)
        if poison then return .error stPoisoned
        else if (optParams (tbOpt tb)).any fun i => (f32 (pW p i)).isNan then return .error stFormat
        else return .ok { c with param := p }

/-! ### MIGRATE, EPOCH, PROBE -/

def Dev.checkMigrate (d : Dev) (w : List Word64) (ctx : Nat) : Except Nat Checked :=
  match d.openTable (qBits w 2 52 12) ctx true with
  | none => .error stTableInvalid
  | some t =>
    if qBits w 2 32 20 ≠ 0 || !zeroFrom w 3 || qBits w 2 0 32 = 0 || (qWord w 1).toNat % 16 ≠ 0 || tbDirect t.w then .error stFormat
    else d.noted2 ctx [(qWord w 1, 16 * qBits w 2 0 32, .read)] (tbCtx t.w) (tableUses t.w false ++ tableWrites t.w)

def Dev.checkEpoch (d : Dev) (w : List Word64) (ctx : Nat) : Except Nat Checked :=
  if qBits w 1 0 52 ≠ 0 || !zeroFrom w 2 then .error stFormat
  else match d.openTable (qBits w 1 52 12) ctx true with
    | none => .error stTableInvalid
    | some t => if tbEpoch t.w then .ok (Checked.ofNotes .none) else .error stVisMode

def Dev.checkProbe (d : Dev) (w : List Word64) (ctx : Nat) : Except Nat Checked :=
  let op := descOp w
  let n := qBits w 4 0 32
  if qBits w 1 0 56 ≠ 0 || op = 0 || 3 < op || (qWord w 2).toNat % 8 ≠ 0 || qBits w 4 32 20 ≠ 0 || !zeroFrom w 5 then .error stFormat
  else match d.usable (qBits w 4 52 12) ctx true with
    | none => .error stTableInvalid
    | some t =>
      if op ≤ 2 && !tbSketch t.w then .error stFormat
      else
        let len := match op with
          | 1 => 8 * tbShards t.w
          | 2 => 8 * n
          | _ => 64
        d.noted ctx ((if op = 2 then [(qWord w 3, 8 * n, Right.read)] else []) ++ [(qWord w 2, len, .write)]) .none

/-! ### MAINT (R357) -/

def waysOf (m : Nat) : BitVec 12 := BitVec.ofNat 12 m

/-- A WAYMASK that PRELOAD_LOCK refuses (R297). -/
def Dev.wayMaskBad (d : Dev) (m : Nat) : Bool :=
  (List.range 64).any fun s =>
    let k := d.cache s
    k.disabled &&& waysOf m ≠ 0 || 8 < ((List.range 12).filter (k.locked ||| waysOf m).getLsbD).length

def Dev.checkRange (d : Dev) (w : List Word64) (ctx : Nat) : Except Nat Checked :=
  let op := crOp w
  let len := (qWord w 3).toNat
  let ranged := op ≤ 4
  if qBits w 4 0 45 ≠ 0 || !zeroFrom w 5 || 9 ≤ op || crCaches w = 3 || (crHost w && crCaches w = 2) ||
      (crWays w ≠ 0 && op ≠ 4 && op ≠ 5) ||
      (ranged && ((qWord w 2).toNat % 256 ≠ 0 || len % 256 ≠ 0 || len = 0 || 2 ^ 48 < len)) then .error stFormat
  else if 4 ≤ op && ctx ≠ 0 then .error stDenied
  else if op = 4 && d.wayMaskBad (crWays w) then .error stFormat
  else if op = 6 && (namedCaches (crCaches w)).any fun n => (d.cache n).enable then .error stCacheEnabled
  else if !ranged then .ok (Checked.ofNotes .none)
  else
    let t := (d.seg ctx (daSeg (qWord w 2))).target
    if t = 3 || (t = 2 && (op = 3 || op = 4)) then .error stFormat
    else d.noted ctx [(qWord w 2, len, if op = 1 || op = 2 then .write else .read)] .none

/-- TIER_TAG (R222): a range of one tier. -/
def checkTag (w : List Word64) (ctx : Nat) : Except Nat Checked :=
  let a := qBits w 2 0 56
  let n := qBits w 3 0 48
  if ctx ≠ 0 then .error stDenied
  else if qBits w 2 56 8 ≠ 0 || qBits w 3 48 16 ≠ 0 || qBits w 4 12 52 ≠ 0 || !zeroFrom w 5 || a % 2 ^ 21 ≠ 0 || n % 2 ^ 21 ≠ 0 || n = 0 then
    .error stFormat
  else if (isDram a && isDram (a + n - 1)) || (isRes a && isRes (a + n - 1)) then .ok (Checked.ofNotes .none)
  else .error stLimit

def Dev.checkMaint (d : Dev) (w : List Word64) (ctx : Nat) : Except Nat Checked :=
  let named (t : Nat) (f : Table → Except Nat Checked) : Except Nat Checked :=
    match d.usable t ctx true with
    | none => .error stTableInvalid
    | some x => f x
  let none_ : Except Nat Checked := .ok (Checked.ofNotes .none)
  if qBits w 1 0 56 ≠ 0 then .error stFormat
  else match descOp w with
    | 0x01 => if !zeroFrom w 3 || (qWord w 2).toNat % 64 ≠ 0 then .error stFormat else d.noted ctx [(qWord w 2, 64, .read)] .none
    | 0x02 => if qBits w 2 0 52 ≠ 0 || !zeroFrom w 3 then .error stFormat else named (qBits w 2 52 12) fun _ => none_
    | 0x03 =>
      if qBits w 3 32 20 ≠ 0 || !zeroFrom w 4 || (qWord w 2).toNat % 16 ≠ 0 then .error stFormat
      else named (qBits w 3 52 12) fun t =>
        if !tbCarafe t.w then .error stFormat
        else d.noted2 ctx [(qWord w 2, 16 * qBits w 3 0 32, .read)] (tbCtx t.w)
          (tableUses t.w false ++ [(tbRowmap t.w, 8 * tbCount t.w, .update), (tbCarafeDa t.w, 64 * 2 ^ tbCarafeLog t.w, .update)])
    | 0x04 =>
      if qBits w 2 0 52 ≠ 0 || !zeroFrom w 3 then .error stFormat
      else named (qBits w 2 52 12) fun t => if tbSketch t.w then none_ else .error stFormat
    | 0x05 =>
      let n := qBits w 3 0 9
      if qBits w 3 9 43 ≠ 0 || !zeroFrom w 4 || n = 0 || 256 < n then .error stFormat
      else named (qBits w 3 52 12) fun _ => d.noted ctx [(qWord w 2, 2 * n, .read)] .none
    | 0x06 => if qBits w 3 16 36 ≠ 0 || !zeroFrom w 4 then .error stFormat else named (qBits w 3 52 12) fun _ => none_
    | 0x07 =>
      if qWord w 2 ≠ 0 || qBits w 3 16 36 ≠ 0 || !zeroFrom w 4 then .error stFormat else named (qBits w 3 52 12) fun _ => none_
    | 0x08 => checkTag w ctx
    | 0x09 => d.checkRange w ctx
    | 0x0A =>
      if qBits w 2 0 49 ≠ 0 || !zeroFrom w 3 then .error stFormat
      else if ctx ≠ 0 && qBits w 2 52 12 ≠ ctx then .error stDenied else none_
    | _ => .error stFormat

/-! ### All types -/

/-- A peer segment is reached by COPY alone among descriptors (R335, R356). -/
def Checked.noPeer (c : Checked) : Except Nat Checked := if c.notes.segs.any fun p => p.2.target = 3 then .error stFormat else .ok c

def checkDesc (w : List Word64) (ctx : Nat) (h : List HostAnswer) : Eng (Except Nat Checked) := do
  let d ← get
  if qBits w 0 48 8 ≠ 0 || qBits w 0 16 16 ≠ 0 then return .error stFormat
  let ty := descType w
  let r : Except Nat Checked ←
    if ty = tyCopy then return d.checkCopy w ctx
    else if ty = tyGather then do
      match ← checkGather w ctx none false h with
      | .error e => pure (.error e)
      | .ok (n, x, ep) => pure (.ok { notes := n, param := [], epoch := ep, x := x })
    else if ty = tyUpdate then checkUpdate w ctx h
    else if ty = tyKernel then do
      match ← checkKernel w ctx h with
      | .error e => pure (.error e)
      | .ok (n, p) => pure (.ok { notes := n, param := p, epoch := 0, x := 0 })
    else if ty = tyMigrate then pure (d.checkMigrate w ctx)
    else if ty = tyFence then pure (if zeroFrom w 1 then .ok (Checked.ofNotes .none) else .error stFormat)
    else if ty = tyMaint then pure (d.checkMaint w ctx)
    else if ty = tyProbe then pure (d.checkProbe w ctx)
    else if ty = tyEpoch then pure (d.checkEpoch w ctx)
    else pure (.error stFormat)
  match r with
  | .error e => return .error e
  | .ok c => return c.noPeer

/-- Quarters a descriptor is charged to (R364). -/
def Dev.charges (d : Dev) (w : List Word64) (param : List Word32) : List Nat :=
  let ty := descType w
  let scope := if ty = tyGather then gaScope w else if ty = tyUpdate then upScope w else 0
  if ty = tyFence || ty = tyEpoch then []
  else if 4 ≤ scope then [scope - 4]
  else if ty = tyKernel && kPlace w = 1 then [kQsel w]
  else if ty = tyKernel && kPlace w = 3 then
    ((maskBits (param.drop 16)).filterMap d.physical).foldl (fun qs c => insertNew (quarterOfCore c) qs) []
  else [0, 1, 2, 3]

/-- A descriptor just fetched. -/
def mkRun (id : DescId) (w : List Word64) (ctx cls : Nat) (now : Word64) (c : Checked) : Run :=
  { id := id, w := w, ctx := ctx, cls := cls, stage := .waiting, fetched := now, waited := 0, admCode := 0, charged := [],
    segs := c.notes.segs, gens := c.notes.gens, status := 0, pos := 0, prog := 0, cnt := if c.x = 0 then [] else [(gcX, c.x)],
    epoch := c.epoch, param := c.param, rows := [], upds := [], owed := 0, team := none, lost := false, seq := 0 }

/-- Count a translation refused (R342). -/
def Dev.countRefusal (d : Dev) (st : Nat) : Dev :=
  if st = stLimit || st = stDenied then { d with segs := { d.segs with refusals := d.segs.refusals + 1 } } else d

/-- A descriptor that passed its checks meets admission (R364-R366); one that did not ends at once. -/
def Dev.enterRun (d : Dev) (r : Run) (err : Option Nat) : Dev :=
  match err with
  | some st => (d.countRefusal st).addRun { r with stage := .ended, status := st, admCode := 3 }
  | none =>
    let ty := descType r.w
    let qs := d.charges r.w r.param
    let r1 := { r with charged := qs }
    let d1 := d.addRun r1
    if ty = tyFence || ty = tyEpoch then d1.admitRun r.id false
    else if r.cls = 2 then
      if d.admitOk 2 qs then d1.admitRun r.id false
      else
        let d2 := d.addRun { r with stage := .ended, status := stRefusedBusy, admCode := 2 }
        let d3 := if r.id.queue < 16384 then d2.updQueue r.id.queue fun x => { x with refused := satBits 32 (x.refused + 1) } else d2
        { d3 with cp := { d3.cp with refused := d3.cp.refused + 1 } }
    else if d.admissible r && !d.headsBefore r.cls qs r.id && d.admitOk r.cls qs then d1.admitRun r.id false
    else d1

end Sys2Proof.Machine
end

