-- ==== Sys2Proof/Machine/Queues.lean ====
section
/-! DEFINITION. Queues, doorbells, fetch, timeouts, records, FENCE, COPY (R346-R369, R320, R323). -/

namespace Sys2Proof.Machine

/-! ### Queue registers (R346-R349) -/

/-- A ring or completion area lies wholly in the DRAM tier outside the device-owned regions, or in the host window
(R348). -/
def Dev.areaOk (d : Dev) (dpa len : Nat) : Bool := dpa + len ≤ d.ownedFrom || (isHost dpa && isHost (dpa + len - 1))

/-- CFG_ERR of an enable: the first check that fails (R349). -/
def Dev.queueErr (d : Dev) (x : Queue) : Nat :=
  if 10 < x.size || !d.areaOk x.ring (64 * x.entries) then 1
  else if !d.areaOk x.cmpl (32 * x.entries) then 2
  else if x.vec = 0 then 3
  else if x.cls = 3 then 5 else 0

/-- Fields of QDB_CFG as written. -/
def Queue.withCfg (x : Queue) (v : Word64) : Queue :=
  { x with irqEn := v.getLsbD 62, cls := (v.extractLsb' 60 2).toNat, ctx := (v.extractLsb' 48 12).toNat,
           vec := (v.extractLsb' 37 11).toNat, size := (v.extractLsb' 32 4).toNat, tmoDef := (v.extractLsb' 0 32).toNat }

/-- The head descriptor of a queue that waits for admission completes ABORTED (R349). -/
def Dev.abortHead (d : Dev) (q : Nat) : Dev :=
  match d.cp.runs.find? fun r => r.id.queue = q && r.stage = .waiting with
  | some r => (d.endRun r.id stAborted).admitWaiting
  | none => d

/-- A write of QDB_CFG (R349). -/
def Dev.writeQdbCfg (d : Dev) (q : Nat) (v : Word64) : Dev :=
  let x := d.queue q
  let y := x.withCfg v
  let same := { y with irqEn := x.irqEn } = x
  if x.enable && !same then d.setQueue q { x with cfgErr := 4 }
  else if x.enable then
    if v.getLsbD 63 then d.setQueue q y else (d.setQueue q { y with enable := false }).abortHead q
  else if v.getLsbD 63 then
    let err := d.queueErr y
    if err ≠ 0 then d.setQueue q { y with cfgErr := err }
    else d.setQueue q { y with enable := true, head := 0, tail := 0, done := 0, refused := 0, late := 0, halted := false, cause := 0, cfgErr := 0 }
  else d.setQueue q y

/-- Writes of QDB_RING and QDB_CMPL. -/
def Dev.writeQdbBase (d : Dev) (q : Nat) (ring : Bool) (v : Word64) : Dev :=
  let x := d.queue q
  let a := (v.extractLsb' 12 44).toNat * 4096
  let y := if ring then { x with ring := a } else { x with cmpl := a }
  if x.enable && y ≠ x then d.setQueue q { x with cfgErr := 4 } else d.setQueue q y

/-- Sources that may write the registers of BAR0 (R344). -/
def RegSource.writer (s : RegSource) : Bool := s = .host || s = .management || s = .context0

/-- A write of a control-plane register by a source that may, while that plane is not held (R26, R344). -/
def Dev.cpReg (d : Dev) (src : RegSource) (f : Dev → Dev) : Dev := if RegSource.writer src && !d.rst.held.contains .cp then f d else d

/-- QDOORBELL of context c (R350). -/
def Dev.doorbell (d : Dev) (ctx q tail : Nat) : Dev :=
  let x := d.queue q
  if x.ctx ≠ ctx || !x.enable || x.halted then { d with cp := { d.cp with ignored := d.cp.ignored + 1 } }
  else if (tail + 2 ^ 32 - x.head) % 2 ^ 32 ≤ x.entries then d.setQueue q { x with tail := tail }
  else d.haltQueue q 3

/-! ### Fetch (R351) -/

/-- The fetch of the descriptor at HEAD: a ring read that fails halts the queue. -/
def fetchStep (q : Nat) (h : List HostAnswer) : Eng Unit := do
  let d ← get
  let x := d.queue q
  match ← engRead (ctrlAcc h none) ((x.ring + 64 * (x.head % x.entries)) / 64) with
  | .error _ => modify fun (e : Dev) => e.haltQueue q 1
  | .ok (data, info) =>
    if info.poison then modify fun (e : Dev) => e.haltQueue q 1
    else
      let w := bytesWords 8 (Sector.bytes data)
      let r ← checkDesc w x.ctx h
      modify fun (e : Dev) =>
        let e1 := e.updQueue q fun y => { y with head := (y.head + 1) % 2 ^ 32 }
        let id : DescId := { queue := q, index := x.head }
        match r with
        | .error st => e1.enterRun (mkRun id w x.ctx x.cls e.now (Checked.ofNotes .none)) (some st)
        | .ok c => e1.enterRun (mkRun id w x.ctx x.cls e.now c) none

/-- Conditions under which a queue fetches (R328, R349, R351, R323, R352). An index that a descriptor from before the last
enable still carries waits for that descriptor's record. -/
def Dev.mayFetch (d : Dev) (q : Nat) : Bool :=
  let x := d.queue q
  x.enable && !x.halted && d.ctxValid x.ctx && x.head ≠ x.tail && d.cp.ready && !d.lowPower && !d.headWaiting q &&
  !(d.cp.runs.any fun r => r.id = { queue := q, index := (x.head + 2 ^ 32 - x.entries) % 2 ^ 32 } ||
    r.id = { queue := q, index := x.head }) &&
  !(d.cp.runs.any fun r => r.id.queue = q && descType r.w = tyFence)

/-- DESCRIPTOR_FETCH. -/
def Dev.fetch (d : Dev) (q : Nat) (h : List HostAnswer) : Dev := if d.mayFetch q then d.engine (fetchStep q h) else d

/-! ### FENCE (R323) -/

/-- Some earlier descriptor of the queue has no record yet, or a write of one is not settled. -/
def Dev.queueUnsettled (d : Dev) (id : DescId) : Bool :=
  (d.cp.runs.any fun r => r.id.queue = id.queue && r.id ≠ id) ||
  d.homes.any fun p => p.2.txns.any fun x => match x.2 with
    | some t => match t.desc with
      | some k => k.queue = id.queue && k ≠ id
      | none => false
    | none => false

/-- FENCE. -/
def Dev.fence (d : Dev) (id : DescId) : Dev :=
  d.withRun id tyFence none fun _ e => if e.queueUnsettled id then e else e.endRun id stOk

/-! ### Timeouts (R368, R369) -/

/-- Timeout in units of 10 µs; 0 when none is set. -/
def Dev.timeoutOf (d : Dev) (r : Run) : Nat :=
  let t := qBits r.w 0 32 16
  if t = 0xFFFF then 0 else if t = 0 then (if r.id.queue < 16384 then (d.queue r.id.queue).tmoDef else 0) else t

def Run.takesTimeout (r : Run) : Bool :=
  let ty := descType r.w
  !(ty = tyFence || ty = tyEpoch || (ty = tyMaint && (descOp r.w = 0x0A || descOp r.w = 0x02)))

/-- The descriptor's writes are complete; with FENCE, settled (R320). -/
def Dev.recordReady (d : Dev) (r : Run) : Bool :=
  r.owed = 0 && !(r.upds.any fun x => x.stage = 2) && !(d.tb.locks.any fun l => match l.upd.orig with
    | .desc id _ => id = r.id
    | _ => false) &&
  !d.owes r.id (qBit r.w 0 59 && r.status ≠ stTimeout) &&
  -- R143: every GATHER and UPDATE admitted before the last commit is complete
  !(descType r.w = tyMigrate && d.cp.runs.any fun x =>
    (descType x.w = tyGather || descType x.w = tyUpdate) && x.admCode < 2 && x.stage ≠ .waiting && x.seq < r.count mcLast)

/-- An ended descriptor whose record still waits for its writes: its timeout may win yet (R326, R369), unless a reset, an
isolation or a margin emergency ended it. -/
def Dev.recordWaits (d : Dev) (r : Run) : Bool :=
  r.stage = .ended && !([stTimeout, stAborted, stMarginSuspect, stIsolated].contains r.status) && r.id.queue < 16384 && !d.recordReady r

/-- DESCRIPTOR_TIMEOUT wins against a descriptor whose completion has not won. -/
def Dev.descTimeout (d : Dev) (id : DescId) : Dev :=
  match d.run id with
  | none => d
  | some r =>
    if !r.takesTimeout || d.timeoutOf r = 0 then d
    else if d.recordWaits r then
      let d1 := d.updRun id fun x => { x with status := stTimeout }
      if r.prog = 0 then d1 else d1.setProg r.prog { d1.prog r.prog with state := 5 }
    else if !(r.live || r.stage = .waiting) then d
    else if descType r.w = tyKernel then
      match r.team with
      | some t => d.teamStop t stTimeout
      | none => (d.endRun id stTimeout).admitWaiting
    else if descType r.w = tyMigrate then d.failMigr id stTimeout
    else (d.endRun id stTimeout).admitWaiting

/-! ### Records (R320, R359, R363) -/

/-- INTERIM_RECORD (R363). -/
def Dev.interim (d : Dev) (id : DescId) : Dev :=
  match d.run id with
  | some r =>
    if r.live && qBit r.w 0 57 && id.queue < 16384 then
      d.engine (do let _ ← recordWrite (d.queue id.queue) { r with cnt := if descType r.w = tyKernel then [] else r.cnt } stInProgress)
    else d
  | none => d

/-- What follows the record: DONE and the interrupt, figures, the run's place freed, epochs that no GATHER holds retired,
waiting heads admitted. `ok` tells whether the record was written. -/
def Dev.finishRecord (d : Dev) (id : DescId) (ok : Bool) : Dev :=
  match d.run id with
  | none => d
  | some r =>
    let q := id.queue
    let d1 := if ok then
        let e := d.updQueue q fun x => { x with done := (x.done + 1) % 2 ^ 32 }
        if qBit r.w 0 58 && (d.queue q).irqEn && r.count rcFinal = 0 then e.msixRaise (d.queue q).vec else e
      else d.haltQueue q 2
    let d3 := ((d1.countTimeout r.status).dropRun id).dropMigr id
    let d4 := if descType r.w = tyGather then d3.retireEpochs (gaTable r.w) else d3
    d4.admitWaiting

def recordStep (id : DescId) : Eng Unit := do
  let d ← get
  match d.run id with
  | none => return
  | some r =>
    let x := d.queue id.queue
    match ← recordWrite x r (d.finalStatus r) with
    | some _ => modify fun (e : Dev) => e.finishRecord id false
    | none =>
      if isHost x.cmpl then modify fun (e : Dev) => e.updRun id fun y => { y with stage := .recording }
      else modify fun (e : Dev) => e.finishRecord id true

/-- COMPLETION_RECORD: an ended descriptor's record is written; one in host memory is complete when the host has answered. -/
def Dev.completion (d0 : Dev) (id : DescId) : Dev :=
  let d : Dev := (match d0.run id with
    | some r => match r.team with
      | some t => if r.live then d0.teamEnd t else d0
      | none => d0
    | none => d0).undefOuts id
  match d.run id with
  | none => d
  | some r =>
    if 16384 ≤ id.queue then
      (if 20480 ≤ id.queue then d.gsubDone (id.queue - 20480) id else d.mailboxDone (id.queue - 16384) id)
    else if r.stage = .ended then (if d.recordReady r && !r.undefDue then d.engine (recordStep id) else d)
    else if r.stage = .recording then (if d.owes id false then d else d.finishRecord id (!r.lost))
    else d

/-! ### COPY (R356) -/

/-- cnt numbers of a COPY: bytes issued, poison met, failing status + 1, engine. -/
def ccIssued : Nat := 22
def ccPoison : Nat := 19
def ccFail : Nat := 16
def ccEngine : Nat := 21

/-- Engines of a class, by offset in their quarter (Table 1.4): 0 host-to-device, 1 device-to-host, 2 peer. -/
def engineClass (k : Nat) : List Nat :=
  (List.range 4).flatMap fun q => (if k = 0 then [0, 1, 2] else if k = 1 then [3, 4, 5] else [6, 7]).map (0x280 + 8 * q + ·)

/-- Descriptors running on an engine. -/
def Dev.engineLoad (d : Dev) (a : Nat) : Nat := (d.cp.runs.filter fun r => r.live && descType r.w = tyCopy && r.count ccEngine = a).length

/-- The engine with the fewest descriptors, ties to the lowest agent ID. -/
def Dev.leastEngine (d : Dev) (as : List Nat) : Nat :=
  as.foldl (fun b a => if d.engineLoad a < d.engineLoad b then a else b) (as.headD 0x280)

/-- A host-class engine runs 8 descriptors and takes no ninth (R393). -/
def Dev.engineFull (d : Dev) (a : Nat) : Bool := (a - 0x280) % 8 < 6 && 8 ≤ d.engineLoad a

/-- Engine of a COPY from its targets. -/
def Dev.copyEngine (d : Dev) (ts td : Nat) : Nat :=
  let load (k : Nat) : Nat := sumUnits ((engineClass k).map d.engineLoad)
  if ts = 3 || td = 3 then d.leastEngine (engineClass 2)
  else if ts = 2 then d.leastEngine (engineClass 0)
  else if td = 2 then d.leastEngine (engineClass 1)
  else d.leastEngine (engineClass (if load 1 < load 0 then 1 else 0))

/-- Offset of a DPA in a segment that maps it (R341). -/
def SegRec.offsetOf (r : SegRec) (dpa : Nat) : Option Nat :=
  if r.target ≤ 1 && r.ilv then
    let lead := r.base % 2 ^ 30
    let base := r.base - lead
    if dpa < base then none
    else
      let x := dpa - base
      let w := x % 2 ^ 32
      let p := x / 2 ^ 32 * 2 ^ 30 + w
      if w < 2 ^ 30 && lead ≤ p && p - lead ≤ r.limit then some (p - lead) else none
  else
    let b := r.dpa 0
    if b ≤ dpa && dpa - b ≤ r.limit then some (dpa - b) else none

/-- Contexts and segments of a COPY. -/
def Run.copyCtx (r : Run) (src : Bool) : Nat := if r.ctx ≠ 0 then r.ctx else if src then coSrcCtx r.w else coDstCtx r.w

def Run.copyAcc (r : Run) (src : Bool) (h : List HostAnswer) : SegAcc :=
  r.acc (r.count ccEngine) (r.copyCtx src) (daSeg (if src then qWord r.w 1 else qWord r.w 2)) h

/-- A transaction of a descriptor still outstanding, by the offset it serves. -/
def Dev.copyOut (d : Dev) (id : DescId) : List Nat :=
  d.tr.txs.filterMap fun p => match p.2 with
    | some t => match t.use with
      | .read k off _ _ => if k = id then some off else none
      | .write k off _ => if k = id then some off else none
      | _ => none
    | none => none

/-- POSITION and the end of a COPY: every byte moved, or a failure with nothing outstanding. -/
def Dev.settleCopy (d : Dev) (id : DescId) : Dev :=
  match d.run id with
  | none => d
  | some r =>
    if !r.live then d
    else
      let outs := d.copyOut id
      let low := outs.foldl Nat.min (r.count ccIssued)
      let d1 := d.setPos id low
      if !outs.isEmpty then d1
      else if r.count ccFail ≠ 0 then d1.endRun id (r.count ccFail - 1)
      else if r.count ccIssued = coLen r.w then d1.endRun id (if r.count ccPoison ≠ 0 then stPoisoned else stOk)
      else d1

def Dev.failCopy (d : Dev) (id : DescId) (st : Nat) : Dev :=
  (d.updRun id fun r => if r.count ccFail = 0 then r.setCount ccFail (st + 1) else r).settleCopy id

/-- Destination bytes that the source range also holds are undefined: each takes a byte of one free value (R356). -/
def Dev.overlapFree (d : Dev) (r : Run) (off : Nat) (bs : List Byte) : List Byte × Dev :=
  let sg := (r.copyAcc true []).sg
  let dg := (r.copyAcc false []).sg
  let so := daOff (qWord r.w 1)
  let hit (i : Nat) : Bool :=
    !coFill r.w && sg.target ≠ 3 && dg.target ≠ 3 &&
    match sg.offsetOf (dg.dpa (daOff (qWord r.w 2) + off + i)) with
    | some o => so ≤ o && o < so + coLen r.w
    | none => false
  if (List.range bs.length).any hit then
    let (x, d1) := d.freeSector
    ((List.range bs.length).map fun i => if hit i then Sector.byte x i else bs.getD i 0, d1)
  else (bs, d)

/-- Fill bytes for destination offsets (R355). -/
def fillBytes (v : Word64) (o n : Nat) : List Byte := (List.range n).map fun i => BitVec.ofNat 8 (v.toNat / 256 ^ ((o + i) % 8))

/-- Bytes to move next, up to a boundary of `unit` bytes at the destination. -/
def copySpan (dst left unit : Nat) : Nat := Nat.min left (unit - dst % unit)

/-- Body of a bulk message at an offset of a remote segment (Table 14.4, R426). -/
def bulkBody (g : SegRec) (rest : Nat) : Nat := g.remCtx * 2 ^ 36 + g.remSeg * 2 ^ 33 + rest

/-- Words of bytes, the last padded with zeros. -/
def padWords (bs : List Byte) : List Word64 := bytesWords ((bs.length + 7) / 8) bs

/-- POISON bits of a bulk message: bit i for its i-th 64 bytes. -/
def bulkPoison (p : Bool) (n : Nat) : Nat := if p then 2 ^ ((n + 63) / 64) - 1 else 0

/-- Generation check of the quarter's link layers on a peer segment (R334). -/
def Dev.peerGenOk (d : Dev) (a : SegAcc) : Bool :=
  a.acc.ctx = 0 || d.copyGen (136 + (a.acc.src - 0x280) / 8 % 4) a.acc.ctx a.acc.seg = a.acc.gen

/-- n bytes moved by a host-to-device or device-to-host engine are counted (R402, OD 0x20A1.0A and 0B). -/
def Dev.countHost (d : Dev) (agent n : Nat) : Dev :=
  let k := (agent - 0x280) % 8
  { d with hl := { d.hl with
      h2d := if k < 3 then d.hl.h2d + BitVec.ofNat 64 n else d.hl.h2d
      d2h := if 3 ≤ k && k < 6 then d.hl.d2h + BitVec.ofNat 64 n else d.hl.d2h } }

/-- Move the next piece. -/
def copyStep (id : DescId) (h : List HostAnswer) : Eng Unit := do
  let d ← get
  match d.run id with
  | none => return
  | some r =>
    let off := r.count ccIssued
    if !r.live || r.count ccFail ≠ 0 || coLen r.w ≤ off then return
    if d.partHeld (r.count ccEngine) then
      set (d.failCopy id stIsolated)
      return
    let sa := r.copyAcc true h
    let da := r.copyAcc false h
    let dst := daOff (qWord r.w 2) + off
    let src := daOff (qWord r.w 1) + off
    let fail (st : Nat) : Eng Unit := modify fun (e : Dev) => e.failCopy id st
    if !coFill r.w && sa.sg.target = 3 then
      let n := copySpan (sa.sg.base + src) (coLen r.w - off) 256
      if !d.peerGenOk sa then fail stRevoked
      else
        modify fun (e : Dev) => e.updRun id fun y => y.setCount ccIssued (off + n)
        modify fun (e : Dev) => e.request (.read id off dst n) mtBkrd sa.sg.peerDev (bulkBody sa.sg n) [BitVec.ofNat 64 (sa.sg.base + src)]
    else
      let peer := da.sg.target = 3
      let n := if peer then copySpan (da.sg.base + dst) (coLen r.w - off) 256 else copySpan dst (coLen r.w - off) 64
      let got : Except ErrStatus (List Byte × Bool × List SectorMeta) ←
        if coFill r.w then pure (.ok (fillBytes (qWord r.w 5) dst n, false, [])) else engReadBytes sa src n
      match got with
      | .error e => fail (errStat e)
      | .ok (bs, p, _) =>
        if peer then
          if !d.peerGenOk da then fail stRevoked
          else
            modify fun (e : Dev) => e.updRun id fun y => (y.setCount ccIssued (off + n)).setCount ccPoison
              (if p then 1 else y.count ccPoison)
            let ws := BitVec.ofNat 64 (da.sg.base + dst) :: padWords bs
            modify fun (e : Dev) => e.request (.write id off n) mtBkwr da.sg.peerDev (bulkBody da.sg (bulkPoison p n * 2 ^ 9 + n)) ws
        else
          let d1 ← get
          let (bs1, d2) := d1.overlapFree r off bs
          set d2
          match ← engWriteBytes da dst (if p then bs1.map fun _ => 0 else bs1) p 0 0 with
          | some e => fail (errStat e)
          | none => modify fun (e : Dev) => ((e.countHost (r.count ccEngine) n).updRun
              id fun y => (y.setCount ccIssued (off + n)).setCount ccPoison (if p then 1 else y.count ccPoison)).settleCopy id

def Dev.copyLoop (d : Dev) (id : DescId) (h : List HostAnswer) : Nat → Dev
  | 0 => d
  | n + 1 => Dev.copyLoop (d.engine (copyStep id h)) id h n

/-- COPY: up to n pieces of at most 64 bytes (256 for a peer). It starts when its engine can take it. -/
def Dev.copy (d : Dev) (id : DescId) (n : Nat) (h : List HostAnswer) : Dev :=
  d.withRun id tyCopy none fun r e =>
    if r.stage = .admitted then
      let eng := e.copyEngine (if coFill r.w then 0 else (r.copyAcc true h).sg.target) (r.copyAcc false h).sg.target
      if e.engineFull eng then d
      else
        let e0 := e.updRun id fun y => y.setCount ccEngine eng
        let e1 :=
          if qBit r.w 0 56 then
            match e0.freeProg 0x60 32 with
            | some i => e0.takeProg id (qBits r.w 0 0 16) i (coLen r.w)
            | none => e0
          else e0
        e1.copyLoop id h n
    else e.copyLoop id h n

/-! ### Meanings -/

def execFence (d : DescId) (s : State) : Host.Outcome State Fault Refusal := s.goes (s.dev.fence d)
/-- QDB_ENABLE and QDB_DISABLE are writes of QDB_CFG whose ENABLE bit is set or clear. -/
def execQdbEnable (src : RegSource) (q : QueueId) (value : Word64) (s : State) : Host.Outcome State Fault Refusal :=
  s.goes (s.dev.cpReg src fun d => d.writeQdbCfg q.val (value ||| 0x8000000000000000#64))
def execQdbDisable (src : RegSource) (q : QueueId) (value : Word64) (s : State) : Host.Outcome State Fault Refusal :=
  s.goes (s.dev.cpReg src fun d => d.writeQdbCfg q.val (value &&& 0x7FFFFFFFFFFFFFFF#64))
/-- QDOORBELL; user processes write it too, through the pages mapped to them (R344). -/
def execQdoorbell (_src : RegSource) (ctx : CtxId) (q : QueueId) (value : Word64) (size : Nat) (s : State) :
    Host.Outcome State Fault Refusal :=
  s.goes (if size = 8 && !s.dev.rst.held.contains .cp then s.dev.doorbell ctx.val q.val (value.extractLsb' 0 32).toNat else s.dev)
def execDescriptorFetch (q : QueueId) (h : List HostAnswer) (s : State) : Host.Outcome State Fault Refusal :=
  s.goes (s.dev.fetch q.val h)
def execDescriptorTimeout (d : DescId) (s : State) : Host.Outcome State Fault Refusal := s.timed (s.dev.descTimeout d)
def execInterimRecord (d : DescId) (s : State) : Host.Outcome State Fault Refusal := s.goes (s.dev.interim d)
def execCompletionRecord (d : DescId) (s : State) : Host.Outcome State Fault Refusal := s.goes (s.dev.completion d)

end Sys2Proof.Machine
end

