-- ==== Sys2Proof/Machine/Caches.lean ====
section
/-! DEFINITION. Enabling a cache, _ALL operations, range maintenance by the Percolators, way locking (R288-R301, R305,
R306). -/

namespace Sys2Proof.Machine

/-! ### Caches by number -/

/-- Numbers of Table 9.9 that name a cache. -/
def cacheExists (n : Nat) : Bool := n < 64 || (256 ≤ n && n < 528)

/-- Bytes of several caches. -/
def Dev.cachesBytes (d : Dev) (ns : List Nat) : Nat := sumUnits (ns.map d.cacheBytes)

/-- Lines that a cache holds, in ways and side buffer. -/
def Cache.lines (k : Cache) : List CLine := ((k.ways.map (·.2)) ++ k.side).filter CLine.live

/-- A line of the cache is in a transaction, so that its walk must wait (R295). -/
def Dev.walkBlocked (d : Dev) (n : Nat) : Bool := n < 256 && (d.cache n).lines.any fun l => d.lineBusy l.line

/-- A slice's M sectors go to memory and become E; a host line's leave, with their grant (R293, Table 8.10). -/
def Dev.sliceClean (d : Dev) (n : Nat) (l : CLine) : Dev :=
  (List.range 4).foldl (fun (e : Dev) s =>
    let x := l.sector s
    if x.st ≠ .M then e
    else
      let e1 := e.sliceWriteBack l.line s x
      if isHost (lineDpa l.line) then (e1.cacheDrop n l.line s).updSector l.line s fun y => { y with hs := 0 }
      else e1.cacheSet n l.line s { x with st := .E }) d

/-- An L1's O and M sectors leave by EVICTDIRTY; the others stay. -/
def Dev.l1Clean (d : Dev) (n : Nat) (l : CLine) : Dev :=
  (List.range 4).foldl (fun (e : Dev) s =>
    let x := l.sector s
    if x.st = .O || x.st = .M then (e.l1Release (n - 256) l.line s x).cacheDrop n l.line s else e) d

/-- One cache's walk of an _ALL operation (Table 9.4). A slice's Percolator takes the table walk of 77,856 entries (R291;
notes/assumptions 50, DEDUCED). -/
def Dev.walkCache (d : Dev) (n code : Nat) : Dev :=
  let lines := (d.cache n).lines
  let d1 :=
    if code = 6 then d
    else if code = 7 then lines.foldl (fun (e : Dev) l => if n < 256 then e.sliceClean n l else e.l1Clean n l) d
    else lines.foldl (fun (e : Dev) l => if n < 256 then e.sliceRelease l else e.l1ReleaseLine (n - 256) l) d
  let d2 := if code = 7 then d1 else d1.updCache n fun k => { k with ways := [], side := [] }
  if n < 256 then { d2 with coh := { d2.coh with perc := d2.coh.perc + 77856 } } else d2

/-- Nothing the walk sent is still on its way to its home. -/
def Dev.walkSettled (d : Dev) (n : Nat) : Bool := n < 256 || (d.core (n - 256)).evict.isEmpty

/-- The operation of a cache completes; the flush of an ENABLE 0 written meanwhile starts (R290, R301). -/
def Dev.opDone (d : Dev) (n : Nat) (o : CacheOp) : Dev :=
  d.updCache n fun k =>
    let k1 := { k with invDone := k.invDone || o.code = 6, enable := k.enable && !o.off, op := none, busy := false }
    if k1.offAfter then { k1 with offAfter := false, op := some { code := 8, off := true, cmd := false }, busy := true } else k1

def Dev.startOp (d : Dev) (n : Nat) (o : CacheOp) : Dev := d.updCache n fun k => { k with op := some o, busy := true }

/-! ### Register and dictionary commands (R290, R305, R306) -/

/-- ENABLE 1: refused while INV_DONE is 0 and while INVALIDATE_ALL runs (R290, R301). -/
def Dev.enableCache (d : Dev) (n : Nat) : Dev :=
  d.updCache n fun k =>
    let inv : Bool := match k.op with
      | some o => decide (o.code = 6)
      | none => false
    if !k.invDone || inv then { k with enRefused := true } else { k with enable := true }

/-- ENABLE 0 of an enabled cache: FLUSH_ALL, then ENABLE clears. -/
def Dev.disableCache (d : Dev) (n : Nat) : Dev :=
  let k := d.cache n
  if !k.enable then d
  else if k.busy then
    let offNow : Bool := match k.op with
      | some o => o.off
      | none => false
    if offNow then d else d.updCache n fun x => { x with offAfter := true }
  else d.startOp n { code := 8, off := true, cmd := false }

/-- CACHE_PCMD (R305). -/
def Dev.pcmd (d : Dev) (n code : Nat) : Dev :=
  let k := d.cache n
  if k.busy || code < 6 || 8 < code || (code = 6 && k.enable) then d.updCache n fun x => { x with pcRefused := true }
  else d.startOp n { code := code, off := false, cmd := false }

/-- A register command of a source that may write it, on a cache that exists. -/
def Dev.cacheReg (d : Dev) (src : RegSource) (n : Nat) (f : Dev → Dev) : Dev :=
  if RegSource.writer src && cacheExists n && !d.cacheHeld n then f d else d

/-- CacheEnable: refused whole when a bit is 1 and a cache of its class has INV_DONE 0 (R290). -/
def Dev.writeCacheEnable (d : Dev) (v : Nat) : Dev :=
  let cls (on : Bool) : List Nat := (if v.testBit 0 = on then namedCaches 1 else []) ++ (if v.testBit 1 = on then namedCaches 2 else [])
  let bad := (cls true).filter fun n => !(d.cache n).invDone
  if !bad.isEmpty then bad.foldl (fun (e : Dev) n => e.updCache n fun k => { k with enRefused := true }) d
  else (cls false).foldl (fun (e : Dev) n => e.disableCache n) ((cls true).foldl (fun (e : Dev) n => e.enableCache n) d)

/-- Reading of CacheEnable: 1 per class when every cache of it is enabled. -/
def Dev.readCacheEnable (d : Dev) : Nat :=
  bit ((namedCaches 1).all fun n => (d.cache n).enable) + 2 * bit ((namedCaches 2).all fun n => (d.cache n).enable)

/-- CacheCommand: refused when a target is busy, or when INVALIDATE_ALL names an enabled cache. -/
def Dev.cacheCommand (d : Dev) (v : Nat) : Dev :=
  let code := v % 16
  let ns := (if v.testBit 4 then namedCaches 1 else []) ++ (if v.testBit 5 then namedCaches 2 else [])
  let bad := ns.filter fun n => (d.cache n).busy || (code = 6 && (d.cache n).enable)
  if code < 6 || 8 < code || 64 ≤ v then d
  else if !bad.isEmpty then bad.foldl (fun (e : Dev) n => e.updCache n fun k => { k with pcRefused := true }) d
  else
    let p : Progress := { state := if ns.isEmpty then 4 else 1, position := 0, total := d.cachesBytes ns, queue := 0xFFFF, tag := 0, start := d.stamp }
    (ns.foldl (fun (e : Dev) n => e.startOp n { code := code, off := false, cmd := true }) d).setProg 0x50 p

/-- CacheWayRestore: a disabled way of a cache, for the next cold reset (R300). -/
def Dev.wayRestore (d : Dev) (v : Nat) : Dev :=
  let n := v / 16
  let w := v % 16
  if cacheExists n && ((d.cache n).disabled ||| (d.cache n).disabledW).getLsbD w then
    (d.updCache n fun k => { k with restore := insertNew w k.restore }).nvRecord (nvRepair (quarterOfCache n))
  else d

/-! ### CACHE_RANGE (R292-R298) -/

/-- cnt numbers of a CACHE_RANGE: sectors skipped, lines not loaded. -/
def crSkipped : Nat := 0
def crMissed : Nat := 1
/-- cnt number of the line, counted from 1, whose host copies have been asked for. -/
def crAsked : Nat := 2

def Run.isRange (r : Run) : Bool := r.isOp tyMaint (some 0x09)

/-- The operation in turn: the live one admitted first (R296). -/
def Dev.rangeHead (d : Dev) : Option Run :=
  (d.cp.runs.filter fun r => r.isRange && r.live).foldl (fun b r =>
    match b with
    | none => some r
    | some x => if r.seq < x.seq then some r else some x) none

/-- Caches in which an operation runs: every slice, by its Percolator, and for an _ALL operation what it names. -/
def rangeCaches (w : List Word64) : List Nat := if 6 ≤ crOp w then namedCaches (crCaches w) else namedCaches 1

/-- Units counted by POSITION: the range's bytes, or the named caches' as at admission (R296). UNLOCK walks nothing. -/
def Run.rangeTotal (r : Run) : Nat :=
  if 6 ≤ crOp r.w then sumUnits ((namedCaches (crCaches r.w)).map fun n => r.count (crBytes n))
  else if crOp r.w = 5 then 0 else (qWord r.w 3).toNat

/-- The operation is over: its caches are idle again. -/
def Dev.rangeOver (d : Dev) (r : Run) (done : Bool) : Dev :=
  (rangeCaches r.w).foldl (fun (e : Dev) n => e.opDone n { code := if done then crOp r.w else 0, off := false, cmd := false }) d

/-- The operation in turn starts when its caches are idle and an object is free. The locks are those of now: a PRELOAD_LOCK
queued with another one may have become too large (R297). -/
def Dev.rangeStart (d : Dev) (r : Run) : Dev :=
  let ns := rangeCaches r.w
  if ns.any fun n => (d.cache n).busy then d
  else if crOp r.w = 4 && d.wayMaskBad (crWays r.w) then d.endRun r.id stFormat
  else
    match d.freeProg 0x51 15 with
    | none => d
    | some i =>
      let d1 := (d.updRun r.id fun x => { x with stage := .running }).takeProg r.id (qBits r.w 0 0 16) i r.rangeTotal
      ns.foldl (fun (e : Dev) n =>
        if 6 ≤ crOp r.w then e.startOp n { code := crOp r.w, off := false, cmd := false } else e.updCache n fun k => { k with busy := true }) d1

/-- What a visit to one line came to. -/
inductive Visit
  | asked
  | failed (st : Nat)
  | done (skipped : Nat) (missed : Nat)
  deriving DecidableEq, Repr

/-- The Percolator's check of one sector: readiness and generation, then the tag of every copy (R294, R259). -/
def Dev.rangeCheck (d : Dev) (m : ReqMsg) (sec : Nat) : Option ErrStatus :=
  match d.checkSec m sec with
  | some e => some e
  | none =>
    let s := (d.dirEntry m.line).sector sec
    let own := if s.ds = .E || s.ds = .O then d.ownerCopy s.own (4 * m.line + sec) else none
    match own with
    | some x => if m.ctx ≠ 0 && isTier (lineDpa m.line) && x.info.tag ≠ m.ctx then some .tagMismatch else none
    | none => none

/-- The host is asked for its copy of a device sector (R293, R272). -/
def askHost (a : Acc) (op line sec : Nat) : Eng Unit := do
  let kind : SnpKind := if op = 0 then .fwdShared else .inv
  modify fun (d : Dev) => (d.biSnoop kind line [sec]).updSector line sec fun y => { y with hs := if op = 0 then 1 else 0 }
  engOweAs a (if op = 2 then .wrFull else .recall) line (.bi sec)

/-- WRITEBACK of a sector: an owner's O or M data is recalled, the slice's M data goes to memory (R293). -/
def rangeWriteback (a : Acc) (w : List Word64) (line sec : Nat) : Eng Unit := do
  let d ← get
  let s := (d.dirEntry line).sector sec
  if crCaches w ≠ 1 && (s.ds = .E || s.ds = .O) then
    match d.ownerCopy s.own (4 * line + sec) with
    | some x =>
      if x.st = .M || x.st = .O then
        if (Map.get none (d.core s.own).held (4 * line + sec)).isSome then throw .busy
        set (((d.l1Lose s.own line sec).updSector line sec fun y =>
          { y with ds := if s.ds = .O then .S else .I, own := 0x3FF }).homeStore line sec x.data x.info true)
    | none => pure ()
  let d1 ← get
  let x := d1.sliceSec line sec
  if crCaches w ≠ 2 && x.st = .M then
    let d2 := d1.sliceWriteBack line sec x
    if isHost (lineDpa line) then
      set ((d2.cacheDrop (d2.sliceNo line) line sec).updSector line sec fun y => { y with hs := 0 })
      engOweAs a .recall line (.go sec)
    else set (d2.cacheSet (d2.sliceNo line) line sec { x with st := .E })

/-- The slice's copy of a sector goes; a host line's with its grant. -/
def rangeDrop (line sec : Nat) : Eng Unit := do
  let d ← get
  let x := d.sliceSec line sec
  if x.st != .I then
    let d1 := d.cacheDrop (d.sliceNo line) line sec
    set (if isHost (lineDpa line) then
        (d1.updSector line sec fun y => { y with hs := 0 }).emit (.d2h .cleanEvictNoData line sec 0 0 false)
      else d1)

/-- PREFETCH: an absent line is read from memory into the slice side buffer (R287). -/
def Dev.rangePrefetch (d : Dev) (line : Nat) : Dev :=
  let n := d.sliceNo line
  if !(d.cache n).pfEn || (d.findWay n line).isSome || (d.sideLine n line).isSome then d
  else
    (List.range 4).foldl (fun (e : Dev) s =>
      let (x, i, e1) := e.memRead (4 * line + s)
      e1.sideFill n 32 line s { st := .E, data := x, info := i, err := 0 }) d

/-- PRELOAD_LOCK: an absent line is read in E into a way of WAYMASK, chosen as a victim among those that hold no line of the
range, or into a slot that a locked way of WAYMASK has empty (R297, R298). -/
def Dev.preload (d : Dev) (w : List Word64) (line : Nat) (inRange : Nat → Bool) : Option Dev :=
  let n := d.sliceNo line
  if (d.findWay n line).isSome then some d
  else if !(d.cache n).enable then none
  else
    let (_, x) := d.placeOf n line
    let ok (i : Nat) : Bool := (waysOf (crWays w)).getLsbD i && !((d.wayLine n (16 * x + i)).live && inRange (d.wayLine n (16 * x + i)).line)
    let cs := (d.candidates n line).filter ok
    let hole (i : Nat) : Bool := ok i && !(d.disabledWays n).getLsbD i && !(d.wayLine n (16 * x + i)).live
    let pick := match (List.range 12).find? hole with
      | some i => some i
      | none => cs[(d.cache n).lfsr.toNat % cs.length]?
    match pick with
    | none => none
    | some i =>
      let key := 16 * x + i
      let l := d.wayLine n key
      let d1 := if l.live then d.sliceRelease l else d
      let d2 := d1.updCache n fun k => { k with
        lfsr := lfsrNext k.lfsr, ways := Map.put k.ways key ({ line := line, sec := [] } : CLine)
        side := k.side.filter fun y => y.line ≠ line }
      some ((List.range 4).foldl (fun (e : Dev) s =>
        let (v, m, e1) := e.memRead (4 * line + s)
        e1.updCache n fun k => { k with
          ways := Map.put k.ways key ((Map.get CLine.empty k.ways key).setSec s { st := .E, data := v, info := m, err := 0 }) }) d2)

/-- One line of a range operation. -/
def rangeLine (r : Run) (a : Acc) (line : Nat) (inRange : Nat → Bool) : Eng Visit := do
  engLine { a with desc := none } line
  let d ← get
  let op := crOp r.w
  let m := a.req (if op = 1 || op = 2 then .wrFull else .rdCurrent) (4 * line)
  let res := (List.range 4).map fun s => (s, d.rangeCheck m s)
  match res.findSome? fun p => if p.2 = some .tagMismatch then none else p.2 with
  | some e =>
    set (d.countReject a.ctx a.seg e)
    return .failed (errStat e)
  | none =>
    let skip := (res.filter fun p => p.2.isSome).length
    let secs := (res.filter fun p => p.2.isNone).map (·.1)
    let ask := secs.filter fun s =>
      let hs := ((d.dirEntry line).sector s).hs
      crHost r.w && op ≤ 2 && !isHost (lineDpa line) && hs ≠ 0
    if !ask.isEmpty && r.count crAsked ≠ r.pos / 256 + 1 then
      for s in ask do askHost a op line s
      modify fun (e : Dev) => e.updRun r.id fun x => x.setCount crAsked (r.pos / 256 + 1)
      return .asked
    match op with
    | 0 =>
      for s in secs do rangeWriteback a r.w line s
      return .done skip 0
    | 1 =>
      for s in secs do
        rangeWriteback a r.w line s
        if crCaches r.w ≠ 1 then engInvalidate line s true
        if crCaches r.w ≠ 2 then rangeDrop line s
      return .done skip 0
    | 2 =>
      for s in secs do
        if crCaches r.w ≠ 1 then engInvalidate line s false
        if crCaches r.w ≠ 2 then rangeDrop line s
      return .done skip 0
    | 3 =>
      if skip = 0 && crCaches r.w ≠ 2 then modify fun (e : Dev) => e.rangePrefetch line
      return .done skip 0
    | _ =>
      if skip ≠ 0 then return .done skip 0
      match d.preload r.w line inRange with
      | some e =>
        set e
        return .done 0 0
      | none => return .done 0 1

/-- cnt number of the entries that the Percolator of home h has examined for a range operation. -/
def crEntries (h : Nat) : Nat := 64 + h

/-- A line of home h visited: an entry, up to the 77,856 of the table walk, which is then the shorter one (R291). -/
def Dev.rangeEntry (d : Dev) (id : DescId) (h : Nat) : Dev :=
  match d.run id with
  | none => d
  | some r =>
    if 77856 ≤ r.count (crEntries h) then d
    else
      let d1 := d.updRun id fun x => x.addCount (crEntries h) 1
      { d1 with coh := { d1.coh with perc := d1.coh.perc + 1 } }

/-- The next line of a range operation. -/
def rangeStep (id : DescId) (h : List HostAnswer) : Eng Unit := do
  let d ← get
  match d.run id with
  | none => return
  | some r =>
    let len := (qWord r.w 3).toNat
    if r.stage ≠ .running || len ≤ r.pos then return
    let da := qWord r.w 2
    let a := r.acc (homeSource 0) r.ctx (daSeg da) h
    let at_ (p : Nat) : Nat := a.sector ((daOff da + p) / 64) / 4
    let line := at_ r.pos
    let inRange (l : Nat) : Bool := match a.sg.offsetOf (lineDpa l) with
      | some o => daOff da ≤ o && o < daOff da + len
      | none => false
    match ← rangeLine r { a.acc with src := homeSource (d.homeOf (lineDpa line)) } line inRange with
    | .asked => return
    | .failed st => modify fun (e : Dev) => (e.endRun id st).rangeOver r false
    | .done k m =>
      modify fun (e : Dev) => (e.updRun id fun x => (x.addCount crSkipped k).addCount crMissed m).setPos id (r.pos + 256)
      modify fun (e : Dev) => e.rangeEntry id (d.homeOf (lineDpa line))

def Dev.rangeLoop (d : Dev) (id : DescId) (h : List HostAnswer) : Nat → Dev
  | 0 => d
  | n + 1 => Dev.rangeLoop (d.engine (rangeStep id h)) id h n

/-- The walks of up to n named caches of an _ALL operation. -/
def Dev.rangeWalks (d : Dev) (r : Run) (n : Nat) : Dev :=
  let ns := ((namedCaches (crCaches r.w)).filter fun c => (d.cache c).op.isSome && !d.walkBlocked c).take n
  ns.foldl (fun (e : Dev) c =>
    let e1 := (e.walkCache c (crOp r.w)).updCache c fun k => { k with op := none }
    let p := match e1.run r.id with
      | some x => x.pos
      | none => 0
    e1.setPos r.id (p + r.count (crBytes c))) d

/-- UNLOCK: the ways of WAYMASK are ordinary again (R298). -/
def Dev.unlockWays (d : Dev) (m : Nat) : Dev :=
  (List.range 64).foldl (fun (e : Dev) n => e.updCache n fun k => { k with locked := k.locked &&& ~~~(waysOf m) }) d

/-- A CACHE_RANGE command: the operation in turn starts or goes on, n lines or caches at most. -/
def Dev.cacheRange (d : Dev) (id : DescId) (op n : Nat) (h : List HostAnswer) : Dev :=
  match d.rangeHead with
  | none => d
  | some r0 =>
    if r0.id ≠ id || crOp r0.w ≠ op then d
    else
      let d1 := if r0.stage = .admitted then d.rangeStart r0 else d
      match d1.run id with
      | none => d1
      | some r =>
        if r.stage ≠ .running then d1
        else if op = 5 then d1.unlockWays (crWays r.w)
        else if 6 ≤ op then d1.rangeWalks r n
        else d1.rangeLoop id h n

/-- The ways of WAYMASK that are still in service are locked when a preload's walk ends (R297, R301). -/
def Dev.lockWays (d : Dev) (m : Nat) : Dev × Bool :=
  let d1 := (List.range 64).foldl (fun (e : Dev) n => e.updCache n fun k => { k with locked := k.locked ||| (waysOf m &&& ~~~k.disabled) }) d
  (d1, (List.range 64).any fun n => (d.cache n).disabled &&& waysOf m ≠ 0)

/-- The CACHE_RANGE in turn completes when its walk is done and what it wrote has been accepted (R295, R296). -/
def Dev.rangeEnd (d : Dev) : Dev :=
  match d.rangeHead with
  | none => d
  | some r =>
    let op := crOp r.w
    let total := r.rangeTotal
    let walked := if 6 ≤ op then (namedCaches (crCaches r.w)).all fun n => (d.cache n).op.isNone && d.walkSettled n else decide (total ≤ r.pos)
    if r.stage ≠ .running || !walked || d.owes r.id true then d
    else
      let (d1, lost) := if op = 4 then d.lockWays (crWays r.w) else (d, false)
      ((d1.setPos r.id total).endRun r.id (if r.count crSkipped ≠ 0 || r.count crMissed ≠ 0 || lost then stPartial else stOk)).rangeOver r true

/-- Caches whose operation no CACHE_RANGE owns. -/
def Dev.ownOps (d : Dev) : List Nat :=
  let taken : List Nat := match d.rangeHead with
    | some r => if r.stage = .running then rangeCaches r.w else []
    | none => []
  (namedCaches 0).filter fun n => (d.cache n).op.isSome && !taken.contains n

/-- The walk of a register's or dictionary's operation on one cache, and its completion. -/
def Dev.ownEnd (d : Dev) (n : Nat) : Dev :=
  match (d.cache n).op with
  | none => d
  | some o =>
    if d.walkBlocked n then d
    else
      let d1 := d.walkCache n o.code
      if !d1.walkSettled n then d1
      else
        let d2 := d1.opDone n o
        if !o.cmd then d2
        else
          let p := d2.prog 0x50
          let left : Bool := (namedCaches 0).any fun c => match (d2.cache c).op with
            | some x => x.cmd
            | none => false
          d2.setProg 0x50 { p with position := if left then Nat.min p.total (p.position + d2.cacheBytes n) else p.total, state := if left then p.state else 4 }

/-- PERCOLATOR_WALK_END. -/
def Dev.walkEnd (d : Dev) : Dev := d.ownOps.foldl (fun (e : Dev) n => e.ownEnd n) d.rangeEnd

/-! ### Meanings -/

def execCacheEnable (src : RegSource) (n : Nat) (s : State) : Host.Outcome State Fault Refusal :=
  s.goes (s.dev.cacheReg src n fun d => d.enableCache n)
def execCacheDisable (src : RegSource) (n : Nat) (s : State) : Host.Outcome State Fault Refusal :=
  s.goes (s.dev.cacheReg src n fun d => d.disableCache n)
def execPcmdInvalidateAll (src : RegSource) (n : Nat) (s : State) : Host.Outcome State Fault Refusal :=
  s.goes (s.dev.cacheReg src n fun d => d.pcmd n 6)
def execPcmdWritebackAll (src : RegSource) (n : Nat) (s : State) : Host.Outcome State Fault Refusal :=
  s.goes (s.dev.cacheReg src n fun d => d.pcmd n 7)
def execPcmdFlushAll (src : RegSource) (n : Nat) (s : State) : Host.Outcome State Fault Refusal :=
  s.goes (s.dev.cacheReg src n fun d => d.pcmd n 8)
def execCacheRangeWriteback (d : DescId) (n : Nat) (h : List HostAnswer) (s : State) : Host.Outcome State Fault Refusal :=
  s.goes (s.dev.cacheRange d 0 n h)
def execCacheRangeFlush (d : DescId) (n : Nat) (h : List HostAnswer) (s : State) : Host.Outcome State Fault Refusal :=
  s.goes (s.dev.cacheRange d 1 n h)
def execCacheRangeInvalidate (d : DescId) (n : Nat) (h : List HostAnswer) (s : State) : Host.Outcome State Fault Refusal :=
  s.goes (s.dev.cacheRange d 2 n h)
def execCacheRangePrefetch (d : DescId) (n : Nat) (h : List HostAnswer) (s : State) : Host.Outcome State Fault Refusal :=
  s.goes (s.dev.cacheRange d 3 n h)
def execPreloadLock (d : DescId) (n : Nat) (h : List HostAnswer) (s : State) : Host.Outcome State Fault Refusal :=
  s.goes (s.dev.cacheRange d 4 n h)
def execUnlock (d : DescId) (n : Nat) (h : List HostAnswer) (s : State) : Host.Outcome State Fault Refusal :=
  s.goes (s.dev.cacheRange d 5 n h)
def execCacheRangeInvalidateAll (d : DescId) (n : Nat) (h : List HostAnswer) (s : State) : Host.Outcome State Fault Refusal :=
  s.goes (s.dev.cacheRange d 6 n h)
def execCacheRangeWritebackAll (d : DescId) (n : Nat) (h : List HostAnswer) (s : State) : Host.Outcome State Fault Refusal :=
  s.goes (s.dev.cacheRange d 7 n h)
def execCacheRangeFlushAll (d : DescId) (n : Nat) (h : List HostAnswer) (s : State) : Host.Outcome State Fault Refusal :=
  s.goes (s.dev.cacheRange d 8 n h)
def execCacheEnableWrite (v : Byte) (s : State) : Host.Outcome State Fault Refusal := s.goes (s.dev.writeCacheEnable v.toNat)
def execCacheCommand (v : Byte) (s : State) : Host.Outcome State Fault Refusal := s.goes (s.dev.cacheCommand v.toNat)
def execCacheWayRestore (v : Word16) (s : State) : Host.Outcome State Fault Refusal := s.goes (s.dev.wayRestore v.toNat)
def execPercolatorWalkEnd (s : State) : Host.Outcome State Fault Refusal := s.goes s.dev.walkEnd

end Sys2Proof.Machine
end

