-- ==== Sys2Proof/Machine/Scalar.lean ====
section
/-! DEFINITION. Scalar and address instructions, classes 0x0 and 0x1 (R191, R192, R212). -/

namespace Sys2Proof.Machine

/-- Second operand of 0x0.00-18: s B, or IMM20 in the immediate forms. -/
def Fields.op2 (f : Fields) (k : Core) : Word64 := if f.imm then BitVec.ofInt 64 f.imm20 else k.sr f.b.toNat

def Fields.legalAlu (f : Fields) : Bool := f.legalR 32 32 32 0 false [] 0 || f.legalRI true 32 32
def Fields.legalUnary (f : Fields) : Bool := f.legalR 32 32 0 0 false [] 0 || (f.legalRI true 32 32 && f.mod = 0)

/-- s D ← s A op second operand. -/
def alu2 (c : CoreId) (f : Fields) (op : Word64 → Word64 → Word64) (s : State) : Host.Outcome State Fault Refusal :=
  s.goes (s.dev.issueReg c (Fields.legalAlu f) [f.d.toNat, f.a.toNat, f.b.toNat] []
    fun k => k.setS f.d.toNat (op (k.sr f.a.toNat) (Fields.op2 f k)))

/-- s D ← count over s A; the immediate form uses no s B either, so its IMM20 is zero (R211). -/
def alu1 (c : CoreId) (f : Fields) (op : Word64 → Word64) (s : State) : Host.Outcome State Fault Refusal :=
  s.goes (s.dev.issueReg c (Fields.legalUnary f) [f.d.toNat, f.a.toNat] [] fun k => k.setS f.d.toNat (op (k.sr f.a.toNat)))

def boolWord (b : Bool) : Word64 := if b then 1 else 0

/-- Quotient toward zero; by zero every bit set; the most negative value by -1 itself (R192). -/
def divS (w : Nat) (a b : BitVec w) : BitVec w := if b = 0 then BitVec.allOnes w else a.sdiv b
def divU (w : Nat) (a b : BitVec w) : BitVec w := if b = 0 then BitVec.allOnes w else a / b
/-- Remainder; by zero the dividend (R192). -/
def remS (w : Nat) (a b : BitVec w) : BitVec w := if b = 0 then a else a.srem b
def remU (w : Nat) (a b : BitVec w) : BitVec w := if b = 0 then a else a % b
def mulHS (w : Nat) (a b : BitVec w) : BitVec w := BitVec.ofInt w (a.toInt * b.toInt / ((2 ^ w : Nat) : Int))
def mulHU (w : Nat) (a b : BitVec w) : BitVec w := BitVec.ofNat w (a.toNat * b.toNat / 2 ^ w)
/-- Shifts by the amount modulo the width (R192). -/
def shl (w : Nat) (a b : BitVec w) : BitVec w := a <<< (b.toNat % w)
def shr (w : Nat) (a b : BitVec w) : BitVec w := a >>> (b.toNat % w)
def sar (w : Nat) (a b : BitVec w) : BitVec w := a.sshiftRight (b.toNat % w)
def minS (w : Nat) (a b : BitVec w) : BitVec w := if a.slt b then a else b
def maxS (w : Nat) (a b : BitVec w) : BitVec w := if a.slt b then b else a
def minU (w : Nat) (a b : BitVec w) : BitVec w := if a.ult b then a else b
def maxU (w : Nat) (a b : BitVec w) : BitVec w := if a.ult b then b else a

/-- Set bits among the low n bits. -/
def popc (w : Nat) (x : BitVec w) : Nat → Nat
  | 0 => 0
  | n + 1 => popc w x n + if x.getLsbD n then 1 else 0

/-- Leading zeros of the low n bits. -/
def clz (w : Nat) (x : BitVec w) : Nat → Nat
  | 0 => 0
  | n + 1 => if x.getLsbD n then 0 else clz w x n + 1

/-- Trailing zeros from bit i, n bits left. -/
def ctz (w : Nat) (x : BitVec w) (i : Nat) : Nat → Nat
  | 0 => 0
  | n + 1 => if x.getLsbD i then 0 else ctz w x (i + 1) n + 1

def execAdd (c : CoreId) (f : Fields) (s : State) := alu2 c f (· + ·) s
def execSub (c : CoreId) (f : Fields) (s : State) := alu2 c f (· - ·) s
def execMul (c : CoreId) (f : Fields) (s : State) := alu2 c f (· * ·) s
def execMulh (c : CoreId) (f : Fields) (s : State) := alu2 c f (mulHS 64) s
def execMulhu (c : CoreId) (f : Fields) (s : State) := alu2 c f (mulHU 64) s
def execDiv (c : CoreId) (f : Fields) (s : State) := alu2 c f (divS 64) s
def execDivu (c : CoreId) (f : Fields) (s : State) := alu2 c f (divU 64) s
def execRem (c : CoreId) (f : Fields) (s : State) := alu2 c f (remS 64) s
def execRemu (c : CoreId) (f : Fields) (s : State) := alu2 c f (remU 64) s
def execAnd (c : CoreId) (f : Fields) (s : State) := alu2 c f (· &&& ·) s
def execOr (c : CoreId) (f : Fields) (s : State) := alu2 c f (· ||| ·) s
def execXor (c : CoreId) (f : Fields) (s : State) := alu2 c f (· ^^^ ·) s
def execShl (c : CoreId) (f : Fields) (s : State) := alu2 c f (shl 64) s
def execShr (c : CoreId) (f : Fields) (s : State) := alu2 c f (shr 64) s
def execSar (c : CoreId) (f : Fields) (s : State) := alu2 c f (sar 64) s
def execMin (c : CoreId) (f : Fields) (s : State) := alu2 c f (minS 64) s
def execMax (c : CoreId) (f : Fields) (s : State) := alu2 c f (maxS 64) s
def execMinu (c : CoreId) (f : Fields) (s : State) := alu2 c f (minU 64) s
def execMaxu (c : CoreId) (f : Fields) (s : State) := alu2 c f (maxU 64) s
def execCmpeq (c : CoreId) (f : Fields) (s : State) := alu2 c f (fun a b => boolWord (a = b)) s
def execCmplt (c : CoreId) (f : Fields) (s : State) := alu2 c f (fun a b => boolWord (a.slt b)) s
def execCmpltu (c : CoreId) (f : Fields) (s : State) := alu2 c f (fun a b => boolWord (a.ult b)) s
def execPopc (c : CoreId) (f : Fields) (s : State) := alu1 c f (fun a => BitVec.ofNat 64 (popc 64 a 64)) s
def execClz (c : CoreId) (f : Fields) (s : State) := alu1 c f (fun a => BitVec.ofNat 64 (clz 64 a 64)) s
def execCtz (c : CoreId) (f : Fields) (s : State) := alu1 c f (fun a => BitVec.ofNat 64 (ctz 64 a 0 64)) s

def execLi (c : CoreId) (f : Fields) (s : State) : Host.Outcome State Fault Refusal :=
  s.goes (s.dev.issueReg c (f.legalL 32) [f.d.toNat] [] fun k => k.setS f.d.toNat (BitVec.ofInt 64 f.imm42))

/-- s D[63:42] ← IMM42[21:0]; the other bits stay. -/
def execLih (c : CoreId) (f : Fields) (s : State) : Host.Outcome State Fault Refusal :=
  s.goes (s.dev.issueReg c (f.legalL 32) [f.d.toNat] [] fun k =>
    k.setS f.d.toNat ((BitVec.ofInt 22 f.imm42) ++ (k.sr f.d.toNat).extractLsb' 0 42))

def execAadd (c : CoreId) (f : Fields) (s : State) : Host.Outcome State Fault Refusal :=
  s.goes (s.dev.issueReg c (f.legalR 16 16 32 0 false [] 0) [f.b.toNat] [] fun k =>
    k.setA f.d.toNat (k.ar f.a.toNat + k.sr f.b.toNat))

def execAaddi (c : CoreId) (f : Fields) (s : State) : Host.Outcome State Fault Refusal :=
  s.goes (s.dev.issueReg c (f.legalI 16 16 false) [] [] fun k =>
    k.setA f.d.toNat (k.ar f.a.toNat + BitVec.ofInt 64 f.imm36))

def execAmovs (c : CoreId) (f : Fields) (s : State) : Host.Outcome State Fault Refusal :=
  s.goes (s.dev.issueReg c (f.legalR 16 32 0 0 false [] 0) [f.a.toNat] [] fun k => k.setA f.d.toNat (k.sr f.a.toNat))

def execSmova (c : CoreId) (f : Fields) (s : State) : Host.Outcome State Fault Refusal :=
  s.goes (s.dev.issueReg c (f.legalR 32 16 0 0 false [] 0) [f.d.toNat] [] fun k => k.setS f.d.toNat (k.ar f.a.toNat))

/-- a D ← (IMM20[2:0] << 61) | s A[47:0]. -/
def execAseg (c : CoreId) (f : Fields) (s : State) : Host.Outcome State Fault Refusal :=
  s.goes (s.dev.issueReg c (f.legalRI false 16 32) [f.a.toNat] [] fun k =>
    k.setA f.d.toNat (f.mod.extractLsb' 0 3 ++ (0 : BitVec 13) ++ (k.sr f.a.toNat).extractLsb' 0 48))

/-! ### FP32 (R191): values in bits [31:0], bits [63:32] written as zero -/

/-- FP32 operand in a scalar register. -/
def fpv (x : Word64) : Val := FloatFmt.fp32.decode x.toNat

def fpWord (n : Nat) : Word64 := BitVec.ofNat 64 n

/-- s D ← FP32 op of s A, s B. -/
def fp2 (c : CoreId) (f : Fields) (op : Val → Val → Nat) (s : State) : Host.Outcome State Fault Refusal :=
  s.goes (s.dev.issueReg c (f.legalR 32 32 32 0 false [] 0) [f.d.toNat, f.a.toNat, f.b.toNat] [] fun k =>
    k.setS f.d.toNat (fpWord (op (fpv (k.sr f.a.toNat)) (fpv (k.sr f.b.toNat)))))

def execFadd (c : CoreId) (f : Fields) (s : State) := fp2 c f (fun a b => FloatFmt.fp32.round false (a.add b)) s
def execFsub (c : CoreId) (f : Fields) (s : State) := fp2 c f (fun a b => FloatFmt.fp32.round false (a.sub b)) s
def execFmul (c : CoreId) (f : Fields) (s : State) := fp2 c f (fun a b => FloatFmt.fp32.round false (a.mul b)) s
def execFdiv (c : CoreId) (f : Fields) (s : State) := fp2 c f (FloatFmt.fp32.divRound) s
def execFmin (c : CoreId) (f : Fields) (s : State) := fp2 c f (fun a b => FloatFmt.fp32.round false (a.min b)) s
def execFmax (c : CoreId) (f : Fields) (s : State) := fp2 c f (fun a b => FloatFmt.fp32.round false (a.max b)) s
def execFcmpeq (c : CoreId) (f : Fields) (s : State) := fp2 c f (fun a b => if a.eqv b then 1 else 0) s
def execFcmplt (c : CoreId) (f : Fields) (s : State) := fp2 c f (fun a b => if a.lt b then 1 else 0) s
def execFcmple (c : CoreId) (f : Fields) (s : State) := fp2 c f (fun a b => if a.lt b || a.eqv b then 1 else 0) s

def execFsqrt (c : CoreId) (f : Fields) (s : State) : Host.Outcome State Fault Refusal :=
  s.goes (s.dev.issueReg c (f.legalR 32 32 0 0 false [] 0) [f.d.toNat, f.a.toNat] [] fun k =>
    k.setS f.d.toNat (fpWord (FloatFmt.fp32.sqrtRound (fpv (k.sr f.a.toNat)))))

/-- s A × s B + s C with one rounding. -/
def execFma (c : CoreId) (f : Fields) (s : State) : Host.Outcome State Fault Refusal :=
  s.goes (s.dev.issueReg c (f.legalR 32 32 32 32 false [] 0) [f.d.toNat, f.a.toNat, f.b.toNat, f.c.toNat] [] fun k =>
    k.setS f.d.toNat (fpWord (FloatFmt.fp32.round false
      (((fpv (k.sr f.a.toNat)).mul (fpv (k.sr f.b.toNat))).add (fpv (k.sr f.c.toNat))))))

/-- FP32 to INT64, RNE, or toward zero when MOD[0] is set. -/
def execFcvtfi (c : CoreId) (f : Fields) (s : State) : Host.Outcome State Fault Refusal :=
  s.goes (s.dev.issueReg c (f.legalR 32 32 0 0 false [] 1) [f.d.toNat, f.a.toNat] [] fun k =>
    k.setS f.d.toNat (BitVec.ofInt 64 ((fpv (k.sr f.a.toNat)).toInt 64 (f.mod.getLsbD 0))))

def execFcvtif (c : CoreId) (f : Fields) (s : State) : Host.Outcome State Fault Refusal :=
  s.goes (s.dev.issueReg c (f.legalR 32 32 0 0 false [] 0) [f.d.toNat, f.a.toNat] [] fun k =>
    k.setS f.d.toNat (fpWord (FloatFmt.fp32.round false (Val.ofInt (k.sr f.a.toNat).toInt))))

end Sys2Proof.Machine
end

