-- ==== Sys2Proof/Machine/Vector.lean ====
section
/-! DEFINITION. Vector instructions, classes 0x4 to 0x6 (R190-R194, R212). A lane is written only under its governing
predicate bit, that of its lowest byte. Where the manual states no result for an operand (a lane number beyond the
vector), the value is free (notes/assumptions 2, 22). -/

namespace Sys2Proof.Machine

/-- Governing predicate of an instruction: the named register, inverted when P[3] is set. -/
def Core.govern (k : Core) (p : BitVec 4) : Word64 :=
  let x := k.pr (p.toNat % 8)
  if p.getLsbD 3 then ~~~x else x

/-- Lane i of width w is enabled. -/
def laneOn (g : Word64) (w i : Nat) : Bool := g.getLsbD (i * w / 8)

/-- New lanes where enabled, previous contents elsewhere (R194). -/
def mergeLanes (g : Word64) (w : Nat) (old : Sector) (new : Nat → Nat) : Sector :=
  ofLanes w fun i => if laneOn g w i then new i else Sector.lane old w i

/-- Predicate with every bit of each enabled lane's bytes set to the lane's result; other bits stay (notes/assumptions 23). -/
def mergePred (g : Word64) (w : Nat) (old : Word64) (res : Nat → Bool) : Word64 :=
  BitVec.ofNat 64 (lanesNat 1 (fun b =>
    let i := b / (w / 8)
    if laneOn g w i then (if res i then 1 else 0) else if old.getLsbD b then 1 else 0) 64 0)

/-- Integer formats of class 0x4: INT8, INT16, INT32, INT64. -/
def intFmts : List Nat := [0x9, 0xC, 0xD, 0xE]
/-- Lanes of class 0x5: FP32, BF16, FP16. -/
def fpFmts : List Nat := [0x0, 0x1, 0x2]
/-- Formats with whole-byte lanes, for the moves of class 0x6. -/
def laneFmts : List Nat := [0x0, 0x1, 0x2, 0x9, 0xC, 0xD, 0xE]

def Fields.w (f : Fields) : Nat := fmtWidth f.fmt.toNat
/-- MOD[0] broadcasts s B in place of v B. -/
def Fields.bc (f : Fields) : Bool := f.mod.getLsbD 0

/-- Second operand's lane i: of v B, or s B in every lane. -/
def opB (f : Fields) (k : Core) (i : Nat) : Nat :=
  if Fields.bc f then lowBits (Fields.w f) (k.sr f.b.toNat).toNat else Sector.lane (k.vr f.b.toNat) (Fields.w f) i

/-- B names a scalar register to wait for when it broadcasts. -/
def sOpB (f : Fields) : List Nat := if Fields.bc f then [f.b.toNat] else []

/-- v D ← lane op of v A and v B or s B. -/
def vec2 (c : CoreId) (f : Fields) (fmts : List Nat) (op : Nat → Nat → Nat) (s : State) :
    Host.Outcome State Fault Refusal :=
  s.goes (s.dev.issueReg c (f.legalR 32 32 32 0 true fmts 1) (sOpB f) [f.d.toNat] fun k =>
    k.setV f.d.toNat (mergeLanes (k.govern f.p) (Fields.w f) (k.vr f.d.toNat)
      fun i => op (Sector.lane (k.vr f.a.toNat) (Fields.w f) i) (opB f k i)))

/-- v D ← lane op of v A. -/
def vec1 (c : CoreId) (f : Fields) (fmts : List Nat) (op : Nat → Nat) (s : State) :
    Host.Outcome State Fault Refusal :=
  s.goes (s.dev.issueReg c (f.legalR 32 32 0 0 true fmts 0) [] [f.d.toNat] fun k =>
    k.setV f.d.toNat (mergeLanes (k.govern f.p) (Fields.w f) (k.vr f.d.toNat)
      fun i => op (Sector.lane (k.vr f.a.toNat) (Fields.w f) i)))

/-- p D ← lane comparison. -/
def vecCmp (c : CoreId) (f : Fields) (fmts : List Nat) (op : Nat → Nat → Bool) (s : State) :
    Host.Outcome State Fault Refusal :=
  s.goes (s.dev.issueReg c (f.legalR 8 32 32 0 true fmts 1) (sOpB f) [] fun k =>
    k.setP f.d.toNat (mergePred (k.govern f.p) (Fields.w f) (k.pr f.d.toNat)
      fun i => op (Sector.lane (k.vr f.a.toNat) (Fields.w f) i) (opB f k i)))

/-- A two-operand function of w-bit words as a function of lanes. -/
def bv2 (w : Nat) (op : BitVec w → BitVec w → BitVec w) (a b : Nat) : Nat :=
  (op (BitVec.ofNat w a) (BitVec.ofNat w b)).toNat

/-- Saturating add and subtract of signed lanes (R192). -/
def addSat (w : Nat) (a b : BitVec w) : BitVec w := BitVec.ofInt w (clampS w (a.toInt + b.toInt))
def subSat (w : Nat) (a b : BitVec w) : BitVec w := BitVec.ofInt w (clampS w (a.toInt - b.toInt))
/-- Absolute difference of signed lanes, modulo 2^w (R192; notes/assumptions 24). -/
def absDiff (w : Nat) (a b : BitVec w) : BitVec w := BitVec.ofInt w ((a.toInt - b.toInt).natAbs : Nat)

def execVadd (c : CoreId) (f : Fields) (s : State) := vec2 c f intFmts (bv2 (Fields.w f) (· + ·)) s
def execVsub (c : CoreId) (f : Fields) (s : State) := vec2 c f intFmts (bv2 (Fields.w f) (· - ·)) s
def execVmul (c : CoreId) (f : Fields) (s : State) := vec2 c f intFmts (bv2 (Fields.w f) (· * ·)) s
def execVmulh (c : CoreId) (f : Fields) (s : State) := vec2 c f intFmts (bv2 (Fields.w f) (mulHS (Fields.w f))) s
def execVmin (c : CoreId) (f : Fields) (s : State) := vec2 c f intFmts (bv2 (Fields.w f) (minS (Fields.w f))) s
def execVmax (c : CoreId) (f : Fields) (s : State) := vec2 c f intFmts (bv2 (Fields.w f) (maxS (Fields.w f))) s
def execVminu (c : CoreId) (f : Fields) (s : State) := vec2 c f intFmts (bv2 (Fields.w f) (minU (Fields.w f))) s
def execVmaxu (c : CoreId) (f : Fields) (s : State) := vec2 c f intFmts (bv2 (Fields.w f) (maxU (Fields.w f))) s
def execVand (c : CoreId) (f : Fields) (s : State) := vec2 c f intFmts (bv2 (Fields.w f) (· &&& ·)) s
def execVor (c : CoreId) (f : Fields) (s : State) := vec2 c f intFmts (bv2 (Fields.w f) (· ||| ·)) s
def execVxor (c : CoreId) (f : Fields) (s : State) := vec2 c f intFmts (bv2 (Fields.w f) (· ^^^ ·)) s
def execVshl (c : CoreId) (f : Fields) (s : State) := vec2 c f intFmts (bv2 (Fields.w f) (shl (Fields.w f))) s
def execVshr (c : CoreId) (f : Fields) (s : State) := vec2 c f intFmts (bv2 (Fields.w f) (shr (Fields.w f))) s
def execVsar (c : CoreId) (f : Fields) (s : State) := vec2 c f intFmts (bv2 (Fields.w f) (sar (Fields.w f))) s
def execVabsd (c : CoreId) (f : Fields) (s : State) := vec2 c f intFmts (bv2 (Fields.w f) (absDiff (Fields.w f))) s
def execVadds (c : CoreId) (f : Fields) (s : State) := vec2 c f intFmts (bv2 (Fields.w f) (addSat (Fields.w f))) s
def execVsubs (c : CoreId) (f : Fields) (s : State) := vec2 c f intFmts (bv2 (Fields.w f) (subSat (Fields.w f))) s

/-- Population count of each lane. -/
def execVpopc (c : CoreId) (f : Fields) (s : State) :=
  vec1 c f intFmts (fun a => popc (Fields.w f) (BitVec.ofNat (Fields.w f) a) (Fields.w f)) s

def execVcmpeq (c : CoreId) (f : Fields) (s : State) := vecCmp c f intFmts (fun a b => a = b) s
def execVcmplt (c : CoreId) (f : Fields) (s : State) :=
  vecCmp c f intFmts (fun a b => signedOf (Fields.w f) a < signedOf (Fields.w f) b) s
def execVcmpltu (c : CoreId) (f : Fields) (s : State) := vecCmp c f intFmts (fun a b => a < b) s

/-! ### Floating point, class 0x5 -/

/-- Lane format of FMT; FP32 for codes class 0x5 refuses. -/
def Fields.ff (f : Fields) : FloatFmt := (fmtFloat f.fmt.toNat).getD .fp32

/-- A function of exact values, rounded once to the lane's format. -/
def fpLane (F : FloatFmt) (op : Val → Val → Val) (a b : Nat) : Nat := F.round false (op (F.decode a) (F.decode b))

def execVfadd (c : CoreId) (f : Fields) (s : State) := vec2 c f fpFmts (fpLane (Fields.ff f) Val.add) s
def execVfsub (c : CoreId) (f : Fields) (s : State) := vec2 c f fpFmts (fpLane (Fields.ff f) Val.sub) s
def execVfmul (c : CoreId) (f : Fields) (s : State) := vec2 c f fpFmts (fpLane (Fields.ff f) Val.mul) s
def execVfmin (c : CoreId) (f : Fields) (s : State) := vec2 c f fpFmts (fpLane (Fields.ff f) Val.min) s
def execVfmax (c : CoreId) (f : Fields) (s : State) := vec2 c f fpFmts (fpLane (Fields.ff f) Val.max) s
def execVfdiv (c : CoreId) (f : Fields) (s : State) :=
  vec2 c f fpFmts (fun a b => (Fields.ff f).divRound ((Fields.ff f).decode a) ((Fields.ff f).decode b)) s
def execVfsqrt (c : CoreId) (f : Fields) (s : State) :=
  vec1 c f fpFmts (fun a => (Fields.ff f).sqrtRound ((Fields.ff f).decode a)) s

/-- v A × v B + v C with one rounding; MOD[0] broadcasts s B. -/
def execVfma (c : CoreId) (f : Fields) (s : State) : Host.Outcome State Fault Refusal :=
  s.goes (s.dev.issueReg c (f.legalR 32 32 32 32 true fpFmts 1) (sOpB f) [f.d.toNat] fun k =>
    k.setV f.d.toNat (mergeLanes (k.govern f.p) (Fields.w f) (k.vr f.d.toNat) fun i =>
      (Fields.ff f).round false
        ((((Fields.ff f).decode (Sector.lane (k.vr f.a.toNat) (Fields.w f) i)).mul
          ((Fields.ff f).decode (opB f k i))).add
          ((Fields.ff f).decode (Sector.lane (k.vr f.c.toNat) (Fields.w f) i)))))

def execVfcmpeq (c : CoreId) (f : Fields) (s : State) :=
  vecCmp c f fpFmts (fun a b => ((Fields.ff f).decode a).eqv ((Fields.ff f).decode b)) s
def execVfcmplt (c : CoreId) (f : Fields) (s : State) :=
  vecCmp c f fpFmts (fun a b => ((Fields.ff f).decode a).lt ((Fields.ff f).decode b)) s
def execVfcmple (c : CoreId) (f : Fields) (s : State) :=
  vecCmp c f fpFmts (fun a b =>
    ((Fields.ff f).decode a).lt ((Fields.ff f).decode b) || ((Fields.ff f).decode a).eqv ((Fields.ff f).decode b)) s

/-- |a| and -a; a NaN gives the canonical NaN (R185). -/
def execVfabs (c : CoreId) (f : Fields) (s : State) :=
  vec1 c f fpFmts (fun a => (Fields.ff f).round false ((Fields.ff f).decode a).abs) s
def execVfneg (c : CoreId) (f : Fields) (s : State) :=
  vec1 c f fpFmts (fun a => (Fields.ff f).round false ((Fields.ff f).decode a).neg) s

/-! ### Conversion and MX blocks, class 0x6 -/

/-- VCVT between lane widths ws (source) and wt (target): the wider vector has 512 / max lanes, and the part MOD[9:8]
names the half or quarter of the narrower vector that is read or written. Lanes count in the wider width. -/
def cvtParts (ws wt : Nat) : Nat := if ws ≤ wt then wt / ws else ws / wt

/-- Source formats VCVT reads and targets it writes: every format of whole lanes, and the byte and nibble formats. -/
def cvtFmts : List Nat := [0x0, 0x1, 0x2, 0x3, 0x4, 0x7, 0x9, 0xA, 0xB, 0xC, 0xD, 0xE]

/-- Part numbers run from 0 to the number of parts less one; the wider ratios of the nibble and bit formats, which
MOD[9:8] cannot select, and a part beyond them are refused (notes/assumptions 25). -/
def cvtOk (src dst part : Nat) : Bool :=
  cvtFmts.contains src && decide (cvtParts (fmtWidth src) (fmtWidth dst) ≤ 4) &&
    decide (part < cvtParts (fmtWidth src) (fmtWidth dst))

def execVcvt (c : CoreId) (f : Fields) (s : State) : Host.Outcome State Fault Refusal :=
  let src := f.mod.toNat % 16
  let dst := f.fmt.toNat
  let part := f.mod.toNat / 256 % 4
  let ws := fmtWidth src
  let wt := fmtWidth dst
  let legal := f.legalR 32 32 0 0 true cvtFmts 0x33F && cvtOk src dst part
  s.goes (s.dev.issueReg c legal [] [f.d.toNat] fun k =>
    let g := k.govern f.p
    let v := k.vr f.a.toNat
    let old := k.vr f.d.toNat
    let conv := fun bits => fmtEncode dst (f.mod.getLsbD 4) (f.mod.getLsbD 5) (fmtDecode src bits)
    if ws ≤ wt then
      -- one lane of the target for each: read the part of the source
      k.setV f.d.toNat (mergeLanes g wt old fun i => conv (Sector.lane v ws (part * (512 / wt) + i)))
    else
      -- write the part of the target; its lanes are governed by the byte each lies in
      let n := 512 / ws
      k.setV f.d.toNat (ofLanes wt fun j =>
        if n * part ≤ j ∧ j < n * (part + 1) ∧ laneOn g wt j then conv (Sector.lane v ws (j - n * part))
        else Sector.lane old wt j))

/-- Lanes 0-15 of v A and of v A + 1: the 32 FP32 values of a block. -/
def mxIn (k : Core) (a : Nat) : List Val :=
  (List.range 32).map fun i => FloatFmt.fp32.decode (Sector.lane (k.vr (a + i / 16)) 32 (i % 16))

/-- VMXENC: one block of FMT 0x5, 0x6 or 0x8 into part MOD[9:8] of v D, its scale into byte MOD[15:10] of v C (R188).
The block has 256 bits (parts 0-1) or 128 bits (parts 0-3). -/
def execVmxenc (c : CoreId) (f : Fields) (s : State) : Host.Outcome State Fault Refusal :=
  let w := Fields.w f
  let part := f.mod.toNat / 256 % 4
  let byte := f.mod.toNat / 1024 % 64
  let legal := f.legalR 32 32 0 32 true [5, 6, 8] 0xFF00 && f.a.toNat % 2 = 0 && decide ((part + 1) * 32 * w ≤ 512)
  s.goes (s.dev.issueReg c legal [] [f.d.toNat, f.c.toNat] fun k =>
    let g := k.govern f.p
    let block := mxEncode (Fields.ff f) (mxIn k f.a.toNat)
    let old := k.vr f.d.toNat
    let k1 := k.setV f.d.toNat (ofLanes w fun j =>
      if 32 * part ≤ j ∧ j < 32 * (part + 1) ∧ laneOn g w j then block.2.getD (j - 32 * part) 0 else Sector.lane old w j)
    let oldC := k1.vr f.c.toNat
    k1.setV f.c.toNat (ofLanes 8 fun j => if j = byte ∧ g.getLsbD j then block.1 else Sector.lane oldC 8 j))

/-- VMXDEC: the block in part MOD[9:8] of v A, its scale in byte MOD[15:10] of v B, into the 32 FP32 lanes of v D and
v D + 1. -/
def execVmxdec (c : CoreId) (f : Fields) (s : State) : Host.Outcome State Fault Refusal :=
  let w := Fields.w f
  let part := f.mod.toNat / 256 % 4
  let byte := f.mod.toNat / 1024 % 64
  let legal := f.legalR 32 32 32 0 true [5, 6, 8] 0xFF00 && f.d.toNat % 2 = 0 && decide ((part + 1) * 32 * w ≤ 512)
  s.goes (s.dev.issueReg c legal [] [f.d.toNat, f.d.toNat + 1] fun k =>
    let g := k.govern f.p
    let src := k.vr f.a.toNat
    let scale := Sector.lane (k.vr f.b.toNat) 8 byte
    let dec := fun i => FloatFmt.fp32.round false (mxValue (Fields.ff f) scale (Sector.lane src w (32 * part + i)))
    let k1 := k.setV f.d.toNat (mergeLanes g 32 (k.vr f.d.toNat) dec)
    k1.setV (f.d.toNat + 1) (mergeLanes g 32 (k.vr (f.d.toNat + 1)) fun i => dec (16 + i)))

/-! ### Lane moves and reductions -/

/-- VPERM: v D[i] ← v A[v B[i]]; a lane number beyond the vector gives a free value (notes/assumptions 22). -/
def execVperm (c : CoreId) (f : Fields) (s : State) : Host.Outcome State Fault Refusal :=
  let w := Fields.w f
  s.goes (s.dev.issue c (f.legalR 32 32 32 0 true laneFmts 0) [] [f.d.toNat] fun e k =>
    let x := Config.freeSector e.fresh
    let k1 := k.setV f.d.toNat (mergeLanes (k.govern f.p) w (k.vr f.d.toNat) fun i =>
      let j := Sector.lane (k.vr f.b.toNat) w i
      if j < 512 / w then Sector.lane (k.vr f.a.toNat) w j else Sector.lane x w i)
    { e with fresh := e.fresh + 1 }.setCore c k1.next)

/-- VBCAST: s A into every lane of v D. -/
def execVbcast (c : CoreId) (f : Fields) (s : State) : Host.Outcome State Fault Refusal :=
  let w := Fields.w f
  s.goes (s.dev.issueReg c (f.legalR 32 32 0 0 true laneFmts 0) [f.a.toNat] [f.d.toNat] fun k =>
    k.setV f.d.toNat (mergeLanes (k.govern f.p) w (k.vr f.d.toNat) fun _ => lowBits w (k.sr f.a.toNat).toNat))

/-- VEXT: lane number s B of v A into s D, zero-extended; a lane beyond the vector gives a free value
(notes/assumptions 22, 26). -/
def execVext (c : CoreId) (f : Fields) (s : State) : Host.Outcome State Fault Refusal :=
  let w := Fields.w f
  s.goes (s.dev.issue c (f.legalR 32 32 32 0 true laneFmts 0) [f.d.toNat, f.b.toNat] [] fun e k =>
    let j := (k.sr f.b.toNat).toNat
    let x := if j < 512 / w then BitVec.ofNat 64 (Sector.lane (k.vr f.a.toNat) w j) else Config.freeWord e.fresh
    { e with fresh := e.fresh + 1 }.setCore c (k.setS f.d.toNat x).next)

/-- VINS: s A into lane number s B of v D; with a lane beyond the vector, the enabled lanes of v D take a free value
(notes/assumptions 22, 26). -/
def execVins (c : CoreId) (f : Fields) (s : State) : Host.Outcome State Fault Refusal :=
  let w := Fields.w f
  s.goes (s.dev.issue c (f.legalR 32 32 32 0 true laneFmts 0) [f.a.toNat, f.b.toNat] [f.d.toNat] fun e k =>
    let j := (k.sr f.b.toNat).toNat
    let x := mergeLanes (k.govern f.p) w (k.vr f.d.toNat) fun i =>
      if 512 / w ≤ j then Sector.lane (Config.freeSector e.fresh) w i
      else if i = j then lowBits w (k.sr f.a.toNat).toNat else Sector.lane (k.vr f.d.toNat) w i
    { e with fresh := e.fresh + 1 }.setCore c (k.setV f.d.toNat x).next)

/-- A reduction by the fixed tree; a disabled lane takes the given value (R193). -/
def vecRed (c : CoreId) (f : Fields) (off : FloatFmt → Nat) (op : Val → Val → Val) (s : State) :
    Host.Outcome State Fault Refusal :=
  let w := Fields.w f
  let F := Fields.ff f
  s.goes (s.dev.issueReg c (f.legalR 32 32 0 0 true fpFmts 0) [f.d.toNat] [] fun k =>
    let lanes := (List.range (512 / w)).map fun i =>
      if laneOn (k.govern f.p) w i then Sector.lane (k.vr f.a.toNat) w i else off F
    k.setS f.d.toNat (BitVec.ofNat 64 ((reduceTree (fpLane F op) 5 lanes).headD 0)))

def execVredadd (c : CoreId) (f : Fields) (s : State) := vecRed c f (fun F => F.sign true) Val.add s
def execVredmin (c : CoreId) (f : Fields) (s : State) := vecRed c f (fun F => F.infOr false false) Val.min s
def execVredmax (c : CoreId) (f : Fields) (s : State) := vecRed c f (fun F => F.infOr false true) Val.max s

/-- VSEL: v A where the predicate is set, else v B, in every lane. -/
def execVsel (c : CoreId) (f : Fields) (s : State) : Host.Outcome State Fault Refusal :=
  let w := Fields.w f
  s.goes (s.dev.issueReg c (f.legalR 32 32 32 0 true laneFmts 0) [] [f.d.toNat] fun k =>
    k.setV f.d.toNat (mergeLanes (k.govern f.p) w (k.vr f.b.toNat) fun i => Sector.lane (k.vr f.a.toNat) w i))

end Sys2Proof.Machine
end

