-- ==== Sys2Proof/Machine/CoreMem.lean ====
section
/-! DEFINITION. Loads, stores into the store buffer, scratch accesses: class 0x3 (R157-R160, R171, R194, R277-R280,
R286, R309-R314, R334). An access that cannot issue yet leaves the core as it is, and its command comes again
(notes/assumptions 10). -/

namespace Sys2Proof.Machine

/-! ### Checks at issue (R158) -/

/-- A checked access: its DA, the DPA of its first byte, its region type. -/
structure Spot where
  da  : Word64
  dpa : Nat
  rt  : RType
  deriving DecidableEq, Repr

/-- Region type of an access that a record translated: register space is DEVICE whatever its segment says (R314). -/
def SegRec.typeAt (r : SegRec) (dpa : Nat) : RType := if isReg dpa then .device else r.region

def Core.segOf (k : Core) (da : Word64) : SegRec := Map.get .reset k.segs (daSeg da)

/-- A REVOKE has marked the access's segment in the core's copy (R334). -/
def Core.isRevoked (k : Core) (da : Word64) : Bool := Map.get false k.revoked (daSeg da)

/-- Alignment, limit, rights, target, in this order (R158; notes/assumptions 30): the exception code of Table 5.6, or the
place of the access. -/
def Core.access (k : Core) (da : Word64) (size : Nat) (right : Right) : Except Nat Spot :=
  let r := k.segOf da
  if da.toNat % size ≠ 0 then .error 0x03
  else match r.translate da size right with
    | .error .limit => .error 0x04
    | .error .access => .error 0x05
    | .ok dpa => if r.target = 3 then .error 0x06 else .ok { da := da, dpa := dpa, rt := r.typeAt dpa }

/-- Address of forms I: a A + IMM36. -/
def Fields.ea (f : Fields) (k : Core) : Word64 := k.ar f.a.toNat + BitVec.ofInt 64 f.imm36

/-! ### Settlement (R307, R315) -/

/-- The host still owes an answer for a write of core c to this sector. -/
def Dev.hostOwes (d : Dev) (c sector : Nat) : Bool :=
  match d.lineTxn (sector / 4) with
  | some (_, _, t) => t.req.src = c && (t.await ++ t.post).contains (.bi (sector % 4))
  | none => false

/-- A write that left the core is complete, and no host copy it superseded remains. -/
def Dev.writeSettled (d : Dev) (c : Nat) (w : OutWrite) : Bool := w.done && !d.hostOwes c w.sector
def Dev.writesSettled (d : Dev) (c : Nat) : Bool := (d.core c).writes.all (d.writeSettled c)

/-- Settled writes are forgotten. -/
def Dev.dropSettled (d : Dev) (c : Nat) : Dev :=
  d.updCore c fun k => { k with writes := k.writes.filter fun w => !d.writeSettled c w }

/-- The first transfer that failed after leaving the core is kept for the next ASYNC (R160). -/
def Dev.noteFail (d : Dev) (c : Nat) (da : Word64) : Dev :=
  d.updCore c fun k => { k with failDa := some (k.failDa.getD da) }

/-! ### The store buffer (R159) -/

/-- A sector as the core's own buffered stores make it. -/
def Core.overlay (k : Core) (sector : Nat) (x : Sector) : Sector :=
  k.sb.foldl (fun y e => if e.sector = sector then Sector.merge y e.data e.mask else y) x

/-- Bytes of a sector that the buffer holds. -/
def Core.buffered (k : Core) (sector : Nat) : Word64 :=
  k.sb.foldl (fun m e => if e.sector = sector then m ||| e.mask else m) 0

/-- n bytes from byte o of a sector. -/
def byteMask (o n : Nat) : Word64 := BitVec.ofNat 64 ((2 ^ n - 1) * 2 ^ o)

/-- A store enters: into the youngest entry for the same sector in a NORMAL or STREAM region, else as an entry of its own. -/
def Core.storeIn (k : Core) (sp : Spot) (mask : Word64) (x : Sector) : Core :=
  let n : StoreEntry := { sector := sp.dpa / 64, mask := mask, data := x, rt := sp.rt, da := sp.da, seg := daSeg sp.da,
                          gen := Map.get 0 k.gens (daSeg sp.da), sent := false, out := false }
  match k.sb.getLast? with
  | some e =>
    if e.sector = n.sector && e.rt = n.rt && e.seg = n.seg && n.rt ≠ .device && !e.out then
      { k with sb := k.sb.dropLast ++ [{ e with mask := e.mask ||| mask, data := Sector.merge e.data x mask }] }
    else { k with sb := k.sb ++ [n] }
  | none => { k with sb := [n] }

/-- A full buffer takes only a store that merges. -/
def Core.storeRoom (k : Core) (sp : Spot) (mask : Word64) (x : Sector) : Bool := (k.storeIn sp mask x).sb.length ≤ 16

/-- A store of bytes under a mask: checks, then the buffer; to a revoked segment it changes nothing and reports ASYNC
(R334). `base` is the block before issue, to which a stall returns. -/
def Dev.storeGo (base d : Dev) (c : Nat) (da : Word64) (size : Nat) (mk : Nat → Word64 × Sector) : Dev :=
  let k := d.core c
  match k.access da size .write with
  | .error e => d.raise c e da
  | .ok sp =>
    let (mask, x) := mk (sp.dpa % 64)
    if k.isRevoked da then (d.noteFail c da).updCore c Core.next
    else if !k.storeRoom sp mask x then base
    else d.setCore c (k.storeIn sp mask x).next

/-! ### Prefetching (R286) -/

def sameWindow (a b : Nat) : Bool := a / 16 = b / 16

/-- The line is being prefetched. -/
def Core.pfHas (k : Core) (line : Nat) : Bool := k.pfLines.any fun s => s / 4 = line

/-- Lines being prefetched. -/
def Core.pfCount (k : Core) : Nat := (k.pfLines.foldl (fun ls s => insertNew (s / 4) ls) ([] : List Nat)).length

/-- Send prefetches: up to two in flight, up to L1PrefetchDepth lines ahead of the last demand line, within its window; a
line of which the L1 holds a sector is passed over. -/
def Dev.pfPump (d : Dev) (c : Nat) : Nat → Dev
  | 0 => d
  | n + 1 =>
    let k := d.core c
    match k.pfUp, k.pfLast with
    | some up, some last =>
      let x := k.pfNext
      let ahead := if up then x - last else last - x
      if !sameWindow x last || d.keptSetting (d.coreDesc c) rcDepth 0x207002 4 < ahead || ahead = 0 || 2 ≤ k.pfCount || !(d.cache (l1No c)).pfEn then d
      else
        let d1 := d.updCore c fun y => { y with pfNext := if up then x + 1 else x - 1 }
        if (d.findWay (l1No c) x).isSome || (d.sideLine (l1No c) x).isSome || k.pfHas x then d1.pfPump c n
        else
          ((d1.updCore c fun y => { y with pfLines := y.pfLines ++ (List.range 4).map (4 * x + ·) }).coreReq c .rdShared (4 * x)
            (BitVec.ofNat 64 (k.pfSeg * 2 ^ 61)) .normal fun m => { m with smask := 0xF, origin := .prefetch }).pfPump c n
    | _, _ => d

/-- A demand miss: two at adjacent lines of one window in a row arm a stream in their direction. -/
def Dev.pfMiss (d : Dev) (c line : Nat) (da : Word64) : Dev :=
  let k := d.core c
  if !(d.cache (l1No c)).pfEn || d.keptSetting (d.coreDesc c) rcDepth 0x207002 4 = 0 then d
  else
    let dir : Option Bool := match k.pfMissed with
      | some l => if sameWindow l line && line = l + 1 then some true else if sameWindow l line && l = line + 1 then some false else none
      | none => none
    let next (y : Core) : Nat := match dir with
      | some true => line + 1
      | some false => line - 1
      | none => y.pfNext
    let up (y : Core) : Option Bool := if y.pfMissed = some line then y.pfUp else dir
    let d1 := d.updCore c fun y => { y with pfLast := some line, pfMissed := some line, pfUp := up y, pfNext := next y, pfSeg := daSeg da }
    d1.pfPump c 16

/-- A demand access to a prefetched line moves the stream on by one line. -/
def Dev.pfHit (d : Dev) (c line : Nat) : Dev := (d.updCore c fun y => { y with pfLast := some line }).pfPump c 16

/-! ### Loads -/

/-- The DA of an access that waits. -/
def CoreWait.da : CoreWait → Word64
  | .none => 0
  | .load _ _ _ _ da => da
  | .vload _ _ da => da
  | .amo _ _ da => da
  | .arrive _ da => da
  | .gen _ _ da => da

/-- A sector's data reaches the register of the waiting load; the next instruction may issue. -/
def Core.loaded (k : Core) (w : CoreWait) (x : Sector) : Core :=
  let k0 := { k with wait := .none }.next
  match w with
  | .load reg size sext off _ =>
    let n := leNat (((Sector.bytes x).drop off).take size)
    k0.setS reg (if sext then BitVec.ofInt 64 (signedOf (8 * size) n) else BitVec.ofNat 64 n)
  | .vload reg p _ => k0.setV reg (Sector.merge (k.vr reg) x (k.govern p))
  | _ => k0

/-- A performed operation on a line counts toward the holds on its sectors (R268). -/
def Dev.l1Touch (d : Dev) (c line : Nat) : Dev :=
  let one (m : Map (Option Nat)) (s : Nat) : Map (Option Nat) :=
    match Map.get none m (4 * line + s) with
    | some n => Map.put m (4 * line + s) (some (n + 1))
    | none => m
  d.updCore c fun k => { k with held := (List.range 4).foldl one k.held }

/-- The load takes its data: buffered bytes first; poison raises POISON (Table 5.6). -/
def Dev.loadDone (d : Dev) (c : Nat) (w : CoreWait) (sector : Nat) (x : Sector) (poison : Bool) : Dev :=
  let k := d.core c
  if poison then (d.setCore c { k with wait := .none }).raise c 0x0B w.da
  else d.setCore c (k.loaded w (k.overlay sector x))

/-- An uncorrectable L1 sector (R299): S and E are dropped, to be read again; O and M are written back poisoned, counted
lost, and the access that met it raises SRAM_ERROR. The way disables itself. -/
def Dev.l1Uncorr (d : Dev) (c line sec : Nat) (x : CSector) : Dev :=
  let n := l1No c
  let dpa := secDpa line sec
  let d1 := d.cacheDrop n line sec
  let d2 := if x.st = .M || x.st = .O then
      ((d1.l1Release c line sec { x with data := 0, info := { x.info with poison := true }, err := 0 }).lostEntry dpa 0).fault
        (mkFaultAt c .fatal 0x01 0 dpa)
    else d1
  match d.findWay n line with
  | some key => d2.wayError n key true
  | none => d2.updCache n fun k => { k with uncorr := true }

/-- A sector of the L1 read by its core: corrected where one or two symbols are in error. -/
def Dev.l1Correct (d : Dev) (c line sec : Nat) (x : CSector) : Dev :=
  if x.err = 0 then d
  else
    let d1 := d.cacheSet (l1No c) line sec { x with err := 0 }
    match d.findWay (l1No c) line with
    | some key => d1.wayError (l1No c) key false
    | none => d1

/-- The whole L1 cannot take a line: its set has no candidate and no way of it holds the line (R283). -/
def Dev.l1Full (d : Dev) (c line : Nat) : Bool := (d.findWay (l1No c) line).isNone && (d.candidates (l1No c) line).isEmpty

/-- A load of a sector that waits for its data: the request, and the wait. -/
def Dev.loadMiss (d : Dev) (c : Nat) (w : CoreWait) (kind : ReqKind) (sector : Nat) (rt : RType) : Dev :=
  (d.updCore c fun k => { k with wait := w, miss := some sector }).coreReq c kind sector w.da rt id

/-- A NORMAL load with the L1 in service (R278-R280). -/
def Dev.loadL1 (base d : Dev) (c : Nat) (w : CoreWait) (sector : Nat) : Dev :=
  let line := sector / 4
  let sec := sector % 4
  let n := l1No c
  let k := d.core c
  if k.pfHas line || (!k.wide && k.miss.isSome) then base
  else
    let inSide := (d.waySec n line sec).st = .I && (d.cacheSec n line sec).st != .I
    let d1 := if inSide then (({ d with coh := { d.coh with sideHits := d.coh.sideHits + 1 } }).sidePull n line).pfHit c line else d
    let x := d1.cacheSec n line sec
    let bad : Bool := decide (3 ≤ x.err)
    if x.st != .I && bad && (x.st = .M || x.st = .O) then (d1.l1Uncorr c line sec x).sramError c
    else
      let d2 := if x.st != .I && bad then d1.l1Uncorr c line sec x else d1
      if x.st != .I && !bad then
        ((d2.l1Correct c line sec x).l1Touch c line).loadDone c w sector x.data x.info.poison
      else if k.miss.isSome then base
      else if d2.l1Full c line then d2.loadMiss c w .rdCurrent sector .normal
      else (d2.pfMiss c line w.da).loadMiss c w .rdShared sector .normal

/-- A load: forwarded whole from the store buffer, read from a register, from the L1, or by RDCURRENT past it (R159, R309,
R310, R313). -/
def Dev.loadGo (base d : Dev) (c : Nat) (w : CoreWait) (sp : Spot) (mask : Word64) : Dev :=
  let k := d.core c
  let sector := sp.dpa / 64
  if k.isRevoked sp.da then d.raise c 0x0A sp.da
  else if sp.rt = .device then
    if !k.sb.isEmpty || !d.writesSettled c then base
    else if isReg sp.dpa then
      let off := 64 * sector - regDpa
      if d.regHeld (sp.dpa - regDpa) then d.raise c 0x0B sp.da
      else d.loadDone c w sector (ofLanes 64 fun i => (d.readReg (if k.ctx = 0 then .context0 else .other) (off + 8 * i)).toNat) false
    else if k.miss.isSome then base
    else d.loadMiss c w .rdCurrent sector .device
  else if k.sb.any fun e => e.rt = .device then base
  else if mask &&& ~~~k.buffered sector = 0 then d.setCore c (k.loaded w (k.overlay sector 0))
  else if sp.rt = .normal && d.serves (l1No c) then base.loadL1 d c w sector
  else if k.miss.isSome then base
  else d.loadMiss c w .rdCurrent sector sp.rt

/-- Scalar loads: form I, D of s. -/
def load (c : CoreId) (f : Fields) (size : Nat) (sext : Bool) (s : State) : Host.Outcome State Fault Refusal :=
  s.goes (s.dev.issue c (f.legalI 32 16 false) [f.d.toNat] [] fun d k =>
    let da := Fields.ea f k
    match k.access da size .read with
    | .error e => d.raise c e da
    | .ok sp => s.dev.loadGo d c (.load f.d.toNat size sext (sp.dpa % 64) da) sp (byteMask (sp.dpa % 64) size))

/-- Scalar stores: form I, D the source. -/
def store (c : CoreId) (f : Fields) (size : Nat) (s : State) : Host.Outcome State Fault Refusal :=
  s.goes (s.dev.issue c (f.legalI 32 16 false) [f.d.toNat] [] fun d k =>
    s.dev.storeGo d c (Fields.ea f k) size fun o =>
      (byteMask o size, BitVec.ofNat 512 (lowBits (8 * size) (k.sr f.d.toNat).toNat * 256 ^ o)))

def execLd8 (c : CoreId) (f : Fields) (s : State) := load c f 1 false s
def execLd16 (c : CoreId) (f : Fields) (s : State) := load c f 2 false s
def execLd32 (c : CoreId) (f : Fields) (s : State) := load c f 4 false s
def execLd64 (c : CoreId) (f : Fields) (s : State) := load c f 8 false s
def execLds8 (c : CoreId) (f : Fields) (s : State) := load c f 1 true s
def execLds16 (c : CoreId) (f : Fields) (s : State) := load c f 2 true s
def execLds32 (c : CoreId) (f : Fields) (s : State) := load c f 4 true s
def execSt8 (c : CoreId) (f : Fields) (s : State) := store c f 1 s
def execSt16 (c : CoreId) (f : Fields) (s : State) := store c f 2 s
def execSt32 (c : CoreId) (f : Fields) (s : State) := store c f 4 s
def execSt64 (c : CoreId) (f : Fields) (s : State) := store c f 8 s

/-- VLD: 64 B of memory into v D, byte lanes under P. -/
def execVld (c : CoreId) (f : Fields) (s : State) : Host.Outcome State Fault Refusal :=
  s.goes (s.dev.issue c (f.legalI 32 16 true) [] [f.d.toNat] fun d k =>
    let da := Fields.ea f k
    match k.access da 64 .read with
    | .error e => d.raise c e da
    | .ok sp => s.dev.loadGo d c (.vload f.d.toNat f.p da) sp (BitVec.allOnes 64))

/-- VST: the enabled bytes of v D to memory. -/
def execVst (c : CoreId) (f : Fields) (s : State) : Host.Outcome State Fault Refusal :=
  s.goes (s.dev.issue c (f.legalI 32 16 true) [] [] fun d k =>
    s.dev.storeGo d c (Fields.ea f k) 64 fun _ => (k.govern f.p, k.vr f.d.toNat))

/-! ### Scratch (R157) -/

/-- Scratch offset of forms I: s A + IMM36. -/
def Fields.so (f : Fields) (k : Core) : Nat := (k.sr f.a.toNat + BitVec.ofInt 64 f.imm36).toNat

/-- A scratch access of n bytes at o, aligned to n: ALIGN, then SCRATCH. -/
def Core.scratchExc (k : Core) (o n al : Nat) : Option Nat :=
  if o % al ≠ 0 then some 0x03 else if k.scratchSize < o + n then some 0x07 else none

/-- An instruction on scratch at s A + IMM36. -/
def scratchOp (c : CoreId) (f : Fields) (pOk : Bool) (n : Nat) (ss vw : List Nat) (g : Core → Nat → Core) (s : State) :
    Host.Outcome State Fault Refusal :=
  s.goes (s.dev.issue c (f.legalI 32 32 pOk) (f.a.toNat :: ss) vw fun d k =>
    let o := Fields.so f k
    match k.scratchExc o n n with
    | some e => d.raise c e 0
    | none => d.setCore c (g k o).next)

/-- VLDS: 64 B of scratch into v D, byte lanes under P. -/
def execVlds (c : CoreId) (f : Fields) (s : State) : Host.Outcome State Fault Refusal :=
  scratchOp c f true 64 [] [f.d.toNat] (fun k o => k.setV f.d.toNat (Sector.merge (k.vr f.d.toNat) (k.scratchSector o) (k.govern f.p))) s

/-- VSTS: the enabled bytes of v D to scratch. -/
def execVsts (c : CoreId) (f : Fields) (s : State) : Host.Outcome State Fault Refusal :=
  scratchOp c f true 64 [] [] (fun k o =>
    k.putScratch o (Sector.bytes (Sector.merge (k.scratchSector o) (k.vr f.d.toNat) (k.govern f.p)))) s

def execSld64 (c : CoreId) (f : Fields) (s : State) : Host.Outcome State Fault Refusal :=
  scratchOp c f false 8 [f.d.toNat] [] (fun k o => k.setS f.d.toNat (BitVec.ofNat 64 (k.scratchNat o 8))) s

def execSst64 (c : CoreId) (f : Fields) (s : State) : Host.Outcome State Fault Refusal :=
  scratchOp c f false 8 [f.d.toNat] [] (fun k o => k.putScratch o (leBytes 8 (k.sr f.d.toNat).toNat)) s

end Sys2Proof.Machine
end

