-- ==== Sys2Proof/Machine/Control.lean ====
section
/-! DEFINITION. Control, ordering and status instructions, class 0x2 (R160, R168-R171, R176, R177, R210, R212, R315). An
ordering instruction whose condition does not hold yet leaves the core as it is (notes/assumptions 10). -/

namespace Sys2Proof.Machine

/-! ### Branches (R210): offsets count instructions from the branch -/

/-- Code offset n instructions of 8 B from the present one, in 64-bit arithmetic. -/
def Core.branch (k : Core) (n : Int) : Core := { k with pc := (BitVec.ofNat 64 k.pc + BitVec.ofInt 64 (8 * n)).toNat }

def execJ (c : CoreId) (f : Fields) (s : State) : Host.Outcome State Fault Refusal :=
  s.goes (s.dev.issue c (f.legalL 0) [] [] fun d k => d.setCore c (k.branch f.imm42))

/-- CALL: s D takes the next code offset. -/
def execCall (c : CoreId) (f : Fields) (s : State) : Host.Outcome State Fault Refusal :=
  s.goes (s.dev.issue c (f.legalL 32) [f.d.toNat] [] fun d k =>
    d.setCore c ((k.setS f.d.toNat (BitVec.ofNat 64 (k.pc + 8))).branch f.imm42))

def execJr (c : CoreId) (f : Fields) (s : State) : Host.Outcome State Fault Refusal :=
  s.goes (s.dev.issue c (f.legalR 0 32 0 0 false [] 0) [f.a.toNat] [] fun d k =>
    d.setCore c { k with pc := (k.sr f.a.toNat).toNat })

/-- A branch by IMM36 instructions when a test of the core holds. -/
def branchIf (c : CoreId) (f : Fields) (an : Nat) (ss : List Nat) (t : Core → Bool) (s : State) : Host.Outcome State Fault Refusal :=
  s.goes (s.dev.issue c (f.legalI 0 an false) ss [] fun d k => d.setCore c (if t k then k.branch f.imm36 else k.next))

def execBz (c : CoreId) (f : Fields) (s : State) := branchIf c f 32 [f.a.toNat] (fun k => decide (k.sr f.a.toNat = 0)) s
def execBnz (c : CoreId) (f : Fields) (s : State) := branchIf c f 32 [f.a.toNat] (fun k => decide (k.sr f.a.toNat ≠ 0)) s
def execBpany (c : CoreId) (f : Fields) (s : State) := branchIf c f 8 [] (fun k => decide (k.pr f.a.toNat ≠ 0)) s

/-! ### Waiting and ordering -/

/-- DRAIN's condition: loads and atomics have their data, stores and SDUMP writes are settled (R315). -/
def Dev.coreDrained (d : Dev) (c : Nat) : Bool :=
  let k := d.core c
  k.sb.isEmpty && d.writesSettled c && !(k.movQ.any (·.dump))

/-- DRAIN as the instruction or within another: unchanged while it must wait, ASYNC for an earlier failure (R160), else
what follows. -/
def Dev.drainThen (base d : Dev) (c : Nat) (go : Dev → Dev) : Dev :=
  if !d.coreDrained c then base
  else match (d.core c).failDa with
    | some da => d.raise c 0x0D da
    | none => go (d.dropSettled c)

/-- WAITM: every earlier mover transfer is complete and the store buffer is empty, its stores complete (Table 5.7); a
poisoned sector raises POISON (R176). -/
def Dev.waitmThen (base d : Dev) (c : Nat) (go : Dev → Dev) : Dev :=
  if !(d.core c).movQ.isEmpty then base
  else base.drainThen d c fun e => match (e.core c).movPoison with
    | some da => e.raise c 0x0B da
    | none => go e

def execDrain (c : CoreId) (f : Fields) (s : State) : Host.Outcome State Fault Refusal :=
  s.goes (s.dev.issue c (f.legalR 0 0 0 0 false [] 0) [] [] fun d _ => s.dev.drainThen d c fun e => e.updCore c Core.next)

def execWaitm (c : CoreId) (f : Fields) (s : State) : Host.Outcome State Fault Refusal :=
  s.goes (s.dev.issue c (f.legalR 0 0 0 0 false [] 0) [] [] fun d _ => s.dev.waitmThen d c fun e => e.updCore c Core.next)

/-- END: DRAIN and WAITM, then the core's part ends with its exit value (R168). -/
def execEndK (c : CoreId) (f : Fields) (s : State) : Host.Outcome State Fault Refusal :=
  s.goes (s.dev.issue c (f.legalR 0 32 0 0 false [] 0) [f.a.toNat] [] fun d k =>
    s.dev.drainThen d c fun e => s.dev.waitmThen e c fun e1 =>
      (e1.updCore c fun y => { y.next with status := .ended, exitVal := k.sr f.a.toNat }).coreDone c)

/-- The team's barrier word and size. -/
def Dev.barrierOf (d : Dev) (c : Nat) : Word64 × Nat :=
  match (d.core c).team with
  | some t => match d.team t with
    | some tm => (tm.barrier, tm.cores.length)
    | none => (0, 1)
  | none => (0, 1)

/-- TBAR: drain, then arrive at the word's home (R169, R170). -/
def execTbar (c : CoreId) (f : Fields) (s : State) : Host.Outcome State Fault Refusal :=
  s.goes (s.dev.issue c (f.legalR 0 0 0 0 false [] 0) [] [] fun d k =>
    s.dev.drainThen d c fun e =>
      let (da, n) := e.barrierOf c
      let r := k.segOf da
      if da = 0 then e.raise c 0x09 0
      else match r.translate da 8 .atomic with
        | .error .limit => e.raise c 0x04 da
        | .error .access => e.raise c 0x05 da
        | .ok dpa =>
          if r.target = 3 || !isDram dpa || r.typeAt dpa ≠ .normal then e.raise c 0x09 da
          else if k.isRevoked da then e.raise c 0x0A da
          else
            (e.updCore c fun y => { y with wait := .arrive n da, miss := none }).coreReq c .atomic (dpa / 64) da .normal fun m =>
              { m with op := .barrierArrive, off := dpa % 64, narrow := false, operand := BitVec.ofNat 64 n })

/-- A word that no instruction has: ILLEGAL (R211, R212). -/
def execUndefined (c : CoreId) (s : State) : Host.Outcome State Fault Refusal := s.goes (s.dev.issue c false [] [] fun d _ => d)

def execBrk (c : CoreId) (f : Fields) (s : State) : Host.Outcome State Fault Refusal :=
  s.goes (s.dev.issue c (f.legalRI false 0 0 && f.mod = 0) [] [] fun d _ => d.raise c 0x0E 0)

/-- WAITS: an 8-byte scratch word that is not zero (R177). -/
def execWaits (c : CoreId) (f : Fields) (s : State) : Host.Outcome State Fault Refusal :=
  s.goes (s.dev.issue c (f.legalR 0 32 0 0 false [] 0) [f.a.toNat] [] fun d k =>
    let o := (k.sr f.a.toNat).toNat
    match k.scratchExc o 8 8 with
    | some e => d.raise c e 0
    | none => if k.scratchNat o 8 = 0 then s.dev else d.setCore c k.next)

def execNop (c : CoreId) (f : Fields) (s : State) : Host.Outcome State Fault Refusal :=
  s.goes (s.dev.issueReg c (f.legalR 0 0 0 0 false [] 0) [] [] id)

/-- RDREF: the reference count of the core's quarter. -/
def execRdref (c : CoreId) (f : Fields) (s : State) : Host.Outcome State Fault Refusal :=
  s.goes (s.dev.issueReg c (f.legalR 32 0 0 0 false [] 0) [f.d.toNat] [] fun k =>
    k.setS f.d.toNat (s.dev.qr (quarterOfCore c)).refCount)

def execRdwave (c : CoreId) (f : Fields) (s : State) : Host.Outcome State Fault Refusal :=
  s.goes (s.dev.issueReg c (f.legalR 32 0 0 0 false [] 0) [f.d.toNat] [] fun k => k.setS f.d.toNat k.waves)

end Sys2Proof.Machine
end

