-- ==== Sys2Proof/Machine/Home.lean ====
section
/-! DEFINITION. Coherence messages at homes, controllers and snooped L1s (R252-R270, R265 Table 8.8): each command is the
arrival of one message. -/

namespace Sys2Proof.Machine

/-! ### Requests (R262) -/

/-- A request of a kind arrives at its line's home. -/
def Dev.homeReq (d : Dev) (k : ReqKind) (m : ReqMsg) : Dev := d.acceptReq { m with kind := k }

def execRdshared (m : ReqMsg) (s : State) : Host.Outcome State Fault Refusal := s.homes (s.dev.homeReq .rdShared m)
def execRdown (m : ReqMsg) (s : State) : Host.Outcome State Fault Refusal := s.homes (s.dev.homeReq .rdOwn m)
def execClaim (m : ReqMsg) (s : State) : Host.Outcome State Fault Refusal := s.homes (s.dev.homeReq .claim m)
def execRdcurrent (m : ReqMsg) (s : State) : Host.Outcome State Fault Refusal := s.homes (s.dev.homeReq .rdCurrent m)
def execWrfull (m : ReqMsg) (s : State) : Host.Outcome State Fault Refusal := s.homes (s.dev.homeReq .wrFull m)
def execWrpart (m : ReqMsg) (s : State) : Host.Outcome State Fault Refusal := s.homes (s.dev.homeReq .wrPart m)
def execEvictdirty (m : ReqMsg) (s : State) : Host.Outcome State Fault Refusal := s.homes (s.dev.homeReq .evictDirty m)
def execEvictclean (m : ReqMsg) (s : State) : Host.Outcome State Fault Refusal := s.homes (s.dev.homeReq .evictClean m)
def execAtomic (m : ReqMsg) (s : State) : Host.Outcome State Fault Refusal := s.homes (s.dev.homeReq .atomic m)

/-- Age of a waiting request in µs (R269). -/
def Dev.reqAge (d : Dev) (m : ReqMsg) : Nat := (d.issueStamp (quarterOfHome (d.homeOf (lineDpa m.line))) - m.issue).toNat

/-- A waiting request whose age has reached HomeAgeThreshold is starved: it goes to the head of its line's queue, behind
older starved ones (R269). -/
def Dev.starveReq (d : Dev) (m : ReqMsg) : Dev :=
  let h := d.homeOf (lineDpa m.line)
  let age := d.reqAge
  let w : WaitReq := { req := m, starved := false }
  if !(d.home h).queue.contains w || age m < d.od 0x206001 16 then d
  else
    let q := eraseFirst w (d.home h).queue
    let before (x : WaitReq) : Bool := x.req.line ≠ m.line || (x.starved && decide (age m ≤ age x.req))
    let q' := q.takeWhile before ++ [{ req := m, starved := true }] ++ q.dropWhile before
    let d1 := d.updHome h fun x => { x with queue := q', starve := true }
    { d1 with coh := { d1.coh with starved := d1.coh.starved + 1 } }.settle h

def execRequestStarved (m : ReqMsg) (s : State) : Host.Outcome State Fault Refusal := s.homes (s.dev.starveReq m)

/-! ### Snoops at an L1 (Table 8.8) -/

/-- Answer of an L1 to its home. -/
def mkAns (kind : AnsKind) (src txid line sec : Nat) : AnsMsg :=
  { kind := kind, src := src, toCore := none, txid := txid, line := line, sec := sec, st := .I, data := 0, info := .zero }

/-- The sector as a core holds it: in its L1, or in the eviction buffer in its old state (R265). -/
def Dev.heldCopy (d : Dev) (c line sec : Nat) : CSector := (d.ownerCopy c (4 * line + sec)).getD .none

/-- The sector's new state, where it is held. -/
def Dev.setHeld (d : Dev) (c line sec : Nat) (st : MState) : Dev :=
  let x := d.cacheSec (l1No c) line sec
  if x.st != .I then (if st = .I then d.l1Lose c line sec else d.cacheSet (l1No c) line sec { x with st := st })
  else
    let upd (p : Nat × CSector) : Nat × CSector := if p.1 = 4 * line + sec && p.2.st != .I then (p.1, { p.2 with st := st }) else p
    d.updCore c fun k => { k with evict := k.evict.map upd }

/-- A dirty copy of the store buffer's sector leaves the core, whose pending entry asks again. -/
def Dev.resend (d : Dev) (c sector : Nat) : Dev :=
  d.updCore c fun k => { k with sb := k.sb.map fun e =>
    if e.sector = sector && e.sent && e.rt = .normal && k.miss ≠ some sector then { e with sent := false } else e }

/-- SNPINV: gone, with O or M data returned when D is 1. -/
def Dev.snpInvAt (d : Dev) (m : SnpMsg) : Dev :=
  let x := d.heldCopy m.core m.line m.sec
  let dirty : Bool := m.ret && (x.st = .O || x.st = .M)
  let a := mkAns (if dirty then .ackData else .ack) m.core m.txid m.line m.sec
  (((d.setHeld m.core m.line m.sec .I).resend m.core (4 * m.line + m.sec))).send
    (.ans (if dirty then { a with data := x.data, info := x.info } else a))

/-- A forward: data to the requester, the new state to the home; FWDMISS when the sector is not held. A tag that differs
from the request's context is refused on the home's behalf (R259). -/
def Dev.fwdAt (d : Dev) (m : SnpMsg) (grant : MState → MState) (stays : MState → MState) : Dev :=
  let x := d.heldCopy m.core m.line m.sec
  if x.st = .I || x.st = .S then d.send (.ans (mkAns .fwdMiss m.core m.txid m.line m.sec))
  else if m.ctx ≠ 0 && m.req ≠ hostAgent && m.req ≠ mgmtAgent && !isHost (lineDpa m.line) && x.info.tag ≠ m.ctx then
    let d1 := d.countReject m.ctx 0 .tagMismatch
    let d2 := d1.send (.rsp { mkRsp .err m.req m.txid m.line m.sec with status := .tagMismatch, origin := m.origin })
    d2.send (.ans { mkAns .fwdDone m.core m.txid m.line m.sec with st := x.st, info := { x.info with poison := true } })
  else
    let d1 := d.send (.rsp { mkRsp .data m.req m.txid m.line m.sec with
      st := grant x.st, data := x.data, info := x.info, origin := m.origin })
    let d2 := (d1.setHeld m.core m.line m.sec (stays x.st)).resend m.core (4 * m.line + m.sec)
    d2.send (.ans { mkAns .fwdDone m.core m.txid m.line m.sec with st := stays x.st })

/-- The answer to one snoop by its kind. -/
def Dev.snpAnswerAt (d : Dev) (m : SnpMsg) : Dev :=
  match m.kind with
  | .inv => d.snpInvAt m
  | .fwdShared => d.fwdAt m (fun _ => .S) (fun st => if st = .E then .S else .O)
  | .fwdOwned => d.fwdAt m (fun st => if st = .E then .E else .M) (fun _ => .I)
  | .fwdCurrent => d.fwdAt m (fun _ => .I) id

/-- A snoop arrives: a fan-out delivers it to every L1 of its quarter and answers once (R254); a held sector's snoop waits
(R268); for a core behind its isolation wrapper the wrapper answers (R480). -/
def Dev.snoopIn (d : Dev) (m : SnpMsg) : Dev :=
  if !d.snpInOrder m then d
  else
    let d0 := d.taken (.snp m)
    if 0x400 ≤ m.core then
      let cs := ((List.range 68).map (68 * (m.core - 0x400) + ·)).filter (· ≠ m.req)
      -- an owner's own forward or recall comes first, a held one with its hold
      if cs.any fun c => (Map.get none (d0.core c).held (4 * m.line + m.sec)).isSome then d
      else
        let d1 := cs.foldl (fun (e : Dev) c => e.l1Lose c m.line m.sec) d0
        d1.send (.ans (mkAns .ack m.core m.txid m.line m.sec))
    else if d0.partHeld m.core then
      d0.send (.ans (mkAns (if m.kind = .inv then .ack else .fwdMiss) m.core m.txid m.line m.sec))
    else if (Map.get none (d0.core m.core).held (4 * m.line + m.sec)).isSome then
      d0.updCore m.core fun k => { k with waitSnp := k.waitSnp ++ [m] }
    else d0.snpAnswerAt m

def execSnpinv (m : SnpMsg) (s : State) : Host.Outcome State Fault Refusal := s.goes (s.dev.snoopIn { m with kind := .inv })
def execFwdshared (m : SnpMsg) (s : State) : Host.Outcome State Fault Refusal := s.goes (s.dev.snoopIn { m with kind := .fwdShared })
def execFwdowned (m : SnpMsg) (s : State) : Host.Outcome State Fault Refusal := s.goes (s.dev.snoopIn { m with kind := .fwdOwned })
def execFwdcurrent (m : SnpMsg) (s : State) : Host.Outcome State Fault Refusal := s.goes (s.dev.snoopIn { m with kind := .fwdCurrent })

/-! ### The end of a hold (R268) -/

/-- The core has an operation on the line waiting to be performed. -/
def Core.wantsLine (k : Core) (line : Nat) : Bool :=
  k.sb.any (fun e => e.sector / 4 = line) ||
  match k.miss with
  | some s => s / 4 = line
  | none => false

/-- HoldTime has passed: the hold ends when the holder has done its operations on the line or has none waiting; waiting
snoops are answered in order. -/
def Dev.holdEnd (d : Dev) (holder line : Nat) : Dev :=
  if holder < 0x110 then
    let k := d.core holder
    let secs := (List.range 4).map (4 * line + ·)
    let ops := secs.foldl (fun n s => Nat.max n ((Map.get none k.held s).getD 0)) 0
    if ops < d.keptSetting (d.coreDesc holder) rcHold 0x206002 24 && k.wantsLine line then d
    else
      let mine := k.waitSnp.filter fun m => m.line = line
      let d1 := d.updCore holder fun y => { y with
        held := secs.foldl (fun (m : Map (Option Nat)) s => Map.put m s none) y.held, waitSnp := y.waitSnp.filter fun m => m.line ≠ line }
      mine.foldl (fun (e : Dev) m => e.snpAnswerAt m) d1
  else if 0x180 ≤ holder && holder < 0x1C0 then
    let h := holder - 0x180
    let secs := (List.range 4).map (4 * line + ·)
    let ops := secs.foldl (fun n s => Nat.max n ((Map.get none (d.home h).held s).getD 0)) 0
    let wants := (d.home h).queue.any fun w => match w.req.upd with
      | some u => (d.updLines w.req u).contains line
      | none => false
    if ops < d.od 0x281003 24 && wants then d
    else (d.updHome h fun y => { y with held := secs.foldl (fun (m : Map (Option Nat)) s => Map.put m s none) y.held }).settle h
  else d

def execHoldEnd (holder : Nat) (line : Nat) (s : State) : Host.Outcome State Fault Refusal := s.homes (s.dev.holdEnd holder line)

/-! ### Answers at the home (R260, R263) -/

/-- Dirty data that a recall returned: for the transaction, and in the home copy, where only an atomic at its home
allocates it (R262, R282). A host snoop's answer takes it to the host. -/
def Dev.takeDirty (d : Dev) (t : Txn) (m : AnsMsg) : Txn × Dev :=
  let t' : Txn := { t with got := { sec := m.sec, data := m.data, info := m.info } :: t.got }
  let snooped := t.req.kind = .snpInv || t.req.kind = .snpData
  (t', if snooped && (d.sliceSec m.line m.sec).st = .I then d
    else d.homeStore m.line m.sec m.data m.info (t.req.kind = .atomic && t.req.rt = .normal))

/-- ACK or ACKDATA: a snoop answered, its dirty data written to the home copy; or to a core, its eviction acknowledged. -/
def Dev.homeAck (d : Dev) (m : AnsMsg) (dirty : Bool) : Dev :=
  let d0 := d.taken (.ans m)
  match m.toCore with
  | some c =>
    let s := 4 * m.line + m.sec
    let drop (l : List (Nat × CSector)) : List (Nat × CSector) := match l.find? fun p => p.1 = s with
      | some p => eraseFirst p l
      | none => l
    d0.updCore c fun k => { k with evict := drop k.evict }
  | none =>
    d0.answer m.line (.ack m.src m.sec) fun _ _ t e => if dirty then e.takeDirty t m else (t, e)

def execAck (m : AnsMsg) (s : State) : Host.Outcome State Fault Refusal := s.homes (s.dev.homeAck { m with kind := .ack } false)
def execAckdata (m : AnsMsg) (s : State) : Host.Outcome State Fault Refusal := s.homes (s.dev.homeAck { m with kind := .ackData } true)

/-- The directory after a forward (Table 8.6): the owner's new state, and the requester's copy. A refused forward changes
only what the owner reports. -/
def Dev.fwdEntry (d : Dev) (q : ReqMsg) (m : AnsMsg) : Dev :=
  let e := d.dirEntry m.line
  let s := e.sector m.sec
  if m.info.poison then d
  else
    match q.kind with
    | .rdShared | .snpData =>
      let e1 := if isCore q.src then e.addSharer q.src else e
      let e2 := if m.st = .S then e1.addSharer m.src else e1
      let s' : DirSector := { s with
        ds := if m.st = .S then .S else .O, own := if m.st = .S then 0x3FF else m.src, hs := if q.src = hostAgent then 1 else s.hs }
      d.setEntry { e2 with sec := Map.put e2.sec m.sec s' }
    | .rdOwn | .claim =>
      if q.src = hostAgent then d.updSector m.line m.sec fun y => { y with ds := .I, own := 0x3FF, hs := 2 }
      else d.updSector m.line m.sec fun y => { y with ds := .E, own := q.src }
    | _ => d

/-- Forwarded data on its way to the home, for the host. -/
def Dev.dataOwed (d : Dev) (line sec : Nat) : Bool :=
  d.net.any fun x => match x with
    | .rsp r => decide (r.kind = .data) && decide (r.dst = hostAgent) && decide (r.line = line) && decide (r.sec = sec)
    | _ => false

/-- FWDDONE; it waits for data that the same owner sends to the home. -/
def Dev.homeFwdDone (d : Dev) (m : AnsMsg) : Dev :=
  if d.dataOwed m.line m.sec then d
  else
  (d.taken (.ans m)).answer m.line (.fwd m.src m.sec) fun _ _ t e =>
    -- after a refusal on the home's behalf no COMPACK comes
    (if m.info.poison then t.got1 (.comp m.sec) else t, e.fwdEntry t.req m)

/-- FWDMISS: the request is served from the home copy, as under I, or S while sharers remain. -/
def Dev.homeFwdMiss (d : Dev) (m : AnsMsg) : Dev :=
  (d.taken (.ans m)).answer m.line (.fwd m.src m.sec) fun h _ t e =>
    ({ t with fwded := t.fwded.filter (· ≠ m.sec) },
      if e.partHeld m.src then e.isoLose h m.src m.line m.sec else e.ownerGone m.line m.sec m.src)

/-- COMPACK. -/
def Dev.homeCompAck (d : Dev) (m : AnsMsg) : Dev := (d.taken (.ans m)).answer m.line (.comp m.sec) fun _ _ t e => (t, e)

def execFwddone (m : AnsMsg) (s : State) : Host.Outcome State Fault Refusal := s.homes (s.dev.homeFwdDone { m with kind := .fwdDone })
def execFwdmiss (m : AnsMsg) (s : State) : Host.Outcome State Fault Refusal := s.homes (s.dev.homeFwdMiss { m with kind := .fwdMiss })
def execCompack (m : AnsMsg) (s : State) : Host.Outcome State Fault Refusal := s.homes (s.dev.homeCompAck { m with kind := .compAck })

/-! ### Memory traffic (R257, R266) -/

/-- Answer of a controller to a message. -/
def memReply (m : MemMsg) (kind : MemKind) : MemMsg := { m with kind := kind }

/-- The check of R220 as the controller serves a request: its live generation, then the sector's tag. -/
def Dev.checkMem (d : Dev) (m : MemMsg) : Option ErrStatus :=
  match m.req with
  | none => none
  | some q =>
    if q.src = hostAgent || q.src = mgmtAgent || q.ctx = 0 || q.kind = .evictDirty then none
    else if d.copyGen (64 + d.controllerOf (lineDpa m.line)) q.ctx q.seg ≠ q.gen then some .revoked
    else if (d.secInfo (4 * m.line + m.sec)).tag ≠ q.ctx then some .tagMismatch
    else none

/-- A request the controller turns away, counted. -/
def Dev.refuseMem (d : Dev) (m : MemMsg) (kind : MemKind) (e : ErrStatus) : Dev :=
  let d1 := match m.req with
    | some q => d.countReject q.ctx q.seg e
    | none => d
  d1.send (.mem { memReply m kind with refused := some e })

/-- MEMRD: the controller reads the sector. -/
def Dev.memRdIn (d : Dev) (m : MemMsg) : Dev :=
  match d.checkMem m with
  | some e => (d.taken (.mem m)).refuseMem m .data e
  | none =>
    let (x, i, d1) := (d.taken (.mem m)).memRead (4 * m.line + m.sec)
    d1.send (.mem { memReply m .data with data := x, info := i })

/-- MEMWR: under the byte mask of the request it serves; without one, the whole sector. -/
def Dev.memWrIn (d : Dev) (m : MemMsg) : Dev :=
  let mask : Word64 := match m.req with
    | some q => if q.kind = .wrPart then q.maskOf m.sec else BitVec.allOnes 64
    | none => BitVec.allOnes 64
  let whole := m.info.poison && mask = BitVec.allOnes 64
  match d.checkMem m with
  | some e => (d.taken (.mem m)).refuseMem m .cmp e
  | none =>
  let d1 := (d.taken (.mem m)).memWrite (m.req.toList.map (·.src)) (4 * m.line + m.sec) (if whole then 0 else m.data) mask m.info.poison 0 0
  { d1 with tier := { d1.tier with memWrites := d1.tier.memWrites + 1 } }.send (.mem (memReply m .cmp))

/-- Memory-side update unit that serves a DPA (R30). -/
def Dev.updateUnitOf (d : Dev) (dpa : Nat) : Nat :=
  let k := d.controllerOf dpa
  if k < 8 then controllerSource k + Config.updateUnit k (dpa / 256) % 4 else controllerSource k

/-- MEMRMW: an atomic, or a row update, at the memory-side update unit; an isolated one's wrapper answers (R480). -/
def Dev.memRmwIn (d : Dev) (m : MemMsg) : Dev :=
  let d0 := d.taken (.mem m)
  match m.req with
  | none => d0.send (.mem (memReply m .cmp))
  | some q =>
    if d.partHeld (d.updateUnitOf (lineDpa m.line)) then d0.send (.mem { memReply m .cmp with refused := some .isolated })
    else
    match q.upd with
    | some u =>
      let (r, d1) := d0.rowRmw q u
      d1.send (.mem { memReply m .cmp with refused := r })
    | none =>
      match d.checkMem m with
      | some e => d0.refuseMem m .cmp e
      | none =>
      let s := 4 * m.line + m.sec
      let (x, i, d1) := d0.memRead s
      let (old, new) := atomicSector q x
      let w := if q.narrow then 4 else 8
      let d2 := d1.memWrite [q.src, d1.updateUnitOf (lineDpa m.line)] s new (BitVec.ofNat 64 ((2 ^ w - 1) * 2 ^ (w * (q.off / w)))) i.poison 0 0
      d2.send (.mem { memReply m .cmp with old := old, info := i })

/-- MEMDATA: the sector for the transaction; a refusal ends the sector's request. -/
def Dev.memDataIn (d : Dev) (m : MemMsg) : Dev :=
  (d.taken (.mem m)).answer m.line (.mem m.sec) fun h slot t e =>
    match m.refused with
    | some st =>
      let one := { t.req with smask := secMask m.sec }
      ((({ t with req := { t.req with smask := t.req.smask &&& ~~~(secMask m.sec) } }).got1 (.comp m.sec)), e.sendErr one (txidOf h slot) st)
    | none => ({ t with got := t.got ++ [{ sec := m.sec, data := m.data, info := m.info }] }, e)

/-- MEMCMP: the write or read-modify-write at memory is done (R266, R118); a refused sector's request ends with its ERR. -/
def Dev.memCmpIn (d : Dev) (m : MemMsg) : Dev :=
  let d0 := d.taken (.mem m)
  match d0.lineTxn m.line with
  | some (h, slot, t) =>
    if !t.waits (.cmp m.sec) then d0
    else match t.req.upd with
      | some u => d0.rowMemDone h slot u t.req m.refused
      | none =>
        d0.answer m.line (.cmp m.sec) fun h slot t e =>
          match m.refused with
          | some st =>
            ({ t with req := { t.req with smask := t.req.smask &&& ~~~(secMask m.sec) } },
              e.sendErr { t.req with smask := secMask m.sec } (txidOf h slot) st)
          | none =>
            if t.req.kind = .atomic then
              (t, e.send (.rsp { mkRsp .atomRsp t.req.src (txidOf h slot) m.line m.sec with old := m.old, info := m.info }))
            else (t, e)
  | none => d0

def execMemrd (m : MemMsg) (s : State) : Host.Outcome State Fault Refusal := s.goes (s.dev.memRdIn { m with kind := .rd })
def execMemwr (m : MemMsg) (s : State) : Host.Outcome State Fault Refusal := s.goes (s.dev.memWrIn { m with kind := .wr })
def execMemrmw (m : MemMsg) (s : State) : Host.Outcome State Fault Refusal := s.goes (s.dev.memRmwIn { m with kind := .rmw })
def execMemdata (m : MemMsg) (s : State) : Host.Outcome State Fault Refusal := s.homes (s.dev.memDataIn { m with kind := .data })
def execMemcmp (m : MemMsg) (s : State) : Host.Outcome State Fault Refusal := s.homes (s.dev.memCmpIn { m with kind := .cmp })

end Sys2Proof.Machine
end

