-- ==== Sys2Proof/Machine/MoverOps.lean ====
section
/-! DEFINITION. The scratch mover (R176, R426): pieces of a transfer leave while fewer than 64 line requests are in flight,
and come back. -/

namespace Sys2Proof.Machine

/-- Line of the device address that a waiting piece lies in. -/
def Mover.lineOf (x : Mover) (key : Nat) : Nat := (if x.dump then key else daOff x.da + key - x.scratch) / 256

/-- Line requests in flight. -/
def Core.moverLines (k : Core) : Nat :=
  k.movQ.foldl (fun n x => n + (x.out.foldl (fun ls o => insertNew (x.lineOf o) ls) ([] : List Nat)).length) 0

/-- The transfer that sends next, where one does. -/
def Core.moverNext (k : Core) : Option (Nat × Mover) :=
  ((List.range k.movQ.length).zip k.movQ).find? fun p => p.2.pos < p.2.len

/-- Transfers with nothing left are over. -/
def Core.moverTidy (k : Core) : Core := { k with movQ := k.movQ.filter fun x => !(x.pos = x.len && x.out.isEmpty) }

/-- n bytes of transfer number i are on their way, or over when `keys` is empty. -/
def Core.moverSent (k : Core) (i n : Nat) (keys : List Nat) : Core :=
  let x := k.movQ[i]?
  ({ k with movQ := match x with
      | some y => k.movQ.set i { y with pos := y.pos + n, out := y.out ++ keys }
      | none => k.movQ } : Core).moverTidy

/-- Sectors of a line from one on, n of them. -/
def sectorsMask (first n : Nat) : BitVec 4 := BitVec.ofNat 4 ((2 ^ n - 1) * 2 ^ first)

/-- The next piece of transfer number i: by Taruc for a peer segment, else requests to the line's home. -/
def Dev.moverPieceOut (d : Dev) (c i : Nat) (x : Mover) : Dev :=
  let k := d.core c
  let r := k.segOf x.da
  let da := x.da + BitVec.ofNat 64 x.pos
  let left := x.len - x.pos
  let g := Map.get 0 k.gens (daSeg x.da)
  if k.isRevoked x.da then (d.noteFail c da).updCore c fun y => y.moverSent i left []
  else if r.target = 3 then
    let o := r.base + daOff da
    let n := copySpan o left 256
    if k.ctx ≠ 0 && d.copyGen (136 + quarterOfCore c) k.ctx (daSeg x.da) ≠ g then
      ((d.countReject k.ctx (daSeg x.da) .revoked).noteFail c da).updCore c fun y => y.moverSent i n []
    else
      let d1 := d.updCore c fun y => y.moverSent i n [if x.dump then daOff da else x.scratch + x.pos]
      if x.dump then
        d1.request (.dump c da) mtBkwr r.peerDev (bulkBody r n) (BitVec.ofNat 64 o :: padWords (k.scratchBytes (x.scratch + x.pos) n))
      else d1.request (.fill c (x.scratch + x.pos) da) mtBkrd r.peerDev (bulkBody r n) [BitVec.ofNat 64 o]
  else
    let dpa := r.dpa (daOff da)
    let n := copySpan dpa left 256
    let secs := List.range (n / 64)
    let first := dpa / 64 % 4
    let ask (e : Dev) (kind : ReqKind) (f : ReqMsg → ReqMsg) : Dev :=
      e.coreReq c kind (dpa / 64) da r.region fun m => f { m with smask := sectorsMask first (n / 64), origin := if x.dump then .dump else .fill }
    if x.dump then
      ask (d.updCore c fun y => { (y.moverSent i n [daOff da]) with
          writes := y.writes ++ [{ sector := dpa / 64, da := da, mover := true, done := false, kept := false }] })
        .wrFull fun m => { m with pay := secs.map fun j =>
          { sec := first + j, data := k.scratchSector (x.scratch + x.pos + 64 * j), info := .zero } }
    else ask (d.updCore c fun y => y.moverSent i n (secs.map fun j => x.scratch + x.pos + 64 * j)) .rdCurrent id

/-- Pieces leave, at most n. -/
def Dev.moverPump (d : Dev) (c : Nat) : Nat → Dev
  | 0 => d
  | n + 1 =>
    match (d.core c).moverNext with
    | some (i, x) => if 64 ≤ (d.core c).moverLines then d else Dev.moverPump (d.moverPieceOut c i x) c n
    | none => d

/-- The first transfer of the direction that waits for a piece has it. -/
def movedPiece (dump : Bool) (key : Nat) : List Mover → List Mover
  | [] => []
  | x :: xs => if x.dump = dump && x.out.contains key then { x with out := eraseFirst key x.out } :: xs else x :: movedPiece dump key xs

/-- A piece of the mover has come or is complete: of SFILL named by its scratch offset, of SDUMP by its address's offset.
Others follow, and a stopped core may be done. -/
def Dev.moverPiece (d : Dev) (c : Nat) (dump : Bool) (key : Nat) : Dev :=
  let d1 := (d.updCore c fun k => ({ k with movQ := movedPiece dump key k.movQ } : Core).moverTidy).moverPump c 64
  if (d1.core c).status = .stopped then d1.coreDone c else d1

/-- Bytes of a mover's piece into scratch; a poisoned one makes the mover note its address. -/
def Dev.fillPiece (d : Dev) (c o : Nat) (da : Word64) (bs : List Byte) (poison : Bool) : Dev :=
  let d1 := d.updCore c fun k =>
    let k1 := k.putScratch o bs
    if poison then { k1 with movPoison := some (k1.movPoison.getD da) } else k1
  d1.moverPiece c false o

/-- The piece of an SFILL that waits for a sector: scratch offset and address. -/
def Core.fillWaits (k : Core) (sector : Nat) : Option (Nat × Word64) :=
  k.movQ.findSome? fun x =>
    if x.dump then none
    else (x.out.find? fun o => (k.segOf x.da).dpa (daOff x.da + o - x.scratch) / 64 = sector).map fun o =>
      (o, x.da + BitVec.ofNat 64 (o - x.scratch))

end Sys2Proof.Machine
end

