-- ==== Sys2Proof/Machine/HostLink.lean ====
section
/-! DEFINITION. The CXL link: host requests to device memory, answers of the host, snoops of host lines, decoders, bias
commands, training, loss of the host (R272, R273, R382-R398). -/

namespace Sys2Proof.Machine

/-! ### Host requests to device memory (Table 8.9, R386, R390) -/

/-- DPA of an HPA under the committed decoders (R341, R385). -/
def Dev.hostToDpa (d : Dev) (hpa : Nat) : Option Nat :=
  let x := Map.get Decoder.reset d.hl.decs 0
  let y := Map.get Decoder.reset d.hl.decs 1
  if x.committed && x.base ≤ hpa && hpa - x.base < 0x6000000000 then some (hpa - x.base)
  else if y.committed && y.base ≤ hpa && hpa - y.base < 0x180000000000 then some (resDpa + (hpa - y.base))
  else none

/-- A device-owned region other than the Demitasse window (R386). -/
def Dev.ownedRegion (d : Dev) (dpa : Nat) : Bool := isDram dpa && d.ownedFrom ≤ dpa && dpa < 0x5FFFE00000

/-- The request of a host command at a DPA. -/
def hostToReq (m : HostReq) (kind : ReqKind) (dpa : Nat) : ReqMsg :=
  let s := dpa / 64 % 4
  { mkReq kind hostAgent (dpa / 256) (secMask s) with
    bmask := (BitVec.setWidth 256 m.bmask) <<< (64 * s)
    pay := [{ sec := s, data := m.data, info := { SectorMeta.zero with poison := m.poison } }]
    mval := m.mval, tag := m.tag }

/-- A refused host request: poisoned data, or its completion (R386). -/
def Dev.refuseHost (d : Dev) (m : HostReq) (read : Bool) : Dev :=
  { d with hl := { d.hl with refusals := d.hl.refusals + 1 } }.emit (if read then .memData m.tag .I 0 true else .memCmp m.tag .I)

/-- In a device-owned page a request that would cache is served as though its MetaValue were I (R390). -/
def uncached (q : ReqMsg) : ReqMsg :=
  match q.kind with
  | .rdShared | .rdOwn => { q with kind := .rdCurrent, mval := .I }
  | _ => { q with mval := .I }

/-- A full write by the host while its answer to a BISnp is awaited brings the data of that snoop (R262, R391). It goes to
the home copy, but for the bytes that a write ordered before it replaces. -/
def Dev.returnedData (d : Dev) (t : Txn) (line sec : Nat) (x : Sector) (poison : Bool) : Dev :=
  let i0 := d.servedInfo line sec
  match t.req.kind with
  | .wrFull => d
  | .wrPart =>
    let mask := t.req.maskOf sec
    let cur := d.sliceSec line sec
    let now := if cur.st != .I then cur.data else d.secData (4 * line + sec)
    d.homeStore line sec (Sector.merge x now mask)
      { i0 with epoch := 0, wclass := 0, poison := poison || (t.req.payOf sec).info.poison } false
  | _ => d.homeStore line sec (if poison then 0 else x) { i0 with epoch := 0, wclass := 0, poison := poison } false

/-- A home's line waits for the host's answer to a BISnp of a sector. -/
def Dev.biAwaited (d : Dev) (line sec : Nat) : Option Txn :=
  match d.lineTxn line with
  | some (_, _, t) => if t.waits (.bi sec) then some t else none
  | none => none

/-- A request enters its home through the bias of its page (R390, R391). -/
def Dev.hostEnter (d : Dev) (q0 : ReqMsg) : Dev :=
  let dpa := lineDpa q0.line
  let page := q0.line / 2 ^ 13
  let owned := isDram dpa && decide (d.ownedFrom ≤ dpa)
  let q := if owned && reqCaches q0 then uncached q0 else q0
  if (owned && (q0.kind = .claim || q0.kind = .memInvS)) || (q0.kind = .memInvS && q0.mval = .I) then d.emit (.memCmp q0.tag .I)
  else if d.biasOf page = 2 then { d with hl := { d.hl with heldReqs := d.hl.heldReqs ++ [q] } }
  else (d.hostQueue q false).settle (d.homeOf dpa)

/-- A request enters its home; below ACTIVE it waits at the link layer and wakes the block (R513). -/
def Dev.hostArrive (d : Dev) (q : ReqMsg) : Dev :=
  if d.lowPower then { d with pwr := { d.pwr with gated := d.pwr.gated ++ [q] } }.wakeBy 1 else d.hostEnter q

/-- A host request of a kind, when the link is in L0; its origin tells MemRdFwd, which never allocates, from MemRd. -/
def Dev.hostReq (d : Dev) (m0 : HostReq) (kind0 : ReqKind) (origin : Origin := .load) : Dev :=
  let m := if d.hostAsI then { m0 with mval := .I } else m0
  let kind := if d.hostAsI && (kind0 = .rdShared || kind0 = .rdOwn) then .rdCurrent else kind0
  if d.hl.state ≠ 2 then d
  else
    let read := kind = .rdShared || kind = .rdOwn || kind = .rdCurrent
    match d.hostToDpa m.hpa with
    | none => d.refuseHost m read
    | some dpa =>
      if d.ownedRegion dpa then d.refuseHost m read
      else
        let q := { hostToReq m kind dpa with origin := origin, issue := d.issueStamp 0 }
        if kind = .wrFull then
          match d.biAwaited q.line (dpa / 64 % 4) with
          | some t => (d.returnedData t q.line (dpa / 64 % 4) m.data m.poison).emit (.memCmp m.tag m.mval)
          | none => d.hostArrive q
        else d.hostArrive q

/-- MemRd by its MetaValue. -/
def readKind : MetaValue → ReqKind
  | .A => .rdOwn
  | .S => .rdShared
  | .I => .rdCurrent

/-- MemInv: A claims, S recalls the owner; with I nothing is asked for and it completes. -/
def Dev.memInv (d : Dev) (m : HostReq) : Dev :=
  match (if d.hostAsI then .I else m.mval : MetaValue) with
  | .A => d.hostReq m .claim
  | _ => d.hostReq m .memInvS

/-- MemSpecRd: a memory read started early, into the slice's side buffer (R287). -/
def Dev.memSpecRd (d : Dev) (m : HostReq) : Dev :=
  if d.hl.state ≠ 2 then d
  else
    match d.hostToDpa m.hpa with
    | none => d
    | some dpa =>
      let line := dpa / 256
      let sec := dpa / 64 % 4
      let n := d.sliceNo line
      if d.ownedRegion dpa || d.lineBusy line || (d.sliceSec line sec).st != .I || !(d.cache n).pfEn || !d.tierReady dpa then d
      else
        let (x, i, d1) := d.memRead (dpa / 64)
        d1.sideFill n 32 line sec { st := .E, data := x, info := i, err := 0 }

/-! ### Answers of the host -/

/-- BIRsp: what the host keeps is what the directory records (R253, R272). -/
def Dev.biRsp (d : Dev) (line sec : Nat) (a : BiAnswer) : Dev :=
  d.answer line (.bi sec) fun _ _ t e =>
    (t, e.updSector line sec fun y => match a with
      | .i => { y with hs := 0 }
      | .s => { y with hs := if y.hs = 0 then 0 else 1 }
      | .e => y)

/-- Acknowledgements of peers' bulk writes whose host sectors have all been answered are sent (R264, R426). -/
def Dev.ackPeers (d : Dev) : Dev :=
  let due (a : PeerAck) : Bool := !d.owes a.id false
  (d.tr.acks.filter due).foldl (fun (e : Dev) a => e.ackMsg a.words a.status)
    { d with tr := { d.tr with acks := d.tr.acks.filter fun a => !due a } }

/-- GO: data of a host line and its grant, or the completion of a write to host memory (R264, R273). -/
def Dev.go (d : Dev) (line sec : Nat) (grant : MState) (x : Sector) (poison : Bool) : Dev :=
  Dev.ackPeers <| d.answer line (.go sec) fun _ _ t e =>
    let hpa := secDpa line sec - hostDpa
    let hs := ((e.dirEntry line).sector sec).hs
    let p : Payload := { sec := sec, data := x, info := { SectorMeta.zero with poison := poison } }
    match t.req.kind with
    | .wrFull | .wrPart | .recall =>
      -- an engine's write has put its bytes already
      if t.desc.isSome || t.req.pay.isEmpty then (t, e)
      else
        let mask := if t.req.kind = .wrFull then BitVec.allOnes 64 else t.req.maskOf sec
        (t, (List.range 64).foldl (fun (y : Dev) i => if mask.getLsbD i then y.putHost (hpa + i) [Sector.byte (t.req.payOf sec).data i] else y) e)
    | kind =>
      -- RdCurr brings data alone
      let e1 := e.putHost hpa (Sector.bytes x)
      let e2 := if hostRead kind hs = .rdCurr then e1
        else e1.updSector line sec fun y => { y with hs := if grant = .E || grant = .M then 2 else 1 }
      (if (e.sliceSec line sec).st != .I then t else { t with got := t.got ++ [p] }, e2)

/-- A descriptor's write to the host failed: it ends with HOST_ERROR, also when its record was still owed (R273, R320); a
peer's bulk write is acknowledged with it (R426). -/
def Dev.descHostError (d : Dev) (id : DescId) : Dev :=
  match d.run id with
  | none => { d with tr := { d.tr with acks := d.tr.acks.map fun a => if a.id = id then { a with status := stHostError } else a } }
  | some r =>
    if r.stage = .recording then d.updRun id fun x => { x with lost := true }
    else if r.stage = .ended && ranToEnd r.status then
      let d1 := d.updRun id fun x => { x with status := stHostError }
      if r.prog = 0 then d1 else d1.setProg r.prog { d1.prog r.prog with state := 5 }
    else d.endRun id stHostError

/-- GO-Err: ERR HOST_ERROR to the requester of the sector, which the transaction serves no more (R273). -/
def Dev.goErr (d : Dev) (line sec : Nat) : Dev :=
  Dev.ackPeers <| d.answer line (.go sec) fun h slot t e =>
    match t.desc with
    | some id => (t, e.descHostError id)
    | none =>
      let m := t.req
      let rest := m.smask &&& ~~~(secMask sec)
      let t1 := { t with req := { m with smask := rest }, post := eraseFirst (Await.comp sec) t.post }
      let e1 := if m.kind = .recall then e else e.sendErr { m with smask := secMask sec } (txidOf h slot) .hostError
      (if rest = 0 then { t1 with stage := .close, await := t1.await ++ t1.post, post := [] } else t1, e1)

/-! ### Snoops of host lines (Table 8.10) -/

def Dev.hostSnoop (d : Dev) (hpa : Nat) (kind : ReqKind) : Dev :=
  if d.hl.state ≠ 2 || 2 ^ 52 ≤ hpa then d
  else
    let dpa := hostDpa + hpa
    let m := { mkReq kind hostAgent (dpa / 256) (secMask (dpa / 64 % 4)) with issue := d.issueStamp 0 }
    let h := d.homeOf dpa
    (d.hostIn m).settle h

/-! ### Decoders (R385) -/

def Dev.decoderCommit (d : Dev) (n base size ways : Nat) (bi : Bool) : Dev :=
  let cap := if n = 0 then 0x6000000000 else 0x180000000000
  let ok := size = cap && base % 0x10000000 = 0 && ways = 1 && bi && (d.od 0x20A002 0 = 0 || d.hl.ide = 1)
  let x : Decoder := { base := base, committed := ok, notCommitted := !ok }
  { d with hl := { d.hl with decs := Map.put d.hl.decs n x } }

/-! ### Bias commands (R391) -/

/-- A page of a tier outside the device-owned regions. -/
def Dev.biasPage (d : Dev) (page : Nat) : Bool :=
  let a := page * 2 ^ 21
  isRes a || (isDram a && a < d.ownedFrom)

/-- A write of HOME_BIAS_CMD with GO: TARGET and COUNT take their values whatever becomes of GO (R12); a held part takes no
write (R26). -/
def Dev.biasCmd (d : Dev) (src : RegSource) (device : Bool) (count : Nat) : Dev :=
  let x := { d.hl with target := device, count := count }
  if !RegSource.writer src || d.regHeld 0x201008 then d
  else if x.busy || count = 0 then { d with hl := { x with refused := true } }
  else if !((List.range count).all fun i => d.biasPage (x.page + i)) then { d with hl := { x with rangeErr := true } }
  else
    let d1 := { d with hl := { x with runPage := x.page, runCount := count, done := 0, busy := true } }
    if device then
      let (d2, hs) := d1.biasGo (count + 1) []
      hs.foldl (fun (e : Dev) h => e.settle1 h) d2
    else
      let d2 := (List.range count).foldl (fun (e : Dev) i => e.setBias (x.page + i) 1) d1
      ({ d2 with hl := { d2.hl with done := count, busy := false } } : Dev).msixRaise 0

/-- COUNT of a written HOME_BIAS_CMD. -/
def biasCount (v : Word64) : Nat := (v.extractLsb' 0 24).toNat

/-! ### The link (R387, R395-R398) -/

/-- Below the caps of LinkWidthMax and LinkRateMax: HOST_LINK_DEGRADED (R387). -/
def Dev.linkBelowCap (d : Dev) (width rate : Nat) : Dev :=
  if width < d.od 0x20A004 16 || rate < d.od 0x20A005 64 then d.fault (mkFault 0x3F0 .alert 0x32 (width + 256 * rate)) else d

/-- Training ends. From DOWN the function's configuration and component registers are at their reset values
(Table 13.7 step 7). -/
def Dev.hostLinkUp (d : Dev) (ok : Bool) (width rate cacheId biId : Nat) : Dev :=
  let x := d.hl
  if d.rst.held.contains .hl || x.state = 2 then d
  else if !ok then { d with hl := { x with state := 4 } }.fault (mkFault 0x3F0 .fatal 0x31 0)
  else
    let w := if x.state = 3 then width else Nat.min width (d.od 0x20A004 16)
    let r := if x.state = 3 then rate else Nat.min rate (d.od 0x20A005 64)
    let y := if x.state = 3 then x else { x with decs := [], cacheId := cacheId, biId := biId, ide := 0, ioIde := [] }
    let changed := x.state = 3 && (x.width ≠ w || x.rate ≠ r)
    let d1 := { d with hl := { y with state := 2, width := w, rate := r, retrains := if changed then y.retrains + 1 else y.retrains } }
    let d2 := if x.state = 3 then d1 else { d1 with msix := [], msixPend := [] }
    if changed || x.state ≠ 3 then d2.linkBelowCap w r else d2

/-- The link enters Recovery; it comes back with a width and rate (R387, R396). -/
def Dev.linkRecovery (d : Dev) (width rate : Nat) : Dev :=
  let x := d.hl
  if x.state ≠ 2 then d
  else
    let changed := x.width ≠ width || x.rate ≠ rate
    let d1 := { d with hl := { x with state := 3, width := width, rate := rate, retrains := x.retrains + (if changed then 2 else 1) } }
    if changed then d1.linkBelowCap width rate else d1

/-- Host memory that the block wrote or was writing is undefined once the host is lost: a free value a byte (R399). -/
def Dev.hostUnknown (d : Dev) : Dev :=
  { d with
    hostMem := (d.hostMem.zip (List.range d.hostMem.length)).map fun p => (p.1.1, Sector.byte (Config.freeSector (d.fresh + p.2)) 0)
    fresh := d.fresh + d.hostMem.length }

/-- The host is lost (R397): counted, reported, and the reset source raised; what the block last knew of host memory is
undefined (R399). -/
def Dev.hostLoss (d : Dev) (src : ResetSource) (info : Nat) : Dev :=
  let d1 := { d.hostUnknown with hl := { d.hl with state := 0, losses := d.hl.losses + 1, gpf := 0 } }
  (d1.fault (mkFault 0x3F0 .fatal 0x30 info)).trigger { source := src, origin := .none, subject := 0x3F0, info := info }

def Dev.dlDown (d : Dev) : Dev := if d.hostUp then d.hostLoss .hostloss 1 else d

/-- An answer of the host is outstanding. -/
def Dev.hostOwesAny (d : Dev) : Bool :=
  d.homes.any fun p => p.2.txns.any fun x => match x.2 with
    | some t => (t.await ++ t.post).any fun w => match w with
      | .bi _ | .go _ => true
      | _ => false
    | none => false

/-- HostAnswerLimit passes; it does not run in Recovery (R396). -/
def Dev.answerLimit (d : Dev) : Dev :=
  if d.hl.state = 2 && d.hostOwesAny then { d with hl := { d.hl with expiries := d.hl.expiries + 1 } }.hostLoss .hostloss 2 else d

/-- IDE failure: stream 0 is the cachemem stream, 1 and 2 the selective streams of CXL.io (R395). -/
def Dev.ideFailure (d : Dev) (stream : Nat) : Dev :=
  if stream = 0 then
    let d1 := if d.hostUp then d.hostLoss .hostloss 3 else d
    { d1 with hl := { d1.hl with ide := 2 } }
  else if 2 < stream then d
  else { d with hl := { d.hl with ioIde := Map.put d.hl.ioIde stream 2 } }.fault (mkFault 0x3F0 .fatal 0x33 stream)

/-- New keys make a stream secure. -/
def Dev.ideRefresh (d : Dev) (stream : Nat) : Dev :=
  if stream = 0 then { d with hl := { d.hl with ide := 1 } }
  else if 2 < stream then d
  else { d with hl := { d.hl with ioIde := Map.put d.hl.ioIde stream 1 } }

/-! ### Meanings -/

def execMemRd (m : HostReq) (s : State) : Host.Outcome State Fault Refusal := s.homes (s.dev.hostReq m (readKind m.mval))
def execMemRdData (m : HostReq) (s : State) : Host.Outcome State Fault Refusal :=
  s.homes (s.dev.hostReq m (if m.mval = .I then .rdCurrent else .rdShared))
def execMemRdFwd (m : HostReq) (s : State) : Host.Outcome State Fault Refusal := s.homes (s.dev.hostReq m .rdCurrent .dump)
def execMemInv (m : HostReq) (s : State) : Host.Outcome State Fault Refusal := s.homes (s.dev.memInv m)
def execMemClnEvct (m : HostReq) (s : State) : Host.Outcome State Fault Refusal := s.homes (s.dev.hostReq m .evictClean)
def execMemWr (m : HostReq) (s : State) : Host.Outcome State Fault Refusal := s.homes (s.dev.hostReq m .wrFull)
def execMemWrPtl (m : HostReq) (s : State) : Host.Outcome State Fault Refusal := s.homes (s.dev.hostReq m .wrPart)
def execMemSpecRd (m : HostReq) (s : State) : Host.Outcome State Fault Refusal := s.goes (s.dev.memSpecRd m)
def execBirsp (line : Nat) (sec : Fin 4) (a : BiAnswer) (s : State) : Host.Outcome State Fault Refusal :=
  s.homes (s.dev.biRsp line sec.val a)
/-- The handshake acknowledges; the request itself comes after it, and waits for the line's transaction (R272). -/
def execBiconflict (m : HostReq) (s : State) : Host.Outcome State Fault Refusal :=
  s.goes (match s.dev.hostToDpa m.hpa with
    | some dpa => s.dev.emit (.biConflictAck (dpa / 256))
    | none => s.dev)
def execSnpInv (hpa : Nat) (s : State) : Host.Outcome State Fault Refusal := s.homes (s.dev.hostSnoop hpa .snpInv)
def execSnpData (hpa : Nat) (s : State) : Host.Outcome State Fault Refusal := s.homes (s.dev.hostSnoop hpa .snpData)
def execSnpCur (hpa : Nat) (s : State) : Host.Outcome State Fault Refusal := s.homes (s.dev.hostSnoop hpa .snpCur)
def execGo (line : Nat) (sec : Fin 4) (grant : MState) (data : Sector) (poison : Bool) (s : State) : Host.Outcome State Fault Refusal :=
  s.homes (s.dev.go line sec.val grant data poison)
def execGoErr (line : Nat) (sec : Fin 4) (s : State) : Host.Outcome State Fault Refusal := s.homes (s.dev.goErr line sec.val)
def execHostLinkUp (ok : Bool) (width rate : Nat) (cacheId biId : Nat) (s : State) : Host.Outcome State Fault Refusal :=
  s.goes (s.dev.hostLinkUp ok width rate cacheId biId)
def execLinkRecovery (width rate : Nat) (s : State) : Host.Outcome State Fault Refusal := s.goes (s.dev.linkRecovery width rate)
def execDlDown (s : State) : Host.Outcome State Fault Refusal := s.goes s.dev.dlDown
def execHostAnswerLimit (s : State) : Host.Outcome State Fault Refusal := s.timed s.dev.answerLimit
def execIdeFailure (stream : Nat) (s : State) : Host.Outcome State Fault Refusal := s.goes (s.dev.ideFailure stream)
def execIdeKeyRefresh (stream : Nat) (s : State) : Host.Outcome State Fault Refusal := s.goes (s.dev.ideRefresh stream)
def execDecoderCommit (decoder : Fin 2) (base size ways : Nat) (bi : Bool) (s : State) : Host.Outcome State Fault Refusal :=
  s.goes (s.dev.decoderCommit decoder.val base size ways bi)
def execCxlReset (s : State) : Host.Outcome State Fault Refusal :=
  s.goes (s.dev.trigger { source := .warm, origin := .none, subject := 0x3F0, info := 0 })
def execBiasCmdDevice (src : RegSource) (value : Word64) (s : State) : Host.Outcome State Fault Refusal :=
  s.goes (s.dev.biasCmd src true (biasCount value))
def execBiasCmdShared (src : RegSource) (value : Word64) (s : State) : Host.Outcome State Fault Refusal :=
  s.goes (s.dev.biasCmd src false (biasCount value))

end Sys2Proof.Machine
end

