-- ==== Sys2Proof/Machine/Links.lean ====
section
/-! DEFINITION. Taruc links: training, flits, retry, credits, routing of messages for other devices (R404-R417, R429). -/

namespace Sys2Proof.Machine

/-! ### Down and up -/

/-- A link's sequence state and buffers as training starts (R411). -/
def Link.fresh (l : Link) : Link :=
  { l with txSeq := 0, rxSeq := 0, nakSent := false, retry := [], replayed := 0, lock := 0, capxOk := false, echoes := 0, rttSum := 0,
           credit := [(12, 64)], owed := [(12, 64)], part := [], outq := [], turn := 0, mgmtTurn := 0, lastOwn := [], depth := 0 }

/-- Messages that wait for a link that goes DOWN take the routes that are left (R415, R428); link-local ones end. -/
def Dev.reroute (d : Dev) (n : Nat) (ms : List OutMsg) : Dev :=
  ms.foldl (fun (e : Dev) x =>
    if tmVc x.words = 4 then e else e.sendTo (tmTtl x.words) x.words (x.came.filter fun p => p.1 ≠ n)) d

/-- A link goes DOWN: what its retry buffer holds is not delivered (R408). -/
def Dev.linkDown (d : Dev) (n : Nat) : Dev :=
  (d.setLnk n { (d.lnk n).fresh with state := 0, downEv := true, credit := [], owed := [] }).reroute n (d.lnk n).outq

/-- RETRAINING keeps sequence state and retry buffer (R408). -/
def Dev.linkRetrain (d : Dev) (n : Nat) : Dev := d.updLnk n fun l => { l with state := 3, retrains := l.retrains + 1, replayed := 0 }

/-- An IDLE flit. -/
def Dev.idle (d : Dev) (n : Nat) : Dev := d.flitNew n 1 31 []

/-- Send the retry buffer again from a flit on; a flit replayed 8 times without acknowledgement leads to RETRAINING
(R407, R408). -/
def Dev.replay (d : Dev) (n from_ : Nat) : Dev :=
  let l := d.lnk n
  let fs := l.retry.dropWhile fun f => f.fseq ≠ from_ % 4096
  if fs.isEmpty then d
  else if 8 ≤ l.replayed then d.linkRetrain n
  else
    let d1 := d.setLnk n { l with replayed := l.replayed + 1, replays := l.replays + BitVec.ofNat 64 fs.length }
    fs.foldl (fun (e : Dev) f => e.flitOut n f false) d1

/-- ACKSEQ covers every flit up to it (R407). -/
def Link.acked (l : Link) (ack : Nat) : Link :=
  let rest := l.retry.filter fun f => 2048 ≤ (ack + 4096 - f.fseq) % 4096
  { l with retry := rest, replayed := if rest.length < l.retry.length then 0 else l.replayed }

/-! ### Training (R411-R413) -/

/-- A link-local message (R406). -/
def ctrlMsg (mt me : Nat) (body : Nat) (rest : List Word64) : List Word64 := mkMsg mt 0 me 0 body rest

/-- Retry flits and receive words that quarter q's pool has left (R413). -/
def Dev.poolLeft (d : Dev) (q : Nat) : Nat :=
  6144 - ((List.range 9).map fun i => if (d.lnk (9 * q + i)).state = 2 || (d.lnk (9 * q + i)).state = 3 then (d.lnk (9 * q + i)).depth else 0).foldl (· + ·) 0

/-- Valid entries of the member table. -/
def Dev.groupSize (d : Dev) : Nat := ((List.range 256).filter fun i => (d.od 0x400200 0).testBit (32 * i + 31)).length

/-- CAPX of this device (Table 14.6). -/
def Dev.capxMsg (d : Dev) (n : Nat) : List Word64 :=
  let left := Nat.min 2048 (d.poolLeft (n / 9))
  ctrlMsg mtCapx (d.od 0x400001 0) 0
    [packBits [(56, 8, 0x10), (48, 8, n), (32, 16, (d.lnk n).fixedLat), (16, 16, 528), (0, 16, d.groupSize)], 0xFF,
     packBits [(32, 32, 31 * left), (0, 32, left)], 0]

/-- PHY clocks of the quarter's count: 1.5625 GHz against 100 MHz (Table 2.5). -/
def Dev.phyClocks (d : Dev) (q : Nat) : Nat := (d.qr q).refCount.toNat * 125 / 8

def Dev.sendProbe (d : Dev) (n : Nat) : Dev :=
  d.linkSend n (ctrlMsg mtLenprobe (d.od 0x400001 0) 0 [BitVec.ofNat 64 (d.phyClocks (n / 9))])

/-- The PHY has trained: flit lock at link-up, replay after RETRAINING (R408, R411), which a link that had no depth yet left
in the midst of its link-up. -/
def Dev.phyTrained (d : Dev) (n medium loss latency : Nat) : Dev :=
  let l := d.lnk n
  if d.rst.held.contains .tl then d
  else if l.state = 3 then
    let d1 := d.setLnk n { l with state := if l.depth = 0 then 1 else 2, retrainEv := true }
    l.retry.foldl (fun (e : Dev) f => e.flitOut n f false) d1
  else if l.state = 1 then
    (List.range 256).foldl (fun (e : Dev) _ => e.idle n)
      (d.setLnk n { l.fresh with medium := medium, loss := loss, fixedLat := latency, owed := [] })
  else d

/-- A CAPX from the partner (R412). -/
def Dev.capx (d : Dev) (n : Nat) (ws : List Word64) : Dev :=
  let d0 := d.tookMsg { link := n, words := ws }
  let l := d0.lnk n
  let ver := tmBits ws 2 56 8
  if l.state ≠ 1 then d0
  else if tmSrc ws = d0.od 0x400001 0 then
    (d0.setLnk n { l.fresh with state := 4, dupEv := true, dev := tmSrc ws }).fault (mkFault (0x240 + n) .fatal 0x41 (tmSrc ws))
  else if ver / 16 ≠ 1 then (d0.setLnk n { l.fresh with state := 4 }).fault (mkFault (0x240 + n) .alert 0x42 ver)
  else
    (d0.setLnk n { l with capxOk := true, dev := tmSrc ws, plink := tmBits ws 2 48 6, caps := (ws.drop 2).take 4 }).sendProbe n

/-- LENPROBE is echoed at once. -/
def Dev.lenprobe (d : Dev) (n : Nat) (ws : List Word64) : Dev :=
  let d0 := d.tookMsg { link := n, words := ws }
  if (d0.lnk n).state ≠ 1 && (d0.lnk n).state ≠ 2 then d0
  else d0.linkSend n (ctrlMsg mtLenecho (d0.od 0x400001 0) 0 [qWord ws 2])

/-- Initial credit of each pool but CTRL's from D × 31 words (R410). -/
def initialCredit (depth : Nat) : Map Nat :=
  let big : List (Nat × Nat) := [(4, 10), (258, 30), (528, 10), (528, 10), (260, 36), (3, 4)]
  let rest := depth * 31 - 2 * (big.foldl (fun s p => s + p.1) 0)
  (List.range 12).map (fun k => let p := big.getD (k / 2) (0, 0); (k, p.1 + rest * p.2 / 200))

/-- The last echo gives RTT, depth, credits; the link is UP (R411 step 5, R413). -/
def Dev.linkReady (d : Dev) (n : Nat) : Dev :=
  let l := d.lnk n
  let rtt := l.rttSum * 640 / 256
  let want := Nat.max 256 (Nat.min 2048 ((rtt + 2639) / 2640 + 64))
  let left := d.poolLeft (n / 9)
  let depth := if want ≤ left then want else Nat.max 256 left
  let delay := (rtt - 10 * (l.fixedLat + (qBits l.caps 0 32 16))) / 2
  let id := if d.anyUp then d.tr.id else d.od 0x400001 0
  let y := { l with state := 2, depth := depth, rtt := rtt, length := if l.medium = 2 then delay / 49 else delay / 44,
                    owed := Map.put (initialCredit depth) 12 (Map.get 0 l.owed 12), myId := d.od 0x400001 0 }
  let d1 := { (d.setLnk n y) with tr := { (d.setLnk n y).tr with id := id } }
  let d2 := if depth < want then d1.fault (mkFault (0x240 + n) .alert 0x43 depth) else d1
  (List.range 24).foldl (fun (e : Dev) _ => if ((e.lnk n).creditDue).1 = 15 then e else e.idle n) d2

def Dev.lenecho (d : Dev) (n : Nat) (ws : List Word64) : Dev :=
  let d0 := d.tookMsg { link := n, words := ws }
  let l := d0.lnk n
  if l.state ≠ 1 || !l.capxOk then d0
  else
    let rtt := d0.phyClocks (n / 9) - (qWord ws 2).toNat - tmBody ws
    let d1 := d0.setLnk n { l with echoes := l.echoes + 1, rttSum := l.rttSum + rtt }
    if l.echoes + 1 = 256 then d1.linkReady n else d1.sendProbe n

/-! ### Flits in (R404, R407) -/

/-- Cut a stream of words into messages; PAD words between them fall away. -/
def cutWords : List Word64 → List Word64 → List Word64 × List (List Word64)
  | part, [] => (part, [])
  | part, w :: ws =>
    if part.isEmpty && (w >>> 56) = 0 then cutWords part ws
    else
      let p := part ++ [w]
      if tmLen p ≤ p.length then
        let (rest, ms) := cutWords [] ws
        (rest, p :: ms)
      else cutWords p ws

/-- Words a message of its type may have (Table 14.4). -/
def lenOk (m : List Word64) : Bool :=
  let n := m.length
  let ty := tmType m
  if ty = mtLookup then n = 4
  else if ty = mtBkrd || ty = mtStepend || ty = mtMigcommit || ty = mtMigabort || ty = mtLenprobe || ty = mtLenecho || ty = mtPing || ty = mtPong then n = 3
  else if ty = mtAck || ty = mtErr || ty = mtRedirect then n = 2
  else if ty = mtLookrsp then n = 2 + (tmBits m 1 0 12 + 7) / 8
  else if ty = mtBkwr then n = 3 + (tmBits m 1 0 9 + 7) / 8 && 1 ≤ tmBits m 1 0 9 && tmBits m 1 0 9 ≤ 256
  else if ty = mtBkdata then n = 2 + (tmBits m 1 0 9 + 7) / 8 && tmBits m 1 0 9 ≤ 256
  else if ty = mtCapx then n = 6
  else if ty = mtUpdate then 4 + 8 * bit (qBit m 3 61) ≤ n && n ≤ 528
  else if ty = mtMigcopy then n = 4 + 4 * (tmBits m 1 27 6 + 1)
  else false

/-- A message is well formed (R406). -/
def msgOk (m : List Word64) : Bool := (vcOf (tmType m) = some (tmVc m)) && tmLen m = m.length && lenOk m

def Dev.mgmtQueued (d : Dev) : Nat := (d.tr.inbox.filter fun m => tmVc m.words = 5).length

/-- A message complete on link n: for this device, by the ID that the link took as it came up, or to be forwarded (R406, R409,
R414, R417). -/
def Dev.msgIn (d : Dev) (n : Nat) (m : List Word64) : Dev :=
  let tr := d.tr
  if !msgOk m then { d with tr := { tr with malformed := tr.malformed + 1 } }.giveBack n (poolOf m) m.length
  else if tmVc m = 4 || tmDst m = (d.lnk n).myId then
    if tmVc m = 5 && 64 ≤ d.mgmtQueued then { d with tr := { tr with mgmtDrops := tr.mgmtDrops + 1 } }.giveBack n (poolOf m) m.length
    else d.deliverMsg { link := n, words := m }
  else
    if tmTtl m = 0 then
      let d1 := d.giveBack n (poolOf m) m.length
      let d2 := { d1 with tr := { d1.tr with ttlDrops := d1.tr.ttlDrops + 1 } }
      if tmVc m = 1 || tmVc m = 5 then d2 else d2.sendMsg (errMsg d2.devId m stPeerError causeTtl)
    else
      let d1 := if (d.route (tmDst m) (tmTxid m)).isSome then { d with tr := { tr with transit := tr.transit + 1 } } else d
      d1.sendTo (tmTtl m - 1) m (some (n, poolOf m))

/-- A NAK names the flit expected; one is sent until that flit comes (R407). -/
def Dev.nakFor (d : Dev) (n : Nat) : Dev :=
  let l := d.lnk n
  if l.nakSent then d
  else (d.setLnk n { l with nakSent := true }).flitOut n { fseq := l.rxSeq, kind := 2, fstart := 31, words := [] } false

/-- Header fields of an accepted flit: acknowledgement and returned credit (R407, R410). -/
def Dev.flitHeader (d : Dev) (n : Nat) (hdr : Word64) : Dev :=
  let w := [hdr]
  let pool := qBits w 0 29 4
  (d.updLnk n fun l =>
    let l1 := l.acked (qBits w 0 40 12)
    if pool < 13 then { l1 with credit := Map.put l1.credit pool (Map.get 0 l1.credit pool + qBits w 0 16 13) } else l1).linkPump n

/-- FLIT_RECEIVE. -/
def Dev.flitIn (d : Dev) (n : Nat) (hdr : Word64) (ws : List Word64) (crc : Word64) : Dev :=
  let l := d.lnk n
  let kind := qBits [hdr] 0 38 2
  let fseq := qBits [hdr] 0 52 12
  if (l.state ≠ 1 && l.state ≠ 2) || ws.length ≠ 31 then d
  else if crc ≠ flitBits hdr ws then
    let d1 := d.setLnk n { l with crcErrors := l.crcErrors + 1, crcEv := true, lock := if l.lock < 256 then 0 else l.lock }
    if l.state = 1 && l.lock < 256 then d1.updLnk n fun x => { x with rxSeq := 0 } else d1.nakFor n
  else if kind = 2 then (d.flitHeader n hdr).replay n fseq
  else if fseq ≠ l.rxSeq then (if l.state = 1 && l.lock < 256 then d.setLnk n { l with lock := 0, rxSeq := 0 } else d.nakFor n)
  else
    let d1 := (d.setLnk n { l with rxSeq := (l.rxSeq + 1) % 4096, nakSent := false }).flitHeader n hdr
    if l.state = 1 && l.lock < 256 then
      if kind ≠ 1 then d1.updLnk n fun x => { x with lock := 0 }
      else
        let d2 := d1.updLnk n fun x => { x with lock := x.lock + 1 }
        if l.lock + 1 = 256 then d2.linkSend n (d2.capxMsg n) else d2
    -- IDLE; of the reserved code the header is taken and the rest ignored (notes/assumptions 157)
    else if kind = 1 || kind = 3 then d1
    else
      let fstart := qBits [hdr] 0 33 5
      let (part, ms) := cutWords l.part (if l.part.isEmpty then ws.drop fstart else ws)
      let d2 := d1.updLnk n fun x => { x with part := part, rxWords := x.rxWords + BitVec.ofNat 64 (ms.foldl (fun s m => s + m.length) 0) }
      (ms.foldl (fun (e : Dev) m => e.msgIn n m) d2).idle n

/-! ### Commands -/

/-- A NAK on a link that has come up. -/
def Dev.nak (d : Dev) (n fseq : Nat) : Dev := if (d.lnk n).state = 1 || (d.lnk n).state = 2 then d.replay n fseq else d

/-- No acknowledgement in time: replay from the oldest flit. -/
def Dev.retryTimeout (d : Dev) (n : Nat) : Dev :=
  match (d.lnk n).retry with
  | f :: _ => if (d.lnk n).state = 1 || (d.lnk n).state = 2 then d.replay n f.fseq else d
  | [] => d

def Dev.retrainLimit (d : Dev) (n : Nat) : Dev :=
  if (d.lnk n).state = 3 then (d.linkDown n).fault (mkFault (0x240 + n) .alert 0x40 0) else d

def Dev.linkAttempt (d : Dev) (n : Nat) : Dev :=
  let l := d.lnk n
  if l.enable && l.state = 0 && !d.rst.held.contains .tl then d.setLnk n { l.fresh with state := 1 } else d

/-- ENABLE (R429), mirrored by LinkEnable (R430). -/
def Dev.linkEnable (d : Dev) (n : Nat) (v : Bool) : Dev :=
  let d0 := { d with mg := { d.mg with vals := Map.put d.mg.vals (256 * (0x4100 + n) + 1) (bit v) } }
  let l := d0.lnk n
  if v then d0.setLnk n { l with enable := true, state := if l.state = 4 then 0 else l.state }
  else if l.state = 5 then d0.setLnk n { l with enable := false }
  else
    let d1 := if l.state = 0 || l.state = 4 then d0.setLnk n { l with state := 0 } else d0.linkDown n
    d1.updLnk n fun x => { x with enable := false }

def Dev.forceRetrain (d : Dev) (n : Nat) : Dev := if (d.lnk n).state = 2 then d.linkRetrain n else d

/-! ### Meanings -/

def execFlitReceive (n : LinkId) (header : Word64) (words : List Word64) (crc : Word64) (s : State) : Host.Outcome State Fault Refusal :=
  s.goes (s.dev.flitIn n.val header words crc)
def execNak (n : LinkId) (fseq : Nat) (s : State) : Host.Outcome State Fault Refusal := s.goes (s.dev.nak n.val fseq)
def execRetryTimeout (n : LinkId) (s : State) : Host.Outcome State Fault Refusal := s.timed (s.dev.retryTimeout n.val)
def execLinkRetrainLimit (n : LinkId) (s : State) : Host.Outcome State Fault Refusal := s.timed (s.dev.retrainLimit n.val)
def execLinkUpAttempt (n : LinkId) (s : State) : Host.Outcome State Fault Refusal := s.goes (s.dev.linkAttempt n.val)
def execTarucPhyTrained (n : LinkId) (medium loss latency : Nat) (s : State) : Host.Outcome State Fault Refusal :=
  s.goes (s.dev.phyTrained n.val medium loss latency)
def execCapx (n : LinkId) (words : List Word64) (s : State) : Host.Outcome State Fault Refusal := s.goes (s.dev.capx n.val words)
def execLenprobe (n : LinkId) (words : List Word64) (s : State) : Host.Outcome State Fault Refusal := s.goes (s.dev.lenprobe n.val words)
def execLenecho (n : LinkId) (words : List Word64) (s : State) : Host.Outcome State Fault Refusal := s.goes (s.dev.lenecho n.val words)
/-- ENABLE is RWP, persisted (R12). -/
def execLinkEnable (n : LinkId) (v : Bool) (s : State) : Host.Outcome State Fault Refusal := s.goes ((s.dev.linkEnable n.val v).nvRecord 8)
def execRetrain (n : LinkId) (s : State) : Host.Outcome State Fault Refusal := s.goes (s.dev.forceRetrain n.val)
def execInjectCrc (n : LinkId) (s : State) : Host.Outcome State Fault Refusal :=
  s.goes (s.dev.updLnk n.val fun l => { l with injectCrc := true })

end Sys2Proof.Machine
end

