-- ==== Sys2Proof/Machine/Ingress.lean ====
section
/-! DEFINITION. Messages of peers at the ingress agents, and answers at their originators (R112, R335, R419-R426, R142). -/

namespace Sys2Proof.Machine

/-! ### Answers -/

/-- Quarter whose ingress agent serves a message, and that agent. -/
def msgQuarter (m : TMsg) : Nat := if m.link < 36 then m.link / 9 else 0
def ingressAgent (q : Nat) : Nat := 0x2C0 + q

/-- ERR of this device in answer to a request. -/
def Dev.errAnswer (d : Dev) (m : List Word64) (st : Nat) : Dev := d.sendMsg (errMsg d.devId m st causeNone)

/-- LOOKRSP without an image: a row that is bad, poisoned, or of no live epoch (R420). -/
def Dev.rowAnswer (d : Dev) (m : List Word64) (st : Nat) : Dev :=
  d.sendMsg (mkMsg mtLookrsp (tmSrc m) d.devId (tmTxid m) (st * 2 ^ 40 + bit (qBit m 1 19) * 2 ^ 36) [])

/-- A message taken in and served, unless its ingress agent is under reset, whose wrapper answers (R428); below ACTIVE a message addressed
to this device waits and wakes the block (R513). -/
def Dev.ingress (d : Dev) (m : TMsg) (f : Dev → Dev) : Dev :=
  if d.partHeld (ingressAgent (msgQuarter m)) then (d.tookMsg m).errAnswer m.words stIsolated
  else if d.lowPower && tmDst m.words = d.devId then d.wakeBy 2
  else f d

/-! ### LOOKUP (R112, R142, R421, R422) -/

/-- A guest entry written by MIGCOPY and not committed: FWD without VALID (notes/assumptions 33). -/
def RowEnt.pendingGuest (e : RowEnt) : Bool := !e.valid && e.fwd

/-- The raw entry word of a row in a guest map. -/
def guestWord (ac : SegBy) (tb : List Word64) (r : Nat) : Eng (Option (Word64 × RowEnt)) := do
  let d ← get
  match ← rowDa ac tb r with
  | none => return none
  | some da =>
    match ← engReadBytes (d.guestAcc ac tb r da) (daOff da) 8 with
    | .error _ => return none
    | .ok (bs, p, _) => return (if p then none else some (da, RowEnt.ofWord (leNat bs)))

/-- What the lookup epoch of a request means at the owner (R112). -/
inductive EpochAt | live | old | ahead
  deriving DecidableEq, Repr

def Table.epochAt (t : Table) (e : Nat) : EpochAt :=
  if !tbEpoch t.w || t.live.contains e then .live else if earlier t.lookEp e then .ahead else .old

def lookupStep (m : TMsg) : Eng Unit := do
  let d ← get
  let w := m.words
  let q := (msgQuarter m)
  let row := tmBits w 3 0 40
  let answer (st : Nat) : Eng Unit := modify fun (e : Dev) => (e.tookMsg m).rowAnswer w st
  match d.table (tmBits w 1 36 12) with
  | none => answer stMismatch
  | some t =>
    if tmBits w 2 32 32 ≠ (defsum t.w).toNat then answer stMismatch
    else if tbRows t.w ≤ row then answer stIndexRange
    else
      let ep := tmBits w 1 20 16
      match t.epochAt ep with
      | .old => answer stEpoch
      | .ahead => modify fun (e : Dev) => let e1 := e.tookMsg m; { e1 with tr := { e1.tr with held := e1.tr.held ++ [m] } }
      | .live =>
        let ac : SegBy := fun s => d.liveAcc (ingressAgent q) (tbCtx t.w) s []
        match ← resolveRow ac t.w d.devId row (qBit w 1 19) with
        | (_, .fail st) => modify fun (e : Dev) => (e.tookMsg m).errAnswer w st
        | (_, .poison) => answer stPoisoned
        | (_, .remote dev _) =>
          if qBit w 1 19 then answer stRowMissing
          else
            let m' := mkMsg mtLookup dev (tmSrc w) (tmTxid w) (tmBody w + 2 ^ 19) (w.drop 2)
            modify fun (e : Dev) =>
              let e1 := e.tookMsg m
              { e1 with tb := { e1.tb with forwarded := e1.tb.forwarded + 1 } }.relayMsg q m' dev
        | (_, .bad st) =>
          if st = stRowMissing && qBit w 1 19 then
            match ← guestWord ac t.w row with
            | some (_, e) =>
              if e.pendingGuest then
                modify fun (x : Dev) => let x1 := x.tookMsg m; { x1 with tr := { x1.tr with waiting := x1.tr.waiting ++ [m] } }
              else answer st
            | none => answer st
          else answer st
        | (_, .ent e _) =>
          match ← serveRow ac (tmBits w 1 36 12) t.w row e (if tbEpoch t.w then some ep else none) false with
          | .fail st => modify fun (x : Dev) => (x.tookMsg m).errAnswer w st
          | .poison => answer stPoisoned
          | .row wc img _ pre =>
            modify fun (x : Dev) => (x.tookMsg m).sendMsg (mkMsg mtLookrsp (tmSrc w) x.devId (tmTxid w)
              (wc * 2 ^ 38 + bit pre * 2 ^ 37 + bit (qBit w 1 19) * 2 ^ 36 + img.length) (padWords img))

/-- EPOCH_WAIT_LIMIT: a held lookup fails. -/
def Dev.epochLimit (d : Dev) (m : TMsg) : Dev :=
  if d.tr.held.contains m then { d with tr := { d.tr with held := eraseFirst m d.tr.held } }.rowAnswer m.words stEpoch else d

/-! ### Bulk reads and writes (R335, R426) -/

/-- Translation of a peer's access at the owner: the exported segment, and its offset. -/
def Dev.peerSeg (d : Dev) (m : TMsg) (len : Nat) (right : Right) : Except Nat (SegAcc × Nat) :=
  let ctx := tmBits m.words 1 36 12
  let s := tmBits m.words 1 33 3
  let off := tmBits m.words 2 0 48
  let a := d.liveAcc (ingressAgent (msgQuarter m)) ctx s []
  if !d.ctxValid ctx || !(d.ctxCtrl ctx).peerExport.getLsbD s || 3 ≤ a.sg.target then .error stDenied
  else match a.sg.translate (BitVec.ofNat 64 (s * 2 ^ 61 + off)) len right with
    | .error e => .error e.status
    | .ok _ => .ok (a, off)

/-- POISON bit i for the i-th 64-byte part of a range read. -/
def poisonBits (ps : List Bool) : Nat := ((List.range 4).map fun i => bit (ps.getD i false) * 2 ^ i).foldl (· + ·) 0

/-- A read of the pieces of a bulk message: bytes, and poison of each 64 of them. -/
def bulkRead (a : SegAcc) (off : Nat) : Nat → Nat → Eng (Except Nat (List Byte × List Bool))
  | 0, _ => return .ok ([], [])
  | k + 1, n => do
    if n = 0 then return .ok ([], [])
    match ← engReadBytes a off (Nat.min n 64) with
    | .error e => return .error (errStat e)
    | .ok (bs, p, _) =>
      match ← bulkRead a (off + Nat.min n 64) k (n - Nat.min n 64) with
      | .error e => return .error e
      | .ok (cs, ps) => return .ok (bs ++ cs, p :: ps)

def bkrdStep (m : TMsg) : Eng Unit := do
  let d ← get
  let w := m.words
  let n := tmBits w 1 0 9
  let reply (st : Nat) (bs : List Byte) (ps : List Bool) : Eng Unit := modify fun (e : Dev) =>
    (e.tookMsg m).sendMsg (mkMsg mtBkdata (tmSrc w) e.devId (tmTxid w) (st * 2 ^ 40 + poisonBits ps * 2 ^ 9 + bs.length) (padWords bs))
  if n = 0 || 256 < n then modify fun (e : Dev) => let e1 := e.tookMsg m; { e1 with tr := { e1.tr with malformed := e1.tr.malformed + 1 } }
  else match d.peerSeg m n .read with
    | .error st =>
      modify fun (e : Dev) => { e with segs := { e.segs with peerRefusals := e.segs.peerRefusals + 1 } }
      reply st [] []
    | .ok (a, off) =>
      match ← bulkRead a off 4 n with
      | .error st => reply st [] []
      | .ok (bs, ps) => reply stOk bs ps

/-- Bytes of words. -/
def bodyBytes (ws : List Word64) (n : Nat) : List Byte := (wordBytes ws).take n

/-- Write a bulk body, a poisoned part as zeros with POISON. -/
def bulkWrite (a : SegAcc) (poison : Nat) (off : Nat) (i : Nat) : Nat → List Byte → Eng (Option ErrStatus)
  | 0, _ => return none
  | k + 1, bs => do
    if bs.isEmpty then return none
    let p := poison.testBit i
    let part := bs.take 64
    match ← engWriteBytes a off (if p then part.map fun _ => 0 else part) p 0 0 with
    | some e => return some e
    | none => bulkWrite a poison (off + 64) (i + 1) k (bs.drop 64)

/-- Identifier of a peer's bulk write among the descriptors that wait for the host. -/
def peerWrite (w : List Word64) : DescId := { queue := 32768 + tmSrc w, index := tmTxid w }

/-- BKWR: acknowledged when it is complete, at the host at GO (R264, R307, R426). -/
def bkwrStep (m : TMsg) : Eng Unit := do
  let d ← get
  let w := m.words
  let n := tmBits w 1 0 9
  let ack (st : Nat) : Eng Unit := modify fun (e : Dev) => (e.tookMsg m).ackMsg w st
  match d.peerSeg m n .write with
  | .error st =>
    modify fun (e : Dev) => { e with segs := { e.segs with peerRefusals := e.segs.peerRefusals + 1 } }
    ack st
  | .ok (a, off) =>
    let id := peerWrite w
    match ← bulkWrite { a with acc := { a.acc with desc := some id } } (tmBits w 1 9 4) off 0 4 (bodyBytes (w.drop 3) n) with
    | some e => ack (errStat e)
    | none =>
      if (← get).owes id false then modify fun (e : Dev) =>
        let e1 := e.tookMsg m
        { e1 with tr := { e1.tr with acks := e1.tr.acks ++ [{ id := id, words := w, status := stOk }] } }
      else ack stOk

/-! ### Updates (R423, R424) -/

/-- The row update an UPDATE message carries, at quarter q's ingress agent. -/
def Dev.msgUpdate (d : Dev) (t : Table) (m : TMsg) : RowUpdate :=
  let w := m.words
  let table := tmBits w 1 36 12
  let row := tmBits w 3 0 40
  let vfmt := tmBits w 1 32 2
  let prm := if qBit w 3 61 then (List.range 16).map fun i => BitVec.ofNat 32 (tmBits w (4 + i / 2) (32 * (i % 2)) 32) else []
  let ws := w.drop (if qBit w 3 61 then 12 else 4)
  let bytes := match vfmt with
    | 0 => 4 * tbDim t.w
    | 1 => 2 * tbDim t.w
    | _ => imageSize (((List.range 4).find? (tbWmask t.w).testBit).getD 0) (tbDim t.w)
  let unit := 64 + (msgQuarter m)
  { table := table, row := row, mode := tmBits w 1 34 2, vfmt := vfmt, values := valueRow vfmt (tbDim t.w) (bodyBytes ws bytes),
    param := prm, stamp := if tbEpoch t.w then t.updEp else 0, memory := d.wantsMemory 0 unit table row (d.od 0x281004 2), granule := none,
    waited := false, fwded := qBit w 3 62, unit := unit, orig := .peer (tmSrc w) (tmTxid w) }

def updateStep (m : TMsg) : Eng Unit := do
  let d ← get
  let w := m.words
  let ack (st : Nat) : Eng Unit := modify fun (e : Dev) => (e.tookMsg m).ackMsg w st
  match d.table (tmBits w 1 36 12) with
  | none => ack stMismatch
  | some t =>
    if tmBits w 2 32 32 ≠ (defsum t.w).toNat then ack stMismatch
    else
      let u := d.msgUpdate t m
      let ac : SegBy := fun s => d.liveAcc (ingressAgent (msgQuarter m)) (tbCtx t.w) s []
      match ← uncounted (resolveRow ac t.w d.devId u.row u.fwded) with
      | (_, .fail st) => ack st
      | (_, .poison) => ack stPoisoned
      | (_, .remote dev _) =>
        if u.fwded then ack stRowMissing
        else modify fun (e : Dev) =>
          let e1 := e.tookMsg m
          let w' := mkMsg mtUpdate dev (tmSrc w) (tmTxid w) (tmBody w) ([qWord w 2, qWord w 3 ||| packBits [(62, 1, 1)]] ++ w.drop 4)
          { e1 with tb := { e1.tb with forwarded := e1.tb.forwarded + 1 } }.relayMsg (msgQuarter m) w' dev
      | (_, .bad st) =>
        if st = stRowMissing && u.fwded then
          match ← guestWord ac t.w u.row with
          | some (_, e) =>
            if e.pendingGuest then
              modify fun (x : Dev) => let x1 := x.tookMsg m; { x1 with tr := { x1.tr with waiting := x1.tr.waiting ++ [m] } }
            else ack st
          | none => ack st
        else ack st
      | (_, .ent e at_) =>
        let line := d.rowLine ac t.w u.row e at_
        if qBit w 3 63 then
          let step := tmBits w 2 0 32
          let (k, d1) := (← get).acceptStep u.table step
            { src := tmSrc w, seq := tmBits w 1 0 32, line := line, upd := { u with orig := .step step } }
          if k = 3 then return
          set (if k = 2 then d1.tookMsg m else (d1.tookMsg m).ackMsg w (if k = 0 then stOk else stStepClosed))
        else
          modify fun (x : Dev) => (x.tookMsg m).send (.req (d.updMsg t.w line u))

def stependStep (m : TMsg) : Eng Unit := do
  let d ← get
  let w := m.words
  let t := tmBits w 1 36 12
  match d.table t with
  | none => set ((d.tookMsg m).ackMsg w stMismatch)
  | some x =>
    if !tbDeterm x.w then set ((d.tookMsg m).ackMsg w stMismatch)
    else
      set ((d.tookMsg m).stepEnds t (tmBits w 2 0 32) (tmSrc w))
      stepsReady (fun s => d.liveAcc (ingressAgent (msgQuarter m)) (tbCtx x.w) s []) t
      modify fun (e : Dev) => e.ackMsg w stOk

/-! ### Moves between devices (R142, R425) -/

/-- Requests of a row that waited for its commit are served again. -/
def Dev.wakeGuests (d : Dev) (t row : Nat) : Dev :=
  let mine (m : TMsg) : Bool := tmBits m.words 1 36 12 = t && tmBits m.words 3 0 40 = row
  { d with tr := { d.tr with waiting := d.tr.waiting.filter fun m => !mine m, inbox := d.tr.inbox ++ d.tr.waiting.filter mine } }

/-- MIGCOPY: the slot, then the pending guest entry. The message has no field for stamps or poison: the sectors are written
clean, with stamp 0 (notes/assumptions 137). -/
def migcopyStep (m : TMsg) : Eng Unit := do
  let d ← get
  let w := m.words
  let ack (st : Nat) : Eng Unit := modify fun (e : Dev) => (e.tookMsg m).ackMsg w st
  let row := tmBits w 3 0 40
  match d.table (tmBits w 1 36 12) with
  | none => ack stMismatch
  | some t =>
    let tb := t.w
    let e : RowEnt := { valid := false, fwd := true, carafe := false, wclass := tmBits w 1 34 2, slotsz := tmBits w 1 27 6,
                        pool := tmBits w 1 33 1, slot := tmBits w 2 0 43 }
    let ac : SegBy := fun s => d.liveAcc (ingressAgent (msgQuarter m)) (tbCtx tb) s []
    if tbRows tb ≤ row then ack stIndexRange
    else if !(tbWmask tb).testBit e.wclass then ack stFormat
    else
      match ← guestWord ac tb row with
      | none => ack stRowMissing
      | some (da, old) =>
        let a := slotAcc ac tb e
        if old.valid && old.forwardTo.isNone then ack stRowMissing
        else if !a.sg.valid || a.sg.limit < 32 * e.slot + e.bytes - 1 then ack stLimit
        else
          match ← engWriteBytes a (32 * e.slot) (bodyBytes (w.drop 4) e.bytes) false 0 e.wclass with
          | some er => ack (errStat er)
          | none =>
            match ← engWriteBytes (d.guestAcc ac tb row da) (daOff da) (leBytes 8 e.word.toNat) false 0 0 with
            | some er => ack (errStat er)
            | none =>
              let guest := !(tbFirst tb ≤ row && row < tbFirst tb + tbCount tb)
              modify fun (x : Dev) => if guest then
                { x with tb := { x.tb with guestFrom := Map.put x.tb.guestFrom (2 ^ 40 * tbId tb + row) (some (tmSrc w)) } } else x
              ack stOk

/-- MIGCOMMIT makes the pending entry live, MIGABORT clears it; only a commit is acknowledged. -/
def migEndStep (m : TMsg) (commit : Bool) : Eng Unit := do
  let d ← get
  let w := m.words
  let t := tmBits w 1 36 12
  let row := tmBits w 2 0 40
  let done (st : Nat) : Eng Unit := modify fun (e : Dev) => if commit then (e.tookMsg m).ackMsg w st else e.tookMsg m
  match d.table t with
  | none => done stMismatch
  | some x =>
    let ac : SegBy := fun s => d.liveAcc (ingressAgent (msgQuarter m)) (tbCtx x.w) s []
    match ← guestWord ac x.w row with
    | none => done stRowMissing
    | some (da, e) =>
      if !e.pendingGuest then done stRowMissing
      else
        let word := if commit then (RowEnt.word { e with valid := true, fwd := false }).toNat else 0
        match ← engWriteBytes (d.guestAcc ac x.w row da) (daOff da) (leBytes 8 word) false 0 0 with
        | some er => done (errStat er)
        | none =>
          modify fun (y : Dev) => y.wakeGuests t row
          done stOk

/-! ### Answers at the originator (R419, R420) -/

/-- An answer without its transaction is late (R419). -/
def Dev.answered (d : Dev) (m : TMsg) (f : Tx → Dev → Dev) : Dev :=
  let d0 := d.tookMsg m
  match d0.tx (tmTxid m.words) with
  | none => { d0 with tr := { d0.tr with late := d0.tr.late + 1 } }
  | some t => f t d0

/-- A row's answer is kept for its GATHER (R420). -/
def Dev.rowReply (d : Dev) (id : DescId) (pos : Nat) (x : RowReply) : Dev :=
  (d.lateFor id).updRun id fun r => { r with rows := Map.put r.rows pos x }

/-- A transaction ends with a status and no data. -/
def Dev.txEnd (d : Dev) (i : Nat) (t : Tx) (st : Nat) (err : Bool) : Dev :=
  let d1 := d.closeTx i
  match t.use with
  | .row id pos => d1.rowReply id pos { status := st, wclass := if err then 4 else 0, pre := false, image := [] }
  | .upd id pos _ =>
    if st = stOk || !err then d1.updPos id pos st 2
    else ((d1.lateFor id).updRun id fun r => ({ r with upds := r.upds.filter fun x => x.pos ≠ pos } : Run).failAt pos st).settleUpd id
  | .stepEnd id =>
    let d2 := (d1.lateFor id).updRun id fun r => { r with owed := r.owed - 1 }
    if st = stOk then d2 else d2.endRun id st
  | .stepUpd tb _ => d1.stepRun tb
  | .read id _ _ _ => if st = stOk then d1.settleCopy id else (d1.lateFor id).failCopy id st
  | .write id _ _ => if st = stOk then (d1.lateFor id).settleCopy id else (d1.lateFor id).failCopy id st
  | .fill c o da => (d1.noteFail c da).moverPiece c false o
  | .dump c da => (if st = stOk then d1 else d1.noteFail c da).moverPiece c true (daOff da)
  | .migr tb row => d1.migrAnswer tb row st

def Dev.lookrsp (d : Dev) (m : TMsg) : Dev :=
  d.answered m fun t e =>
    let w := m.words
    match t.use with
    | .row id pos => (e.closeTx (tmTxid w)).rowReply id pos
        { status := tmBits w 1 40 8, wclass := tmBits w 1 38 2, pre := qBit w 1 37, image := bodyBytes (w.drop 2) (tmBits w 1 0 12) }
    | _ => e.txEnd (tmTxid w) t stPeerError true

def Dev.tarucAck (d : Dev) (m : TMsg) : Dev := d.answered m fun t e => e.txEnd (tmTxid m.words) t (tmBits m.words 1 40 8) false
def Dev.tarucErr (d : Dev) (m : TMsg) : Dev := d.answered m fun t e => e.txEnd (tmTxid m.words) t (tmBits m.words 1 40 8) true

/-- REDIRECT: the message again, with FWDED set, to the new owner. -/
def Dev.redirect (d : Dev) (m : TMsg) : Dev :=
  d.answered m fun t e =>
    let dev := tmBits m.words 1 32 16
    let w := t.words
    let i := tmTxid m.words
    let again : Option (List Word64) :=
      if tmType w = mtLookup then some (mkMsg mtLookup dev (tmSrc w) i (tmBody w / 2 ^ 20 * 2 ^ 20 + 2 ^ 19) (w.drop 2))
      else if tmType w = mtUpdate then
        some (mkMsg mtUpdate dev (tmSrc w) i (tmBody w) ([qWord w 2, qWord w 3 ||| packBits [(62, 1, 1)]] ++ w.drop 4))
      else none
    match again with
    | some w' => { e with tr := { e.tr with txs := Map.put e.tr.txs i (some { t with words := w' }) } }.sendMsg w'
    | none => e.txEnd i t stPeerError true

/-- PEER_ANSWER_LIMIT. -/
def Dev.peerLimit (d : Dev) (i : Nat) : Dev :=
  match d.tx i with
  | some t => d.txEnd i t stPeerError true
  | none => d

/-- BKDATA for a COPY: the bytes are written at its destination. -/
def bkdataStep (m : TMsg) (i : Nat) (id : DescId) (off dst len : Nat) : Eng Unit := do
  let d ← get
  let w := m.words
  let n := tmBits w 1 0 9
  let poison := tmBits w 1 9 4
  match d.run id with
  | none => set ((d.tookMsg m).closeTx i)
  | some r =>
    if !r.live || r.count ccFail ≠ 0 then set (((d.tookMsg m).closeTx i).lateFor id |>.settleCopy id)
    else if n < len then set (((d.tookMsg m).closeTx i).failCopy id stPeerError)
    else
      let a := r.copyAcc false []
      let _ := off
      match ← bulkWrite a poison dst 0 5 (bodyBytes (w.drop 2) len) with
      | some e => modify fun (x : Dev) => ((x.tookMsg m).closeTx i).failCopy id (errStat e)
      | none => modify fun (x : Dev) => (((x.tookMsg m).closeTx i).updRun id fun y =>
          if poison = 0 then y else y.setCount ccPoison 1).settleCopy id

def Dev.bkdata (d : Dev) (m : TMsg) : Dev :=
  let w := m.words
  let i := tmTxid w
  let st := tmBits w 1 40 8
  match d.tx i with
  | some t =>
    if st ≠ stOk then d.answered m fun t e => e.txEnd i t st false
    else match t.use with
      | .read id off dst len => d.engine (bkdataStep m i id off dst len)
      | .fill c o da => ((d.tookMsg m).closeTx i).fillPiece c o da (bodyBytes (w.drop 2) (tmBits w 1 0 9)) (tmBits w 1 9 4 ≠ 0)
      | _ => d.answered m fun t e => e.txEnd i t stPeerError true
  | none => d.answered m fun _ e => e

/-! ### MGMT (R409) -/

def Dev.ping (d : Dev) (m : TMsg) : Dev :=
  (d.tookMsg m).sendMsg (mkMsg mtPong (tmSrc m.words) d.devId (tmTxid m.words) (tmBody m.words) (m.words.drop 2))
def Dev.pong (d : Dev) (m : TMsg) : Dev :=
  let d1 := d.tookMsg m
  { d1 with tr := { d1.tr with pings := d1.tr.pings - 1 } }

/-! ### Meanings -/

def execLookup (m : TMsg) (s : State) : Host.Outcome State Fault Refusal := s.goes (s.dev.ingress m fun d => d.engine (lookupStep m))
def execEpochWaitLimit (m : TMsg) (s : State) : Host.Outcome State Fault Refusal := s.timed (s.dev.epochLimit m)
def execBkrd (m : TMsg) (s : State) : Host.Outcome State Fault Refusal := s.goes (s.dev.ingress m fun d => d.engine (bkrdStep m))
def execBkwr (m : TMsg) (s : State) : Host.Outcome State Fault Refusal := s.goes (s.dev.ingress m fun d => d.engine (bkwrStep m))
def execTarucUpdate (m : TMsg) (s : State) : Host.Outcome State Fault Refusal := s.goes (s.dev.ingress m fun d => d.engine (updateStep m))
def execStepend (m : TMsg) (s : State) : Host.Outcome State Fault Refusal := s.goes (s.dev.ingress m fun d => d.engine (stependStep m))
def execMigcopy (m : TMsg) (s : State) : Host.Outcome State Fault Refusal := s.goes (s.dev.ingress m fun d => d.engine (migcopyStep m))
def execMigcommit (m : TMsg) (s : State) : Host.Outcome State Fault Refusal :=
  s.goes (s.dev.ingress m fun d => d.engine (migEndStep m true))
def execMigabort (m : TMsg) (s : State) : Host.Outcome State Fault Refusal :=
  s.goes (s.dev.ingress m fun d => d.engine (migEndStep m false))
def execLookrsp (m : TMsg) (s : State) : Host.Outcome State Fault Refusal := s.goes (s.dev.lookrsp m)
def execTarucAck (m : TMsg) (s : State) : Host.Outcome State Fault Refusal := s.homes (s.dev.tarucAck m)
def execTarucErr (m : TMsg) (s : State) : Host.Outcome State Fault Refusal := s.homes (s.dev.tarucErr m)
def execRedirect (m : TMsg) (s : State) : Host.Outcome State Fault Refusal := s.goes (s.dev.redirect m)
def execBkdata (m : TMsg) (s : State) : Host.Outcome State Fault Refusal := s.goes (s.dev.bkdata m)
def execPing (m : TMsg) (s : State) : Host.Outcome State Fault Refusal := s.goes (s.dev.ping m)
def execPong (m : TMsg) (s : State) : Host.Outcome State Fault Refusal := s.goes (s.dev.pong m)
def execPeerAnswerLimit (txid : Nat) (s : State) : Host.Outcome State Fault Refusal := s.homes (if s.dev.refStopped then s.dev else s.dev.peerLimit txid)

end Sys2Proof.Machine
end

