-- ==== Sys2Proof/Machine/Tiers.lean ====
section
/-! DEFINITION. The memory tiers' own work (R222-R246): initialisation, TIER_TAG, DRAM refresh and scrub, the retention
sweep, block writes, wear levelling, spares, life. Global persistent flush (R392). -/

namespace Sys2Proof.Machine

/-! ### Settings of Table 7.8 -/

def Dev.gapWrites (d : Dev) : Nat := d.od 0x240301 100
def Dev.swapMargin (d : Dev) : Nat := d.od 0x240302 65536
def Dev.sweepShareSet (d : Dev) : Nat := d.od 0x240202 2
def Dev.sweepIntervalMax (d : Dev) : Nat := d.od 0x240201 604800
def Dev.retain (d : Dev) : Bool := d.od 0x240401 0 = 1

def regionBlocks : Nat := 262144
def dieRegions : Nat := 6144
def dieBlocks : Nat := dieRegions * regionBlocks
/-- Rated writes per block (R234). -/
def ratedWrites : Nat := 30000000

def Dev.die (d : Dev) (k : Nat) : Die := Map.get .reset d.tier.dies k
def Dev.setDie (d : Dev) (k : Nat) (x : Die) : Dev := { d with tier := { d.tier with dies := Map.put d.tier.dies k x } }
def Dev.updDie (d : Dev) (k : Nat) (f : Die → Die) : Dev := d.setDie k (f (d.die k))

/-- Source code of die k's controller. -/
def dieSource (k : Nat) : Nat := controllerSource (8 + k)

/-! ### Where a block lies (R230, R231) -/

def Die.phys (x : Die) (g : Nat) : Nat := (Map.get none x.regionMap g).getD g
def Die.gap (x : Die) (p : Nat) : GapRegs := Map.get .reset x.gaps p

/-- Slot of logical block b under START and GAP. -/
def GapRegs.slot (r : GapRegs) (b : Nat) : Nat :=
  let s := (b + r.start) % regionBlocks
  if r.gap ≤ s then s + 1 else s

/-- One move of the gap. -/
def GapRegs.move (r : GapRegs) : GapRegs :=
  if r.gap = 0 then { start := (r.start + 1) % regionBlocks, gap := regionBlocks, since := 0 }
  else { r with gap := r.gap - 1, since := 0 }

/-- Logical region whose blocks the map places in a physical region. -/
def Die.logicalOf (x : Die) (p : Nat) : Nat := ((List.range dieRegions).find? fun g => x.phys g = p).getD p

/-- Where block b of physical region p lies while a swap is under way: the blocks done have changed places (R231). -/
def Die.swapped (x : Die) (p b : Nat) : Nat :=
  match x.swap with
  | some (hot, cold, n) => if n ≤ b then p else if p = hot then cold else if p = cold then hot else p
  | none => p

/-- Physical region and slot of a resistive block, named by DPA[55:8]. -/
def Dev.blockPlace (d : Dev) (die line : Nat) : Nat × Nat :=
  let dpa := lineDpa line
  let x := d.die die
  let b := d.posOf dpa
  let p := x.swapped (x.phys ((dpa - resDpa) / 2 ^ 32)) b
  (p, (x.gap p).slot b)

/-- The block at a die, a logical region and a place in it: R215 backwards. -/
def Dev.lineAt (d : Dev) (die g b : Nat) : Nat :=
  let base := resDpa + g * 2 ^ 32
  let u := if d.groupLocal base then
      (die / 16) * 2 ^ 30 + b * 2 ^ 12 +
        (die % 16 ^^^ field b 0 4 ^^^ field b 4 4 ^^^ field b 8 4 ^^^ field b 12 4 ^^^ field b 16 2) * 2 ^ 8
    else b * 2 ^ 14 + (die ^^^ field b 0 6 ^^^ field b 6 6 ^^^ field b 12 6) * 2 ^ 8
  (base + u) / 256

/-! ### Sectors that upkeep reads (R216, R239) -/

/-- Symbols of a sector in error: those found, and injected check symbols (R470), which are the code word's last ones. -/
def Dev.badSymbols (d : Dev) (sector : Nat) (found : List Nat) : List Nat :=
  ((List.range (Map.get 0 d.symErr sector)).map (39 - ·)).foldl (fun l x => insertNew x l) (found.filter (· < 40)).eraseDups

/-- Upkeep reads a sector with these symbols in error: corrected where the code allows, else reported. -/
def Dev.upkeepRead (d : Dev) (sector : Nat) (bad : List Nat) (cause : Nat) : Dev :=
  if bad.isEmpty then d else if 2 < bad.length then d.upkeepBad sector cause else d.correctSec sector

/-- A block that a gap move, a swap or a remap copies (Table 7.5): its sectors are read, and the block stands in the queue
for its new place. -/
def Dev.copyBlock (d : Dev) (k line cause : Nat) : Dev :=
  ((List.range 4).foldl (fun (e : Dev) s => e.upkeepRead (4 * line + s) (e.badSymbols (4 * line + s) []) cause) d).queueBlock k line false

/-! ### Spares (R232, R233) -/

def Die.sparesUsed (x : Die) : Nat := sumUnits (x.spares.map (·.2))
/-- Entries in the remap table, and its size; the bias table takes the region's first 4 MiB (R389). -/
def Dev.remapEntries (d : Dev) : Nat := sumUnits (d.tier.dies.map fun p => p.2.sparesUsed)
def Dev.remapCap (d : Dev) : Nat := (d.tier.remapSize - 4) * 262144

/-- A remap entry of 4 B; the slot field 0x7_FFFF would name none. -/
def remapEntry (slot spare : Nat) : Word32 := BitVec.ofNat 32 (slot * 8192 + spare)
def remapSlot (e : Word32) : Nat := (e.extractLsb' 13 19).toNat

/-- A count of block writes of a physical region. -/
def Die.wear (x : Die) (p n : Nat) : Die :=
  { x with writes := Map.put x.writes p (Map.get 0 x.writes p + n), blockWrites := x.blockWrites + n }

/-- A block's slot gets a spare of its own physical region, and the block's data goes there; without a spare, or with the
table full, it stays. Alerts are raised as a bound is passed: 10 % of a region's spares, 90 % of the table. -/
def Dev.remap (d : Dev) (k line p slot : Nat) : Dev :=
  let x := d.die k
  let used := Map.get 0 x.spares p
  let key := 262145 * p + slot
  if regionSpares ≤ used || d.remapCap ≤ d.remapEntries then d.setDie k { x with stranded := insertNew key x.stranded }
  else
    let entries := (Map.get [] x.remaps p).filter fun e => remapSlot e ≠ slot
    let x1 := { x with
      remaps := Map.put x.remaps p (entries ++ [remapEntry slot used]), spares := Map.put x.spares p (used + 1)
      stranded := x.stranded.filter (· ≠ key) }
    let d1 := (d.setDie k x1).copyBlock k line 3
    let d2 := { d1 with tier := { d1.tier with remapped := d1.tier.remapped + 1 } }.nvRecord 3
    let d3 := if 100 * x.sparesUsed / (dieRegions * regionSpares) < 100 * x1.sparesUsed / (dieRegions * regionSpares)
      then d2.lifeLog 6 k (BitVec.ofNat 64 x1.sparesUsed) else d2
    let d4 := if sparesLowAt (used + 1) && !sparesLowAt used
      then (d3.tierEvent d3.tier.sparesLow fun t => { t with sparesLow := true }).fault (mkFault (dieSource k) .alert 0x52 k) else d3
    if d4.remapCap * 9 ≤ d4.remapEntries * 10 && d.remapEntries * 10 < d.remapCap * 9
      then (d4.tierEvent d4.tier.remapHigh fun t => { t with remapHigh := true }).fault (mkFault (dieSource k) .alert 0x53 0) else d4

/-! ### Block writes (R226, R227, R230) -/

/-- The gap of a physical region moves, and the block beside it with it. -/
def Dev.gapMove (d : Dev) (k p : Nat) : Dev :=
  let x := d.die k
  let old := x.gap p
  let g := old.move
  let b := if old.gap = 0 then (regionBlocks - g.start) % regionBlocks else (old.gap - 1 + regionBlocks - g.start) % regionBlocks
  (d.setDie k { x with gaps := Map.put x.gaps p g }).copyBlock k (d.lineAt k (x.logicalOf (x.swapped p b)) b) 2

/-- One block written into its cells: wear, a remap after the third failed pulse, and a count towards the region's gap
move. -/
def Dev.storeBlock (d : Dev) (k line : Nat) (counts failed : Bool) : Dev :=
  let (p, slot) := d.blockPlace k line
  let d1 := d.updDie k fun x => x.wear p 1
  let d2 := if failed then d1.remap k line p slot else d1
  if !counts then d2
  else
    let g := (d2.die k).gap p
    if d2.gapWrites ≤ g.since + 1 then d2.gapMove k p
    else d2.updDie k fun x => { x with gaps := Map.put x.gaps p { g with since := g.since + 1 } }

/-- The oldest block of a die's write queue is stored: demand writes, and the writes of upkeep as well. -/
def Dev.blockWrite (d : Dev) (k pulses : Nat) : Dev :=
  match Map.get [] d.wq k with
  | [] => d
  | b :: bs => { d with wq := Map.put d.wq k bs }.storeBlock k b.1 b.2 (3 < pulses)

/-- Every resistive write queue has drained into the cells. -/
def Dev.writesDrained (d : Dev) : Bool := (List.range 64).all fun k => (Map.get [] d.wq k).isEmpty

/-! ### DRAM upkeep (R223-R225) -/

/-- Reference counts from one refresh of a group to the next: 32 ms times its bin, halved above 85 °C (R223). -/
def Dev.refreshInterval (d : Dev) (s g : Nat) : Nat :=
  3200000 * (if d.od 0x240102 1 = 1 then d.refreshBinOf s g else 1) / (if 850 < (d.stack s).temp then 2 else 1)

/-- REFRESH of a group whose interval since its last refresh has ended; a group not refreshed yet is due at once. A
stack in self-refresh refreshes itself. -/
def Dev.refresh (d : Dev) (s g : Nat) : Dev :=
  let x := d.stack s
  if x.selfRefresh ||
      (Map.get 0 x.refreshed g != 0 && decide ((d.now - Map.get 0 x.refreshAt g).toNat < d.refreshInterval s g)) then d
  else d.setStack s { x with refreshed := Map.put x.refreshed g (Map.get 0 x.refreshed g + 1), refreshAt := Map.put x.refreshAt g d.now }

/-- A row that repeats a symbol error gets a spare row of its bank, when one is left, and a new history of errors. -/
def Dev.repairRow (d : Dev) (s sector : Nat) : Dev :=
  let row (n : Nat) : Nat := Config.rowOf s (d.stackGranule n)
  let bank := Config.rowBank s (d.stackGranule sector)
  let used := Map.get 0 (d.stack s).spareUsed bank
  if used < Config.spareRows s then
    let d1 := d.updStack s fun x => { x with
      spareUsed := Map.put x.spareUsed bank (used + 1), rows := Map.put x.rows (row sector) (some used)
      errLast := x.errLast.filter fun p => row p.1 ≠ row sector, errNow := x.errNow.filter fun p => row p.1 ≠ row sector }
    ({ d1 with tier := { d1.tier with rowRepairs := d1.tier.rowRepairs + 1 } }.nvRecord (nvRepair (s / 2))).lifeLog 5 s (BitVec.ofNat 64 sector)
  else d.updStack s fun x => { x with noSpare := true }

def dramSectors : Nat := 0x6000000000 / 64

/-- DRAM_SCRUB of the sector at the scrub's place. -/
def Dev.scrub (d : Dev) (sector : Nat) (found : List Nat) : Dev :=
  if dramSectors ≤ sector || sector ≠ d.tier.scrubPos || !d.tier.hdm0 then d
  else
    let s := d.controllerOf (64 * sector)
    let bad := d.badSymbols sector found
    let d1 :=
      if bad.isEmpty then d
      else if 2 < bad.length then d.upkeepBad sector 1
      else
        let again : Bool := bad.any (Map.get [] (d.stack s).errLast sector).contains
        let e := (d.correctSec sector).updStack s fun x => { x with errNow := Map.put x.errNow sector bad }
        if again then e.repairRow s sector else e
    let pos := sector + 1
    let d2 := { d1 with tier := { d1.tier with scrubPos := if pos = dramSectors then 0 else pos } }
    let d3 := if pos = dramSectors
      then (List.range 8).foldl (fun (e : Dev) k => e.updStack k fun x => { x with errLast := x.errNow, errNow := [] }) d2 else d2
    let p := d3.prog 0x42
    d3.setProg 0x42 { p with
      state := if pos = dramSectors then 4 else 1, position := pos, total := dramSectors, start := if sector = 0 then d.stamp else p.start }

/-! ### The retention sweep (R228, R229) -/

/-- A pass of a die ends: its time, its error history, the sweep share again as set. -/
def Dev.passEnd (d : Dev) (k : Nat) : Dev :=
  (d.updDie k fun x => { x with
    swept := [], sweepMax := x.temp, sweepShare := d.sweepShareSet, sweepCount := x.sweepCount + 1, lastSweep := d.stamp
    errLast := x.errNow, errNow := [], overtemp := false }).nvRecord 3

/-- One die above 95 °C: the alert once per pass, and OVERTEMP. -/
def Dev.overtemp (d : Dev) (k : Nat) : Dev :=
  if 950 < (d.die k).temp && !(d.die k).overtemp then
    ((d.updDie k fun x => { x with overtemp := true }).tierEvent d.tier.overtemp fun t => { t with overtemp := true }).fault
      (mkFault (dieSource k) .alert 0x51 k)
  else d

/-- Symbols found in sector s of a block's list, which names symbol y of sector s as 40 s + y. -/
def symsOf (xs : List Nat) (s : Nat) : List Nat := (xs.filter fun x => x / 40 = s).map (· % 40)

/-- RETENTION_SWEEP of one block, which a pass reads once, in no order of the manual's (R228): any error at a shifted
reference has it read at the normal reference, corrected and rewritten; an error in the same symbol as in the pass before
remaps the slot that showed it (R232). -/
def Dev.sweep (d : Dev) (k block : Nat) (shifted normal : List Nat) : Dev :=
  if !isRes (lineDpa block) || d.controllerOf (lineDpa block) ≠ 8 + k || !d.tier.hdm1 || (d.die k).swept.contains block then d
  else
    let secs := (List.range 4).map fun s => (4 * block + s, d.badSymbols (4 * block + s) (symsOf normal s))
    let any := !shifted.isEmpty || secs.any fun p => !p.2.isEmpty
    let d1 :=
      if !any then d
      else
        let e := secs.foldl (fun (y : Dev) p => y.upkeepRead p.1 p.2 1) d
        let now := secs.flatMap fun p => if p.2.length ≤ 2 then p.2.map (40 * (p.1 % 4) + ·) else []
        let again : Bool := now.any (Map.get [] (d.die k).errLast block).contains
        let e1 := e.updDie k fun x => { x with errNow := Map.put x.errNow block now }
        if again then let (p, slot) := e1.blockPlace k block; e1.remap k block p slot else e1.queueBlock k block true
    let d2 := (d1.updDie k fun x => { x with swept := x.swept ++ [block] }).overtemp k
    let d3 := if (d2.die k).swept.length = dieBlocks then d2.passEnd k else d2
    let p := d3.prog 0x43
    let n := sumUnits (d3.tier.dies.map fun x => x.2.swept.length)
    d3.setProg 0x43 { p with
      state := 1, position := n, total := 64 * dieBlocks, start := if n < p.position || p.state ≠ 1 then d.stamp else p.start }

/-- Seconds within which a pass must finish, by the highest temperature of the die in it (Table 7.3); none above 95 °C, where
passes are continuous. -/
def Dev.sweepInterval (d : Dev) (k : Nat) : Option Nat :=
  let t := (d.die k).sweepMax
  if t ≤ 850 then some d.sweepIntervalMax else if t ≤ 950 then some 86400 else none

/-- SWEEP_LATE: a pass with an interval cannot finish within it (R229). -/
def Dev.sweepLate (d : Dev) (k : Nat) : Dev :=
  if (d.sweepInterval k).isNone then d
  else ((d.updDie k fun x => { x with sweepShare := 20 }).tierEvent d.tier.sweepLate fun t => { t with sweepLate := true }).fault
    (mkFault (dieSource k) .alert 0x50 k)

/-! ### Region swaps (R231) -/

/-- The most and the least worn physical region; the lowest number among equals. -/
def Die.hottest (x : Die) : Nat :=
  x.writes.foldl (fun b p => if Map.get 0 x.writes b < p.2 then p.1 else b) 0
def Die.coldest (x : Die) : Nat :=
  match (List.range dieRegions).find? fun p => Map.get 0 x.writes p = 0 with
  | some p => p
  | none => x.writes.foldl (fun b p => if p.2 < Map.get 0 x.writes b then p.1 else b) 0

/-- The hottest region's mean writes per block exceed the die's by the margin. -/
def Dev.swapDue (d : Dev) (k : Nat) : Bool :=
  let x := d.die k
  decide (sumUnits (x.writes.map (·.2)) + d.swapMargin * dieBlocks < Map.get 0 x.writes x.hottest * dieRegions)

/-- A pair of blocks of a swap changes places under the journal; after the last, the map entries do. -/
def Dev.swapStep (d : Dev) (k hot cold n : Nat) : Dev :=
  let x := d.die k
  let a := x.logicalOf hot
  let b := x.logicalOf cold
  let last := n + 1 = regionBlocks
  let x1 := if last then { x with regionMap := Map.put (Map.put x.regionMap a (some cold)) b (some hot), swap := none }
    else { x with swap := some (hot, cold, n + 1) }
  let d1 := ((d.setDie k x1).copyBlock k (d.lineAt k a n) 2).copyBlock k (d.lineAt k b n) 2
  d1.setProg 0x44 { d1.prog 0x44 with state := if last then 4 else 1, position := 2 * (n + 1), total := 2 * regionBlocks }

/-- WEAR_SWAP: begins, or goes on by one pair of blocks. -/
def Dev.wearSwap (d : Dev) (k : Nat) : Dev :=
  match (d.die k).swap with
  | some (hot, cold, n) => d.swapStep k hot cold n
  | none =>
    if d.swapDue k then
      (d.updDie k fun x => { x with swap := some (x.hottest, x.coldest, 0) }).setProg 0x44
        { state := 1, position := 0, total := 2 * regionBlocks, queue := 0xFFFF, tag := 0, start := d.stamp }
    else d

/-! ### Life (R234) -/

/-- Block writes of the most worn region of a die, and life consumed in basis points. -/
def Die.maxWrites (x : Die) : Nat := Map.get 0 x.writes x.hottest
def lifeOf (w : Nat) : Nat := w * 10000 / (regionBlocks * ratedWrites)
def Die.life (x : Die) : Nat := lifeOf x.maxWrites

/-- The most worn die. -/
def Dev.worstDie (d : Dev) : Nat :=
  (List.range 64).foldl (fun b k => if (d.die b).maxWrites < (d.die k).maxWrites then k else b) 0
def Dev.tierLife (d : Dev) : Nat := (d.die d.worstDie).life

/-- Region write counters as they are now, for the NV store. -/
def Dev.regionCounts (d : Dev) : Map Nat :=
  d.tier.dies.foldl (fun m p => p.2.writes.foldl (fun m q => Map.put m (dieRegions * p.1 + q.1) q.2) m) []

/-- Calendar time of 10,000 bp at the rate of the last 30 days; without a rate the manual states none, and the value is
free (notes/assumptions 35). -/
def Dev.endOfLife (d : Dev) : Word64 × Dev :=
  let k := d.worstDie
  let w := (d.die k).maxWrites
  let now := d.mg.seconds.toNat
  match (d.tier.lifeHist.filter fun p => now ≤ p.1 + 2592000).getLast? with
  | some (t, ws) =>
    let w0 := Map.get 0 ws k
    if t < now && w0 < w then
      (BitVec.ofNat 64 (now + (regionBlocks * ratedWrites - w) * (now - t) / (w - w0)), d)
    else d.freeWord
  | none => d.freeWord

/-- LIFE_PERSIST; WEAR_HIGH at most once per day. -/
def Dev.lifePersist (d : Dev) : Dev :=
  let (eol, d0) := d.endOfLife
  let now := d0.mg.seconds.toNat
  let sample := (List.range 64).foldl (fun (m : Map Nat) i => Map.put m i (d0.die i).maxWrites) []
  let d1 := { d0 with tier := { d0.tier with
    lifeSaved := d0.regionCounts, eol := eol, lifeHist := (now, sample) :: d0.tier.lifeHist.take 30 } }
  let d2 := d1.nvRecord 5
  let due : Bool := match d2.tier.wearAlert with
    | some t => decide (t + 86400 ≤ now)
    | none => true
  if 8000 ≤ d2.tierLife && due then
    ({ d2 with tier := { d2.tier with wearAlert := some now } }.lifeLog 7 d2.worstDie (BitVec.ofNat 64 d2.tierLife)).fault
      (mkFault 0x3F1 .alert 0x54 d2.tierLife)
  else d2

/-! ### Tier initialisation (R241-R243) -/

/-- Settings that apply at tier initialisation: interleave, sizes of the device-owned regions, each aligned to 2 MiB
downwards from the Demitasse window (R243), the bias default. -/
def Dev.tierSettings (d : Dev) : Dev :=
  let heat := d.od 0x280002 1024
  let crema := d.od 0x281001 4096
  let step := d.od 0x281005 1024
  let remap := d.od 0x240402 1024
  { d with
    ilvDram := d.od 0x240001 0, ilvRes := d.od 0x240002 0
    tb := { d.tb with heatSize := heat, cremaSize := crema, cremaEpoch := d.od 0x281002 3072, stepSize := step }
    hl := { d.hl with bias := [], biasDef := d.od 0x20A003 1 }
    tier := { d.tier with remapSize := remap, devBase := [remap, crema, step, heat].foldl (fun top mib => (top - mib * 2 ^ 20) / 2 ^ 21 * 2 ^ 21) 0x5FFFE00000 } }

/-- Sectors from a to below b hold zero data, tag 0 and no poison. -/
def Dev.wipe (d : Dev) (a b : Nat) : Dev :=
  { d with
    mem := d.mem.filter fun c => c.1 < 64 * a || 64 * b ≤ c.1
    info := d.info.filter fun p => p.1 < a || b ≤ p.1
    symErr := d.symErr.filter fun p => p.1 < a || b ≤ p.1 }

/-- Bytes of a tier initialisation's progress object (R241). -/
def Dev.initProgress (d : Dev) (i total : Nat) : Dev :=
  d.setProg i { d.prog i with state := 4, position := total, total := total }

/-- HDM0_READY; `absent` are the stacks that did not answer in training (R455). -/
def Dev.hdm0Ready (d : Dev) (absent : List Nat) : Dev :=
  if d.rst.held.contains .mem || d.tier.hdm0 then d
  else
    let d1 := (if d.tier.hdm1 then d else d.tierSettings).wipe 0 dramSectors
    let d2 := (List.range 8).foldl (fun (e : Dev) s =>
      let gone := absent.contains s
      let e1 := e.updStack s fun x => { x with present := !gone, failed := gone }
      if gone then e1.fault (mkFault (controllerSource s) .fatal 0x55 s) else e1) d1
    { d2 with tier := { d2.tier with hdm0 := true, initStep := Nat.max d2.tier.initStep 5, scrubPos := 0 } }.initProgress 0x40 (48 * 8 * 2 ^ 30)

/-- The last completed pass of a die is shown to be at most SweepIntervalMax old (R242). -/
def Dev.passFresh (d : Dev) (k : Nat) : Bool :=
  let t := (d.die k).lastSweep
  d.mg.synced && !t.getLsbD 63 && decide (d.mg.seconds.toNat ≤ t.toNat + d.sweepIntervalMax)

/-- Step 6b at one die: every block is read; of what the cells hold in error, what the code corrects is rewritten and the rest
is lost (R239, R242). -/
def Dev.fullPass (d : Dev) (k : Nat) : Dev :=
  let bad := (d.symErr.map (·.1)).filter fun s => isRes (64 * s) && d.controllerOf (64 * s) = 8 + k
  (bad.foldl (fun (e : Dev) s => (e.upkeepRead s (e.badSymbols s []) 1).queueBlock k (s / 4) true) d).passEnd k

/-- HDM1_READY; `absent` are the dies that did not answer. -/
def Dev.hdm1Ready (d : Dev) (absent : List Nat) : Dev :=
  if d.rst.held.contains .mem || d.tier.hdm1 then d
  else
    let keep := d.retain
    let d0 := if d.tier.hdm0 then d else d.tierSettings
    let d1 := if keep then d0 else d0.wipe (resDpa / 64) (0x380000000000 / 64)
    let d2 := (List.range 64).foldl (fun (e : Dev) k =>
      let gone := absent.contains k
      let e1 := e.updDie k fun x => { x with present := !gone, failed := gone, sweepShare := d0.sweepShareSet }
      let e2 := match (e1.die k).swap with
        | some (_, _, n) => e1.setProg 0x44
          { state := 1, position := 2 * n, total := 2 * regionBlocks, queue := 0xFFFF, tag := 0, start := e1.stamp }
        | none => e1
      if gone then e2.fault (mkFault (dieSource k) .fatal 0x55 (0x80 + k))
      else if keep && !e2.passFresh k then e2.fullPass k else e2) d1
    { d2 with tier := { d2.tier with hdm1 := true, retained := keep, initStep := 7 } }.initProgress 0x41 (384 * 64 * 2 ^ 30)

/-! ### TIER_TAG (R222) -/

def Run.isTag (r : Run) : Bool := r.isOp tyMaint (some 0x08)
def ttDpa (w : List Word64) : Nat := qBits w 2 0 56
def ttLen (w : List Word64) : Nat := qBits w 3 0 48
def ttTag (w : List Word64) : Nat := qBits w 4 0 12
/-- cnt number: the range's copies have been invalidated. -/
def ttClear : Nat := 0

/-- The TIER_TAG in turn: the live one admitted first. -/
def Dev.tagHead (d : Dev) : Option Run :=
  (d.cp.runs.filter fun r => r.isTag && r.live).foldl (fun b r =>
    match b with
    | none => some r
    | some x => if r.seq < x.seq then some r else some x) none

/-- Every copy of a line ends, in the block and in the host, none written back. -/
def tagLine (a : Acc) (line : Nat) : Eng Unit := do
  engLine a line
  (List.range 4).forM fun sec => do
    engInvalidate line sec false
    let d ← get
    let d1 := (d.sideRemove line).cacheDrop (d.sliceNo line) line sec
    if ((d1.dirEntry line).sector sec).hs ≠ 0 then
      set ((d1.biSnoop .inv line [sec]).updSector line sec fun z => { z with hs := 0 })
      engOwe a line (.bi sec)
    else set d1

/-- Lines of a range that some copy or host pointer stands for. -/
def Dev.cachedLines (d : Dev) (lo hi : Nat) : List Nat :=
  let inR (l : Nat) : Bool := lo ≤ l && l < hi
  let ds := (d.dir.filter fun p => p.2.v && inR p.2.line).map fun p => p.2.line
  let cs := (d.caches.filter fun p => p.1 < 256).flatMap fun p =>
    ((((p.2.ways.map (·.2)) ++ p.2.side).filter fun l => l.live && inR l.line).map CLine.line)
  (ds ++ cs).eraseDups

/-- One granule: copies made since the first step end, and its sectors become zero with the new tag. -/
def tagGranule (a : Acc) (tag line : Nat) : Eng Unit := do
  tagLine a line
  modify fun (d : Dev) => (List.range 4).foldl (fun (e : Dev) s =>
    (e.putSec (4 * line + s) 0 { SectorMeta.zero with tag := tag }).noteWrite (4 * line + s)) d

/-- Step 1 or the next granule of step 2 of a TIER_TAG. -/
def tagStep (id : DescId) : Eng Unit := do
  let d ← get
  match d.run id with
  | none => return
  | some r =>
    let lo := ttDpa r.w / 256
    let n := ttLen r.w / 256
    let a : Acc := { src := mgmtAgent, ctx := 0, seg := 0, gen := 0, rt := .normal, h := [], desc := some id }
    if r.count ttClear = 0 then
      (d.cachedLines lo (lo + n)).forM (tagLine a)
      modify fun (e : Dev) => e.updRun id fun x => x.setCount ttClear 1
    else if d.owes id true then return
    else if r.pos < n then
      tagGranule a (ttTag r.w) (lo + r.pos)
      modify fun (e : Dev) => e.setPos id (r.pos + 1)
    else modify fun (e : Dev) => e.endRun id stOk

def Dev.tagLoop (d : Dev) (id : DescId) : Nat → Dev
  | 0 => d
  | n + 1 => Dev.tagLoop (d.engine (tagStep id)) id n

/-- TIER_TAG: the one in turn starts, which ends its WAIT, or goes on, n steps at most (R222). -/
def Dev.tierTag (d : Dev) (id : DescId) (n : Nat) : Dev :=
  match d.tagHead with
  | none => d
  | some r =>
    if r.id ≠ id then d
    else if !d.tierReady (ttDpa r.w) then d.endRun id stTier
    else
      let d1 := if r.stage = .admitted
        then (d.updRun id fun x => { x with stage := .running, waited := satBits 32 (d.now - r.fetched).toNat }).takeProg id (qBits r.w 0 0 16) 0x45 (ttLen r.w / 256) else d
      d1.tagLoop id n

/-! ### Global persistent flush (R392) -/

/-- Dirty sectors of the L1s, eviction buffers included: core, sector and copy. -/
def Dev.dirtyL1 (d : Dev) : List (Nat × Nat × CSector) :=
  let ways := (d.caches.filter fun p => 256 ≤ p.1).flatMap fun p =>
    ((p.2.ways.map (·.2)) ++ p.2.side).flatMap fun l =>
      (l.sec.filter fun q => q.2.st = .M || q.2.st = .O).map fun q => (p.1 - 256, 4 * l.line + q.1, q.2)
  let evs := d.cores.flatMap fun p => (p.2.evict.filter fun q => q.2.st = .M || q.2.st = .O).map fun q => (p.1, q.1, q.2)
  ways ++ evs

/-- Dirty sectors of the slices: line, sector number and copy. -/
def Dev.dirtySlices (d : Dev) : List (Nat × Nat × CSector) :=
  (d.caches.filter fun p => p.1 < 256).flatMap fun p =>
    ((p.2.ways.map (·.2)) ++ p.2.side).flatMap fun l => (l.sec.filter fun q => q.2.st = .M).map fun q => (l.line, q.1, q.2)

/-- A host line's sector goes back to the host with its grant, and every copy of it ends. -/
def Dev.hostGiveBack (d : Dev) (line sec : Nat) (x : CSector) : Dev :=
  let d1 := (d.putHost (secDpa line sec - hostDpa) (Sector.bytes x.data)).emit
    (.d2h .dirtyEvict line sec x.data (BitVec.allOnes 64) x.info.poison)
  let d2 := (List.range 272).foldl (fun (e : Dev) c =>
    if (e.cacheSec (l1No c) line sec).st = .I then e else e.l1Lose c line sec) d1
  (d2.cacheDrop (d2.sliceNo line) line sec).updSector line sec fun y => { y with ds := .I, own := 0x3FF, hs := 0 }

/-- GPF_PHASE1. -/
def Dev.gpfPhase1 (d : Dev) : Dev :=
  if !d.hostUp then d
  else
    let d1 := d.dirtyL1.foldl (fun (e : Dev) p =>
      if isHost (64 * p.2.1) then e.hostGiveBack (p.2.1 / 4) (p.2.1 % 4) p.2.2 else e) d
    let d2 := d1.dirtySlices.foldl (fun (e : Dev) p => if isHost (lineDpa p.1) then e.hostGiveBack p.1 p.2.1 p.2.2 else e) d1
    { d2 with hl := { d2.hl with gpf := 1 } }

/-- An owner's dirty sector written back to its tier; the owner keeps it clean, beside a current home copy. -/
def Dev.tierGiveBack (d : Dev) (c sector : Nat) (x : CSector) : Dev :=
  let line := sector / 4
  let sec := sector % 4
  let d1 := (d.putSec sector x.data x.info).noteWrite sector
  let y := d1.sliceSec line sec
  let d2 := if y.st = .I then d1 else d1.cacheSet (d1.sliceNo line) line sec { y with st := .E, data := x.data, info := x.info }
  let d3 := if (d2.cacheSec (l1No c) line sec).st = .I then d2
    else d2.cacheSet (l1No c) line sec { x with st := if x.st = .O then .S else .E }
  if x.st = .O then
    let e := d3.dirEntry line
    let e1 := e.addSharer c
    d3.setEntry { e1 with sec := Map.put e1.sec sec { e1.sector sec with ds := .S, own := 0x3FF } }
  else d3

/-- Every dirty sector of device memory goes back to its tier. -/
def Dev.writeAllBack (d : Dev) : Dev :=
  let d1 := d.dirtyL1.foldl (fun (e : Dev) p => if isTier (64 * p.2.1) then e.tierGiveBack p.1 p.2.1 p.2.2 else e) d
  d1.dirtySlices.foldl (fun (e : Dev) p =>
    if isTier (lineDpa p.1) then (e.sliceWriteBack p.1 p.2.1 p.2.2).cacheSet (e.sliceNo p.1) p.1 p.2.1 { p.2.2 with st := .E } else e) d1

/-- GPF_PHASE2: every dirty sector goes back to its tier; the write queues drain from then on, block by block. -/
def Dev.gpfPhase2 (d : Dev) : Dev :=
  if d.hl.gpf = 0 then d
  else
    let d1 := d.writeAllBack
    { d1 with hl := { d1.hl with gpf := 2 } }

/-! ### Meanings -/

def execHdm0Ready (absent : List Nat) (s : State) : Host.Outcome State Fault Refusal := s.goes (s.dev.hdm0Ready absent)
def execHdm1Ready (absent : List Nat) (s : State) : Host.Outcome State Fault Refusal := s.goes (s.dev.hdm1Ready absent)
def execTierTag (d : DescId) (n : Nat) (s : State) : Host.Outcome State Fault Refusal := s.goes (s.dev.tierTag d n)
def execRefresh (st : StackId) (group : Nat) (s : State) : Host.Outcome State Fault Refusal := s.goes (s.dev.refresh st.val group)
def execDramScrub (sector : Nat) (errors : List Nat) (s : State) : Host.Outcome State Fault Refusal :=
  s.goes (s.dev.scrub sector errors)
def execRetentionSweep (die : DieId) (block : Nat) (shifted errors : List Nat) (s : State) : Host.Outcome State Fault Refusal :=
  s.goes (s.dev.sweep die.val block shifted errors)
def execSweepLate (die : DieId) (s : State) : Host.Outcome State Fault Refusal := s.goes (s.dev.sweepLate die.val)
def execBlockWrite (die : DieId) (pulses : Nat) (s : State) : Host.Outcome State Fault Refusal :=
  s.goes (s.dev.blockWrite die.val pulses)
def execWearSwap (die : DieId) (s : State) : Host.Outcome State Fault Refusal := s.goes (s.dev.wearSwap die.val)
def execLifePersist (s : State) : Host.Outcome State Fault Refusal := s.goes s.dev.lifePersist
def execGpfPhase1 (s : State) : Host.Outcome State Fault Refusal := s.goes s.dev.gpfPhase1
def execGpfPhase2 (s : State) : Host.Outcome State Fault Refusal := s.goes s.dev.gpfPhase2

end Sys2Proof.Machine
end

