-- ==== Sys2Proof/Machine/Margins.lean ====
section
/-! DEFINITION. Margin managers (R48-R74): canaries, taps, replans, emergencies, the power limiter, supply requests
(R492-R495), the reference clock's loss (R72), the throttle input (R496). -/

namespace Sys2Proof.Machine

def groups16 : List Nat := List.range 16

/-! ### Canaries and taps (R48-R52) -/

/-- The logic of Table 18.3 is gated: from step 3 of an entry to step 3 of the exit. -/
def Dev.gatedNow (d : Dev) : Bool :=
  (d.pwr.state ≠ 0 && !(d.pwr.exiting && 4 ≤ d.pwr.step)) || (d.pwr.busy && !d.pwr.exiting && d.pwr.step = 3)

/-- Tap groups that a power state gates (Table 18.3). -/
def Dev.gated (d : Dev) (g : Nat) : Bool := d.gatedNow && (g ≤ 7 || g = 10 || (2 ≤ d.pwr.state && g = 11))

/-- A group's margin: the lowest of its four canaries. -/
def Quarter.groupMargin (x : Quarter) (g : Nat) : Nat :=
  ((List.range 4).map fun i => Map.get 0 x.margin (4 * g + i)).foldl Nat.min (Map.get 0 x.margin (4 * g))

def Quarter.tapOf (x : Quarter) (g : Nat) : Nat := Map.get 31 x.tap g
def Quarter.setTap (x : Quarter) (g t : Nat) : Quarter := { x with tap := Map.put x.tap g (Nat.min t 31) }
def Quarter.stageOf (x : Quarter) (g : Nat) : TapStage := Map.get .undecided x.stage g

/-- Tap at which a margin read at tap t reaches the target, the delay being 1 + 0.025 T of its built-in figure (R51). -/
def tapFor (t m target : Nat) : Nat :=
  ((List.range 32).find? fun u => target * (40 + t) ≤ m * (40 + u)).getD 31

/-- One reading of a group: down a step while the target holds, up where it does not, until the least tap that holds it
has been read at its own setting (R52, R56). -/
def Quarter.tapStep (x : Quarter) (target g : Nat) : Quarter :=
  let m := x.groupMargin g
  let t := x.tapOf g
  let go (y : Quarter) (s : TapStage) : Quarter := { y with stage := Map.put y.stage g s }
  let lower : Quarter := if t = 0 then go x .final else go (x.setTap g (t - 1)) .lowering
  let raise (u : Nat) (s : TapStage) : Quarter := if t = 31 then go x .final else go (x.setTap g u) s
  match x.stageOf g with
  | .final => x
  | .restored => go x .final
  | .raising => if target ≤ m then go x .final else raise (t + 1) .raising
  | .jumped => if target ≤ m then lower else raise (t + 1) .raising
  | .lowering => if target ≤ m then lower else raise (t + 1) .restored
  | .undecided => if target ≤ m then lower else raise (Nat.max (t + 1) (tapFor t m target)) .jumped

/-! ### Requests to the regulators (R492, R494) -/

/-- A frame with quarter q's request. -/
def Dev.vreqFrame (d : Dev) (q : Nat) : Dev :=
  let level : BitVec 6 := BitVec.ofNat 6 (((d.qr q).vreq - 600) / 5)
  { d.emit (.vreq (BitVec.ofNat 6 (56 + q)) level (~~~level)) with pins := { d.pins with vreqDriven := true, vreqWord := 63 } }

/-- The request of quarter q moves. -/
def Dev.vreqTo (d : Dev) (q mv : Nat) : Dev := (d.updQ q fun x => { x with vreq := mv }).vreqFrame q

/-! ### Replans (R55-R60) -/

/-- The quarter is in reset: of a sequence past its step 3 that reaches it, or under a start. -/
def Dev.quarterInReset (d : Dev) (q : Nat) : Bool :=
  d.rst.held.contains .mg ||
  match d.rst.seq with
  | some s => decide (3 ≤ s.step) && (s.quarters.contains q || (s.all && s.domains.contains .ex))
  | none => false

/-- The margin settings as the dictionary now holds them, which a replan puts in force (R74). -/
def Dev.planSet (d : Dev) (q : Nat) : PlanSet :=
  { target := d.marginTarget, alert := d.alertLevel, drift := d.driftLimit, power := d.powerLimit, rate := d.planRate q
    vmin := d.vcoreMin q }

/-- A trigger of R55. None acts in reset, in an emergency or in a low power state, after each of which a replan follows. -/
def Dev.replan (d : Dev) (q : Nat) : Dev :=
  let x := d.qr q
  if d.quarterInReset q || !x.emGroups.isEmpty || d.pwr.state ≠ 0 || d.gatedNow then d
  else if x.wait ≠ .none then d.setQ q { x with again := true }
  else d.setQ q { x with
    stage := [], wait := .taps, down := false, retried := false, again := false, sett := d.planSet q
    noChange := x.noChange && !x.schedDue, schedDue := false
    progress := { state := 1, position := 0, total := 16, queue := 0xFFFF, tag := 0, start := d.stamp } }

/-- What a replan waits for, as against a calibration or a power state's step. -/
def ReplanWait.plans : ReplanWait → Bool
  | .taps | .up | .down | .backUp => true
  | .none | .calib | .walk _ => false

/-- Ageing of a quarter in basis points (R61): the largest drift of a group's margin from what its baseline predicts for
the tap, the supply and the temperature at which it was last read. -/
def Quarter.drift (x : Quarter) : Nat :=
  (groups16.map fun g =>
    let p := Config.baselineMargin (Map.get 0 x.baseline g) (x.tapOf g) x.readVolt x.readTemp
    if p = 0 then 0 else (p - x.groupMargin g) * 10000 / p).foldl Nat.max 0

/-- The baseline of the first calibration, which nothing writes again (R61, R504). -/
def Dev.firstBaseline (d : Dev) (q : Nat) : Dev :=
  let x := d.qr q
  if d.mg.firstCal ≠ 0 || !x.baseline.isEmpty then d
  else (d.setQ q { x with baseline := groups16.map fun g => (g, 65536 * x.groupMargin g + 256 * x.tapOf g) }).nvRecord 4

/-- Share of the end-of-life allowance (R62). -/
def consumed (drift : Nat) : Nat := Nat.min 10000 (drift * 10000 / 900)

/-- The budget condition at the end of a replan (R39, R56). -/
def Dev.budgetEnd (d : Dev) (q : Nat) : Dev :=
  let r := (d.qr q).waveRate
  if r < 850 then
    (d.updQ q fun x => { x with budget := some (Nat.max d.admitWindowMin (64 * (256 * r / 850))) }).marginAlert q 3
  else (d.updQ q fun x => { x with budget := none }).admitWaiting

/-- The plan, the ageing sample and the stamp are recorded; a further replan follows when a trigger came meanwhile. -/
def Dev.planEnd (d : Dev) (q : Nat) : Dev :=
  let d0 := if d.pins.vreqDriven then d else d.vreqFrame q
  let d1 := d0.budgetEnd q
  let x := d1.qr q
  let age := x.drift
  let log : Bool := x.planCount = 0 || 86400 ≤ x.planLogAge
  let x2 := { x with
    wait := .none, again := false, planTap := x.tap, planWave := x.waveRate, planVreq := x.vreq
    planMargin := if x.wait = .backUp then [] else groups16.map fun g => (g, x.groupMargin g) 
    planned := true, ageing := age, lastPlan := d.stamp, planCount := x.planCount + 1
    planLogAge := if log then 0 else x.planLogAge, progress := { x.progress with state := 4, position := 16 } }
  let d2 := (d1.setQ q x2).nvRecord 4
  let d3 := if log then d2.lifeLog 2 q (BitVec.ofNat 64 age) else d2
  if x.again then d3.replan q else d3

/-- The draw predicted after a step of 5 mV stays within PowerLimit (R57): 0.1 W, 0.1 A and mV, all times V². -/
def Dev.stepAllowed (d : Dev) (q : Nat) : Bool :=
  let x := d.qr q
  let v := x.vreq
  decide (d.mg.powerAvg * 1000 * v ^ 2 + x.vcoreCur * x.vmeas * ((v + 5) ^ 2 - v ^ 2) ≤ 10 * x.sett.power * 1000 * v ^ 2)

/-- The loops of R56 after the taps are final. DESIGN CHOICE: VcoreMin bounds the step down alone, as the loop has it: a step
may end less than 5 mV below it, and raising it raises no request (R59; notes/assumptions 144). -/
def Dev.rateStep (d : Dev) (q : Nat) : Dev :=
  let x := d.qr q
  let plan := x.sett.rate
  let r := x.waveRate
  let go (y : Dev) (mv : Nat) (w : ReplanWait) (down : Bool) : Dev :=
    (y.updQ q fun z => { z with wait := w, down := down, retried := false }).vreqTo q mv
  if x.noChange then d.planEnd q
  else if x.down && r < plan then go d (Nat.min (x.vreq + 5) 850) .backUp true
  else if !x.down && r < plan && x.vreq < 850 && d.stepAllowed q then go d (x.vreq + 5) .up false
  else if 102 * plan ≤ 100 * r && x.sett.vmin < x.vreq then go d (x.vreq - 5) .down true
  else d.planEnd q

/-- The taps' part of a canary round, in a replan or a calibration. Every voltage step recomputes the taps, so the groups
are planned when the plan ends, or one by one where no voltage step can follow (R60; notes/assumptions 143). -/
def Dev.tapRound (d : Dev) (q : Nat) : Dev :=
  let x := d.qr q
  if x.wait ≠ .taps && x.wait ≠ .calib then d
  else
    let gs := groups16.filter fun g => !d.gated g
    let x1 := gs.foldl (fun y g => y.tapStep x.sett.target g) x
    let n := (groups16.filter fun g => x1.stageOf g = .final || d.gated g).length
    let d1 := d.setQ q (if x.wait = .taps && x.noChange then { x1 with progress := { x1.progress with position := n } } else x1)
    if n < 16 then d1
    else if x.wait = .calib then d1.updQ q fun y => { y with wait := .none }
    else
      let d2 := d1.firstBaseline q
      (if d2.pins.vreqDriven then d2 else d2.vreqFrame q).rateStep q

/-! ### Steps to a power state's level (R47, R53, R511, R512) -/

/-- The next 5 mV towards a level, or the end there. A quarter whose supply does not follow makes no change (R54;
notes/assumptions 149). -/
def Dev.walkStep (d : Dev) (q target : Nat) : Dev :=
  let x := d.qr q
  if x.noChange || x.vreq = target || !x.emGroups.isEmpty then d.updQ q fun y => { y with wait := .none }
  else
    (d.updQ q fun y => { y with wait := .walk target, retried := false }).vreqTo q
      (if x.vreq < target then Nat.min target (x.vreq + 5) else Nat.max target (x.vreq - 5))

def ReplanWait.walks : ReplanWait → Bool
  | .walk _ => true
  | _ => false

/-- A quarter still steps to a power state's level. -/
def Dev.walking (d : Dev) : Bool := (List.range 4).any fun q => (d.qr q).wait.walks

/-- VOLT_STEP_SETTLE (R53, R54). -/
def Dev.voltSettle (d : Dev) (q mv : Nat) : Dev :=
  let x := d.qr q
  if x.wait = .none || x.wait = .taps || x.wait = .calib then d
  else
    let d1 := d.updQ q fun y => { y with vmeas := mv }
    if x.vreq ≤ mv + 10 && mv ≤ x.vreq + 10 then
      match x.wait with
      | .backUp => d1.planEnd q
      | .walk t => d1.walkStep q t
      | _ => d1.updQ q fun y => { y with wait := .taps, stage := [], retried := false }
    else if !x.retried then (d1.updQ q fun y => { y with retried := true }).vreqFrame q
    else
      let near := Nat.min 850 (Nat.max 600 ((mv + 2) / 5 * 5))
      (d1.updQ q fun y => { y with
        vreq := near, noChange := true, wait := if x.wait.walks then .none else .taps, stage := [], retried := false }).marginAlert q 2

/-! ### Emergencies (R63-R65) -/

/-- An answer of the quarter's ingress agent with status MARGIN_SUSPECT (R428, R478). -/
def Dev.suspectAnswer (d : Dev) (w : List Word64) : Dev :=
  if tmType w = mtLookup then d.rowAnswer w stMarginSuspect
  else if tmType w = mtBkrd then d.sendMsg (mkMsg mtBkdata (tmSrc w) d.devId (tmTxid w) (stMarginSuspect * 2 ^ 40) [])
  else d.ackMsg w stMarginSuspect

/-- A peer's request, named by its source and TXID, that ingress agent q was serving (group 11): what it has not answered is
answered with MARGIN_SUSPECT, and a bulk write that waits for the host will be. -/
def Dev.suspectPeer (d : Dev) (q : Nat) (id : DescId) : Dev :=
  match d.tr.inbox.find? fun m => msgQuarter m = q && tmVc m.words ≠ 1 && tmVc m.words ≠ 5 && peerWrite m.words = id with
  | some m => (d.tookMsg m).suspectAnswer m.words
  | none => { d with tr := { d.tr with acks := d.tr.acks.map fun a => if a.id = id then { a with status := stMarginSuspect } else a } }

/-- Operations marked by MARGIN_SUSPECT end at the position given (R478). -/
def Dev.endSuspect (q g : Nat) (d : Dev) (p : DescId × Nat) : Dev :=
  match d.run p.1 with
  | none => if g = 11 then d.suspectPeer q p.1 else d
  | some r =>
    if descType r.w = tyKernel then
      match r.team with
      | some t => d.teamStop t stMarginSuspect
      | none => d
    else if descType r.w = tyMigrate then d.failMigr p.1 stMarginSuspect
    else ((d.updRun p.1 fun x => { x with pos := p.2 }).endRun p.1 stMarginSuspect).admitWaiting

/-- Group 7: the side buffers of the quarter's slices are emptied (R301, Table 9.5). -/
def Dev.emptySides (d : Dev) (q : Nat) : Dev :=
  (List.range 16).foldl (fun e j =>
    if (e.cache (16 * q + j)).side.isEmpty then e else e.updCache (16 * q + j) fun c => { c with side := [] }) d

/-- A home's transaction of a host read whose data has been read through the failing group of quarter q's controllers (8 or 9)
and has not left the block: it is sent poisoned (R478). -/
def Dev.suspectReads (d : Dev) (q g : Nat) : Dev :=
  let dram (line : Nat) : Bool := isDram (lineDpa line)
  let through (line : Nat) : Bool := isTier (lineDpa line) && ((g = 8 && dram line) || (g = 9 && !dram line)) &&
    quarterOfHome (d.homeOf (lineDpa line)) = q && d.net.any fun m => match m with
      | .mem r => r.kind = .data && r.line = line
      | _ => false
  { d with homes := Map.mapVals (fun _ (h : Home) => { h with txns := Map.mapVals (fun _ (o : Option Txn) => o.map fun t =>
      if t.req.src = hostAgent && through t.req.line then { t with suspect := true } else t) h.txns }) d.homes }

/-- Groups 8 and 9: a write the group's controllers accepted in the window and that fails its read-back is handled as an
uncorrectable sector (R240, Table 7.5). The cause its log entry gives is open (notes/assumptions 120). -/
def Dev.readBackBad (d : Dev) (q g sector : Nat) : Dev :=
  let dpa := 64 * sector
  if isTier dpa && quarterOfHome (d.homeOf dpa) = q && ((g = 8 && isDram dpa) || (g = 9 && !isDram dpa)) then
    d.upkeepBad sector (Config.readBackCause sector).toNat
  else d

/-- CANARY_FAIL: the canary's latch, the emergency's steps 2 to 5, the suspect work, and what the group's own units do.
`reads` counts the host reads delivered in the window, `bad` names the sectors whose read-back failed; suspect work is named by descriptor, a peer's request by its source and TXID. DESIGN CHOICE: a
further failure of a group that the emergency already has sets its latch and nothing more (R63; notes/assumptions 145); one
after restoration, with the gate not yet open, is an emergency of its own, with that group alone (R65; 146). -/
def Dev.canaryFail (d : Dev) (q g i : Nat) (suspects : List (DescId × Nat)) (reads : Nat) (bad : List Nat) : Dev :=
  let x := d.qr q
  if d.quarterInReset q || d.gated g then d
  else
    let d0 := d.setQ q { x with latch := Map.put x.latch (4 * g + i) true }
    if x.emGroups.contains g && !x.emRestored then d0
    else
      let first := x.emGroups.isEmpty || x.emRestored
      let d1 := d0.updQ q fun y =>
        let y1 := y.setTap g (y.tapOf g + 4)
        if first then { y1 with
          gateDiv := 16, emGroups := [g], emGood := 0, emRestored := false, again := false, wait := .none
          progress := if x.wait.plans then { y.progress with state := 6 } else y.progress }
        else { y1 with emGroups := y.emGroups ++ [g], emGood := 0 }
      let d2 := if first then d1.vreqTo q (Nat.min 850 (x.vreq + 20)) else d1
      let d3 := (d2.marginAlert q 1).fault (mkFault (0x3E8 + q) .fatal 0x04 (g + 65536 * Nat.min 65535 reads))
      let d4 := (suspects.foldl (Dev.endSuspect q g) d3).suspectReads q g
      let d5 := if g = 7 then d4.emptySides q else d4
      bad.foldl (fun e sector => e.readBackBad q g sector) d5

/-- An emergency's part of a canary round: two consecutive good reads of every group restore the margin. -/
def Dev.emergencyRound (d : Dev) (q : Nat) : Dev :=
  let x := d.qr q
  if x.emGroups.isEmpty || x.emRestored then d
  else
    let good := x.emGroups.all fun g => x.sett.alert ≤ x.groupMargin g
    d.setQ q { x with emGood := if good then x.emGood + 1 else 0, emRestored := good && 1 ≤ x.emGood }

/-- MARGIN_DEADLINE. -/
def Dev.marginDeadline (d : Dev) (q : Nat) : Dev :=
  let x := d.qr q
  if x.emGroups.isEmpty || x.emRestored then d
  else d.trigger { source := .margin, origin := .none, subject := 0x3E8 + q, info := 0 }

/-- ISSUE_GATE_DOUBLE; fully open, the emergency is over and a replan follows, or in a gated state the way back to its
level. -/
def Dev.gateDouble (d : Dev) (q : Nat) : Dev :=
  let x := d.qr q
  if !x.emRestored || x.gateDiv ≤ 1 then d
  else if x.gateDiv ≤ 2 then
    let d1 := (d.setQ q { x with gateDiv := 1, emGroups := [], emRestored := false, emGood := 0, latch := [] }).admitWaiting
    if d.gatedNow then d1.walkStep q (if d.pwr.exiting then x.planVreq else 600) else d1.replan q
  else (d.setQ q { x with gateDiv := x.gateDiv / 2 }).admitWaiting

/-! ### The canary read round (R49, R55) -/

/-- A figure moved from its planned value by more than the ReplanDriftLimit in force. -/
def Quarter.drifted (x : Quarter) (now plan : Nat) : Bool :=
  decide (plan * x.sett.drift < 10000 * (if now < plan then plan - now else now - plan))

/-- A powered canary reads below MarginAlertLevel, or a group's margin or the rate has left its planned value (R55). A
figure is held against the plan where it was read at the plan's settings (notes/assumptions 142). -/
def Dev.planTrigger (d : Dev) (q : Nat) : Bool :=
  let x := d.qr q
  let gs := groups16.filter fun g => !d.gated g
  let same (g : Nat) : Bool := x.tapOf g = Map.get 31 x.planTap g
  let low := gs.any fun g => x.groupMargin g < x.sett.alert
  let moved := x.vreq = x.planVreq && !x.planMargin.isEmpty &&
    ((groups16.all same && x.drifted x.waveRate x.planWave) ||
      gs.any fun g => same g && x.drifted (x.groupMargin g) (Map.get 0 x.planMargin g))
  x.planned && (low || moved)

/-- Planned values that the plan's own readings could not give are those of the first round at its settings. -/
def Quarter.planRead (x : Quarter) : Quarter :=
  if x.planned && x.planMargin.isEmpty && x.wait = .none && x.vreq = x.planVreq then
    { x with planMargin := groups16.map fun g => (g, x.groupMargin g), planWave := x.waveRate }
  else x

/-- CANARY_READ_ROUND: margins of the powered groups by canary 4 g + i, and the rate of the launch counts in M waves/s. A
trigger that stands outside a replan starts one; one that comes up during a replan is kept for after it. -/
def Dev.canaryRound (d : Dev) (q : Nat) (ms : List Nat) (rate : Nat) : Dev :=
  if d.quarterInReset q then d
  else
    let read := (List.range 64).filter fun k => !d.gated (k / 4)
    let d1 := d.updQ q fun x => Quarter.planRead { x with
      margin := read.foldl (fun m k => Map.put m k (ms.getD k 0)) x.margin, waveRate := rate
      readVolt := x.vmeas, readTemp := x.junctionMax }
    let now := d1.planTrigger q
    let d2 := ((d1.updQ q fun x => { x with trigger := now }).emergencyRound q).tapRound q
    if now && ((d1.qr q).wait = .none || !(d.qr q).trigger) then d2.replan q else d2

/-- REPLAN_INTERVAL: the scheduled replan, which may change a request again once it begins (R54). -/
def Dev.replanDue (d : Dev) (q : Nat) : Dev := (d.updQ q fun x => { x with schedDue := true }).replan q

/-! ### Power, throttle, clock -/

/-- POWER_LIMITER_WINDOW (R58): the average in 0.1 W. -/
def Dev.powerWindow (d : Dev) (avg : Nat) : Dev :=
  let m := d.mg
  let lim := 10 * d.powerLimit
  let req := if 98 * lim ≤ 100 * avg then Nat.max d.admitWindowMin (m.limiter / 2)
    else if 100 * avg < 95 * lim then Nat.min 16384 (2 * m.limiter) else m.limiter
  { d with mg := { m with powerAvg := avg, powerPeak := Nat.max m.powerPeak avg, limiter := req } }.admitWaiting

/-- AGEING_BEYOND_RATING (R62). -/
def Dev.ageingAlert (d : Dev) (q : Nat) : Dev :=
  if consumed (d.qr q).ageing = 10000 then (d.marginAlert q 4).lifeLog 8 q (BitVec.ofNat 64 (d.qr q).ageing) else d

/-- REFCLK_LOST and REFCLK_RETURN (R72). -/
def Dev.refLost (d : Dev) (q : Nat) : Dev :=
  if (d.qr q).refLost then d
  else
    let d1 := (d.updQ q fun x => { x with refLost := true }).fault (mkFault (0x3E8 + q) .critical 0x11 0)
    { d1 with mg := { d1.mg with synced := false } }

/-- Edges return: with every quarter's back, the counts go on from where they stopped. -/
def Dev.refBack (d : Dev) (q : Nat) : Dev := d.updQ q fun x => { x with refLost := false }

/-- VREQ_REPEAT (R494). -/
def Dev.vreqRepeat (d : Dev) : Dev :=
  if d.pins.vreqDriven then (List.range 4).foldl (fun (e : Dev) q => e.vreqFrame q) d else d

/-- THROTTLE_N released: admission reopens, tile units with work restart by the launch stagger (R69, R496). -/
def Dev.throttleOff (d : Dev) : Dev :=
  if !d.pins.throttle then d
  else
    let d1 := { d with pins := { d.pins with throttle := false } }
    ((List.range 4).foldl (fun (e : Dev) q =>
      let busy := (e.cores.filter fun p => quarterOfCore p.1 = q && !p.2.tileQ.isEmpty).map (·.1)
      e.updQ q fun x => { x with restart := busy }) d1).admitWaiting

/-- SENSOR_SAMPLE (R454, R455): supplies, currents, temperatures. -/
def Dev.sensorSample (d : Dev) (m : Sensors) : Dev :=
  let qs := (List.range 4).zip m.quarters
  let d1 := qs.foldl (fun (e : Dev) p =>
    let (sram, io, core, cur, tmax, tmean) := p.2
    e.updQ p.1 fun x => { x with
      vddSram := sram, vddIo := io, vmeas := core, vcoreCur := cur, junctionMax := tmax, junctionMean := tmean }) d
  let d2 := ((List.range 8).zip m.stackT).foldl (fun (e : Dev) p => e.updStack p.1 fun x => { x with temp := p.2 }) d1
  let d3 := ((List.range 64).zip m.dieT).foldl (fun (e : Dev) p =>
    (e.updDie p.1 fun x => { x with temp := p.2, sweepMax := max x.sweepMax p.2 }).overtemp p.1) d2
  { d3 with mg := { d3.mg with vbk := m.vbk } }

/-! ### Meanings -/

def execCanaryReadRound (q : QuarterId) (margins : List Nat) (rate : Nat) (s : State) : Host.Outcome State Fault Refusal :=
  s.timed (s.dev.canaryRound q.val margins rate)
def execCanaryFail (q : QuarterId) (g : Fin 16) (i : Fin 4) (suspects : List (DescId × Nat)) (reads : Nat)
    (bad : List Nat) (s : State) : Host.Outcome State Fault Refusal :=
  s.goes (s.dev.canaryFail q.val g.val i.val suspects reads bad)
def execMarginDeadline (q : QuarterId) (s : State) : Host.Outcome State Fault Refusal := s.timed (s.dev.marginDeadline q.val)
def execIssueGateDouble (q : QuarterId) (s : State) : Host.Outcome State Fault Refusal := s.timed (s.dev.gateDouble q.val)
def execReplanInterval (q : QuarterId) (s : State) : Host.Outcome State Fault Refusal := s.timed (s.dev.replanDue q.val)
def execVoltStepSettle (q : QuarterId) (measured : Nat) (s : State) : Host.Outcome State Fault Refusal :=
  s.timed (s.dev.voltSettle q.val measured)
def execPowerLimiterWindow (avg : Nat) (s : State) : Host.Outcome State Fault Refusal := s.timed (s.dev.powerWindow avg)
def execAgeingBeyondRating (q : QuarterId) (s : State) : Host.Outcome State Fault Refusal := s.timed (s.dev.ageingAlert q.val)
def execRefclkLost (q : QuarterId) (s : State) : Host.Outcome State Fault Refusal := s.goes (s.dev.refLost q.val)
def execRefclkReturn (q : QuarterId) (s : State) : Host.Outcome State Fault Refusal := s.goes (s.dev.refBack q.val)
def execVreqRepeat (s : State) : Host.Outcome State Fault Refusal := s.timed s.dev.vreqRepeat
def execThrottleNAssert (s : State) : Host.Outcome State Fault Refusal :=
  s.goes { s.dev with pins := { s.dev.pins with throttle := true } }
def execThrottleNRelease (s : State) : Host.Outcome State Fault Refusal := s.goes s.dev.throttleOff
def execSensorSample (m : Sensors) (s : State) : Host.Outcome State Fault Refusal := s.goes (s.dev.sensorSample m)

end Sys2Proof.Machine
end

