-- ==== Sys2Proof/Machine/Mailbox.lean ====
section
/-! DEFINITION. The Demitasse mailbox after its trigger (R374-R377): delivery, limit, reply; GSUB's entry (R177). -/

namespace Sys2Proof.Machine

def Mailbox.word (x : Mailbox) (i : Nat) : Nat := leNat ((x.copy.drop (8 * i)).take 8)

/-- A message is refused or timed out: REFUSED_EV, PENDING clears, a reply is owed (R375). -/
def Dev.refuseMessage (d : Dev) (m st : Nat) : Dev :=
  let x := d.mailbox m
  d.setMailbox m { x with refEv := true, pending := false, answer := some (st, []), answerSeq := x.lastSeq }

/-- Physical core of a CORE mailbox, when it runs a kernel of the mailbox's context. -/
def Dev.mailboxCore (d : Dev) (x : Mailbox) : Option Nat :=
  match d.physical x.target with
  | some c => if (d.core c).status = .running && (d.core c).ctx = x.ctx && 256 * x.slot + 256 ≤ (d.core c).scratchSize then some c else none
  | none => none

/-- Words of an inline list up to its first pad: their number and the 128 bytes as 32-bit words. -/
def inlineList (idx32 : Bool) (bs : List Byte) : Nat × List Word32 :=
  let ws := (List.range 32).map fun i => BitVec.ofNat 32 (leAt bs (4 * i) 4)
  let wd := if idx32 then 4 else 8
  let n := if idx32 then 32 else 16
  (((List.range n).find? fun i => isPad idx32 (leAt bs (wd * i) wd)).getD n, ws)

/-- A GRINDER message becomes a GATHER that the target Grinder serves alone (R376). -/
def mailboxGather (m : Nat) : Eng Unit := do
  let d ← get
  let x := d.mailbox m
  let w := bytesWords 8 ((x.copy.drop 64).take 64)
  let op := field (x.word 0) 40 8
  let inline := op = 2
  let id : DescId := { queue := mbxQueue m, index := x.lastSeq }
  let (n, ws) := inlineList (gaIdx32 w) ((x.copy.drop 128).take 128)
  let handed (e : Dev) : Dev := { e with cp := { e.cp with messages := e.cp.messages + 1 } }
  if (op ≠ 1 && !inline) || descType w ≠ tyGather || qBits w 0 48 8 ≠ 0 || qBits w 0 16 16 ≠ 0 then
    set ((handed d).setMailbox m { x with refEv := op ≠ 1 && !inline, answer := some (stFormat, []), answerSeq := x.lastSeq })
  else
    -- SCOPE is ignored: the check sees it as 0
    let w0 := w.set 5 (qWord w 5 &&& ~~~(packBits [(30, 3, 7)]))
    match ← checkGather w0 x.ctx (if inline then some n else none) false [] with
    | .error st => modify fun (e : Dev) =>
        let r := mkRun id w x.ctx 1 e.now (Checked.ofNotes .none)
        ((handed e).countRefusal st).setMailbox m { x with answer := some (st, r.record st 0 true), answerSeq := x.lastSeq }
    | .ok (nt, k, ep) => modify fun (e : Dev) =>
        let c : Checked := { notes := nt, param := if inline then ws else [], epoch := ep, x := k }
        let r0 := mkRun id w0 x.ctx 1 e.now c
        let r1 := (r0.setCount gcInline (bit inline)).setCount gcGrinder (x.target % 64 + 1)
        (handed e).addRun { r1 with stage := .admitted, seq := e.cp.nextSeq }

/-- MAILBOX_DELIVERY. -/
def Dev.deliverMailbox (d : Dev) (m : Nat) : Dev :=
  let x := d.mailbox m
  if !x.pending || x.answer.isSome then d
  else if x.kind then
    if d.cp.runs.any fun r => r.id.queue = mbxQueue m then d else d.engine (mailboxGather m)
  else
    match d.mailboxCore x with
    | none => d.refuseMessage m stRefusedBusy
    | some c =>
      let k := d.core c
      let o := 256 * x.slot
      if k.scratchNat o 8 ≠ 0 then d
      else
        let e := (d.setCore c (k.putScratch o x.copy)).setMailbox m { x with pending := false }
        { e with cp := { e.cp with messages := e.cp.messages + 1 } }

/-- MBX_WAIT_LIMIT wins while the slot's word is still not zero (R375). -/
def Dev.mailboxLimit (d : Dev) (m : Nat) : Dev :=
  let x := d.mailbox m
  if !x.pending || x.kind then d
  else
    match d.mailboxCore x with
    | some c => if (d.core c).scratchNat (256 * x.slot) 8 ≠ 0 then d.refuseMessage m stTimeout else d
    | none => d.refuseMessage m stTimeout

/-- One full line to REPLY_HPA (R377). PENDING of a GRINDER message clears with its reply; of a CORE message it cleared at
the refusal (R375, R376). -/
def replyStep (m : Nat) : Eng Unit := do
  let d ← get
  let x := d.mailbox m
  match x.answer with
  | none => return
  | some (st, rec') =>
    let q0 := packBits [(48, 16, x.answerSeq), (40, 8, st)]
    let ws := q0 :: (rec' ++ List.replicate (7 - rec'.length) 0)
    let _ ← engWrite (ctrlAcc [] none) ((hostDpa + x.reply) / 64) (Sector.ofBytes (wordBytes ws)) (BitVec.allOnes 64) false 0 0
    modify fun (e : Dev) => e.setMailbox m { e.mailbox m with answer := none, pending := x.pending && !x.kind }

/-- MAILBOX_REPLY. -/
def Dev.replyMailbox (d : Dev) (m : Nat) : Dev := d.engine (replyStep m)

/-- Writes of QDB_MBX_CFG, QDB_MBX_REPLY and QDB_MBX_STATUS (R373). -/
def Dev.writeMailbox (d : Dev) (m i : Nat) (v : Word64) : Dev :=
  let x := d.mailbox m
  match i with
  | 0 =>
    if x.enable && v.getLsbD 63 then d
    else d.setMailbox m { x with enable := v.getLsbD 63, kind := v.getLsbD 62, ctx := (v.extractLsb' 50 12).toNat,
                                 target := (v.extractLsb' 42 8).toNat, slot := (v.extractLsb' 31 11).toNat }
  | 1 => if x.enable then d else d.setMailbox m { x with reply := (v.extractLsb' 6 46).toNat * 64 }
  | 2 => d.setMailbox m { x with overEv := x.overEv && !v.getLsbD 1, refEv := x.refEv && !v.getLsbD 0 }
  | _ => d

def execMailboxDelivery (mb : MailboxId) (s : State) : Host.Outcome State Fault Refusal := s.goes (s.dev.deliverMailbox mb.val)
def execMbxWaitLimit (mb : MailboxId) (s : State) : Host.Outcome State Fault Refusal := s.timed (s.dev.mailboxLimit mb.val)
def execMailboxReply (mb : MailboxId) (s : State) : Host.Outcome State Fault Refusal := s.goes (s.dev.replyMailbox mb.val)

end Sys2Proof.Machine
end

