-- ==== Sys2Proof/Machine/Segment.lean ====
section
/-! DEFINITION. Segment records and REVOKE (R327-R340). -/

namespace Sys2Proof.Machine

/-! ### Validation (R330, Table 11.3) -/

/-- First and last interleave group a tier segment touches, counted within its tier. -/
def SegRec.groups (r : SegRec) : List Nat :=
  let b := if r.target = 0 then 0 else resDpa
  let g0 := (r.dpa 0 - b) / 2 ^ 32
  let g1 := (r.dpa r.limit - b) / 2 ^ 32
  (List.range (g1 + 1 - g0)).map (g0 + ·)

/-- The codes 1 to 6 of Table 11.3 in order; none when every check passes. -/
def Dev.segErr (d : Dev) (ctx : Nat) (r : SegRec) : Option Nat :=
  let tier := r.target ≤ 1
  let unit := if tier then 2 ^ 21 else 4096
  let inTier (x : Nat) : Bool := if r.target = 0 then isDram x else isRes x
  let ilv := if r.target = 0 then d.ilvDram else d.ilvRes
  if 4 < r.target || (r.target = 4 && ctx ≠ 0) || (r.target = 3 && r.peerDev = d.devId) then some 1
  else if r.base % unit ≠ 0 || (r.limit + 1) % unit ≠ 0 then some 2
  else if (tier && !(inTier (r.dpa 0) && inTier (r.dpa r.limit))) || (r.target = 2 && 2 ^ 52 - 1 < r.base + r.limit) ||
      (r.target = 4 && 2 ^ 40 ≤ r.base + r.limit) then some 3
  else if tier && r.groups.any fun g => ilv.testBit g != r.ilv then some 4
  else if ctx ≠ 0 && r.target = 0 && d.ownedFrom ≤ r.dpa r.limit then some 5
  else if r.rtype = 3 || (r.ilv && !tier) then some 6
  else none

def Dev.revoking (d : Dev) (ctx s : Nat) : Bool := d.segs.revokes.any fun x => x.ctx = ctx && x.seg = s

/-- A refused write: ERR holds the code, and it is counted. -/
def Dev.segRefuse (d : Dev) (ctx s : Nat) (r : SegRec) (code : Nat) : Dev :=
  let d1 := d.setSeg ctx s { r with err := code }
  { d1 with segs := { d1.segs with writesRefused := d1.segs.writesRefused + 1 } }

/-- Context 0 records are persisted as they are validated (R505). -/
def Dev.segKeep (d : Dev) (ctx s : Nat) (r : SegRec) : Dev :=
  if ctx = 0 then { d with segs := { d.segs with saved := Map.put d.segs.saved s (some r) } } else d

/-- Fields of SEG_ATTR as written. -/
def SegRec.withAttr (r : SegRec) (v : Word64) : SegRec :=
  { r with target := (v.extractLsb' 60 3).toNat, read := v.getLsbD 59, write := v.getLsbD 58, exec := v.getLsbD 57,
           atomic := v.getLsbD 56, update := v.getLsbD 55, rtype := (v.extractLsb' 53 2).toNat, ilv := v.getLsbD 52,
           peerDev := (v.extractLsb' 16 16).toNat, remCtx := (v.extractLsb' 4 12).toNat, remSeg := (v.extractLsb' 0 3).toNat }

/-- HOMEQ, derived at validation (R332). -/
def SegRec.homeQuarter (r : SegRec) : Nat :=
  if r.ilv then field (r.base - (if r.target = 0 then 0 else resDpa)) 30 2 else 0

/-- A write of SEG_ATTR (R330, R331). -/
def Dev.writeSegAttr (d : Dev) (ctx s : Nat) (v : Word64) : Dev :=
  let r := d.seg ctx s
  let n := r.withAttr v
  if r.valid then d.segRefuse ctx s r 7
  else if !v.getLsbD 63 then d.setSeg ctx s n
  else match d.segErr ctx n with
    | some e => d.segRefuse ctx s n e
    | none =>
      if d.revoking ctx s then d.segRefuse ctx s n 8
      else
        let m : SegRec := { n with valid := true, homeq := n.homeQuarter }
        (d.setSeg ctx s m).segKeep ctx s m

/-- A write of SEG_LIMIT (R331, Table 11.6). -/
def Dev.writeSegLimit (d : Dev) (ctx s : Nat) (v : Word64) : Dev :=
  let r := d.seg ctx s
  let n : SegRec := { r with limit := (v.extractLsb' 0 48).toNat }
  if !r.valid then d.setSeg ctx s n
  else if r.limit < n.limit && (d.segErr ctx n).isNone then (d.setSeg ctx s n).segKeep ctx s n
  else d.segRefuse ctx s r 7

/-- A write of SEG_BASE (R331). -/
def Dev.writeSegBase (d : Dev) (ctx s : Nat) (v : Word64) : Dev :=
  let r := d.seg ctx s
  if r.valid then d.segRefuse ctx s r 7 else d.setSeg ctx s { r with base := (v.extractLsb' 0 56).toNat }

/-- A write of CTX_CTRL; context 0's is ignored. Heads of a context made valid may be admitted (R328). -/
def Dev.writeCtxCtrl (d : Dev) (ctx : Nat) (v : Word64) : Dev :=
  if ctx = 0 then d
  else ({ d with segs := { d.segs with ctxs := Map.put d.segs.ctxs ctx { valid := v.getLsbD 0, peerExport := v.extractLsb' 8 8 } } } :
    Dev).admitWaiting

/-! ### REVOKE (R336) -/

/-- The running REVOKE of a segment. -/
def Dev.revokeOf (d : Dev) (ctx s : Nat) : Option Revoke := d.segs.revokes.find? fun x => x.ctx = ctx && x.seg = s && x.step ≠ 0

def Dev.updRevoke (d : Dev) (id : DescId) (f : Revoke → Revoke) : Dev :=
  { d with segs := { d.segs with revokes := d.segs.revokes.map fun x => if x.desc = id then f x else x } }

def nextGen (g : Nat) : Nat := (g + 1) % 16

/-- Agents that issue tagged requests (step 4). -/
def taggedAgents : List Nat :=
  List.range 272 ++ (List.range 64).map (0x200 + ·) ++ (List.range 32).map (0x280 + ·) ++ (List.range 64).map (0x180 + ·) ++
    (List.range 4).map (0x2C0 + ·) ++ (List.range 64).map (0x300 + ·)

/-- REVOKE: step 2. A holder of the next generation makes it wait, and the wait is noted. -/
def Dev.revoke (d : Dev) (id : DescId) : Dev :=
  match d.run id, d.segs.revokes.find? fun x => x.desc = id with
  | some r, some v =>
    if !r.live || v.step ≠ 1 then d
    else
      let d1 := d.updRun id fun y => { y with stage := .running }
      if 0 < d.holders v.ctx v.seg (nextGen (d.gen v.ctx v.seg)) then
        if v.waited then d1
        else
          let d2 := (d1.updRevoke id fun x => { x with waited := true }).updRun id fun y => y.setCount 5 (d.now.toNat + 1)
          { d2 with segs := { d2.segs with holderWaits := d2.segs.holderWaits + 1 } }
      else
        (d1.updRevoke id fun x => { x with step := 2 }).updRun id fun y =>
          y.setCount 0 (if y.count 5 = 0 then 0 else d.now.toNat + 1 - y.count 5)
  | _, _ => d

/-- GENERATION_BUMP: step 3 in the control plane; every copy is to follow. -/
def Dev.genBump (d : Dev) (ctx s : Nat) : Dev :=
  match d.revokeOf ctx s with
  | some v =>
    if v.step ≠ 2 || 0 < d.holders ctx s (nextGen (d.gen ctx s)) then d
    else
      let d1 := d.updRevoke v.desc fun x => { x with step := 3, copies := List.range 140 }
      { d1 with segs := { d1.segs with gen := Map.put d1.segs.gen (8 * ctx + s) (d.genRaw (nextGen (d.gen ctx s))) } }
  | none => d

/-- Every core that runs a kernel of the context marks the segment in its copy (R334). -/
def Dev.markRevoked (d : Dev) (ctx s g : Nat) : Dev :=
  { d with cores := Map.mapVals (fun _ (k : Core) =>
      if k.ctx = ctx && k.team.isSome && Map.get 0 k.gens s = g then { k with revoked := Map.put k.revoked s true } else k) d.cores }

/-- GENERATION_COPY_ACK: a copy has changed; with the last, step 4 sends the drain markers. -/
def Dev.genAck (d : Dev) (ctx s copy : Nat) : Dev :=
  match d.revokeOf ctx s with
  | some v =>
    if v.step ≠ 3 || !v.copies.contains copy then d
    else
      let g := d.gen ctx s
      let rest := v.copies.filter (· ≠ copy)
      let d1 := { d with segs := { d.segs with copies := Map.put d.segs.copies (32768 * copy + 8 * ctx + s) (d.genRaw g) } }
      let d2 := d1.updRevoke v.desc fun x =>
        { x with copies := rest, step := if rest.isEmpty then 4 else 3, markers := if rest.isEmpty then taggedAgents else [] }
      if rest.isEmpty then d2.markRevoked ctx s ((g + 15) % 16) else d2
  | none => d

/-- A request of an agent through the segment still has no response. -/
def Dev.outstanding (d : Dev) (agent ctx s : Nat) : Bool :=
  let mine (m : ReqMsg) : Bool := m.src = agent && m.ctx = ctx && m.seg = s
  (d.net.any fun m => match m with
    | .req q => mine q
    | .rsp q => q.dst = agent && agent < 272 && (d.core agent).ctx = ctx
    | _ => false) ||
  (d.homes.any fun p => (p.2.queue.any fun w => mine w.req) || p.2.txns.any fun x => match x.2 with
    | some t => mine t.req
    | none => false)

/-- A REVOKE completes; the next of the same segment begins (step 5, R339). -/
def Dev.revokeDone (d : Dev) (v : Revoke) : Dev :=
  let d1 := (d.updRun v.desc fun r => r.setCount 1 v.rejects).endRun v.desc stOk
  let rest := d1.segs.revokes.filter fun x => x.desc ≠ v.desc
  let d2 := { d1 with segs := { d1.segs with revokes := rest, revokesDone := d1.segs.revokesDone + 1 } }
  match rest.find? fun x => x.ctx = v.ctx && x.seg = v.seg with
  | some n =>
    let d3 := d2.updRevoke n.desc fun x => { x with step := 1 }
    let d4 := d3.setSeg v.ctx v.seg { d3.seg v.ctx v.seg with valid := false }
    if v.ctx = 0 then { d4 with segs := { d4.segs with saved := Map.put d4.segs.saved v.seg none } } else d4
  | none => d2

/-- DRAIN_MARKER_ANSWER: an agent answers once every request it sent has its response. -/
def Dev.markerAnswer (d : Dev) (ctx s agent : Nat) : Dev :=
  match d.revokeOf ctx s with
  | some v =>
    if v.step ≠ 4 || !v.markers.contains agent || d.outstanding agent ctx s then d
    else
      let rest := v.markers.filter (· ≠ agent)
      if rest.isEmpty then d.revokeDone { v with markers := [] }
      else d.updRevoke v.desc fun x => { x with markers := rest }
  | none => d

/-! ### Meanings -/

/-- SEG_VALIDATE: a write of SEG_ATTR with VALID set. -/
def execSegValidate (src : RegSource) (ctx : CtxId) (seg : SegNo) (value : Word64) (s : State) : Host.Outcome State Fault Refusal :=
  s.goes (s.dev.cpReg src fun d => d.writeSegAttr ctx.val seg.val (value ||| 0x8000000000000000#64))
def execSegLimitWrite (src : RegSource) (ctx : CtxId) (seg : SegNo) (value : Word64) (s : State) : Host.Outcome State Fault Refusal :=
  s.goes (s.dev.cpReg src fun d => d.writeSegLimit ctx.val seg.val value)
def execRevoke (d : DescId) (s : State) : Host.Outcome State Fault Refusal := s.goes (s.dev.revoke d)
def execGenerationBump (ctx : CtxId) (seg : SegNo) (s : State) : Host.Outcome State Fault Refusal := s.goes (s.dev.genBump ctx.val seg.val)
def execGenerationCopyAck (ctx : CtxId) (seg : SegNo) (copy : Nat) (s : State) : Host.Outcome State Fault Refusal :=
  s.goes (s.dev.genAck ctx.val seg.val copy)
def execDrainMarkerAnswer (ctx : CtxId) (seg : SegNo) (agent : Nat) (s : State) : Host.Outcome State Fault Refusal :=
  s.goes (s.dev.markerAnswer ctx.val seg.val agent)

end Sys2Proof.Machine
end

