-- ==== Sys2Proof/Machine/Reset.lean ====
section
/-! DEFINITION. Fault records and their clearing (R465-R470), the reset controller: sources and reach (R471-R473), the
sequence of Table 16.7 and host loss (Table 13.7), critical and isolating resets (R477-R480), the watchdog (R481), the
backup domain and the NV interlock (R482, R483), cold start (R500-R506). -/

namespace Sys2Proof

def allDomains : List Sys2Proof.Machine.Domain := [.mg, .mem, .tl, .hl, .cp, .ex, .ch]

/-- Management and context 0 write the registers that BAR0 does not hold (R485). -/
def innerWriter (src : RegSource) : Bool := src = .management || src = .context0

end Sys2Proof

namespace Sys2Proof.Machine

/-! ### Fault records (R466, R468, R470) -/

/-- FaultClear. -/
def Dev.faultClear (d : Dev) (v : Nat) : Dev :=
  let colls := (List.range 4).foldl (fun m q =>
    let k := Map.get Collector.reset m q
    let k1 := if v.testBit 2 then { k with overrun := false } else k
    Map.put m q (if v.testBit 3 then { k1 with critEv := false, fatalEv := false, alertEv := false } else k1)) d.flt.coll
  let slots := if v.testBit 2 then Map.mapVals (fun _ (x : SrcSlot) => { x with overrun := false }) d.flt.slots else d.flt.slots
  let f := { d.flt with
    coll := colls, slots := slots, pinFault := d.flt.pinFault && !v.testBit 0, pinMargin := d.flt.pinMargin && !v.testBit 1 }
  { d with flt := f }.refreshPins

def Dev.faultPinDrive (d : Dev) (v : Bool) : Dev :=
  { d with mg := { d.mg with vals := Map.put d.mg.vals 0x801100 (bit v) } }.refreshPins

/-- VALID of a source cleared: its slot is free (R466). -/
def Dev.srcClear (d : Dev) (src : RegSource) (code : Nat) : Dev :=
  if innerWriter src then
    { d with flt := { d.flt with slots := Map.put d.flt.slots code { d.slot code with msg := none } } }.refreshPins
  else d

/-- FLT_INJECT (R470). -/
def Dev.inject (d : Dev) (src : RegSource) (v : Word64) : Dev :=
  if !innerWriter src then d
  else
    let chk := (v.extractLsb' 60 3).toNat
    let sym := (v.extractLsb' 58 2).toNat
    let crit := (chk = 2 && sym = 3) || chk = 3
    let bad := v.getLsbD 63 && (4 ≤ chk || sym = 0 || (crit && d.od 0x800005 0 = 0))
    if bad then { d with flt := { d.flt with coll := Map.put d.flt.coll 0 { d.coll 0 with refused := true } } }
    else { d with flt := { d.flt with inject := v &&& 0xFFFF000000000000#64 } }

/-! ### Reach of a reset (Table 16.5) -/

def Trigger.whole (t : Trigger) : Bool :=
  t.source = .cold || t.source = .wdog || (t.source = .crit && t.origin = .resetCtrl)

def Trigger.seq (t : Trigger) : ResetSeq :=
  let base : ResetSeq := { first := t, merged := [], domains := [], all := false, quarters := [], parts := [], step := 3, hostLost := false }
  match t.source with
  | .perst | .hostloss => { base with domains := [.hl, .cp], hostLost := true }
  | .margin => { base with domains := [.ex, .ch], quarters := [t.subject - 0x3E8] }
  | .isolate => { base with domains := [.ex, .ch], parts := [t.subject] }
  | .cold | .wdog => { base with domains := allDomains, all := true }
  | _ => { base with domains := [.cp, .ex, .ch], all := true }

def unionOf {α : Type} [DecidableEq α] (xs ys : List α) : List α := ys.foldl (fun l y => insertNew y l) xs

/-- A second trigger merges; its reach beyond the first's has the steps run for it (R484). -/
def ResetSeq.merge (s n : ResetSeq) : ResetSeq :=
  { s with merged := s.merged ++ [n.first], domains := unionOf s.domains n.domains, all := s.all || n.all
           quarters := unionOf s.quarters n.quarters, parts := unionOf s.parts n.parts, step := 3
           hostLost := s.hostLost || n.hostLost }

def ResetSeq.covers (s n : ResetSeq) : Bool :=
  (s.all || (!n.all && n.quarters.all s.quarters.contains &&
    n.parts.all fun p => s.parts.contains p || s.quarters.contains (quarterOfSource p))) &&
  n.domains.all s.domains.contains && (s.hostLost || !n.hostLost) &&
  !(n.first.source = .crit && !(s.first :: s.merged).contains n.first)

def ResetSeq.triggers (s : ResetSeq) : List Trigger := s.first :: s.merged
def ResetSeq.crits (s : ResetSeq) : List Trigger := s.triggers.filter fun t => t.source = .crit
def ResetSeq.hitsCp (s : ResetSeq) : Bool := s.domains.contains .cp

/-- Cores whose teams stop; cores that are reset. -/
def ResetSeq.core (s : ResetSeq) (c : Nat) : Bool :=
  (s.all && s.domains.contains .ex) || s.quarters.contains (quarterOfCore c) || s.parts.contains c
def ResetSeq.stops (s : ResetSeq) (c : Nat) : Bool := s.hostLost || s.core c

/-! ### The trigger (steps 1 and 2 of Table 16.7, R482) -/

/-- Backup domain and NV record of one counted reset; the first of a sequence is the cause. -/
def Dev.countReset (d : Dev) (t : Trigger) (cause : Bool) : Dev :=
  let r := d.rst
  let n := r.count + 1
  let r1 := { r with count := n, bySource := Map.put r.bySource t.source.code (Map.get 0 r.bySource t.source.code + 1) }
  let r2 := if cause then { r1 with cause := t.source, origin := t.origin, subject := t.subject, lastTime := d.stamp } else r1
  ({ d with rst := { r2 with nvCount := if d.pins.bkGood then n else r2.nvCount } }).nvRecord 1

/-! ### Step 3: everything reached stops -/

/-- The status with which work of a part ends (R475, R479). -/
def ResetSeq.status (s : ResetSeq) (c : Nat) : Nat := if s.parts.contains c && !(s.all || s.quarters.contains (quarterOfSource c)) then stIsolated else stAborted

/-- A part that serves a descriptor's work (notes/assumptions 36): the cores of its team, its engine, the Grinders, ingress
agents and update units of the quarters it is charged to. -/
def Dev.servedBy (d : Dev) (r : Run) (c : Nat) : Bool :=
  let ty := descType r.w
  if isCoreCode c then
    (match r.team with
      | some t => (match d.team t with
        | some tm => tm.cores.contains c
        | none => false)
      | none => false) || r.id.queue = gsubQueue c
  else if 0x280 ≤ c && c < 0x2A0 then ty = tyCopy && r.count 21 = c
  else (ty = tyGather || ty = tyUpdate || ty = tyMigrate) && r.charged.contains (quarterOfSource c)

/-- Parts that a MARGIN or ISOLATE sequence reaches. -/
def ResetSeq.reachedParts (s : ResetSeq) : List Nat :=
  unionOf s.parts (s.quarters.flatMap fun q =>
    (List.range 68).map (68 * q + ·) ++ (List.range 16).map (0x200 + 16 * q + ·) ++ (List.range 8).map (0x280 + 8 * q + ·) ++ [0x2C0 + q])

/-- One run ends by the reset: at once, or a KERNEL with its team. Open moves of a MIGRATE are abandoned, their marks left to
R141 where the control plane is reset (R149). -/
def Dev.resetRun (d : Dev) (s : ResetSeq) (r : Run) : Dev :=
  let st : Nat := if s.hitsCp then stAborted
    else match s.reachedParts.find? (d.servedBy r) with
      | some c => s.status c
      | none => stOk
  if st = stOk then d
  else
    let d0 := d.updRun r.id fun x => x.setCount rcFinal 1
    let d1 := if descType r.w ≠ tyMigrate then d0
      else if s.hitsCp then (d0.openMoves r.id).foldl (fun (e : Dev) m => e.tellAbort m) d0
      else d0.failMigr r.id st
    if descType r.w = tyKernel && !s.hitsCp then
      match r.team with
      | some t => d1.teamStop t st
      | none => d1
    else
      -- ended, its record still waiting for its writes: it is not complete
      let cut := s.hitsCp && r.stage = .ended && r.admCode < 2 && ranToEnd r.status && !d.recordReady r
      let d2 := if cut then d1.updRun r.id fun x => { x with status := st } else d1.endRun r.id st
      if r.prog ≠ 0 && r.isRange then d2.setProg r.prog { d2.prog r.prog with state := 6 }
      else if r.prog ≠ 0 && cut then d2.setProg r.prog { d2.prog r.prog with state := 5 } else d2

/-- Cache operations in reached caches are abandoned. -/
def Dev.abandonOps (d : Dev) (hit : Nat → Bool) : Dev :=
  let d1 := { d with caches := Map.mapVals (fun n (k : Cache) => if hit n then { k with op := none, busy := false, offAfter := false } else k) d.caches }
  let cmd : Bool := d.caches.any fun p => hit p.1 && (match p.2.op with
    | some o => o.cmd
    | none => false)
  if cmd then d1.setProg 0x50 { d1.prog 0x50 with state := 6 } else d1

/-- A core's buffered stores that `keep` refuses are discarded and reported (Table 5.7). -/
def Dev.discardStores (d : Dev) (c : Nat) (keep : StoreEntry → Bool) : Dev :=
  let k := d.core c
  let n := (k.sb.filter fun e => !keep e).length
  if n = 0 then d
  else (d.setCore c { k with sb := k.sb.filter keep }).fault (mkFault c .fatal 0x03 n)

/-- What waits for the host ends without it (step 2 of Table 13.7). -/
def Dev.hostGone (d : Dev) : Dev :=
  let waits := d.homes.flatMap fun p => p.2.txns.flatMap fun x => match x.2 with
    | some t => (t.await ++ t.post).map fun w => (t.req.line, w)
    | none => []
  waits.foldl (fun (e : Dev) p => match p.2 with
    | .bi s => e.biRsp p.1 s .i
    | .go s => e.goErr p.1 s
    | _ => e) d

/-- Step 3, and for a CRIT step 4 at once. -/
def Dev.stopAll (d : Dev) (s : ResetSeq) : Dev :=
  let d1 := if s.hitsCp then
      { d with cp := { d.cp with ready := false }, pins := { d.pins with ready := true }
               hl := { d.hl with abandoned := d.hl.abandoned || d.hl.busy, busy := false } }
    else d
  let d2 := d1.teams.foldl (fun (e : Dev) p =>
    match p.2.cores.find? s.stops with
    | some c => e.teamStop p.1 (s.status c)
    | none => e) d1
  let d3 := d2.cp.runs.foldl (fun (e : Dev) r => e.resetRun s r) d2
  let d4 := d3.abandonOps s.cache
  let d5 := { d4 with rst := { d4.rst with isolated := unionOf d4.rst.isolated s.parts } }
  let d6 := s.quarters.foldl (fun (e : Dev) q => e.updQ q fun x => { x with tap := [] }) d5
  let d7 := if s.hostLost then
      (d6.cores.foldl (fun (e : Dev) p => e.discardStores p.1 fun x => !isHost (64 * x.sector)) d6).hostGone
    else d6
  if s.crits.isEmpty then d7
  else d7.cores.foldl (fun (e : Dev) p => if s.core p.1 then e.discardStores p.1 fun _ => false else e) d7

/-! ### Step 4: STORE_DRAIN_LIMIT -/

/-- The drain's limit: what is still buffered is discarded; after host loss every other store has drained first. -/
def Dev.drainLimit (d : Dev) : Dev :=
  match d.rst.seq with
  | none => d
  | some s =>
    if s.step ≠ 3 || (s.hostLost && !s.all && d.cores.any fun p => !p.2.sb.isEmpty) then d
    else
      let d1 := d.cores.foldl (fun (e : Dev) p => if s.core p.1 then e.discardStores p.1 fun _ => false else e) d
      let d2 := { d1 with cores := Map.mapVals (fun c (k : Core) => if s.core c then { k with writes := [], movQ := [], miss := none, pfLines := [] } else k) d1.cores }
      { d2 with rst := { d2.rst with seq := some { s with step := 5 } } }

/-! ### Step 5: final records (R475) -/

/-- The record of one run: written, waited for in host memory, or lost with its queue. -/
def finalRecord (id : DescId) : Eng Unit := do
  let d ← get
  match d.run id with
  | none => return
  | some r =>
    let x := d.queue id.queue
    if 16384 ≤ id.queue || (isHost x.cmpl && !d.hostUp) then modify fun (e : Dev) => e.dropRun id
    else if r.stage = .recording then
      if d.owes id false then return else modify fun (e : Dev) => e.dropRun id
    -- the record follows every write (R320)
    else if d.owes id false then return
    else
      match ← recordWrite x r r.status with
      | some _ => modify fun (e : Dev) => e.dropRun id
      | none =>
        if isHost x.cmpl then modify fun (e : Dev) => e.updRun id fun y => { y with stage := .recording }
        else modify fun (e : Dev) => e.dropRun id

/-- Records of a reset that reaches the control plane; otherwise its own writer goes on (COMPLETION_RECORD). -/
def Dev.finalRecords (d : Dev) (s : ResetSeq) : Dev :=
  if s.hitsCp then d.cp.runs.foldl (fun (e : Dev) r => e.engine (finalRecord r.id)) d else d

def Dev.recordsDone (d : Dev) (s : ResetSeq) : Bool :=
  if s.hitsCp then d.cp.runs.isEmpty else d.cp.runs.all fun r => r.count rcFinal = 0

/-! ### Step 6: caches and directories end empty -/

/-- Lines that a CRIT leaves untrusted (Table 16.8). -/
def Dev.untrusted (d : Dev) (s : ResetSeq) (line : Nat) : Bool :=
  s.crits.any fun t => match t.origin with
    | .directory => decide (d.homeOf (lineDpa line) + 0x180 = t.subject) && dirSet line = t.info
    | .homeState => decide (d.homeOf (lineDpa line) + 0x180 = t.subject) && d.lineBusy line
    | _ => false

/-- A dirty sector of an untrusted line written back poisoned. -/
def Dev.poisonBack (d : Dev) (line sec : Nat) : Dev :=
  let d1 := d.cacheDrop (d.sliceNo line) line sec
  let d2 := if isTier (lineDpa line) then d1.poisonSec (4 * line + sec)
    else d1.d2h .dirtyEvict line sec 0 (BitVec.allOnes 64) true
  { d2 with rst := { d2.rst with poisoned := d2.rst.poisoned + 1 } }

/-- The directory forgets core c's copy of a sector. -/
def Dev.forget (d : Dev) (c line sec : Nat) : Dev :=
  let e := d.dirEntry line
  let shr := e.shr.filter (· ≠ c)
  let x := e.sector sec
  let more := e.bcast || !shr.isEmpty
  let y : DirSector :=
    if (x.ds = .E || x.ds = .O) && x.own = c then { x with ds := if x.ds = .O && more then .S else .I, own := 0x3FF }
    else if x.ds = .S && !more then { x with ds := .I } else x
  d.setEntry { e with shr := shr, sec := Map.put e.sec sec y }

/-- Sectors that an L1 holds, its eviction buffer included. -/
def Dev.l1Sectors (d : Dev) (c : Nat) : List (Nat × CSector) :=
  let k := d.cache (l1No c)
  (((k.ways.map (·.2)) ++ k.side).flatMap fun l => (l.sec.filter fun p => p.2.st != .I).map fun p => (4 * l.line + p.1, p.2)) ++
    (d.core c).evict.filter fun p => p.2.st != .I

/-- Sectors of an untrusted line that an L1 or its eviction buffer holds: dirty ones are written back poisoned. -/
def Dev.l1Distrust (d : Dev) (bad : Nat → Bool) (c : Nat) : Dev :=
  let d1 := ((d.l1Sectors c).filter fun p => bad (p.1 / 4)).foldl (fun (e : Dev) p =>
    let line := p.1 / 4
    let sec := p.1 % 4
    ((if p.2.st = .M || p.2.st = .O then e.poisonBack line sec else e).cacheDrop (l1No c) line sec).forget c line sec) d
  d1.updCore c fun k => { k with evict := k.evict.filter fun p => !bad (p.1 / 4) }

/-- An L1 gives up every sector: its holds end with the snoops that waited for them, then EVICTDIRTY for O and M, EVICTCLEAN
for E (R252). -/
def Dev.l1GiveUp (d : Dev) (bad : Nat → Bool) (c : Nat) : Dev :=
  let d1 := (d.core c).waitSnp.foldl (fun (e : Dev) m => e.snpAnswerAt m)
    (d.updCore c fun k => { k with held := [], waitSnp := [], miss := none, pfLines := [] })
  let d2 := d1.l1Distrust bad c
  let k := d2.cache (l1No c)
  let ls := ((k.ways.map (·.2)) ++ k.side).filter CLine.live
  (ls.foldl (fun (e : Dev) l => e.l1ReleaseLine c l) d2).updCache (l1No c) fun x => { x with ways := [], side := [] }

/-- Reached L1s still hold sectors, or what they sent has not reached its home. -/
def Dev.l1sBusy (d : Dev) (s : ResetSeq) : Bool :=
  (List.range 272).any (fun c => s.cache (l1No c) && !(d.l1Sectors c).isEmpty) ||
  d.net.any fun m => match m with
    | .req q => isCoreCode q.src && s.cache (l1No q.src) && (q.kind = .evictDirty || q.kind = .evictClean)
    | _ => false

/-- A slice writes its M sectors back and is empty; a host line goes with its grant. -/
def Dev.sliceEmpty (d : Dev) (bad : Nat → Bool) (n : Nat) : Dev :=
  let k := d.cache n
  let ls := ((k.ways.map (·.2)) ++ k.side).filter CLine.live
  let d1 := ls.foldl (fun (e : Dev) l =>
    (List.range 4).foldl (fun (y : Dev) s =>
      let x := l.sector s
      let y1 := if x.st = .M then (if bad l.line then y.poisonBack l.line s else y.sliceWriteBack l.line s x)
        else if x.st = .E && isHost (lineDpa l.line) then y.emit (.d2h .cleanEvict l.line s x.data 0 false) else y
      if isHost (lineDpa l.line) && x.st != .I then y1.updSector l.line s fun z => { z with hs := 0 } else y1) e) d
  d1.updCache n fun k => { k with ways := [], side := [] }

/-- Data on its way between parts is taken in before the hold: answers to snoops, dirty sectors passed between L1s, and
writes that controllers have not yet accepted. -/
def Dev.absorb (d : Dev) : Dev :=
  d.net.foldl (fun (e : Dev) m => match m with
    | .ans a => if a.kind = .ackData then e.homeAck a true else e
    | .rsp r => if r.kind = .data && r.st = .M then e.homeStore r.line r.sec r.data r.info true else e
    | .mem q => (match q.kind with
      | .wr => e.memWrIn q
      | .rmw => e.memRmwIn q
      | _ => e)
    | _ => e) d

/-- Host copies: device lines whose HS is not 0 are recalled (BISnpInv), one transaction a line. -/
def Dev.recallHost (d : Dev) : Dev :=
  let ls := (d.dir.filter fun p => p.2.v && !isHost (lineDpa p.2.line) && (List.range 4).any fun s => (p.2.sector s).hs ≠ 0).map (·.2.line)
  ls.foldl (fun (e : Dev) l => if e.lineBusy l then e else e.beginRecall l) d

def Dev.hostHolds (d : Dev) : Bool :=
  d.dir.any fun p => p.2.v && !isHost (lineDpa p.2.line) && (List.range 4).any fun s => (p.2.sector s).hs ≠ 0

/-- The walk of host loss: copies of host lines end, device sectors the host held dirty are poisoned, every HS is 0,
FLIPPING pages are DEVICE (step 4 of Table 13.7). -/
def Dev.hostWalk (d : Dev) : Dev :=
  let d1 := (List.range 272).foldl (fun (e : Dev) c =>
    (e.l1Sectors c).foldl (fun (y : Dev) p => if isHost (64 * p.1)
      then (y.cacheDrop (l1No c) (p.1 / 4) (p.1 % 4)).updCore c fun k =>
        { k with evict := k.evict.filter fun q => q.1 ≠ p.1, held := Map.put k.held p.1 none } else y) e) d
  let d2 := (List.range 64).foldl (fun (e : Dev) n => e.updCache n fun k => { k with
    ways := Map.mapVals (fun _ (l : CLine) => if isHost (lineDpa l.line) then CLine.empty else l) k.ways
    side := k.side.filter fun l => !isHost (lineDpa l.line) }) d1
  let es := (d2.dir.filter fun p => p.2.v).map (·.2)
  let d3 := es.foldl (fun (e : Dev) x =>
    if isHost (lineDpa x.line) then e.setEntry { x with bcast := false, shr := [], sec := [] }
    else (List.range 4).foldl (fun (y : Dev) s =>
      let h := (x.sector s).hs
      let y1 := if h = 2 then (y.cacheDrop (y.sliceNo x.line) x.line s).poisonSec (4 * x.line + s) else y
      if h = 0 then y1 else y1.updSector x.line s fun z => { z with hs := 0 }) e) d2
  { d3 with hl := { d3.hl with heldReqs := [], bias := Map.mapVals (fun _ (o : Option Nat) => if o = some 2 then some 0 else o) d3.hl.bias } }

/-- Step 6: reached L1s give up their sectors, and what the host holds is recalled. -/
def Dev.emptyCaches (d : Dev) (s : ResetSeq) : Dev :=
  let bad := d.untrusted s
  let d1 := (List.range 272).foldl (fun (e : Dev) c => if s.cache (l1No c) then e.l1GiveUp bad c else e) d
  let d2 := if s.hostLost then d1.hostWalk else d1
  if s.inCh && !s.hostLost then d2.recallHost else d2

/-- Step 6 begins: for a CRIT of a directory, the snoop of the set as well (Table 16.8). -/
def Dev.emptyFirst (d : Dev) (s : ResetSeq) : Dev :=
  s.crits.foldl (fun (e : Dev) t => if t.origin = .directory then e.emit (.bisnpSet (t.subject - 0x180) t.info) else e) (d.emptyCaches s)

/-! ### Step 7: the hold -/

/-- A request ends with ISOLATED; what a host write would have written is written poisoned (R256). -/
def Dev.endIsolated (d : Dev) (m : ReqMsg) (txid : Nat) : Dev :=
  let d1 := if m.src = hostAgent && m.kind.writes && isTier (lineDpa m.line) then
      (secsOf m.smask).foldl (fun (e : Dev) s => (e.cacheDrop (e.sliceNo m.line) m.line s).poisonSec (4 * m.line + s)) d
    else d
  d1.sendErr m txid .isolated

/-- Requests held under R256 or waiting for the lines of a closed set, and transactions of an untrusted home, end with
ISOLATED. -/
def Dev.failHeld (d : Dev) (s : ResetSeq) : Dev :=
  d.homes.foldl (fun (e : Dev) p =>
    let shut (m : ReqMsg) : Bool := p.2.closed.contains (dirSet m.line)
    let e1 := (p.2.stuck ++ (p.2.queue.filter fun w => shut w.req).map (·.req)).foldl (fun (y : Dev) m => y.endIsolated m (txidOf p.1 0)) e
    let e2 := e1.updHome p.1 fun x => { x with stuck := [], queue := x.queue.filter fun w => !shut w.req }
    if s.crits.any fun t => t.origin = .homeState && t.subject = 0x180 + p.1 then
      p.2.txns.foldl (fun (y : Dev) x => match x.2 with
        | some t => y.endIsolated t.req (txidOf p.1 x.1)
        | none => y) e2
    else e2) d

/-- Seed of a cache's register (R283): a reset of source HOSTLOSS or PERST reaches every cache (R288). -/
def Cache.seed (n : Nat) : BitVec 16 := 0xACE1 ^^^ BitVec.ofNat 16 (if n < 256 then n else n - 256)

/-- A cache as its reset leaves it (R283, R288): empty, unlocked, its register seeded, disabled by a CRIT. -/
def Cache.afterHold (k : Cache) (n : Nat) (crit : Bool) : Cache :=
  { k with ways := [], side := [], locked := 0, op := none, offAfter := false, busy := false
           lfsr := Cache.seed n, streaming := false
           enable := k.enable && !crit, invDone := k.invDone && !crit }

def Core.afterHold (k : Core) : Core := { Core.reset with sramErr := k.sramErr, waves := k.waves }

/-- What the reset of the control plane clears (R340, R380, R473): queues, mailboxes, contexts, segments, what was in them. -/
def Dev.holdCp (d : Dev) : Dev :=
  let cut := d.segs.revokes.filter fun v => 3 ≤ v.step
  let copies := cut.foldl (fun m v =>
    (List.range 140).foldl (fun m c => Map.put m (32768 * c + 8 * v.ctx + v.seg) (d.genRaw (d.gen v.ctx v.seg))) m) d.segs.copies
  { d with
    cp := { d.cp with queues := [], runs := [], rr := 0, mbx := [], ready := false }
    segs := { d.segs with ctxs := [], recs := [], copies := copies, revokes := [] }
    tb := { d.tb with migr := [], locks := [] }
    mg := { d.mg with
      winCtrl := 0, winRspLen := 0, winRefused := false, winDone := false, winBusy := false, reqBuf := [], rspBuf := []
      frames := d.mg.frames.map fun f => if f.via = .window then { f with via := .lost } else f
      discover := d.mg.discover.map fun p => if p.1 = .window then (.lost, p.2) else p }
    tr := { d.tr with txs := [] } }

/-- The reset reaches the part that an armed injection names, which disarms it (R470, R472). -/
def ResetSeq.disarms (s : ResetSeq) (c : Nat) : Bool :=
  s.reaches c || (decide (0x180 ≤ c) && decide (c < 0x1C0) && s.cache (c - 0x180)) ||
    (decide (0x3E0 ≤ c) && decide (c < 0x3E4) && s.hitsCp) || (c = 0x3F0 && s.domains.contains .hl)

/-- What the reset of EX and CH clears in the whole block. -/
def Dev.holdAll (d : Dev) (crit : Bool) : Dev :=
  let keepHost (p : Nat × Home) : Nat × Home := (p.1, { Home.reset p.1 with queue := p.2.queue.filter fun w => w.req.src = hostAgent })
  { d with
    net := [], teams := [], dir := []
    homes := (d.homes.map keepHost).filter fun p => !p.2.queue.isEmpty
    caches := Map.mapVals (fun n (k : Cache) => k.afterHold n crit) d.caches
    cores := Map.mapVals (fun _ (k : Core) => k.afterHold) d.cores
    quarters := Map.mapVals (fun _ (x : Quarter) => { x with stagger := [], restart := [] }) d.quarters
    tb := { d.tb with pred := [], localLoad := [], sampled := [], locks := [] }
    tr := { d.tr with held := [], waiting := [], acks := [] } }

/-- What the reset of named parts clears: cores with their L1s, slices of a quarter, Grinders and ingress agents. Their
traffic is answered by the wrapper (R480). -/
def Dev.holdParts (d : Dev) (s : ResetSeq) : Dev :=
  let mine (m : Msg) : Bool := match m with
    | .req q => isCoreCode q.src && s.core q.src
    | .rsp r => isCoreCode r.dst && s.core r.dst
    | .snp n => n.core < 0x110 && s.core n.core
    | _ => false
  let snps := d.net.filterMap fun m => match m with
    | .snp n => if mine m then some n else none
    | _ => none
  let d1 := { d with
    net := d.net.filter fun m => !mine m
    caches := Map.mapVals (fun n (k : Cache) => if s.cache n then k.afterHold n false else k) d.caches
    cores := Map.mapVals (fun c (k : Core) => if s.core c then k.afterHold else k) d.cores
    homes := Map.mapVals (fun _ (h : Home) => { h with
      queue := h.queue.filter fun w => !(isCoreCode w.req.src && s.core w.req.src)
      txns := Map.mapVals (fun _ (o : Option Txn) => match o with
        | some t => if isCoreCode t.req.src && s.core t.req.src
            then some { t with await := t.await.filter fun w => w ≠ .comp w.sec, post := t.post.filter fun w => w ≠ .comp w.sec } else o
        | none => none) h.txns }) d.homes
    tb := { d.tb with
      pred := d.tb.pred.filter fun p => !s.reaches (if p.1 / 1024 < 64 then 0x200 + p.1 / 1024 else 0x2C0 + (p.1 / 1024 - 64))
      localLoad := d.tb.localLoad.filter fun p => !s.reaches (0x200 + p.1 / 2 ^ 28) } }
  let d2 := snps.foldl (fun (e : Dev) n =>
    if n.kind = .inv then e.homeAck (mkAns .ack n.core n.txid n.line n.sec) false
    else e.homeFwdMiss (mkAns .fwdMiss n.core n.txid n.line n.sec)) d1
  (List.range 64).foldl (fun (e : Dev) h => e.settle h) d2

/-- HL reset: configuration space, decoders and MSI-X with it (Table 13.7, Table 16.6). -/
def Dev.holdHl (d : Dev) : Dev :=
  { d with
    hl := { d.hl with state := 0, width := 0, rate := 0, cacheId := 0, biId := 0, ide := 0, ioIde := [], decs := [], gpf := 0 }
    msix := [], msixPend := [] }

/-- Slices are written back and the reached domains are held. -/
def Dev.hold (d : Dev) (s : ResetSeq) : Dev :=
  let bad := d.untrusted s
  let d0 := if s.inCh then d.absorb else d
  let d1 := (List.range 64).foldl (fun (e : Dev) n => if s.cache n then e.sliceEmpty bad n else e) d0
  let d2 := d1.failHeld s
  let d3 := if s.hitsCp then d2.holdCp else d2
  let d4 := if s.inCh then d3.holdAll (!s.crits.isEmpty) else if s.hostLost then
      { d3 with teams := [], cores := Map.mapVals (fun _ (k : Core) => { k with status := .idle, team := none, wait := .none }) d3.cores } else d3
  let d5 := if s.quarters.isEmpty && s.parts.isEmpty then d4 else d4.holdParts s
  let d6 := if s.domains.contains .hl then d5.holdHl else d5
  let d7 := if s.hostLost then { d6 with caches := Map.mapVals (fun n (k : Cache) => { k with lfsr := Cache.seed n }) d6.caches } else d6
  let d8 := if s.disarms (d7.flt.inject.extractLsb' 48 10).toNat then { d7 with flt := { d7.flt with inject := 0 } } else d7
  -- EX and CH are held as domains where the source reaches all of them
  let doms := s.domains.filter fun x => s.all || (x ≠ .ex && x ≠ .ch)
  { d8 with rst := { d8.rst with seq := some { s with step := 7 }, held := unionOf d8.rst.held doms } }

/-- DIRECTORIES_EMPTY: the records of step 5, the caches of step 6, then the hold; nothing more while records, evictions or
host answers are still owed. -/
def Dev.dirsEmpty (d : Dev) : Dev :=
  match d.rst.seq with
  | none => d
  | some s =>
    let d1 := if s.step = 5 then d.finalRecords s else d
    if (s.step ≠ 5 && s.step ≠ 6) || (s.step = 5 && !d1.recordsDone s) then d1
    else
      let s1 := { s with step := 6 }
      let d2 := if s.step = 5
        then let e := d1.emptyFirst s; { e with rst := { e.rst with seq := some s1 } } else d1.emptyCaches s
      if d2.l1sBusy s1 || (s.inCh && !s.hostLost && (d2.hostHolds || d2.hostOwesAny)) then d2 else d2.hold s1

/-! ### Release (R476, R505, R506) -/

/-- Records of context 0 come back as persisted and are validated (R505). -/
def Dev.restoreCtx0 (d : Dev) : Dev :=
  d.segs.saved.foldl (fun (e : Dev) p => match p.2 with
    | none => e
    | some r => match e.segErr 0 { r with valid := true } with
      | some c => e.setSeg 0 p.1 { r with valid := false, err := c }
      | none => e.setSeg 0 p.1 { r with valid := true, homeq := r.homeQuarter }) d

/-- Enabled cores: the first 64 of each quarter that have neither failed nor been retired (R31). -/
def CoreMap.mapSpares (m : CoreMap) : CoreMap :=
  { m with enabled := (List.range 4).flatMap fun q =>
      (((List.range 68).map (68 * q + ·)).filter fun c => !m.failed.contains c && !m.retired.contains c).take 64 }

/-- An EPOCH OPEN cut after its first step opens its epoch (R473). -/
def Dev.openCut (d : Dev) : Dev :=
  d.tb.store.foldl (fun (e : Dev) p => match p.2 with
    | none => e
    | some x =>
      if x.updEp = x.lookEp || x.updEp = 0xFFFF then e
      else (e.setTable p.1 (some { x with lookEp := x.updEp, live := x.live ++ [x.updEp] })).retireEpochs p.1) d

/-- Release of the control plane. -/
def Dev.releaseCp (d : Dev) : Dev :=
  let d1 := { d with
    cp := { d.cp with ready := true, resetGen := d.rst.count }
    pins := { d.pins with ready := false }
    rst := { d.rst with held := d.rst.held.filter (· ≠ Domain.cp) } }
  (d1.restoreCtx0.openCut).msixRaise 0

/-- End of a sequence: wrappers open, domains run again, reached quarters replan. -/
def Dev.releaseSeq (d : Dev) (s : ResetSeq) : Dev :=
  let hl := s.domains.contains .hl && !d.pins.perst
  let d1 := { d with
    rst := { d.rst with
      seq := none, isolated := d.rst.isolated.filter fun c => !s.parts.contains c
      held := d.rst.held.filter fun x => !s.domains.contains x || (x = .hl && d.pins.perst) }
    segs := if s.crits.any fun t => t.origin = .segment then { d.segs with genBase := (d.segs.genBase + 1) % 16 } else d.segs
    cmap := if s.triggers.any fun t => t.source = .warm then d.cmap.mapSpares else d.cmap
    hl := if hl then { d.hl with state := 1 } else d.hl }
  let d2 := if s.hitsCp && d1.rst.startStep = 11 then d1.releaseCp else d1
  let qs := (List.range 4).filter fun q => s.all || s.quarters.contains q
  qs.foldl (fun (e : Dev) q =>
    (e.updQ q fun x => { x with emGroups := [], emGood := 0, emRestored := false, gateDiv := 1, latch := [], wait := .none }).replan q) d2

/-! ### Cold, watchdog and power-on (R482, R500, R503, R504) -/

/-- Non-persisted settings return to their defaults at a reset of the management plane (R433). -/
def Mgmt.persisted (m : Mgmt) (defaults : Bool) : Map Nat :=
  m.vals.filter fun p => p.1 ≠ 0x800005 && p.1 ≠ 0x801100 && !(defaults && decide (0x180000 ≤ p.1) && decide (p.1 < 0x500000))

/-- What the management plane holds after its reset: from the NV store, or carried over by the watchdog. -/
def Mgmt.after (m : Mgmt) (cold : Bool) : Mgmt :=
  let z := Mgmt.reset
  let v := m.persisted (cold && m.restoreDefaults)
  { z with
    vals := v, seconds := if cold then m.nvSeconds else m.seconds, fraction := if cold then 0 else m.fraction
    synced := !cold && m.synced, powered := if cold then m.nvPowered else m.powered
    nvSeconds := m.nvSeconds, nvPowered := m.nvPowered, firstCal := m.firstCal, coldStarts := m.coldStarts
    lifeCount := m.lifeCount, life := m.life, roleKeys := m.roleKeys, keyInit := m.keyInit
    lastSeq := m.highSeq, highSeq := m.highSeq, nvRecords := m.nvRecords, nvCompactions := m.nvCompactions, nvUsed := m.nvUsed
    restoreDefaults := m.restoreDefaults && !cold, vbk := m.vbk }

/-- A die's records as persisted; passes and error histories begin again (R234, R240). -/
def Dev.dieAfter (d : Dev) (k : Nat) (x : Die) : Die :=
  let ws := (d.tier.lifeSaved.filter fun p => p.1 / dieRegions = k).map fun p => (p.1 % dieRegions, p.2)
  { x with present := false, failed := false, temp := 0, swept := [], sweepMax := 0, sweepShare := 2, errLast := [], errNow := []
           overtemp := false, writes := ws, blockWrites := sumUnits (ws.map (·.2)) }

/-- The block with COLD or WDOG holding every domain: what the NV store, the die reserve areas, the resistive cells and the
backup domain keep. A block whose write had not completed holds its new data (notes/assumptions 37). -/
def Dev.wholeReset (d : Dev) (cold : Bool) : Dev :=
  let z := Dev.reset
  let flip : Bool := cold && d.mg.restoreDefaults
  let mg := d.mg.after cold
  { z with
    fresh := d.fresh, hostMem := d.hostMem
    mem := d.mem.filter fun c => isRes c.1
    info := d.info.filter fun p => isRes (64 * p.1)
    symErr := d.symErr.filter fun p => isRes (64 * p.1)
    ilvRes := d.ilvRes
    quarters := Map.mapVals (fun _ (x : Quarter) => { Quarter.reset with
      refLost := x.refLost, vreq := if cold then 750 else x.vreq, ageing := x.ageing, lastPlan := x.lastPlan, planCount := x.planCount
      planLogAge := x.planLogAge, baseline := x.baseline }) d.quarters
    flt := { Faults.reset with distributed := if cold then decide (Map.get 0 mg.vals 0x800001 = 1) else d.flt.distributed }
    rst := { d.rst with
      held := allDomains, seq := none, waiting := [], startStep := if cold then 0 else 1, coldStart := cold, isolated := []
      heartbeats := [], nvPulse := d.rst.nvPulse }
    pins := { Pins.reset with throttle := d.pins.throttle, perst := d.pins.perst, bkGood := d.pins.bkGood }
    mg := if flip then { mg with lifeCount := mg.lifeCount + 1, life := ({ kind := 9, subject := 0, stamp := d.stamp, value := 0 } :: mg.life).take 512 } else mg
    segs := { Segs.reset with saved := d.segs.saved }
    caches := Map.mapVals (fun n (k : Cache) => { Cache.reset (if n < 256 then n else n - 256) (256 ≤ n) with
      disabled := if cold then k.restore.foldl (fun (m : BitVec 12) w => m &&& ~~~(BitVec.ofNat 12 (2 ^ w))) k.disabled else k.disabled
      disabledW := if cold then k.restore.foldl (fun (m : BitVec 12) w => m &&& ~~~(BitVec.ofNat 12 (2 ^ w))) k.disabledW else k.disabledW
      restore := if cold then [] else k.restore }) d.caches
    cores := Map.mapVals (fun _ (k : Core) => { Core.reset with sramErr := k.sramErr }) d.cores
    cmap := { CoreMap.reset with failed := d.cmap.failed, retired := d.cmap.retired }.mapSpares
    tier := { Tier.reset with
      drams := Map.mapVals (fun _ (x : Stack) => { Stack.reset with bins := x.bins, spareUsed := x.spareUsed, rows := x.rows, noSpare := x.noSpare, corrected := x.corrected }) d.tier.drams
      dies := Map.mapVals (fun k (x : Die) => d.dieAfter k x) d.tier.dies
      lost := d.tier.lost, lostLog := d.tier.lostLog, remapped := d.tier.remapped, rowRepairs := d.tier.rowRepairs
      eol := d.tier.eol, lifeSaved := d.tier.lifeSaved, lifeHist := d.tier.lifeHist, wearAlert := d.tier.wearAlert }
    hl := { HLink.reset with losses := d.hl.losses, expiries := d.hl.expiries }
    tr := { Taruc.reset with links := (List.range 36).map fun n =>
      (n, { Link.reset with retrains := (d.lnk n).retrains, enable := decide (Map.get 1 mg.vals (256 * (0x4100 + n) + 1) = 1) }) } }

/-- SUPPLY_FAIL: COLD holds the block (R500). Whether the backup domain still counts is not known unless BK_GOOD stood. -/
def Dev.supplyFail (d : Dev) : Dev :=
  if d.rst.startStep = 0 then d
  else
    let e := d.wholeReset true
    if e.pins.bkGood then e
    else let (w, e1) := e.freeWord; { e1 with rst := { e1.rst with bkValid := e1.rst.bkValid && w.getLsbD 0 } }

/-- COLD_START: step 1 of Table 18.1. A host reset still asserted is counted (R502). -/
def Dev.coldStart (d : Dev) : Dev :=
  if d.rst.startStep ≠ 0 then d
  else
    let r := d.rst
    let base := if r.bkValid && r.nvCount < r.count then r.count else r.nvCount
    let d1 := { d with rst := { r with count := base, bkLost := !r.bkValid, bkValid := true, startStep := 1, coldStart := true } }
    let d2 := d1.countReset { source := .cold, origin := .none, subject := 0x3F1, info := 0 } true
    let d3 := if d2.pins.perst then d2.countReset { source := .perst, origin := .none, subject := 0x3F0, info := 0 } false else d2
    { d3 with mg := { d3.mg with coldStarts := d3.mg.coldStarts + 1 } }.lifeLog 1 0 (BitVec.ofNat 64 d3.rst.count.toNat)

/-- Steps 2 to 4: the management plane runs, outputs are driven, faults that waited are handled, the quarters calibrate. -/
def Dev.releaseMg (d : Dev) : Dev :=
  let d1 := { d with
    rst := { d.rst with held := d.rst.held.filter (· ≠ Domain.mg), startStep := 3 }
    pins := { d.pins with driven := true, ready := true } }
  let ms := d1.flt.slots.filterMap fun (p : Nat × SrcSlot) => p.2.msg
  let d2 := if d1.flt.distributed then ms.foldl (fun (e : Dev) m => e.pinCause m) d1
    else ms.foldl (fun (e : Dev) m => e.collect m) { d1 with flt := { d1.flt with slots := [] } }
  (List.range 4).foldl (fun (e : Dev) q => e.replan q) d2.refreshPins

/-- Tier initialisation starts: its progress objects (R241, R370). -/
def Dev.tierBegin (d : Dev) : Dev :=
  let p (total : Nat) : Progress := { state := 1, position := 0, total := total, queue := 0xFFFF, tag := 0, start := d.stamp }
  (d.setProg 0x40 (p (48 * 8 * 2 ^ 30))).setProg 0x41 (p (384 * 64 * 2 ^ 30))

/-- Steps 5 and 6, once every quarter has its first plan; the first calibration is stamped (R504). -/
def Dev.releaseMid (d : Dev) : Dev :=
  let keep : List Domain := if d.pins.perst then [.hl, .cp] else [.cp]
  let d1 := { d with
    rst := { d.rst with held := d.rst.held.filter keep.contains, startStep := 6 }
    hl := { d.hl with state := if d.pins.perst then 0 else 1 } }
  if d.mg.firstCal = 0 then
    let t := Config.manufactureTime
    let d2 := { d1 with mg := { d1.mg with seconds := if d.mg.seconds = 0 then t.extractLsb' 0 63 else d.mg.seconds } }
    ({ d2 with mg := { d2.mg with firstCal := d2.stamp } } : Dev).tierBegin
  else d1.tierBegin

/-- A release of a start. -/
def Dev.releaseStart (d : Dev) : Dev :=
  match d.rst.startStep with
  | 1 => d.releaseMg
  | 3 => if (List.range 4).all fun q => (d.qr q).planned then d.releaseMid else d
  | 6 => if d.tier.hdm0 then let e := d.releaseCp; { e with rst := { e.rst with startStep := 11 } } else d
  | _ => d

/-- RESET_RELEASE: of the sequence that is in its hold, else the next of a start. -/
def Dev.release (d : Dev) : Dev :=
  match d.rst.seq with
  | some s => if s.step = 7 then d.releaseSeq s else d
  | none => d.releaseStart

/-! ### RESET_SEQUENCE -/

/-- A trigger that holds every domain: WDOG, or a CRIT of origin RESET_CTRL. -/
def Dev.wholeTrigger (d : Dev) (t : Trigger) : Dev :=
  let e := (d.countReset t true).wholeReset false
  if t.source = .wdog then e.fault (mkFault 0x3F1 .critical 0x12 (e.od 0x800003 1000000)) else e

/-- During a start the reach within held domains is merged into it; released domains run the sequence, without records
(R517). -/
def Dev.duringStart (d : Dev) (t : Trigger) : Dev :=
  let d1 := d.countReset t false
  let s := t.seq
  let left := s.domains.filter fun x => !d1.rst.held.contains x
  if left.isEmpty then d1
  else
    let s1 := { s with domains := left }
    let s2 := match d1.rst.seq with
      | some z => z.merge s1
      | none => s1
    ({ d1 with rst := { d1.rst with seq := some s2 } }).stopAll s2

/-- The next trigger: after a running NV pulse, and after the exit from a low power state (R483, R514). -/
def Dev.resetSequence (d : Dev) : Dev :=
  match d.rst.waiting with
  | [] => d
  | t :: rest =>
    if d.rst.nvPulse then d
    else if d.rst.startStep = 0 then { d with rst := { d.rst with waiting := rest } }
    else if d.lowPower && !t.whole then
      (if d.pwr.busy then d else { d with pwr := { d.pwr with busy := true, exiting := true, step := 1, target := 0, exitStart := (d.qr 0).refCount } })
    else
      let d0 := { d with rst := { d.rst with waiting := rest } }
      if t.whole then d0.wholeTrigger t
      else if d.rst.startStep ≠ 11 then d0.duringStart t
      else
        let n := t.seq
        match d0.rst.seq with
        | none =>
          let d1 := d0.countReset t true
          ({ d1 with rst := { d1.rst with seq := some (if n.crits.isEmpty then n else { n with step := 5 }) } }).stopAll n
        | some s =>
          if 7 ≤ s.step && s.covers n then d0.countReset t false
          else
            let d1 := d0.countReset t false
            if s.covers n then { d1 with rst := { d1.rst with seq := some { s with merged := s.merged ++ [t] } } }
            else
              let m := s.merge n
              ({ d1 with rst := { d1.rst with seq := some (if m.crits.isEmpty then m else { m with step := 5 }) } }).stopAll m

/-! ### Other events -/

/-- Parts that can be isolated (R479). -/
def canIsolate (c : Nat) : Bool :=
  c < 0x110 || (0x200 ≤ c && c < 0x240) || (0x280 ≤ c && c < 0x2A0) || (0x2C0 ≤ c && c < 0x2C4) || (0x300 ≤ c && c < 0x340)

/-- IsolateAgent; a part under isolation answers BUSY. -/
def Dev.isolate (d : Dev) (c : Nat) : Dev :=
  if canIsolate c && !d.rst.isolated.contains c then d.trigger { source := .isolate, origin := .none, subject := c, info := 0 } else d

/-- STOP_TIMEOUT: reported, and the part is isolated at once. -/
def Dev.stopTimeout (d : Dev) (c bound : Nat) : Dev :=
  if !canIsolate c || d.rst.isolated.contains c then d
  else
    let d1 := (d.faultRaw (mkFault c .fatal 0x06 bound)).trigger { source := .isolate, origin := .none, subject := c, info := 0 }
    { d1 with rst := { d1.rst with isolated := d1.rst.isolated ++ [c] } }

/-- CRIT by origin (Table 16.8). -/
def Dev.critEvent (d : Dev) (o : CritOrigin) (source info : Nat) : Dev :=
  match o with
  | .none => d
  | .directory => d.crit o source 0x20 info
  | .homeState => d.crit o source 0x21 info
  | .segment => d.crit o source 0x22 info
  | .resetCtrl => d.crit o source 0x23 info

/-- A heartbeat; the watchdog restarts once all have come (R481). -/
def Dev.heartbeat (d : Dev) (k : Nat) : Dev :=
  let hs := insertNew k d.rst.heartbeats
  { d with rst := { d.rst with heartbeats := if hs.length = 5 then [] else hs } }

/-- NV_PULSE_END: the next waiting record starts its pulse. -/
def Dev.pulseEnd (d : Dev) : Dev :=
  let d1 := { d with rst := { d.rst with nvPulse := false } }
  match d.rst.nvWaiting with
  | [] => d1
  | k :: rest => if d.pins.bkGood then ({ d1 with rst := { d1.rst with nvWaiting := rest } }).nvRecord k else d1

/-- BK_GOOD falls: pulses wait, and the alert is raised once. -/
def Dev.bkFall (d : Dev) : Dev :=
  if !d.pins.bkGood then d
  else { d with pins := { d.pins with bkGood := false } }.fault (mkFault 0x3F1 .alert 0x13 0)

/-- BK_GOOD rises: a waiting record starts; the reset counter follows into the NV store. -/
def Dev.bkRise (d : Dev) : Dev :=
  let d1 := { d with pins := { d.pins with bkGood := true } }
  match d1.rst.nvWaiting with
  | [] => d1
  | k :: rest =>
    if d1.rst.nvPulse then d1
    else ({ d1 with rst := { d1.rst with nvWaiting := rest, nvCount := if k = 1 then d1.rst.count else d1.rst.nvCount } }).nvRecord k

/-- PERST_RELAY_N asserted: under COLD it is only recorded (R502). -/
def Dev.perst (d : Dev) : Dev :=
  let d1 := { d with pins := { d.pins with perst := true } }
  if d.pins.perst || d.rst.startStep = 0 then d1 else d1.hostLoss .perst 4

/-- PERST_RELAY_N released: HL leaves reset, unless its sequence still runs, and the link trains. -/
def Dev.perstOff (d : Dev) : Dev :=
  let d1 := { d with pins := { d.pins with perst := false } }
  if d1.rst.seq.isSome || !d1.rst.held.contains .hl || d1.rst.startStep < 6 then d1
  else { d1 with rst := { d1.rst with held := d1.rst.held.filter (· ≠ Domain.hl) }, hl := { d1.hl with state := 1 } }

/-! ### Meanings -/

def execFaultRaise (m : FaultMsg) (s : State) : Host.Outcome State Fault Refusal := s.goes (s.dev.fault m)
def execFaultPulseEnd (s : State) : Host.Outcome State Fault Refusal :=
  s.timed { s.dev with flt := { s.dev.flt with pulse := false } }.refreshPins
def execFaultClear (v : Byte) (s : State) : Host.Outcome State Fault Refusal := s.goes (s.dev.faultClear v.toNat)
def execFaultPinDrive (v : Bool) (s : State) : Host.Outcome State Fault Refusal := s.goes (s.dev.faultPinDrive v)
def execFltSrcClear (src : RegSource) (code : Nat) (s : State) : Host.Outcome State Fault Refusal :=
  s.goes (s.dev.srcClear src code)
def execFaultInject (src : RegSource) (v : Word64) (s : State) : Host.Outcome State Fault Refusal := s.goes (s.dev.inject src v)
def execWatchdogHeartbeat (which : Fin 5) (s : State) : Host.Outcome State Fault Refusal := s.goes (s.dev.heartbeat which.val)
def execWatchdogExpiry (s : State) : Host.Outcome State Fault Refusal :=
  s.timed (s.dev.trigger { source := .wdog, origin := .none, subject := 0x3F1, info := 0 })
/-- WARM_RESET: any value but 0xA55A starts nothing. -/
def execWarmReset (v : Word16) (s : State) : Host.Outcome State Fault Refusal :=
  s.goes (if v = 0xA55A then s.dev.trigger { source := .warm, origin := .none, subject := 0x3F1, info := 0 } else s.dev)
def execIsolateAgent (v : Word16) (s : State) : Host.Outcome State Fault Refusal := s.goes (s.dev.isolate v.toNat)
def execResetSequence (s : State) : Host.Outcome State Fault Refusal := s.goes s.dev.resetSequence
def execCrit (origin : CritOrigin) (source : Nat) (info : Nat) (s : State) : Host.Outcome State Fault Refusal :=
  s.goes (s.dev.critEvent origin source info)
def execStopTimeout (agent : Nat) (bound : Nat) (s : State) : Host.Outcome State Fault Refusal := s.timed (s.dev.stopTimeout agent bound)
def execStoreDrainLimit (s : State) : Host.Outcome State Fault Refusal := s.timed s.dev.drainLimit
def execDirectoriesEmpty (s : State) : Host.Outcome State Fault Refusal := s.goes s.dev.dirsEmpty
def execResetRelease (s : State) : Host.Outcome State Fault Refusal := s.goes s.dev.release
def execNvPulseEnd (s : State) : Host.Outcome State Fault Refusal := s.goes s.dev.pulseEnd
def execBkGoodFall (s : State) : Host.Outcome State Fault Refusal := s.goes s.dev.bkFall
def execBkGoodRise (s : State) : Host.Outcome State Fault Refusal := s.goes s.dev.bkRise
def execPerstRelayN (s : State) : Host.Outcome State Fault Refusal := s.goes s.dev.perst
def execPerstRelayNRelease (s : State) : Host.Outcome State Fault Refusal := s.goes s.dev.perstOff
def execSupplyFail (s : State) : Host.Outcome State Fault Refusal := s.goes s.dev.supplyFail
def execColdStart (s : State) : Host.Outcome State Fault Refusal := s.goes s.dev.coldStart

end Sys2Proof.Machine
end

