-- ==== Sys2Proof/Machine/Power.lean ====
section
/-! DEFINITION. Power states: the conditions of Table 18.5, the entry of Table 18.6, the exit of Table 18.7 (R507-R516). -/

namespace Sys2Proof.Machine

/-! ### Conditions (R509) -/

/-- 2 MiB pages of both tiers that have a bias. -/
def Dev.biasPages (d : Dev) : Nat := d.ownedFrom / 2 ^ 21 + (0x380000000000 - resDpa) / 2 ^ 21

/-- Every page of both tiers is DEVICE. -/
def Dev.allDevice (d : Dev) : Bool :=
  if d.hl.biasDef = 0 then d.hl.bias.all fun p => d.biasOf p.1 = 0
  else decide (d.biasPages ≤ (d.hl.bias.filter fun p => d.biasPage p.1 && d.biasOf p.1 = 0).length)

/-- A queue is DRAINED with ENABLE 0. -/
def Dev.drained (d : Dev) : Bool :=
  (d.cp.queues.all fun p => !p.2.enable) && d.cp.runs.all fun r => decide (16384 ≤ r.id.queue) || r.stage = .waiting || decide (2 ≤ r.admCode)

/-- The first cause of Table 18.5 that fails for a target; 0 when every condition holds. -/
def Dev.powerCause (d : Dev) (target : Nat) : Nat :=
  if !d.drained then 1
  else if d.cp.mbx.any fun p => p.2.enable then 2
  else if !d.allDevice then 3
  else if !d.tier.hdm0 || !d.tier.hdm1 then 4
  else if d.pwr.busy || d.pwr.state = target then 5
  else 0

/-! ### Entry (Table 18.6) -/

/-- FLUSH_ALL of every slice and L1, each ending with ENABLE 0. -/
def Dev.flushEvery (d : Dev) : Dev :=
  (namedCaches 0).foldl (fun (e : Dev) n =>
    if (e.cache n).busy then e.updCache n fun k => { k with offAfter := true }
    else e.startOp n { code := 8, off := true, cmd := false }) d

/-- A request for a state below ACTIVE. From ACTIVE the flush starts; from a lower state the steps that remain follow. -/
def Dev.powerRequest (d : Dev) (target : Nat) : Dev :=
  let c := d.powerCause target
  if c ≠ 0 then { d with pwr := { d.pwr with refused := true, refuseCause := c } }
  else if target < d.pwr.state then d
  else
    let p := { d.pwr with refuseCause := 0, busy := true, exiting := false, target := target, wake := none }
    if d.pwr.state = 0 then
      ({ d with pwr := { p with step := 2, enabled := (namedCaches 0).filter fun n => (d.cache n).enable } }).flushEvery
    else { d with pwr := { p with step := d.pwr.state + 2 } }

/-- What gated logic loses (Table 18.3): cores with L1, scratch and instruction cache, Grinders, copy engines, ingress
agents, slice data, directory arrays. -/
def Dev.gateLogic (d : Dev) : Dev :=
  { d with
    cores := Map.mapVals (fun _ (k : Core) => { Core.reset with sramErr := k.sramErr, waves := k.waves }) d.cores
    caches := Map.mapVals (fun _ (k : Cache) => { k with ways := [], side := [], locked := 0 }) d.caches
    dir := []
    tb := { d.tb with pred := [], localLoad := [], sampled := [] }
    quarters := Map.mapVals (fun _ (x : Quarter) =>
      { x with wait := .none, again := false, stagger := [], restart := []
               progress := if x.wait.plans then { x.progress with state := 6 } else x.progress }) d.quarters
    pwr := { d.pwr with scratchLost := List.range 272 } }

/-- Step 3 begins: gated, every quarter on its way to 600 mV. -/
def Dev.enterStandby (d : Dev) : Dev :=
  let d1 := ({ d with caches := Map.mapVals (fun _ (k : Cache) => { k with invDone := false }) d.caches }).gateLogic
  (List.range 4).foldl (fun (e : Dev) q => e.walkStep q 600) { d1 with pwr := { d1.pwr with step := 3 } }

/-- Step 4: every link that is enabled is OFF, stacks refresh themselves. -/
def Dev.enterDormant (d : Dev) : Dev :=
  let d1 := (List.range 36).foldl (fun (e : Dev) n =>
    if (e.lnk n).enable then (e.linkDown n).updLnk n fun l => { l with state := 5 } else e) d
  let stacks' := (List.range 8).foldl (fun (m : Map Stack) s => Map.put m s { Map.get Stack.reset m s with selfRefresh := true }) d1.tier.drams
  { d1 with tier := { d1.tier with drams := stacks' }, pwr := { d1.pwr with state := 2 } }

/-- The calendar and PoweredSeconds in the NV store (R456, R457). -/
def Dev.calPersist (d : Dev) : Dev :=
  ({ d with mg := { d.mg with nvSeconds := d.mg.seconds, nvPowered := d.mg.powered } }).nvRecord 3

/-- Step 5, once the write queues have drained: wear counters, calendar and PoweredSeconds are persisted. -/
def Dev.enterOff (d : Dev) : Dev := d.lifePersist.calPersist

/-- STATE shows OFF_READY once what was persisted is written (R516). -/
def Dev.showOff (d : Dev) : Dev :=
  { d with pwr := { d.pwr with state := 3, busy := false }, pins := { d.pins with ready := true } }

/-- An entry has nothing more to do, or a wake that came meanwhile turns it round at its matching step. -/
def Dev.entryNext (d : Dev) : Dev :=
  let p := d.pwr
  match p.wake with
  | some src =>
    { d with pwr := { p with
        exiting := true, wake := none, wakeEv := true, wakeSrc := src, target := 0, exitStart := (d.qr 0).refCount
        step := if p.step = 2 then 4 else if p.step = 3 then 2 else 1 } }
  | none =>
    if p.step = 2 then d.enterStandby
    else if p.step = 3 && 2 ≤ p.target then { d.enterDormant with pwr := { d.enterDormant.pwr with step := 4 } }
    else if p.step = 4 && p.target = 3 then (if d.writesDrained then { d.enterOff with pwr := { d.enterOff.pwr with step := 5 } } else d)
    else { d with pwr := { p with busy := false } }

/-- POWER_ENTRY_STEP: the step that began has been completed. -/
def Dev.entryStep (d : Dev) : Dev :=
  let p := d.pwr
  if !p.busy || p.exiting then d
  else if p.step = 2 then
    (if (namedCaches 0).any fun n => (d.cache n).busy then d else d.entryNext)
  else if p.step = 3 then
    (if d.walking then d else { d with pwr := { p with state := Nat.max 1 p.state } }.entryNext)
  else if p.step = 5 then
    (if d.rst.nvPulse || !d.rst.nvWaiting.isEmpty then d
    else match p.wake with
      | some _ => d.entryNext
      | none => d.showOff)
  else d.entryNext

/-! ### Exit (Table 18.7) -/

/-- Step 1: stacks leave self-refresh; links that are enabled may come up. -/
def Dev.exitDormant (d : Dev) : Dev :=
  let d1 := (List.range 36).foldl (fun (e : Dev) n => e.updLnk n fun l => if l.state = 5 then { l with state := 0 } else l) d
  { d1 with tier := { d1.tier with drams := Map.mapVals (fun _ (x : Stack) => { x with selfRefresh := false }) d1.tier.drams } }

/-- Step 4: the caches that were enabled at entry are invalidated and enabled again. -/
def Dev.exitCaches (d : Dev) : Dev :=
  d.pwr.enabled.foldl (fun (e : Dev) n => e.updCache n fun k => { k with ways := [], side := [], invDone := true, enable := true }) d

/-- Step 5: ACTIVE; every quarter replans; held requests proceed. -/
def Dev.exitActive (d : Dev) : Dev :=
  let p := d.pwr
  let us := ((d.qr 0).refCount - p.exitStart).toNat / 100
  let d1 := { d with
    pwr := { p with state := 0, busy := false, exiting := false, step := 0, lastExit := us, enabled := [], gated := [] }
    pins := { d.pins with ready := !d.cp.ready } }
  let d2 := (List.range 4).foldl (fun (e : Dev) q => e.replan q) d1
  p.gated.foldl (fun (e : Dev) m => e.hostEnter m) d2.admitWaiting

/-- Step 3: ungated; every group of every quarter is calibrated from T = 31, as at a cold start (R49). An emergency goes on
without it, and the replan after it sets the taps. -/
def Dev.exitCalibrate (d : Dev) : Dev :=
  { d with quarters := (List.range 4).foldl (fun (m : Map Quarter) q =>
      let x := Map.get Quarter.reset m q
      Map.put m q (if x.emGroups.isEmpty then
        { x with tap := [], latch := [], stage := [], wait := .calib, sett := d.planSet q } else x)) d.quarters }

/-- Ungated groups are still under calibration. -/
def Dev.calibrating (d : Dev) : Bool := (List.range 4).any fun q => (d.qr q).wait = .calib

/-- POWER_EXIT_STEP: the exit's next step, once the voltage steps and the calibration before it have ended. -/
def Dev.exitStep (d : Dev) : Dev :=
  let p := d.pwr
  let next (e : Dev) (n : Nat) : Dev := { e with pwr := { e.pwr with step := n } }
  if !p.busy || !p.exiting || d.walking || d.calibrating then d
  else if p.step = 1 then next (if 2 ≤ p.state then d.exitDormant else d) 2
  else if p.step = 2 then next ((List.range 4).foldl (fun (e : Dev) q => e.walkStep q (e.qr q).planVreq) d) 3
  else if p.step = 3 then next d.exitCalibrate 4
  else if p.step = 4 then next d.exitCaches 5
  else d.exitActive

/-! ### Requests -/

/-- RST_PWR_CTRL: management and context 0 only (R515). -/
def Dev.powerCtrl (d : Dev) (src : RegSource) (target : Nat) : Dev :=
  if !innerWriter src then d
  else if target = 0 then d.wakeBy 0
  else d.powerRequest target

/-- D3hot: recorded whatever comes of it; a block held in DORMANT or OFF_READY stays there. -/
def Dev.d3hot (d : Dev) : Dev :=
  let d1 := { d with pwr := { d.pwr with d3hot := true } }
  if 2 ≤ d.pwr.state && !d.pwr.busy then d1 else d1.powerRequest 1

def Dev.d0 (d : Dev) : Dev := { d with pwr := { d.pwr with d3hot := false } }.wakeBy 3

/-! ### Meanings -/

def execPwrActive (src : RegSource) (s : State) : Host.Outcome State Fault Refusal := s.goes (s.dev.powerCtrl src 0)
def execPwrStandby (src : RegSource) (s : State) : Host.Outcome State Fault Refusal := s.goes (s.dev.powerCtrl src 1)
def execPwrDormant (src : RegSource) (s : State) : Host.Outcome State Fault Refusal := s.goes (s.dev.powerCtrl src 2)
def execPwrOffReady (src : RegSource) (s : State) : Host.Outcome State Fault Refusal := s.goes (s.dev.powerCtrl src 3)
def execPowerEntryStep (s : State) : Host.Outcome State Fault Refusal := s.goes s.dev.entryStep
def execPowerExitStep (s : State) : Host.Outcome State Fault Refusal := s.goes s.dev.exitStep
def execD3hotWrite (s : State) : Host.Outcome State Fault Refusal := s.goes s.dev.d3hot
def execD0Write (s : State) : Host.Outcome State Fault Refusal := s.goes s.dev.d0

end Sys2Proof.Machine
end

