-- ==== Sys2Proof/Machine/Sha.lean ====
section
/-! DEFINITION. The code that the tags and wrapped keys of the dictionary use (R441, R443): HMAC with SHA-256, which the
manual names and does not define. Its constants are computed from what defines them, roots of the first primes. -/

namespace Sys2Proof.Machine

/-! ### Constants -/

/-- The largest r below 2^i above a start whose k-th power is at most n, bit by bit. -/
def rootFrom (k n : Nat) : Nat → Nat → Nat
  | 0, r => r
  | i + 1, r => rootFrom k n i (if (r + 2 ^ i) ^ k ≤ n then r + 2 ^ i else r)

/-- The primes below 312: the first 64. -/
def firstPrimes : List Nat := (List.range 312).filter fun p => 2 ≤ p && (List.range 18).all fun q => q < 2 || q = p || p % q ≠ 0

/-- The first 32 bits behind the point of the k-th root of a prime. -/
def rootBits (k p : Nat) : Word32 := BitVec.ofNat 32 (rootFrom k (p * 2 ^ (32 * k)) 37 0)

/-! ### The hash -/

/-- Eight chained words. -/
structure Chain where
  a : Word32
  b : Word32
  c : Word32
  d : Word32
  e : Word32
  f : Word32
  g : Word32
  h : Word32

def Chain.words (x : Chain) : List Word32 := [x.a, x.b, x.c, x.d, x.e, x.f, x.g, x.h]
def Chain.ofFun (r : Nat → Word32) : Chain := { a := r 0, b := r 1, c := r 2, d := r 3, e := r 4, f := r 5, g := r 6, h := r 7 }
def Chain.start : Chain := .ofFun fun i => rootBits 2 (firstPrimes.getD i 0)
def Chain.plus (x y : Chain) : Chain := .ofFun fun i => x.words.getD i 0 + y.words.getD i 0

/-- A word turned right by each amount, the results combined bit by bit. -/
def spin (x : Word32) (ns : List Nat) : Word32 := ns.foldl (fun y n => y ^^^ x.rotateRight n) 0

/-- One round with its constant: the window's first word enters, and the window moves on by a word. -/
def Chain.round (s : Chain × List Word32) (k : Word32) : Chain × List Word32 :=
  let (x, w) := s
  let at_ (i : Nat) : Word32 := w.getD i 0
  let choice := x.g ^^^ (x.e &&& (x.f ^^^ x.g))
  let most := (x.a &&& (x.b ||| x.c)) ||| (x.b &&& x.c)
  let t := x.h + spin x.e [6, 11, 25] + choice + k + at_ 0
  let next := at_ 0 + (spin (at_ 1) [7, 18] ^^^ (at_ 1 >>> 3)) + at_ 9 + (spin (at_ 14) [17, 19] ^^^ (at_ 14 >>> 10))
  ({ x with a := t + spin x.a [2, 13, 22] + most, b := x.a, c := x.b, d := x.c, e := x.d + t, f := x.e, g := x.f, h := x.g },
    w.drop 1 ++ [next])

/-- n bytes of a number, most significant first. -/
def beBytes (n v : Nat) : List Byte := ((List.range n).map fun i => BitVec.ofNat 8 (v / 256 ^ i)).reverse

/-- The number that bytes spell, most significant first. -/
def ofBeBytes (bs : List Byte) : Nat := bs.foldl (fun n b => 256 * n + b.toNat) 0

/-- Block i of a padded message, of 64 bytes, enters the chain. -/
def Chain.block (ks : List Word32) (p : List Byte) (x : Chain) (i : Nat) : Chain :=
  let w := (List.range 16).map fun j => BitVec.ofNat 32 (ofBeBytes ((p.drop (64 * i + 4 * j)).take 4))
  x.plus (ks.foldl Chain.round (x, w)).1

/-- A message with its end mark, zeros, and its length in bits, filling whole blocks. -/
def padded (m : List Byte) : List Byte :=
  let n := m.length
  m ++ 0x80 :: (List.replicate (64 * ((n + 72) / 64) - (n + 9)) 0 ++ beBytes 8 (8 * n))

/-- SHA-256 of a message. -/
def sha256 (m : List Byte) : List Byte :=
  let p := padded m
  ((List.range (p.length / 64)).foldl (Chain.block (firstPrimes.map (rootBits 3)) p) .start).words.flatMap fun w => beBytes 4 w.toNat

/-- HMAC-SHA-256 with a key of at most 64 bytes. -/
def hmac256 (key m : List Byte) : List Byte :=
  let keyed (pad : Byte) : List Byte := (List.range 64).map fun i => key.getD i 0 ^^^ pad
  sha256 (keyed 0x5C ++ sha256 (keyed 0x36 ++ m))

end Sys2Proof.Machine
end

