-- ==== Sys2Proof/Machine/Objects.lean ====
section
/-! DEFINITION. The objects of the dictionary (R431-R436, R451-R458 and the object tables of every chapter): one row for
each object or run of like objects, and the value that each object reads as. -/

namespace Sys2Proof.Machine

/-- Types of Table 15.1. -/
inductive OType | bool | u8 | u16 | u32 | u64 | i32 | i64 | f32 | str | blob | record
  deriving DecidableEq, Repr

def OType.code : OType → Nat
  | .bool => 1
  | .u8 => 2
  | .u16 => 3
  | .u32 => 4
  | .u64 => 5
  | .i32 => 6
  | .i64 => 7
  | .f32 => 8
  | .str => 9
  | .blob => 10
  | .record => 11

/-- Access codes (R433). -/
inductive OAccess | ro | rw | wo | konst
  deriving DecidableEq, Repr

/-- Objects of one row: indexes, sub-indexes, type, size in bytes (a STR's greatest), access, Persist, whether a write needs
the Service role, and for RW objects the range and default, for CONST ones the value. -/
structure Obj where
  i0  : Nat
  i1  : Nat
  s0  : Nat
  s1  : Nat
  ty  : OType
  size : Nat
  acc : OAccess
  persist : Bool
  svc : Bool
  lo  : Nat
  hi  : Nat
  dflt : Nat
  deriving DecidableEq, Repr

def objsIdentity : List Obj := [
  ⟨0x1000, 0x1000, 1, 1, .str, 16, .konst, false, false, 0, 0, 0⟩,
  ⟨0x1000, 0x1000, 2, 2, .str, 16, .konst, false, false, 0, 0, 0⟩,
  ⟨0x1000, 0x1000, 3, 3, .str, 16, .konst, false, false, 0, 0, 0⟩,
  ⟨0x1000, 0x1000, 4, 4, .str, 24, .konst, false, false, 0, 0, 0⟩,
  ⟨0x1000, 0x1000, 5, 5, .blob, 16, .konst, false, false, 0, 0, 0⟩,
  ⟨0x1000, 0x1000, 6, 6, .u16, 2, .konst, false, false, 0, 0, 8090⟩,
  ⟨0x1000, 0x1000, 7, 7, .u16, 2, .konst, false, false, 0, 0, 55200⟩,
  ⟨0x1000, 0x1000, 8, 8, .u8, 1, .konst, false, false, 0, 0, 0⟩,
  ⟨0x1000, 0x1000, 9, 9, .blob, 6, .konst, false, false, 0, 0, 0⟩,
  ⟨0x1000, 0x1000, 10, 10, .u64, 8, .konst, false, false, 0, 0, 0⟩,
  ⟨0x1000, 0x1000, 11, 11, .u16, 2, .konst, false, false, 0, 0, 256⟩,
  ⟨0x1100, 0x1100, 1, 1, .u8, 1, .konst, false, false, 0, 0, 4⟩,
  ⟨0x1100, 0x1100, 2, 2, .u16, 2, .konst, false, false, 0, 0, 272⟩,
  ⟨0x1100, 0x1100, 3, 3, .u8, 1, .konst, false, false, 0, 0, 64⟩,
  ⟨0x1100, 0x1100, 4, 4, .u8, 1, .konst, false, false, 0, 0, 64⟩,
  ⟨0x1100, 0x1100, 5, 5, .u64, 8, .konst, false, false, 0, 0, 412316860416⟩,
  ⟨0x1100, 0x1100, 6, 6, .u64, 8, .konst, false, false, 0, 0, 26388279066624⟩,
  ⟨0x1100, 0x1100, 7, 7, .u16, 2, .konst, false, false, 0, 0, 4096⟩,
  ⟨0x1100, 0x1100, 8, 8, .u16, 2, .konst, false, false, 0, 0, 16384⟩,
  ⟨0x1100, 0x1100, 9, 9, .u16, 2, .konst, false, false, 0, 0, 2048⟩,
  ⟨0x1100, 0x1100, 10, 10, .u8, 1, .konst, false, false, 0, 0, 36⟩,
  ⟨0x1110, 0x1110, 1, 1, .u16, 2, .ro, false, false, 0, 0, 0⟩,
  ⟨0x1110, 0x1110, 2, 5, .u8, 1, .ro, false, false, 0, 0, 0⟩,
  ⟨0x1110, 0x1110, 6, 6, .u8, 1, .ro, false, false, 0, 0, 0⟩,
  ⟨0x1111, 0x1111, 1, 4, .blob, 9, .ro, true, false, 0, 0, 0⟩,
  ⟨0x1800, 0x1800, 1, 1, .bool, 1, .rw, true, false, 0, 1, 1⟩,
  ⟨0x1800, 0x1800, 2, 2, .u8, 1, .rw, true, false, 0, 255, 255⟩,
  ⟨0x1800, 0x1800, 3, 3, .u8, 1, .rw, true, false, 1, 255, 8⟩,
  ⟨0x1800, 0x1800, 4, 4, .u8, 1, .rw, true, false, 1, 255, 32⟩,
  ⟨0x1800, 0x1800, 5, 5, .u8, 1, .rw, true, false, 0, 255, 0⟩,
  ⟨0x1800, 0x1800, 6, 6, .u8, 1, .rw, true, false, 1, 255, 128⟩,
  ⟨0x1800, 0x1800, 7, 7, .u16, 2, .rw, true, false, 1024, 65535, 47056⟩,
  ⟨0x1800, 0x1800, 8, 8, .blob, 16, .ro, false, false, 0, 0, 0⟩,
  ⟨0x1800, 0x1800, 9, 9, .u8, 1, .ro, false, false, 0, 0, 0⟩,
  ⟨0x1801, 0x1801, 1, 1, .u64, 8, .ro, false, false, 0, 0, 0⟩,
  ⟨0x1801, 0x1801, 2, 2, .u64, 8, .ro, false, false, 0, 0, 0⟩,
  ⟨0x1801, 0x1801, 3, 3, .u64, 8, .ro, false, false, 0, 0, 0⟩,
  ⟨0x1810, 0x1810, 1, 1, .bool, 1, .rw, true, false, 0, 1, 1⟩,
  ⟨0x1810, 0x1810, 2, 4, .u64, 8, .ro, false, false, 0, 0, 0⟩,
  ⟨0x1810, 0x1810, 5, 7, .blob, 32, .wo, true, true, 0, 0, 0⟩,
  ⟨0x1810, 0x1810, 8, 8, .bool, 1, .ro, true, false, 0, 0, 0⟩,
  ⟨0x1810, 0x1810, 9, 9, .u32, 4, .ro, false, false, 0, 0, 0⟩,
  ⟨0x1810, 0x1810, 10, 10, .u32, 4, .ro, false, false, 0, 0, 0⟩]

def objsSettings : List Obj := [
  ⟨0x2040, 0x2040, 1, 1, .u16, 2, .rw, true, false, 1100, 1300, 1150⟩,
  ⟨0x2040, 0x2040, 2, 2, .u16, 2, .rw, true, false, 1040, 1300, 1080⟩,
  ⟨0x2040, 0x2040, 3, 3, .u16, 2, .rw, true, false, 50, 500, 100⟩,
  ⟨0x2040, 0x2040, 4, 4, .u32, 4, .rw, true, false, 3600, 86400, 86400⟩,
  ⟨0x2040, 0x2040, 5, 5, .u32, 4, .rw, true, false, 500, 10000, 2000⟩,
  ⟨0x2040, 0x2040, 6, 6, .u32, 4, .konst, false, false, 0, 0, 10000⟩,
  ⟨0x2040, 0x2040, 7, 7, .u16, 2, .rw, true, false, 150, 350, 350⟩,
  ⟨0x2041, 0x2041, 1, 1, .u8, 1, .rw, true, false, 1, 64, 8⟩,
  ⟨0x2041, 0x2041, 2, 2, .u16, 2, .rw, true, false, 1, 1000, 10⟩,
  ⟨0x2042, 0x2042, 1, 4, .u16, 2, .rw, true, false, 850, 1380, 1200⟩,
  ⟨0x2042, 0x2042, 5, 8, .u16, 2, .rw, true, false, 680, 850, 680⟩,
  ⟨0x2050, 0x2050, 1, 1, .bool, 1, .rw, true, false, 0, 1, 1⟩,
  ⟨0x2051, 0x2051, 1, 1, .u64, 8, .ro, false, false, 0, 0, 0⟩,
  ⟨0x2051, 0x2051, 2, 2, .u64, 8, .ro, false, false, 0, 0, 0⟩,
  ⟨0x2051, 0x2051, 3, 3, .u16, 2, .ro, false, false, 0, 0, 0⟩]

def objsCaches : List Obj := [
  ⟨0x2060, 0x2060, 1, 1, .u16, 2, .rw, true, false, 4, 256, 16⟩,
  ⟨0x2060, 0x2060, 2, 2, .u16, 2, .rw, true, false, 24, 256, 24⟩,
  ⟨0x2060, 0x2060, 3, 3, .u16, 2, .konst, false, false, 0, 0, 4⟩,
  ⟨0x2061, 0x2061, 1, 1, .u64, 8, .ro, false, false, 0, 0, 0⟩,
  ⟨0x2061, 0x2061, 2, 2, .u64, 8, .ro, false, false, 0, 0, 0⟩,
  ⟨0x2061, 0x2061, 3, 3, .u64, 8, .ro, false, false, 0, 0, 0⟩,
  ⟨0x2061, 0x2061, 4, 4, .u64, 8, .ro, false, false, 0, 0, 0⟩,
  ⟨0x2061, 0x2061, 5, 5, .u64, 8, .ro, false, false, 0, 0, 0⟩,
  ⟨0x2061, 0x2061, 6, 6, .u64, 8, .ro, false, false, 0, 0, 0⟩,
  ⟨0x2061, 0x2061, 7, 7, .u64, 8, .ro, false, false, 0, 0, 0⟩,
  ⟨0x2061, 0x2061, 8, 8, .u64, 8, .ro, false, false, 0, 0, 0⟩,
  ⟨0x2070, 0x2070, 1, 1, .u8, 1, .rw, true, false, 0, 31, 15⟩,
  ⟨0x2070, 0x2070, 2, 2, .u8, 1, .rw, true, false, 0, 8, 4⟩,
  ⟨0x2070, 0x2070, 3, 3, .u8, 1, .rw, false, false, 0, 255, 0⟩,
  ⟨0x2070, 0x2070, 4, 4, .u8, 1, .konst, false, false, 0, 0, 8⟩,
  ⟨0x2070, 0x2070, 5, 5, .u8, 1, .konst, false, false, 0, 0, 4⟩,
  ⟨0x2070, 0x2070, 6, 6, .u32, 4, .konst, false, false, 0, 0, 86400⟩,
  ⟨0x2071, 0x2071, 1, 1, .u64, 8, .ro, false, false, 0, 0, 0⟩,
  ⟨0x2071, 0x2071, 2, 2, .u64, 8, .ro, false, false, 0, 0, 0⟩,
  ⟨0x2071, 0x2071, 3, 3, .u64, 8, .ro, false, false, 0, 0, 0⟩,
  ⟨0x2071, 0x2071, 4, 4, .u64, 8, .ro, false, false, 0, 0, 0⟩,
  ⟨0x2071, 0x2071, 5, 5, .u64, 8, .ro, false, false, 0, 0, 0⟩,
  ⟨0x2071, 0x2071, 6, 6, .u64, 8, .ro, false, false, 0, 0, 0⟩,
  ⟨0x2071, 0x2071, 7, 7, .u16, 2, .ro, true, false, 0, 0, 0⟩,
  ⟨0x2071, 0x2071, 8, 8, .u64, 8, .ro, false, false, 0, 0, 0⟩,
  ⟨0x2080, 0x2080, 1, 1, .u64, 8, .ro, false, false, 0, 0, 0⟩,
  ⟨0x2080, 0x2080, 2, 2, .u32, 4, .ro, false, false, 0, 0, 0⟩,
  ⟨0x2080, 0x2080, 3, 3, .u64, 8, .ro, false, false, 0, 0, 0⟩,
  ⟨0x2080, 0x2080, 4, 4, .u64, 8, .ro, false, false, 0, 0, 0⟩,
  ⟨0x2080, 0x2080, 5, 5, .u32, 4, .ro, false, false, 0, 0, 0⟩,
  ⟨0x2090, 0x2090, 1, 1, .u16, 2, .rw, true, false, 64, 16384, 4096⟩,
  ⟨0x2090, 0x2090, 2, 2, .u8, 1, .rw, true, false, 0, 90, 25⟩,
  ⟨0x2090, 0x2090, 3, 3, .u8, 1, .rw, true, false, 0, 50, 10⟩,
  ⟨0x2090, 0x2090, 4, 4, .u16, 2, .rw, true, false, 16, 1024, 64⟩,
  ⟨0x2090, 0x2090, 5, 5, .u32, 4, .rw, true, false, 10000, 100000000, 100000⟩,
  ⟨0x2090, 0x2090, 6, 6, .u32, 4, .rw, true, false, 1000, 10000000, 100000⟩,
  ⟨0x2091, 0x2091, 1, 1, .u64, 8, .ro, false, false, 0, 0, 0⟩,
  ⟨0x2091, 0x2091, 2, 2, .u64, 8, .ro, false, false, 0, 0, 0⟩,
  ⟨0x2091, 0x2091, 3, 3, .u64, 8, .ro, false, false, 0, 0, 0⟩,
  ⟨0x2091, 0x2091, 4, 4, .u64, 8, .ro, false, false, 0, 0, 0⟩,
  ⟨0x2091, 0x2091, 5, 5, .u64, 8, .ro, false, false, 0, 0, 0⟩,
  ⟨0x2091, 0x2091, 6, 6, .u64, 8, .ro, false, false, 0, 0, 0⟩,
  ⟨0x2091, 0x2091, 7, 7, .u64, 8, .ro, false, false, 0, 0, 0⟩,
  ⟨0x2091, 0x2091, 8, 8, .u64, 8, .ro, false, false, 0, 0, 0⟩,
  ⟨0x20A0, 0x20A0, 1, 1, .u32, 4, .rw, true, false, 100000, 100000000, 1000000⟩,
  ⟨0x20A0, 0x20A0, 2, 2, .bool, 1, .rw, true, false, 0, 1, 0⟩,
  ⟨0x20A0, 0x20A0, 3, 3, .u8, 1, .rw, true, false, 0, 1, 1⟩,
  ⟨0x20A0, 0x20A0, 4, 4, .u8, 1, .rw, true, false, 4, 16, 16⟩,
  ⟨0x20A0, 0x20A0, 5, 5, .u8, 1, .rw, true, false, 16, 64, 64⟩,
  ⟨0x20A1, 0x20A1, 1, 1, .u8, 1, .ro, false, false, 0, 0, 0⟩,
  ⟨0x20A1, 0x20A1, 2, 2, .u8, 1, .ro, false, false, 0, 0, 0⟩,
  ⟨0x20A1, 0x20A1, 3, 3, .u8, 1, .ro, false, false, 0, 0, 0⟩,
  ⟨0x20A1, 0x20A1, 4, 4, .u32, 4, .ro, false, false, 0, 0, 0⟩,
  ⟨0x20A1, 0x20A1, 5, 5, .u32, 4, .ro, true, false, 0, 0, 0⟩,
  ⟨0x20A1, 0x20A1, 6, 6, .u64, 8, .ro, false, false, 0, 0, 0⟩,
  ⟨0x20A1, 0x20A1, 7, 7, .u64, 8, .ro, false, false, 0, 0, 0⟩,
  ⟨0x20A1, 0x20A1, 8, 8, .u32, 4, .ro, true, false, 0, 0, 0⟩,
  ⟨0x20A1, 0x20A1, 9, 9, .u8, 1, .ro, false, false, 0, 0, 0⟩,
  ⟨0x20A1, 0x20A1, 10, 10, .u64, 8, .ro, false, false, 0, 0, 0⟩,
  ⟨0x20A1, 0x20A1, 11, 11, .u64, 8, .ro, false, false, 0, 0, 0⟩,
  ⟨0x20A1, 0x20A1, 12, 12, .u64, 8, .ro, false, false, 0, 0, 0⟩]

def objsTiers : List Obj := [
  ⟨0x2400, 0x2400, 1, 1, .blob, 12, .rw, true, false, 0, 0, 0⟩,
  ⟨0x2400, 0x2400, 2, 2, .blob, 768, .rw, true, false, 0, 0, 0⟩,
  ⟨0x2401, 0x2401, 1, 1, .u32, 4, .rw, true, false, 3600, 604800, 86400⟩,
  ⟨0x2401, 0x2401, 2, 2, .u8, 1, .rw, true, false, 0, 1, 1⟩,
  ⟨0x2402, 0x2402, 1, 1, .u32, 4, .rw, true, false, 86400, 604800, 604800⟩,
  ⟨0x2402, 0x2402, 2, 2, .u8, 1, .rw, true, false, 1, 20, 2⟩,
  ⟨0x2402, 0x2402, 3, 3, .u8, 1, .rw, true, false, 5, 30, 15⟩,
  ⟨0x2403, 0x2403, 1, 1, .u16, 2, .rw, true, false, 16, 1000, 100⟩,
  ⟨0x2403, 0x2403, 2, 2, .u32, 4, .rw, true, false, 4096, 1048576, 65536⟩,
  ⟨0x2403, 0x2403, 3, 3, .u8, 1, .rw, true, false, 1, 20, 5⟩,
  ⟨0x2404, 0x2404, 1, 1, .bool, 1, .rw, true, false, 0, 1, 0⟩,
  ⟨0x2404, 0x2404, 2, 2, .u32, 4, .rw, true, false, 256, 16384, 1024⟩,
  ⟨0x2405, 0x2405, 1, 1, .u64, 8, .ro, false, false, 0, 0, 0⟩,
  ⟨0x2405, 0x2405, 2, 2, .u64, 8, .ro, false, false, 0, 0, 0⟩,
  ⟨0x2420, 0x2420, 1, 1, .record, 8192, .ro, true, false, 0, 0, 0⟩,
  ⟨0x2421, 0x2421, 1, 1, .u64, 8, .ro, true, false, 0, 0, 0⟩,
  ⟨0x2421, 0x2421, 2, 2, .u64, 8, .ro, false, false, 0, 0, 0⟩,
  ⟨0x2421, 0x2421, 3, 3, .u64, 8, .ro, true, false, 0, 0, 0⟩,
  ⟨0x2421, 0x2421, 4, 4, .u64, 8, .ro, false, false, 0, 0, 0⟩,
  ⟨0x2421, 0x2421, 5, 5, .u64, 8, .ro, false, false, 0, 0, 0⟩,
  ⟨0x2421, 0x2421, 6, 6, .u32, 4, .ro, true, false, 0, 0, 0⟩,
  ⟨0x2421, 0x2421, 7, 7, .u64, 8, .ro, false, false, 0, 0, 0⟩]

def objsTables : List Obj := [
  ⟨0x2800, 0x2800, 1, 1, .u16, 2, .ro, false, false, 0, 0, 0⟩,
  ⟨0x2800, 0x2800, 2, 2, .u32, 4, .rw, true, false, 0, 4096, 1024⟩,
  ⟨0x2800, 0x2800, 3, 3, .u32, 4, .rw, true, false, 0, 10000000, 100000⟩,
  ⟨0x2800, 0x2800, 4, 4, .u16, 2, .rw, true, false, 1, 4096, 64⟩,
  ⟨0x2800, 0x2800, 5, 5, .u32, 4, .rw, true, false, 1000, 10000000, 100000⟩,
  ⟨0x2801, 0x2801, 1, 1, .u64, 8, .ro, false, false, 0, 0, 0⟩,
  ⟨0x2801, 0x2801, 2, 2, .u64, 8, .ro, false, false, 0, 0, 0⟩,
  ⟨0x2801, 0x2801, 3, 3, .u64, 8, .ro, false, false, 0, 0, 0⟩,
  ⟨0x2801, 0x2801, 4, 4, .u64, 8, .ro, false, false, 0, 0, 0⟩,
  ⟨0x2801, 0x2801, 5, 5, .u32, 4, .ro, false, false, 0, 0, 0⟩,
  ⟨0x2801, 0x2801, 6, 6, .u64, 8, .ro, false, false, 0, 0, 0⟩,
  ⟨0x2801, 0x2801, 7, 7, .u64, 8, .ro, false, false, 0, 0, 0⟩,
  ⟨0x2810, 0x2810, 1, 1, .u32, 4, .rw, true, false, 0, 16384, 4096⟩,
  ⟨0x2810, 0x2810, 2, 2, .u32, 4, .rw, true, false, 0, 16384, 3072⟩,
  ⟨0x2810, 0x2810, 3, 3, .u16, 2, .rw, true, false, 24, 256, 24⟩,
  ⟨0x2810, 0x2810, 4, 4, .u8, 1, .rw, true, false, 1, 3, 2⟩,
  ⟨0x2810, 0x2810, 5, 5, .u32, 4, .rw, true, false, 0, 8192, 1024⟩,
  ⟨0x2810, 0x2810, 6, 6, .u32, 4, .rw, true, false, 10000, 1000000000, 10000000⟩,
  ⟨0x2811, 0x2811, 1, 1, .u64, 8, .ro, false, false, 0, 0, 0⟩,
  ⟨0x2811, 0x2811, 2, 2, .u64, 8, .ro, false, false, 0, 0, 0⟩,
  ⟨0x2811, 0x2811, 3, 3, .u64, 8, .ro, false, false, 0, 0, 0⟩,
  ⟨0x2811, 0x2811, 4, 4, .u64, 8, .ro, false, false, 0, 0, 0⟩,
  ⟨0x2811, 0x2811, 5, 5, .u64, 8, .ro, false, false, 0, 0, 0⟩,
  ⟨0x2811, 0x2811, 6, 6, .u64, 8, .ro, false, false, 0, 0, 0⟩,
  ⟨0x2811, 0x2811, 7, 7, .u32, 4, .ro, false, false, 0, 0, 0⟩,
  ⟨0x2811, 0x2811, 8, 8, .u32, 4, .ro, false, false, 0, 0, 0⟩,
  ⟨0x2811, 0x2811, 9, 9, .u64, 8, .ro, false, false, 0, 0, 0⟩,
  ⟨0x2811, 0x2811, 10, 10, .u64, 8, .ro, false, false, 0, 0, 0⟩]

def objsFabric : List Obj := [
  ⟨0x3000, 0x3FFF, 1, 1, .bool, 1, .ro, false, false, 0, 0, 0⟩,
  ⟨0x3000, 0x3FFF, 2, 2, .u8, 1, .ro, false, false, 0, 0, 0⟩,
  ⟨0x3000, 0x3FFF, 16, 23, .blob, 24, .ro, false, false, 0, 0, 0⟩,
  ⟨0x4000, 0x4000, 1, 1, .u16, 2, .rw, true, false, 0, 65535, 0⟩,
  ⟨0x4000, 0x4000, 2, 2, .u8, 1, .rw, true, false, 1, 12, 12⟩,
  ⟨0x4000, 0x4000, 3, 3, .u32, 4, .rw, true, false, 10000, 100000000, 1000000⟩,
  ⟨0x4000, 0x4000, 4, 4, .u32, 4, .rw, true, false, 10000, 10000000, 1000000⟩,
  ⟨0x4000, 0x4000, 5, 5, .u8, 1, .konst, false, false, 0, 0, 16⟩,
  ⟨0x4001, 0x4001, 0, 0, .blob, 1024, .rw, true, false, 0, 0, 0⟩,
  ⟨0x4002, 0x4002, 0, 0, .blob, 1024, .rw, true, false, 0, 0, 0⟩,
  ⟨0x4003, 0x4003, 1, 8, .u64, 8, .rw, true, false, 0, 68719476735, 0⟩,
  ⟨0x4004, 0x4004, 1, 1, .u64, 8, .ro, false, false, 0, 0, 0⟩,
  ⟨0x4004, 0x4004, 2, 2, .u64, 8, .ro, false, false, 0, 0, 0⟩,
  ⟨0x4004, 0x4004, 3, 3, .u64, 8, .ro, false, false, 0, 0, 0⟩,
  ⟨0x4004, 0x4004, 4, 4, .u64, 8, .ro, false, false, 0, 0, 0⟩,
  ⟨0x4004, 0x4004, 5, 5, .u64, 8, .ro, false, false, 0, 0, 0⟩,
  ⟨0x4004, 0x4004, 6, 6, .u64, 8, .ro, false, false, 0, 0, 0⟩,
  ⟨0x4004, 0x4004, 7, 7, .u64, 8, .ro, false, false, 0, 0, 0⟩,
  ⟨0x4100, 0x4123, 1, 1, .bool, 1, .rw, true, false, 0, 1, 1⟩,
  ⟨0x4100, 0x4123, 2, 2, .u8, 1, .ro, false, false, 0, 0, 0⟩,
  ⟨0x4100, 0x4123, 3, 3, .u64, 8, .ro, false, false, 0, 0, 0⟩,
  ⟨0x4100, 0x4123, 4, 4, .u64, 8, .ro, false, false, 0, 0, 0⟩,
  ⟨0x4100, 0x4123, 5, 5, .u32, 4, .ro, true, false, 0, 0, 0⟩,
  ⟨0x4100, 0x4123, 6, 6, .u64, 8, .ro, false, false, 0, 0, 0⟩,
  ⟨0x4100, 0x4123, 7, 7, .u64, 8, .ro, false, false, 0, 0, 0⟩]

def objsProgress : List Obj := [
  ⟨0x5010, 0x5013, 1, 1, .u8, 1, .ro, false, false, 0, 0, 0⟩,
  ⟨0x5010, 0x5013, 2, 2, .u16, 2, .ro, false, false, 0, 0, 0⟩,
  ⟨0x5010, 0x5013, 3, 3, .u64, 8, .ro, false, false, 0, 0, 0⟩,
  ⟨0x5010, 0x5013, 4, 4, .u64, 8, .ro, false, false, 0, 0, 0⟩,
  ⟨0x5010, 0x5013, 5, 5, .u16, 2, .ro, false, false, 0, 0, 0⟩,
  ⟨0x5010, 0x5013, 6, 6, .u16, 2, .ro, false, false, 0, 0, 0⟩,
  ⟨0x5010, 0x5013, 7, 7, .u64, 8, .ro, false, false, 0, 0, 0⟩,
  ⟨0x5020, 0x503F, 1, 1, .u8, 1, .ro, false, false, 0, 0, 0⟩,
  ⟨0x5020, 0x503F, 2, 2, .u16, 2, .ro, false, false, 0, 0, 0⟩,
  ⟨0x5020, 0x503F, 3, 3, .u64, 8, .ro, false, false, 0, 0, 0⟩,
  ⟨0x5020, 0x503F, 4, 4, .u64, 8, .ro, false, false, 0, 0, 0⟩,
  ⟨0x5020, 0x503F, 5, 5, .u16, 2, .ro, false, false, 0, 0, 0⟩,
  ⟨0x5020, 0x503F, 6, 6, .u16, 2, .ro, false, false, 0, 0, 0⟩,
  ⟨0x5020, 0x503F, 7, 7, .u64, 8, .ro, false, false, 0, 0, 0⟩,
  ⟨0x5040, 0x5045, 1, 1, .u8, 1, .ro, false, false, 0, 0, 0⟩,
  ⟨0x5040, 0x5045, 2, 2, .u16, 2, .ro, false, false, 0, 0, 0⟩,
  ⟨0x5040, 0x5045, 3, 3, .u64, 8, .ro, false, false, 0, 0, 0⟩,
  ⟨0x5040, 0x5045, 4, 4, .u64, 8, .ro, false, false, 0, 0, 0⟩,
  ⟨0x5040, 0x5045, 5, 5, .u16, 2, .ro, false, false, 0, 0, 0⟩,
  ⟨0x5040, 0x5045, 6, 6, .u16, 2, .ro, false, false, 0, 0, 0⟩,
  ⟨0x5040, 0x5045, 7, 7, .u64, 8, .ro, false, false, 0, 0, 0⟩,
  ⟨0x5050, 0x507F, 1, 1, .u8, 1, .ro, false, false, 0, 0, 0⟩,
  ⟨0x5050, 0x507F, 2, 2, .u16, 2, .ro, false, false, 0, 0, 0⟩,
  ⟨0x5050, 0x507F, 3, 3, .u64, 8, .ro, false, false, 0, 0, 0⟩,
  ⟨0x5050, 0x507F, 4, 4, .u64, 8, .ro, false, false, 0, 0, 0⟩,
  ⟨0x5050, 0x507F, 5, 5, .u16, 2, .ro, false, false, 0, 0, 0⟩,
  ⟨0x5050, 0x507F, 6, 6, .u16, 2, .ro, false, false, 0, 0, 0⟩,
  ⟨0x5050, 0x507F, 7, 7, .u64, 8, .ro, false, false, 0, 0, 0⟩,
  ⟨0x5080, 0x5080, 1, 1, .u8, 1, .ro, false, false, 0, 0, 0⟩,
  ⟨0x5080, 0x5080, 2, 2, .u16, 2, .ro, false, false, 0, 0, 0⟩,
  ⟨0x5080, 0x5080, 3, 3, .u64, 8, .ro, false, false, 0, 0, 0⟩,
  ⟨0x5080, 0x5080, 4, 4, .u64, 8, .ro, false, false, 0, 0, 0⟩,
  ⟨0x5080, 0x5080, 5, 5, .u16, 2, .ro, false, false, 0, 0, 0⟩,
  ⟨0x5080, 0x5080, 6, 6, .u16, 2, .ro, false, false, 0, 0, 0⟩,
  ⟨0x5080, 0x5080, 7, 7, .u64, 8, .ro, false, false, 0, 0, 0⟩]

def objsMeasures : List Obj := [
  ⟨0x6001, 0x6001, 0, 0, .u64, 8, .ro, false, false, 0, 0, 0⟩,
  ⟨0x6002, 0x6002, 1, 1, .u64, 8, .rw, false, false, 0, 18446744073709551615, 0⟩,
  ⟨0x6002, 0x6002, 2, 2, .u32, 4, .ro, false, false, 0, 0, 0⟩,
  ⟨0x6002, 0x6002, 3, 3, .bool, 1, .ro, false, false, 0, 0, 0⟩,
  ⟨0x6002, 0x6002, 4, 4, .i64, 8, .ro, false, false, 0, 0, 0⟩,
  ⟨0x6003, 0x6003, 1, 1, .u16, 2, .ro, false, false, 0, 0, 0⟩,
  ⟨0x6003, 0x6003, 2, 2, .u16, 2, .ro, false, false, 0, 0, 0⟩,
  ⟨0x6003, 0x6003, 3, 3, .bool, 1, .ro, false, false, 0, 0, 0⟩,
  ⟨0x6003, 0x6003, 4, 4, .u16, 2, .ro, false, false, 0, 0, 0⟩,
  ⟨0x6003, 0x6003, 5, 5, .bool, 1, .ro, false, false, 0, 0, 0⟩,
  ⟨0x6010, 0x6013, 1, 1, .u16, 2, .ro, false, false, 0, 0, 0⟩,
  ⟨0x6010, 0x6013, 2, 2, .u16, 2, .ro, false, false, 0, 0, 0⟩,
  ⟨0x6010, 0x6013, 3, 3, .u16, 2, .ro, false, false, 0, 0, 0⟩,
  ⟨0x6010, 0x6013, 4, 4, .i32, 4, .ro, false, false, 0, 0, 0⟩,
  ⟨0x6010, 0x6013, 5, 5, .i32, 4, .ro, false, false, 0, 0, 0⟩,
  ⟨0x6010, 0x6013, 6, 6, .u16, 2, .ro, false, false, 0, 0, 0⟩,
  ⟨0x6020, 0x6023, 1, 16, .u32, 4, .ro, false, false, 0, 0, 0⟩,
  ⟨0x6020, 0x6023, 17, 17, .u16, 2, .ro, false, false, 0, 0, 0⟩,
  ⟨0x6020, 0x6023, 18, 18, .u16, 2, .ro, false, false, 0, 0, 0⟩,
  ⟨0x6020, 0x6023, 19, 19, .u16, 2, .ro, false, false, 0, 0, 0⟩,
  ⟨0x6030, 0x6037, 1, 1, .bool, 1, .ro, false, false, 0, 0, 0⟩,
  ⟨0x6030, 0x6037, 2, 2, .u64, 8, .ro, false, false, 0, 0, 0⟩,
  ⟨0x6030, 0x6037, 3, 3, .i32, 4, .ro, false, false, 0, 0, 0⟩,
  ⟨0x6030, 0x6037, 4, 4, .u8, 1, .ro, false, false, 0, 0, 0⟩,
  ⟨0x6040, 0x6063, 1, 1, .u32, 4, .ro, false, false, 0, 0, 0⟩,
  ⟨0x6040, 0x6063, 2, 2, .u8, 1, .ro, false, false, 0, 0, 0⟩,
  ⟨0x6040, 0x6063, 3, 3, .u32, 4, .ro, false, false, 0, 0, 0⟩,
  ⟨0x6040, 0x6063, 4, 4, .u16, 2, .ro, false, false, 0, 0, 0⟩,
  ⟨0x6040, 0x6063, 5, 5, .blob, 32, .ro, false, false, 0, 0, 0⟩,
  ⟨0x6070, 0x6070, 1, 1, .u8, 1, .ro, false, false, 0, 0, 0⟩,
  ⟨0x6070, 0x6070, 2, 2, .u8, 1, .ro, false, false, 0, 0, 0⟩,
  ⟨0x6070, 0x6070, 3, 3, .u16, 2, .ro, false, false, 0, 0, 0⟩,
  ⟨0x6070, 0x6070, 4, 4, .u64, 8, .ro, false, false, 0, 0, 0⟩,
  ⟨0x6070, 0x6070, 5, 5, .u64, 8, .ro, false, false, 0, 0, 0⟩,
  ⟨0x6070, 0x6070, 6, 6, .u8, 1, .ro, false, false, 0, 0, 0⟩,
  ⟨0x6080, 0x60BF, 1, 1, .bool, 1, .ro, false, false, 0, 0, 0⟩,
  ⟨0x6080, 0x60BF, 2, 2, .u64, 8, .ro, false, false, 0, 0, 0⟩,
  ⟨0x6080, 0x60BF, 3, 3, .i32, 4, .ro, false, false, 0, 0, 0⟩,
  ⟨0x6080, 0x60BF, 4, 4, .u8, 1, .ro, false, false, 0, 0, 0⟩]

def objsLife : List Obj := [
  ⟨0x7000, 0x7000, 1, 1, .u64, 8, .ro, true, false, 0, 0, 0⟩,
  ⟨0x7000, 0x7000, 2, 2, .u64, 8, .ro, true, false, 0, 0, 0⟩,
  ⟨0x7000, 0x7000, 3, 3, .u32, 4, .ro, true, false, 0, 0, 0⟩,
  ⟨0x7000, 0x7000, 4, 4, .u16, 2, .ro, true, false, 0, 0, 0⟩,
  ⟨0x7000, 0x7000, 5, 5, .u64, 8, .ro, true, false, 0, 0, 0⟩,
  ⟨0x7001, 0x7001, 1, 1, .u32, 4, .ro, true, false, 0, 0, 0⟩,
  ⟨0x7001, 0x7001, 2, 2, .blob, 16384, .ro, true, false, 0, 0, 0⟩,
  ⟨0x7002, 0x7002, 1, 4, .u32, 4, .ro, false, false, 0, 0, 0⟩,
  ⟨0x7002, 0x7002, 5, 5, .u64, 8, .ro, true, false, 0, 0, 0⟩,
  ⟨0x7002, 0x7002, 6, 6, .u32, 4, .ro, true, false, 0, 0, 0⟩,
  ⟨0x7010, 0x7013, 1, 1, .u16, 2, .ro, true, false, 0, 0, 0⟩,
  ⟨0x7010, 0x7013, 2, 2, .u16, 2, .ro, true, false, 0, 0, 0⟩,
  ⟨0x7010, 0x7013, 3, 3, .u64, 8, .ro, true, false, 0, 0, 0⟩,
  ⟨0x7010, 0x7013, 4, 4, .u32, 4, .ro, true, false, 0, 0, 0⟩,
  ⟨0x7020, 0x7020, 1, 1, .u16, 2, .ro, true, false, 0, 0, 0⟩,
  ⟨0x7020, 0x7020, 2, 2, .u64, 8, .ro, true, false, 0, 0, 0⟩,
  ⟨0x7030, 0x706F, 1, 1, .u16, 2, .ro, true, false, 0, 0, 0⟩,
  ⟨0x7030, 0x706F, 2, 2, .u32, 4, .ro, true, false, 0, 0, 0⟩,
  ⟨0x7030, 0x706F, 3, 3, .u64, 8, .ro, true, false, 0, 0, 0⟩,
  ⟨0x7030, 0x706F, 4, 4, .u64, 8, .ro, true, false, 0, 0, 0⟩,
  ⟨0x7080, 0x7087, 1, 1, .u32, 4, .ro, true, false, 0, 0, 0⟩,
  ⟨0x7080, 0x7087, 2, 2, .u64, 8, .ro, true, false, 0, 0, 0⟩]

def objsFaults : List Obj := [
  ⟨0x8000, 0x8000, 1, 1, .u8, 1, .rw, true, false, 0, 1, 0⟩,
  ⟨0x8000, 0x8000, 2, 2, .u16, 2, .konst, false, false, 0, 0, 200⟩,
  ⟨0x8000, 0x8000, 3, 3, .u32, 4, .rw, true, false, 100000, 100000000, 1000000⟩,
  ⟨0x8000, 0x8000, 4, 4, .u16, 2, .konst, false, false, 0, 0, 2000⟩,
  ⟨0x8000, 0x8000, 5, 5, .bool, 1, .rw, false, true, 0, 1, 0⟩,
  ⟨0x8001, 0x8001, 1, 1, .u32, 4, .ro, true, false, 0, 0, 0⟩,
  ⟨0x8001, 0x8001, 2, 2, .u8, 1, .ro, true, false, 0, 0, 0⟩,
  ⟨0x8001, 0x8001, 3, 3, .u8, 1, .ro, true, false, 0, 0, 0⟩,
  ⟨0x8001, 0x8001, 4, 4, .u16, 2, .ro, true, false, 0, 0, 0⟩,
  ⟨0x8001, 0x8001, 5, 5, .u64, 8, .ro, true, false, 0, 0, 0⟩,
  ⟨0x8001, 0x8001, 6, 6, .blob, 32, .ro, true, false, 0, 0, 0⟩,
  ⟨0x8001, 0x8001, 7, 7, .u64, 8, .ro, true, false, 0, 0, 0⟩,
  ⟨0x8010, 0x8010, 0, 0, .u16, 2, .ro, false, false, 0, 0, 0⟩,
  ⟨0x8011, 0x8011, 0, 0, .bool, 1, .rw, false, false, 0, 1, 0⟩,
  ⟨0x8012, 0x8012, 0, 0, .u8, 1, .wo, false, false, 0, 0, 0⟩,
  ⟨0x8020, 0x8023, 1, 1, .u32, 4, .ro, false, false, 0, 0, 0⟩,
  ⟨0x8020, 0x8023, 2, 2, .blob, 8192, .ro, false, false, 0, 0, 0⟩,
  ⟨0x8030, 0x8030, 1, 1, .blob, 1024, .ro, false, false, 0, 0, 0⟩,
  ⟨0x8040, 0x8040, 1, 1, .blob, 128, .ro, false, false, 0, 0, 0⟩,
  ⟨0x8050, 0x8050, 0, 0, .u16, 2, .wo, false, false, 0, 0, 0⟩,
  ⟨0x8051, 0x8051, 0, 0, .u16, 2, .wo, false, false, 0, 0, 0⟩,
  ⟨0x8052, 0x8052, 0, 0, .u64, 8, .wo, false, true, 0, 0, 0⟩,
  ⟨0x9001, 0x9001, 0, 0, .u8, 1, .wo, false, false, 0, 0, 0⟩,
  ⟨0x9002, 0x9002, 0, 0, .u16, 2, .wo, false, true, 0, 0, 0⟩,
  ⟨0x9010, 0x9010, 0, 0, .u16, 2, .wo, false, true, 0, 0, 0⟩,
  ⟨0x9020, 0x9020, 0, 0, .u8, 1, .wo, false, false, 0, 0, 0⟩,
  ⟨0x9021, 0x9021, 0, 0, .u16, 2, .wo, false, true, 0, 0, 0⟩]

def objs : List Obj :=
  objsIdentity ++ objsSettings ++ objsCaches ++ objsTiers ++ objsTables ++ objsFabric ++ objsProgress ++ objsMeasures ++ objsLife ++
  objsFaults

def Obj.has (o : Obj) (ix : Nat) : Bool := o.i0 ≤ ix && ix ≤ o.i1

/-- Highest sub-index of an index that holds sub-objects; 0 for others (R431). -/
def highestSub (ix : Nat) : Nat := (objs.filter fun o => o.has ix).foldl (fun m o => Nat.max m o.s1) 0

/-- The object named, sub-index 0 of an index with sub-objects among them. -/
def objAt (ix sub : Nat) : Option Obj :=
  match objs.find? fun o => o.has ix && o.s0 ≤ sub && sub ≤ o.s1 with
  | some o => some o
  | none =>
    if sub = 0 && highestSub ix ≠ 0 then
      some { i0 := ix, i1 := ix, s0 := 0, s1 := 0, ty := .record, size := 1, acc := .konst, persist := false, svc := false
             lo := 0, hi := 0, dflt := highestSub ix }
    else none

/-! ### Values of the objects that are not settings -/

def asciiBytes (s : String) : List Byte := s.toList.map fun c => BitVec.ofNat 8 c.toNat

/-- The link-local address with the modified EUI-64 identifier of the MAC address (R446), most significant byte first. -/
def linkLocal : BitVec 128 :=
  let b (i : Nat) : Byte := Config.macAddress.extractLsb' (8 * i) 8
  (0xFE80000000000000#64) ++ (b 0 ^^^ 0x02) ++ b 1 ++ b 2 ++ 0xFF#8 ++ 0xFE#8 ++ b 3 ++ b 4 ++ b 5

/-- A number whose little-endian bytes are these. -/
def ofLeBytes : List Byte → Nat
  | [] => 0
  | b :: bs => b.toNat + 256 * ofLeBytes bs

/-- Bytes whose bits, lowest first, are given by f. -/
def bitsLe (n : Nat) (f : Nat → Bool) : Nat := ((List.range n).filter f).foldl (fun s i => s + 2 ^ i) 0

def intBits (n : Nat) (x : Int) : Nat := (BitVec.ofInt n x).toNat

/-- A ring of entries, newest first, of which `count` have been written: entry k at size × (k mod n). -/
def ringBytes (n size count : Nat) (newest : List (List Byte)) : List Byte :=
  (List.range n).flatMap fun slot =>
    let back := (count + n - 1 - slot) % n
    if back < count then newest.getD back (List.replicate size 0) else List.replicate size 0

def LifeEntry.bytes (e : LifeEntry) (k : Nat) : List Byte :=
  leBytes 4 k ++ leBytes 2 e.kind ++ leBytes 2 e.subject ++ leBytes 8 e.stamp.toNat ++ leBytes 8 e.value.toNat ++ leBytes 8 0

/-- A log entry (R461). -/
def FaultEntry.bytes (e : FaultEntry) : List Byte :=
  wordBytes [packBits [(54, 10, e.msg.source), (52, 2, e.msg.sev.code), (44, 8, e.msg.kind), (32, 1, bit e.msg.addrValid),
    (0, 32, e.msg.info.toNat)], packBits [(0, 56, e.msg.dpa.toNat)], e.stamp, e.count]

def LostEntry.bytes (e : LostEntry) : List Byte :=
  leBytes 8 e.dpa ++ leBytes 8 e.time.toNat ++ leBytes 2 e.tag ++ leBytes 1 e.cause ++ List.replicate 13 0

def Dev.lifeLogBytes (d : Dev) : List Byte :=
  ringBytes 512 32 d.mg.lifeCount ((List.range d.mg.life.length).map fun j =>
    (d.mg.life.getD j { kind := 0, subject := 0, stamp := 0, value := 0 }).bytes (d.mg.lifeCount - 1 - j))

/-- A progress object (Table 12.14). -/
def Dev.progressAt (d : Dev) (ix : Nat) : Progress :=
  if ix < 0x5014 then (d.qr (ix - 0x5010)).progress else if ix = 0x5080 then d.mg.compactProgress else d.prog (ix - 0x5000)

def Progress.sub (p : Progress) (s : Nat) : Nat :=
  match s with
  | 1 => p.state
  | 2 => if p.total = 0 then 0 else 10000 * p.position / p.total
  | 3 => p.position
  | 4 => p.total
  | 5 => p.queue
  | 6 => p.tag
  | _ => p.start.toNat

/-- Position of a sub-index in a list of counters that begins at sub-index 1. -/
def nth (l : List Nat) (s : Nat) : Nat := l.getD (s - 1) 0

def Dev.tapStatus (d : Dev) (q s : Nat) : Nat :=
  let x := d.qr q
  if s ≤ 16 then x.groupMargin (s - 1) * 65536 + x.tapOf (s - 1) * 256
  else if s = 17 then x.waveRate else if s = 18 then x.vreq else x.vmeas

def health (present failed degraded : Bool) : Nat := if !present || failed then 2 else if degraded then 1 else 0

def Dev.coreNat (d : Dev) (ix s : Nat) : Nat :=
  let on := d.cmap.enabled.filter fun c => !d.cmap.retired.contains c
  let inQ (q : Nat) : Nat := (on.filter fun c => quarterOfCore c = q).length
  if ix = 0x1110 then (if s = 1 then on.length else if s = 6 then 1 else inQ (s - 2))
  else if ix = 0x1111 then bitsLe 72 fun i => i < 68 && on.contains (68 * (s - 1) + i)
  else nth [d.cmap.launched.toNat, d.cmap.faults.toNat, (on.filter fun c => (d.core c).status = .idle).length] s

def Dev.netNat (d : Dev) (ix s : Nat) : Nat :=
  let m := d.mg
  if ix = 0x1800 then (if s = 8 then ofLeBytes (beBytes 16 linkLocal.toNat) else m.fnState)
  else if ix = 0x1801 then nth [m.fnRecv.toNat, m.fnSent.toNat, m.fnDrop.toNat] s
  else if s ≤ 4 then (Map.get 0 m.lastSeq (s - 1)).toNat
  else if s = 8 then bit m.keyInit else if s = 9 then m.authFails.toNat else m.lockouts.toNat

/-- Counters of the 0x2000 range. -/
def Dev.blockNat (d : Dev) (ix s : Nat) : Nat :=
  let c := d.coh
  let t := d.tb
  let cp := d.cp
  if ix = 0x2061 then nth [c.recalls.toNat, c.bcasts.toNat, c.starved.toNat, c.stale.toNat, c.bisnps.toNat, c.fwdMiss.toNat,
    c.isoPois.toNat, c.dirCorr.toNat] s
  else if ix = 0x2071 then
    (if s = 7 then sumUnits (d.caches.map fun p => ((List.range 12).filter fun i => (p.2.disabled ||| p.2.disabledW).getLsbD i).length)
    else nth [c.hits.toNat, c.misses.toNat, c.sideHits.toNat, c.pfDrop.toNat, c.streamW.toNat, c.corrected.toNat, 0, c.perc.toNat] s)
  else if ix = 0x2080 then nth [d.segs.revokesDone.toNat, d.segs.holderWaits.toNat, d.segs.refusals.toNat, d.segs.peerRefusals.toNat,
    d.segs.writesRefused.toNat] s
  else if ix = 0x2091 then nth [cp.admitted.toNat, cp.delayed.toNat, cp.refused.toNat, cp.timeouts.toNat, cp.late.toNat,
    cp.messages.toNat, cp.overruns.toNat, cp.ignored.toNat] s
  else if ix = 0x20A1 then nth [d.hl.state, d.hl.width, d.hl.rate, d.hl.retrains.toNat, d.hl.losses.toNat, d.hl.toShared.toNat,
    d.hl.toDevice.toNat, d.hl.expiries.toNat, d.hl.ide, d.hl.h2d.toNat, d.hl.d2h.toNat, d.hl.refusals.toNat] s
  else if ix = 0x2405 then (if s = 1 then d.tier.devBase else 0x6000000000 - d.tier.devBase)
  else if ix = 0x2420 then ofLeBytes (ringBytes 256 32 d.tier.lost (d.tier.lostLog.map LostEntry.bytes))
  else if ix = 0x2421 then nth [d.tier.lost, d.tier.corrected.toNat, d.tier.remapped, d.tier.tagRejects.toNat, d.tier.genRejects.toNat,
    d.tier.rowRepairs, d.tier.earlyHost.toNat] s
  else if ix = 0x2800 then (t.store.filter fun p => p.2.isSome).length
  else if ix = 0x2801 then nth [t.rowReqs.toNat, t.carHits.toNat, t.carMiss.toNat, t.preReads.toNat, t.lossEvents.toNat,
    t.skipped.toNat, t.remote.toNat] s
  else nth [t.atHome.toNat, t.inMem.toNat, t.merged.toNat, t.sentUpd.toNat, t.forwarded.toNat, t.committed.toNat,
    t.cremaWaits.toNat, t.incomplete.toNat, t.lateSteps.toNat, t.gradRej.toNat] s

/-- Contexts and segments (Table 11.8). -/
def Dev.ctxNat (d : Dev) (c s : Nat) : Nat :=
  if s = 1 then bit (d.ctxValid c) else if s = 2 then (d.ctxCtrl c).peerExport.toNat
  else ofLeBytes (wordBytes ((List.range 3).map fun i => d.segReg c (s - 16) i))

def Dev.fabricNat (d : Dev) (ix s : Nat) : Nat :=
  let x := d.tr
  if ix = 0x4004 then nth [x.transit.toNat, x.ttlDrops.toNat, x.unreach.toNat, x.redirects.toNat, x.late.toNat, x.malformed.toNat,
    x.mgmtDrops.toNat] s
  else
    let l := d.lnk (ix - 0x4100)
    nth [0, l.state, l.crcErrors.toNat, l.replays.toNat, l.retrains.toNat, l.txWords.toNat, l.rxWords.toNat] s

/-- Measurements (Tables 15.11, 2.6, 14.12). -/
def Dev.measureNat (d : Dev) (ix s : Nat) : Nat :=
  let m := d.mg
  if ix = 0x6001 then (d.qr 0).refCount.toNat
  else if ix = 0x6002 then nth [m.seconds.toNat, m.fraction, bit m.synced, m.lastStep.toNat] s
  else if ix = 0x6003 then nth [m.powerAvg, m.powerPeak, bit d.pins.throttle, m.vbk, bit d.pins.bkGood] s
  else if ix < 0x6014 then
    let q := d.qr (ix - 0x6010)
    nth [q.vddSram, q.vddIo, q.vcoreCur, intBits 32 q.junctionMax, intBits 32 q.junctionMean, d.throttle (ix - 0x6010)] s
  else if ix < 0x6024 then d.tapStatus (ix - 0x6020) s
  else if ix < 0x6038 then
    let k := d.stack (ix - 0x6030)
    nth [bit k.present, if k.present then 48 * 2 ^ 30 else 0, intBits 32 k.temp, health k.present k.failed k.noSpare] s
  else if ix < 0x6064 then
    let l := d.lnk (ix - 0x6040)
    nth [l.length, l.medium, l.rtt, l.loss, ofLeBytes (wordBytes l.caps)] s
  else if ix = 0x6070 then
    let base (n : Nat) : Nat := if (Map.get Decoder.reset d.hl.decs n).committed then (Map.get Decoder.reset d.hl.decs n).base else 0
    nth [if d.hl.state = 2 || d.hl.state = 3 then 0x31 else 0, d.hl.cacheId, d.hl.biId, base 0, base 1,
      bit (Map.get Decoder.reset d.hl.decs 0).committed + 2 * bit (Map.get Decoder.reset d.hl.decs 1).committed] s
  else
    let k := d.die (ix - 0x6080)
    nth [bit k.present, if k.present then 384 * 2 ^ 30 else 0, intBits 32 k.temp, health k.present k.failed k.sparesLow] s

/-- Life and wear (Tables 15.12, 2.6, 7.8). -/
def Dev.lifeNat (d : Dev) (ix s : Nat) : Nat :=
  let m := d.mg
  let ages := (List.range 4).map fun q => consumed (d.qr q).ageing
  if ix = 0x7000 then nth [m.firstCal.toNat, m.powered, m.coldStarts, ages.foldl Nat.max d.tierLife,
    if m.firstCal = 0 then 0 else m.firstCal.toNat + 315576000] s
  else if ix = 0x7001 then (if s = 1 then m.lifeCount else ofLeBytes d.lifeLogBytes)
  else if ix = 0x7002 then (if s ≤ 4 then nvStoreKib (Map.get 0 m.nvUsed (s - 1)) else if s = 5 then m.nvRecords.toNat
    else m.nvCompactions.toNat)
  else if ix < 0x7014 then
    let q := d.qr (ix - 0x7010)
    nth [q.ageing, consumed q.ageing, q.lastPlan.toNat, q.planCount] s
  else if ix = 0x7020 then (if s = 1 then d.tierLife else d.tier.eol.toNat)
  else if ix < 0x7070 then
    let k := d.die (ix - 0x7030)
    nth [k.life, k.sparesUsed, k.blockWrites, k.lastSweep.toNat] s
  else
    let k := d.stack (ix - 0x7080)
    if s = 1 then Config.spareRows (ix - 0x7080) - (k.spareUsed.map (·.2)).foldl Nat.max 0 else k.corrected

/-- Fault and reset (Table 16.10). -/
def Dev.faultNat (d : Dev) (ix s : Nat) : Nat :=
  let r := d.rst
  if ix = 0x8001 then
    (if s = 6 then ofLeBytes ((List.range 8).flatMap fun i => leBytes 4 (Map.get 0 r.bySource i).toNat)
    else nth [r.count.toNat, r.cause.code, r.origin.code, r.subject, r.lastTime.toNat, 0, r.poisoned.toNat] s)
  else if ix = 0x8010 then bit d.flt.pinFault + 2 * bit d.flt.pinMargin + 256 * d.flt.lastAlert
  else if ix < 0x8024 then
    let c := d.coll (ix - 0x8020)
    if s = 1 then c.logCount.toNat else ofLeBytes (ringBytes 256 32 (Nat.max c.logCount.toNat c.log.length) (c.log.map FaultEntry.bytes))
  else if ix = 0x8030 then ofLeBytes ((List.range 256).flatMap fun k => leBytes 4 (Map.get 0 d.flt.kindCount k).toNat)
  else bitsLe 1024 fun c => (d.slot c).msg.isSome

/-- Value of an RO object as a number; BLOBs have their lowest byte first. -/
def Dev.roNat (d : Dev) (ix s : Nat) : Nat :=
  if ix < 0x1200 || (0x2050 ≤ ix && ix ≤ 0x2051) then d.coreNat ix s
  else if ix < 0x2000 then d.netNat ix s
  else if ix < 0x3000 then d.blockNat ix s
  else if ix < 0x4000 then d.ctxNat (ix - 0x3000) s
  else if ix < 0x5000 then d.fabricNat ix s
  else if ix < 0x6000 then (d.progressAt ix).sub s
  else if ix < 0x7000 then d.measureNat ix s
  else if ix < 0x8000 then d.lifeNat ix s
  else d.faultNat ix s

/-- Bytes of the CONST objects that differ between devices, and of the names (Table 15.9). -/
def constBytes (o : Obj) (s : Nat) : List Byte :=
  if o.i0 ≠ 0x1000 then leBytes o.size o.dflt
  else match s with
    | 1 => asciiBytes "Octesh"
    | 2 => asciiBytes "Dravoz"
    | 3 => asciiBytes "Arrov Panel"
    | 4 => Config.serialNumber
    | 5 => leBytes 16 Config.deviceUid.toNat
    | 8 => leBytes 1 Config.steppingCode.toNat
    | 9 => leBytes 6 Config.macAddress.toNat
    | 10 => leBytes 8 Config.manufactureTime.toNat
    | _ => leBytes o.size o.dflt

def odKey (ix sub : Nat) : Nat := 256 * ix + sub

/-- The value that a read of an object returns. -/
def Dev.odBytes (d : Dev) (o : Obj) (ix sub : Nat) : List Byte :=
  match o.acc with
  | .konst => constBytes o sub
  | .ro => leBytes o.size (d.roNat ix sub)
  | .wo => []
  | .rw =>
    leBytes o.size (if ix = 0x6002 then d.mg.seconds.toNat
      else if odKey ix sub = 0x207003 then d.readCacheEnable
      else d.od (odKey ix sub) o.dflt)

end Sys2Proof.Machine
end

