-- ==== Sys2Proof/Machine/Dictionary.lean ====
section
/-! DEFINITION. Frames of the dictionary: their checks, roles and tags, reads and writes of objects (R436-R444), the two
transports (R445-R449), the calendar (R456), commands of the dictionary (R459), DOE (R384, R395). -/

namespace Sys2Proof.Machine

/-! ### Status codes (Table 15.4) -/

def fsMalformed : Nat := 1
def fsAuth : Nat := 2
def fsStale : Nat := 3
def fsLocked : Nat := 4
def fsTooLong : Nat := 5

def esNoObject : Nat := 1
def esAccess : Nat := 2
def esType : Nat := 3
def esRange : Nat := 4
def esRole : Nat := 5
def esState : Nat := 6
def esBusy : Nat := 7
def esLength : Nat := 8
def esNotTried : Nat := 9
def esPersist : Nat := 10

/-! ### The calendar (R456, R457, R504) -/

/-- A write of CalendarSeconds; the first after the first calibration restates FirstCalibrationTime. -/
def Dev.calWrite (d : Dev) (v : Word64) : Dev :=
  let m := d.mg
  let s := v.extractLsb' 0 63
  let first : Word64 := if m.firstCal.getLsbD 63 then BitVec.ofNat 64 ((s.toNat - m.powered) % 2 ^ 63) else m.firstCal
  { d with mg := { m with
      seconds := s, fraction := 0, synced := true, firstCal := first, lastStep := s.setWidth 64 - m.seconds.setWidth 64 } }

/-- One second of calendar advance. -/
def Dev.calAdvance (d : Dev) : Dev :=
  if d.rst.held.contains .mg then d
  else
    let m := d.mg
    { d with
      mg := { m with seconds := m.seconds + 1, fraction := 0, powered := m.powered + 1 }
      quarters := Map.mapVals (fun _ (x : Quarter) => { x with planLogAge := x.planLogAge + 1 }) d.quarters }

/-! ### Roles (R441-R444) -/

def Dev.roleKey (d : Dev) (r : Nat) : BitVec 256 := Map.get (if r = 3 then Config.serviceKey else 0) d.mg.roleKeys r

def keyBytes (k : BitVec 256) : List Byte := leBytes 32 k.toNat

/-- The tag of a frame: over DeviceUid and every byte before the tag (R441). -/
def frameTag (key : BitVec 256) (m : List Byte) : List Byte := (hmac256 (keyBytes key) (leBytes 16 Config.deviceUid.toNat ++ m)).take 16

/-- The number with which a key is wrapped (R443). -/
def keyWrap (key : BitVec 256) (seq : Word64) : BitVec 256 :=
  BitVec.ofNat 256 (ofLeBytes (hmac256 (keyBytes key) (asciiBytes "dravoz-keywrap" ++ leBytes 8 seq.toNat)))

/-- A role of a frame may write a role's key. -/
def Dev.mayWriteKey (d : Dev) (writer role : Nat) (window : Bool) : Bool :=
  if role = 0 || 3 < role then false
  else if writer = 0 then role = 2 && window && !d.mg.keyInit
  else writer = 3 || (writer = 2 && role ≠ 3)

/-- A RoleKey write that is accepted; the Operator key's sets KeyInitDone. -/
def Dev.writeKey (d : Dev) (writer : Nat) (key : BitVec 256) (seq : Word64) (role : Nat) (v : BitVec 256) : Dev :=
  let k := if writer = 0 then v else v ^^^ keyWrap key seq
  { d with mg := { d.mg with roleKeys := Map.put d.mg.roleKeys role k, keyInit := d.mg.keyInit || role = 2 } }

/-- A frame of a role that failed authentication (R444). -/
def Dev.authFail (d : Dev) (r : Nat) : Dev :=
  let m := d.mg
  let now := (d.now).toNat
  let ts := (now :: (Map.get [] m.failTimes r).filter fun t => now - t < 100000000)
  let lock := decide (32 ≤ ts.length)
  { d with mg := { m with
      authFails := m.authFails + 1, failTimes := Map.put m.failTimes r (if lock then [] else ts)
      locked := if lock then Map.put m.locked r true else m.locked
      lockouts := if lock then m.lockouts + 1 else m.lockouts } }

/-- A frame is accepted: its SEQ is the role's last; a new high-water mark is persisted when the old is reached (R442). -/
def Dev.acceptSeq (d : Dev) (r : Nat) (seq : Word64) : Dev :=
  let d1 := { d with mg := { d.mg with lastSeq := Map.put d.mg.lastSeq r seq } }
  if Map.get 0 d.mg.highSeq r ≤ seq then
    ({ d1 with mg := { d1.mg with highSeq := Map.put d1.mg.highSeq r (seq + 65536) } }).nvRecord 6
  else d1

/-! ### Frames (R437, R438) -/

structure FrameHead where
  ver    : Nat
  op     : Nat
  role   : Nat
  tagged : Bool
  rsv    : Nat
  count  : Nat
  len    : Nat
  id     : Nat
  seq    : Word64
  deriving DecidableEq, Repr

/-- Words 0 and 1 of a frame; bytes that are missing read as zero. -/
def headOf (bs : List Byte) : FrameHead :=
  let w := bytesWords 2 (bs ++ List.replicate 16 0)
  { ver := qBits w 0 56 8, op := qBits w 0 48 8, role := qBits w 0 44 4, tagged := qBit w 0 43, rsv := qBits w 0 40 3
    count := qBits w 0 32 8, len := qBits w 0 16 16, id := qBits w 0 0 16, seq := qWord w 1 }

/-- An entry of a request. -/
structure Entry where
  ix  : Nat
  sub : Nat
  ty  : Nat
  off : Nat
  len : Nat
  val : List Byte
  deriving DecidableEq, Repr

/-- Entries that fill the bytes given exactly, or none. -/
def entriesOf (write : Bool) : Nat → List Byte → Option (List Entry)
  | 0, [] => some []
  | 0, _ :: _ => none
  | n + 1, bs =>
    let w := bytesWords 1 bs
    let len := qBits w 0 0 12
    let size := if write then (len + 7) / 8 * 8 else 0
    if bs.length < 8 + size then none
    else
      match entriesOf write n (bs.drop (8 + size)) with
      | none => none
      | some es => some ({ ix := qBits w 0 48 16, sub := qBits w 0 40 8, ty := qBits w 0 36 4, off := qBits w 0 12 20, len := len
                           val := if write then (bs.drop 8).take len else [] } :: es)

/-- The bytes that a tag covers. -/
def tagged_ (h : FrameHead) (bs : List Byte) : List Byte := if h.tagged then bs.take (bs.length - 16) else bs

/-- Entries of a well-formed frame; none is MALFORMED. -/
def frameEntries (h : FrameHead) (bs : List Byte) : Option (List Entry) :=
  let bad := bs.length < (if h.tagged then 32 else 16) || bs.length % 8 ≠ 0 || h.ver ≠ 1 || h.op = 0 || 3 < h.op || 3 < h.role ||
    h.tagged != (h.role ≠ 0) || h.rsv ≠ 0 || h.len ≠ bs.length || (h.op = 3 && (h.tagged || h.count ≠ 0))
  if bad then none else entriesOf (h.op = 2) h.count ((tagged_ h bs).drop 16)

/-- Longest frame of a transport. -/
def Transport.limit : Transport → Nat
  | .field _ _ => 1452
  | _ => 4096

def Transport.isField : Transport → Bool
  | .field _ _ => true
  | _ => false

def entryWord (ix sub ty st off len : Nat) : Word64 :=
  packBits [(48, 16, ix), (40, 8, sub), (36, 4, ty), (32, 4, st), (12, 20, off), (0, 12, len)]

/-- A response leaves by the transport of its request (R446, R449). -/
def Dev.sendFrame (d : Dev) (via : Transport) (bs : List Byte) : Dev :=
  match via with
  | .field _ _ => if d.mg.fnState = 2 then { d with mg := { d.mg with fnSent := d.mg.fnSent + 1 } }.emit (.dict via bs) else d
  | .lost => d
  | .window =>
    let vec := (d.mg.winCtrl.extractLsb' 0 11).toNat
    let d1 := { d with mg := { d.mg with
      rspBuf := bs ++ d.mg.rspBuf.drop bs.length, winRspLen := bs.length, winDone := true, winBusy := false } }
    if vec = 0 then d1 else d1.msixRaise vec

/-- A response: COUNT entries, tagged with the role's key when the request's tag was found good (R441). -/
def Dev.respond (d : Dev) (via : Transport) (h : FrameHead) (status : Nat) (key : Option (BitVec 256)) (n : Nat) (ents : List Word64) : Dev :=
  let t := key.isSome
  let len := 24 + 8 * ents.length + (if t then 16 else 0)
  let q0 := packBits [(56, 8, 1), (48, 8, h.op + 0x80), (44, 4, if t then h.role else 0), (43, 1, bit t), (32, 8, n), (16, 16, len), (0, 16, h.id)]
  let body := wordBytes (q0 :: h.seq :: packBits [(56, 8, status)] :: ents)
  d.sendFrame via (match key with
    | some k => body ++ frameTag k body
    | none => body)

/-! ### Reads -/

/-- A frame of this role may read (R436). -/
def Dev.mayRead (d : Dev) (role ix : Nat) : Bool := if 0xF000 ≤ ix then role = 3 else role ≠ 0 || d.od 0x181001 1 = 1

def frameWords (bs : List Byte) : List Word64 := bytesWords ((bs.length + 7) / 8) (bs ++ List.replicate 7 0)

/-- The response to one read entry; `room` bytes are left in the frame. -/
def Dev.readEntry (d : Dev) (role room : Nat) (e : Entry) : List Word64 :=
  match objAt e.ix e.sub with
  | none => [entryWord e.ix e.sub 0 (if 0xF000 ≤ e.ix && role ≠ 3 then esRole else esNoObject) e.off 0]
  | some o =>
    let fail (st : Nat) : List Word64 := [entryWord e.ix e.sub o.ty.code st e.off 0]
    if o.acc = .wo then fail esAccess
    else if !d.mayRead role e.ix then fail esRole
    else
      let v := d.odBytes o e.ix e.sub
      if o.ty = .str || o.ty = .blob then
        if v.length < e.off then fail esLength
        else
          let n := if e.len = 0 then Nat.min (Nat.min (v.length - e.off) ((room - 8) / 8 * 8)) 4095 else e.len
          if v.length - e.off < n then fail esLength
          else entryWord e.ix e.sub o.ty.code 0 e.off n :: frameWords ((v.drop e.off).take n)
      else if e.off ≠ 0 || (e.len ≠ 0 && e.len ≠ v.length) then fail esLength
      else entryWord e.ix e.sub o.ty.code 0 0 v.length :: frameWords v

/-- Entries answered while the response fits (R440): their number and words. -/
def Dev.readEntries (d : Dev) (role : Nat) : Nat → List Entry → Nat × List Word64
  | _, [] => (0, [])
  | room, e :: es =>
    let ws := d.readEntry role room e
    if room < 8 * ws.length then (0, [])
    else
      let (n, rest) := d.readEntries role (room - 8 * ws.length) es
      (n + 1, ws ++ rest)

/-! ### Writes -/

/-- The value breaks a rule that names other objects (Table 2.6, R150, R381), or is none of those allowed. -/
def Dev.breaksRule (d : Dev) (key v : Nat) : Bool :=
  match key with
  | 0x204001 => v < d.alertLevel
  | 0x204002 => d.marginTarget < v
  | 0x281001 => v < d.od 0x281002 3072
  | 0x281002 => d.od 0x281001 4096 < v
  | 0x209002 => 100 < v + d.backgroundShare
  | 0x209003 => 100 < v + d.latencyShare
  | 0x20A004 => !(v = 4 || v = 8 || v = 16)
  | 0x20A005 => !(v = 16 || v = 32 || v = 64)
  | 0x800200 => false
  | 0x805000 => v ≠ 0xA55A
  | 0x805100 => !canIsolate v
  | 0x900100 => v ≠ 1
  | 0x900200 => v ≠ 0xD7A0
  | 0x901000 => 272 ≤ v
  | 0x902000 => v % 16 < 6 || 8 < v % 16 || 64 ≤ v
  | 0x902100 => !cacheExists (v / 16)
  | _ => false

/-- The status of a write before it has any effect: access, role, type, length, range (R433-R438). -/
def Dev.writeCheck (d : Dev) (via : Transport) (role : Nat) (o : Obj) (e : Entry) : Nat :=
  let v := ofLeBytes e.val
  let mine := if e.ix = 0x1810 && 5 ≤ e.sub && e.sub ≤ 7 then d.mayWriteKey role (e.sub - 4) (!via.isField)
    else decide ((if o.svc then 3 else 2) ≤ role)
  if o.acc = .ro || o.acc = .konst then esAccess
  else if !mine then esRole
  else if e.ty ≠ o.ty.code then esType
  else if e.off ≠ 0 || e.len ≠ o.size then esLength
  else if o.acc = .rw && o.ty ≠ .blob && (v < o.lo || o.hi < v) then esRange
  else if d.breaksRule (odKey e.ix e.sub) v then esRange
  else 0

/-- Compaction of the four NV stores. -/
def Dev.nvCompact (d : Dev) : Dev :=
  let used := sumUnits (d.mg.nvUsed.map fun p => 1024 * nvStoreKib p.2)
  { d with mg := { d.mg with
      nvUsed := [], nvCompactions := d.mg.nvCompactions + 1
      compactProgress := { state := 4, position := used, total := used, queue := 0xFFFF, tag := 0, start := d.stamp } } }

/-- RestoreDefaults: noted, persisted, done at the next cold reset. -/
def Dev.askDefaults (d : Dev) : Dev := ({ d with mg := { d.mg with restoreDefaults := true } }).nvRecord 7

/-- The field network's link comes up with its settings, and duplicate address detection starts (R446, R453). -/
def Dev.fnUp (d : Dev) : Dev :=
  let d1 := { d with mg := { d.mg with fnLink := true } }
  if d1.od 0x180001 1 = 0 || d1.mg.fnState ≠ 0 || d1.rst.held.contains .mg then d1
  else ({ d1 with mg := { d1.mg with fnState := 1, fnPort := d1.od 0x180007 47056 } }).emit .dadProbe

/-- The effect of writing a setting. -/
def Dev.setEffect (d : Dev) (key v : Nat) : Dev :=
  if key = 0x204001 then (List.range 4).foldl (fun (e : Dev) q => e.replan q) d
  else if 0x204201 ≤ key && key ≤ 0x204204 then d.replan (key - 0x204201)
  else if key / 256 = 0x2090 then d.admitWaiting
  else if key = 0x180001 then (if v = 0 then { d with mg := { d.mg with fnState := 0 } } else if d.mg.fnLink then d.fnUp else d)
  else if 0x410000 ≤ key && key < 0x412400 then d.linkEnable (key / 256 - 0x4100) (v = 1)
  else if key = 0x801100 then d.refreshPins
  else d

/-- A setting takes its value. -/
def Dev.setSetting (d : Dev) (key v : Nat) : Dev := ({ d with mg := { d.mg with vals := Map.put d.mg.vals key v } }).setEffect key v

/-- The effect of a write that passed its checks, with the status of writes refused for the device's state. -/
def Dev.writeEffect (d : Dev) (role : Nat) (fk : BitVec 256) (seq : Word64) (o : Obj) (key v : Nat) : Nat × Dev :=
  if 0x181005 ≤ key && key ≤ 0x181007 then (0, d.writeKey role fk seq (key - 0x181004) (BitVec.ofNat 256 v))
  else if key = 0x600201 then (0, d.calWrite (BitVec.ofNat 64 v))
  else if key = 0x207003 then
    (if ((if v.testBit 0 then namedCaches 1 else []) ++ (if v.testBit 1 then namedCaches 2 else [])).any fun n => !(d.cache n).invDone
      then esState else 0, d.writeCacheEnable v)
  else if key = 0x801200 then (0, d.faultClear v)
  else if key = 0x805000 then (0, d.trigger { source := .warm, origin := .none, subject := 0x3F1, info := 0 })
  else if key = 0x805100 then
    (if d.rst.isolated.contains v || d.rst.waiting.any fun t => t.source = .isolate && t.subject = v then (esBusy, d) else (0, d.isolate v))
  else if key = 0x805200 then
    let d1 := d.inject .management (BitVec.ofNat 64 v)
    (if d1.flt.inject = (BitVec.ofNat 64 v &&& 0xFFFF000000000000#64) then 0 else esState, d1)
  else if key = 0x900100 then (0, d.nvCompact)
  else if key = 0x900200 then (0, d.askDefaults)
  else if key = 0x901000 then (0, d.retireCore v)
  else if key = 0x902000 then
    (if (d.prog 0x50).busy then (esBusy, d)
    else
      let d1 := d.cacheCommand v
      (if (d1.prog 0x50).start = d.stamp && (d1.prog 0x50) ≠ d.prog 0x50 then 0
      else if (((if v.testBit 4 then namedCaches 1 else []) ++ (if v.testBit 5 then namedCaches 2 else [])).any fun n =>
        (d.cache n).busy || (v % 16 = 6 && (d.cache n).enable)) then esState else 0, d1))
  else if key = 0x902100 then (0, d.wayRestore v)
  else if o.acc = .rw then (0, d.setSetting key v)
  else (0, d)

/-- One write entry; none while a persisted write waits for the interlock (R435, R483). -/
def Dev.writeEntry (d : Dev) (via : Transport) (role : Nat) (fk : BitVec 256) (seq : Word64) (e : Entry) : Option (Nat × Dev) :=
  if 0xF000 ≤ e.ix then some (if role = 3 then esState else esRole, d)
  else
    match objAt e.ix e.sub with
    | none => some (esNoObject, d)
    | some o =>
      let c := d.writeCheck via role o e
      if c ≠ 0 then some (c, d)
      else if o.persist then
        (if d.pins.bkGood && !d.rst.nvPulse then
          let (st, d1) := d.writeEffect role fk seq o (odKey e.ix e.sub) (ofLeBytes e.val)
          some (st, if st = 0 then d1.nvRecord 8 else d1)
        else none)
      else some (d.writeEffect role fk seq o (odKey e.ix e.sub) (ofLeBytes e.val))

def Dev.pushEntry (d : Dev) (e : Entry) (st : Nat) : Dev :=
  { d with mg := { d.mg with frameAt := d.mg.frameAt + 1, frameRsp := d.mg.frameRsp ++ [entryWord e.ix e.sub e.ty st e.off e.len] } }

/-- The entries left of a WRITE, in order, up to the first that fails or waits; whether all are answered (R440). -/
def Dev.writeEntries (d : Dev) (via : Transport) (role : Nat) (fk : BitVec 256) (seq : Word64) : List Entry → Dev × Bool
  | [] => (d, true)
  | e :: es =>
    match d.writeEntry via role fk seq e with
    | none => (d, false)
    | some (st, d1) =>
      if st = 0 then Dev.writeEntries (d1.pushEntry e 0) via role fk seq es
      else (es.foldl (fun (y : Dev) x => y.pushEntry x esNotTried) (d1.pushEntry e st), true)

/-! ### Handling a frame -/

/-- The first frame is answered and leaves. -/
def Dev.popFrame (d : Dev) : Dev := { d with mg := { d.mg with frames := d.mg.frames.tail, frameOk := false, frameKey := 0, frameAt := 0, frameRsp := [] } }

/-- Tag and SEQ of a well-formed frame: FRAME_STATUS, and the key with which the response is tagged. -/
def Dev.authFrame (d : Dev) (h : FrameHead) (bs : List Byte) : Nat × Option (BitVec 256) × Dev :=
  if !h.tagged then (0, none, d)
  else if Map.get false d.mg.locked h.role then (fsLocked, none, d)
  else
    let k := d.roleKey h.role
    if k = 0 || bs.drop (bs.length - 16) ≠ frameTag k (tagged_ h bs) then (fsAuth, none, d.authFail h.role)
    else if h.seq ≤ Map.get 0 d.mg.lastSeq h.role then (fsStale, some k, d)
    else (0, some k, d.acceptSeq h.role h.seq)

/-- The response of a WRITE: the entries that fit (R440). -/
def Dev.respondWrite (d : Dev) (via : Transport) (h : FrameHead) (key : Option (BitVec 256)) (ents : List Word64) : Dev :=
  let rsp := ents.take ((via.limit - 24 - (if key.isSome then 16 else 0)) / 8)
  d.respond via h 0 key rsp.length rsp

/-- A frame that has passed its checks: a READ is answered, a WRITE goes on with its entries. -/
def Dev.runFrame (d : Dev) (f : Frame) (h : FrameHead) (es : List Entry) (key : Option (BitVec 256)) : Dev :=
  if h.op = 1 then
    let (n, ws) := d.readEntries h.role (f.via.limit - 24 - (if key.isSome then 16 else 0)) es
    (d.respond f.via h 0 key n ws).popFrame
  else
    let (d1, all) := d.writeEntries f.via h.role d.mg.frameKey h.seq (es.drop d.mg.frameAt)
    if all then (d1.respondWrite f.via h key d1.mg.frameRsp).popFrame else d1

/-- The first frame, when its OP is the one asked for; one that is malformed or too long is answered under any. The wait of
R460 for a margin emergency in tap group 14 of Q0 is never seen: step 3 of R63 is part of the command that starts it. -/
def Dev.handleFrame (d : Dev) (op : Nat) : Dev :=
  match d.mg.frames with
  | [] => d
  | f :: _ =>
    let h := headOf f.bytes
    if d.rst.held.contains .mg then d
    else if f.via.limit < f.bytes.length then (d.respond f.via h fsTooLong none 0 []).popFrame
    else
      match frameEntries h f.bytes with
      | none => (d.respond f.via h fsMalformed none 0 []).popFrame
      | some es =>
        if h.op ≠ op then d
        else if op = 3 then { d with mg := { d.mg with discover := d.mg.discover ++ [(f.via, h.id)] } }.popFrame
        else if d.mg.frameOk then d.runFrame f h es (if h.tagged then some d.mg.frameKey else none)
        else
          let (st, key, d1) := d.authFrame h f.bytes
          if st ≠ 0 then (d1.respond f.via h st key 0 []).popFrame
          else ({ d1 with mg := { d1.mg with frameOk := true, frameKey := key.getD 0 } }).runFrame f h es key

/-- PERSIST_WAIT_LIMIT: the persisted write that waits for BK_GOOD answers PERSIST_FAILED (R483). -/
def Dev.persistLimit (d : Dev) : Dev :=
  match d.mg.frames with
  | [] => d
  | f :: _ =>
    let h := headOf f.bytes
    match frameEntries h f.bytes with
    | none => d
    | some es =>
      match es.drop d.mg.frameAt with
      | [] => d
      | e :: rest =>
        if !d.mg.frameOk || h.op ≠ 2 || d.pins.bkGood || (d.writeEntry f.via h.role d.mg.frameKey h.seq e).isSome then d
        else
          let d1 := rest.foldl (fun (y : Dev) x => y.pushEntry x esNotTried) (d.pushEntry e esPersist)
          (d1.respondWrite f.via h (if h.tagged then some d.mg.frameKey else none) d1.mg.frameRsp).popFrame

/-- DISCOVER_ANSWER: identity and DeviceId (R447). -/
def Dev.discoverAnswer (d : Dev) : Dev :=
  match d.mg.discover with
  | [] => d
  | (via, id) :: rest =>
    let ids : List (Nat × Nat) := (List.range 11).map (fun i => (0x1000, i + 1)) ++ [(0x4000, 1)]
    let ws := ids.flatMap fun p => d.readEntry 3 4096 { ix := p.1, sub := p.2, ty := 0, off := 0, len := 0, val := [] }
    let h : FrameHead := { ver := 1, op := 3, role := 0, tagged := false, rsv := 0, count := 0, len := 16, id := id, seq := 0 }
    ({ d with mg := { d.mg with discover := rest } }).respond via h 0 none 12 ws

/-! ### Transports -/

def allNodes : BitVec 128 := 0xFF020000000000000000000000000001#128

/-- FN_DATAGRAM: a frame for the dictionary is buffered, anything else is dropped and counted (R446). -/
def Dev.datagram (d : Dev) (src dst : BitVec 128) (port dport hop : Nat) (bs : List Byte) : Dev :=
  let m := d.mg
  let good := m.fnState = 2 && dport = m.fnPort && src.extractLsb' 118 10 = 0x3FA && (dst = linkLocal || dst = allNodes) && hop = 255 &&
    (m.frames.filter fun f => f.via.isField).length < 4
  if m.fnState = 0 then d
  else if good then { d with mg := { m with fnRecv := m.fnRecv + 1, frames := m.frames ++ [{ via := .field src port, bytes := bs }] } }
  else { d with mg := { m with fnDrop := m.fnDrop + 1 } }

def Dev.solicited (d : Dev) (target : BitVec 128) : Dev :=
  if (d.mg.fnState = 2 || d.mg.fnState = 3) && target = linkLocal then d.emit (.neighbour target) else d

def Dev.fnDown (d : Dev) : Dev := { d with mg := { d.mg with fnState := 0, fnLink := false } }

def Dev.dadEnd (d : Dev) (inUse : Bool) : Dev :=
  if d.mg.fnState = 1 then { d with mg := { d.mg with fnState := if inUse then 3 else 2 } } else d

/-- DICT_WIN_GO (R449); only the host reaches BAR2. -/
def Dev.winGo (d : Dev) (src : RegSource) (v : Word64) : Dev :=
  let len := (v.extractLsb' 0 13).toNat
  let m := d.mg
  if src ≠ .host || d.rst.held.contains .cp then d
  else if m.winBusy || len < 16 || 4096 < len then { d with mg := { m with winRefused := true } }
  else
    { d with mg := { m with
        winBusy := true, frames := m.frames ++ [{ via := .window, bytes := (List.range len).map fun i => Map.get 0 m.reqBuf i }] } }

/-! ### Meanings -/

def execRead (s : State) : Host.Outcome State Fault Refusal := s.goes (s.dev.handleFrame 1)
def execWrite (s : State) : Host.Outcome State Fault Refusal := s.goes (s.dev.handleFrame 2)
def execDiscover (s : State) : Host.Outcome State Fault Refusal := s.goes (s.dev.handleFrame 3)
def execDiscoverAnswer (s : State) : Host.Outcome State Fault Refusal := s.goes s.dev.discoverAnswer
def execPersistWaitLimit (s : State) : Host.Outcome State Fault Refusal := s.timed s.dev.persistLimit
def execFnDatagram (src dst : BitVec 128) (port dport hop : Nat) (bytes : List Byte) (s : State) : Host.Outcome State Fault Refusal :=
  s.goes (s.dev.datagram src dst port dport hop bytes)
def execNeighbourSolicitation (target : BitVec 128) (s : State) : Host.Outcome State Fault Refusal := s.goes (s.dev.solicited target)
def execIcmpv6Echo (src : BitVec 128) (bytes : List Byte) (s : State) : Host.Outcome State Fault Refusal :=
  s.goes (if s.dev.mg.fnState = 2 then s.dev.emit (.echo src bytes) else s.dev)
def execFnLinkUp (s : State) : Host.Outcome State Fault Refusal := s.goes s.dev.fnUp
def execFnLinkDown (s : State) : Host.Outcome State Fault Refusal := s.goes s.dev.fnDown
def execDuplicateAddressDetection (inUse : Bool) (s : State) : Host.Outcome State Fault Refusal := s.goes (s.dev.dadEnd inUse)
def execDictWinGo (src : RegSource) (value : Word64) (s : State) : Host.Outcome State Fault Refusal := s.goes (s.dev.winGo src value)
/-- A lockout ends (R444). -/
def execLockoutEnd (role : Fin 4) (s : State) : Host.Outcome State Fault Refusal :=
  s.timed { s.dev with mg := { s.dev.mg with locked := Map.put s.dev.mg.locked role.val false } }
/-- A RoleKey write by its own checks; it is persisted. -/
def execRoleKeyWrite (writer : Fin 4) (seq : Word64) (role : Fin 4) (value : BitVec 256) (via : Bool) (s : State) :
    Host.Outcome State Fault Refusal :=
  s.goes (if s.dev.mayWriteKey writer.val role.val via && s.dev.pins.bkGood && !s.dev.rst.nvPulse
    then (s.dev.writeKey writer.val (s.dev.roleKey writer.val) seq role.val value).nvRecord 8 else s.dev)
def execCalendarWrite (v : Word64) (s : State) : Host.Outcome State Fault Refusal := s.goes (if s.dev.rst.held.contains .mg then s.dev else s.dev.calWrite v)
def execCalendarAdvance (s : State) : Host.Outcome State Fault Refusal := s.timed s.dev.calAdvance
def execCalendarPersist (s : State) : Host.Outcome State Fault Refusal := s.timed s.dev.calPersist
def execNvCompact (s : State) : Host.Outcome State Fault Refusal := s.goes (if s.dev.rst.held.contains .mg then s.dev else s.dev.nvCompact)
def execRestoreDefaults (s : State) : Host.Outcome State Fault Refusal :=
  s.goes (if s.dev.rst.held.contains .mg then s.dev else s.dev.askDefaults)
/-- The answer is that of the standards that R384 and R395 name (notes/assumptions 6). -/
def execDoeRequest (protocol : Nat) (bytes : List Byte) (s : State) : Host.Outcome State Fault Refusal :=
  s.goes (if s.dev.hl.state = 2 then s.dev.emit (.doe (Config.doeAnswer protocol bytes)) else s.dev)

end Sys2Proof.Machine
end

