-- ==== Sys2Proof/Machine/Registers.lean ====
section
/-! DEFINITION. Writes of registers by address (R11, R12, R343, R344): the on-block register space, and above it BAR2. -/

namespace Sys2Proof.Machine

/-- Address of BAR2's first byte in REGISTER_WRITE, above the register space (notes/assumptions 38). -/
def bar2 : Nat := 2 ^ 40

/-- The bits that a write of 4 or 8 bytes covers in its 8-byte register. -/
def halfMask (off size : Nat) : Word64 :=
  if size = 8 then BitVec.allOnes 64 else if off % 8 = 0 then 0x00000000FFFFFFFF#64 else 0xFFFFFFFF00000000#64

/-- A value on the byte lanes of its 8-byte register. -/
def onLanes (off size : Nat) (v : Word64) : Word64 :=
  (if size = 4 && off % 8 = 4 then v <<< 32 else v) &&& halfMask off size

def mergeBits (old v mask : Word64) : Word64 := (old &&& ~~~mask) ||| v

/-! ### Registers with RW1C bits -/

/-- TIER_STATUS. -/
def Dev.writeTierStatus (d : Dev) (v : Word64) : Dev :=
  let t := d.tier
  { d with tier := { t with
      sparesLow := t.sparesLow && !v.getLsbD 12, remapHigh := t.remapHigh && !v.getLsbD 11, lostEv := t.lostEv && !v.getLsbD 10
      overtemp := t.overtemp && !v.getLsbD 9, sweepLate := t.sweepLate && !v.getLsbD 8 } }

def Dev.writeHomeStatus (d : Dev) (h : Nat) (v : Word64) : Dev :=
  d.updHome h fun x => { x with
    dirCorr := x.dirCorr && !v.getLsbD 3, starve := x.starve && !v.getLsbD 2, bcast := x.bcast && !v.getLsbD 1
    isoPoison := x.isoPoison && !v.getLsbD 0 }

def Dev.writeCacheStatus (d : Dev) (n : Nat) (v : Word64) : Dev :=
  d.updCache n fun k => { k with
    uncorr := k.uncorr && !v.getLsbD 6, wayEv := k.wayEv && !v.getLsbD 5, enRefused := k.enRefused && !v.getLsbD 4
    pcRefused := k.pcRefused && !v.getLsbD 3 }

def Dev.writeLinkStatus (d : Dev) (n : Nat) (v : Word64) : Dev :=
  d.updLnk n fun l => { l with
    dupEv := l.dupEv && !v.getLsbD 3, downEv := l.downEv && !v.getLsbD 2, retrainEv := l.retrainEv && !v.getLsbD 1
    crcEv := l.crcEv && !v.getLsbD 0 }

def Dev.writeFltStatus (d : Dev) (q : Nat) (v : Word64) : Dev :=
  let k := d.coll q
  let k1 := { k with
    refused := k.refused && !v.getLsbD 4, overrun := k.overrun && !v.getLsbD 3, critEv := k.critEv && !v.getLsbD 2
    fatalEv := k.fatalEv && !v.getLsbD 1, alertEv := k.alertEv && !v.getLsbD 0 }
  { d with flt := { d.flt with coll := Map.put d.flt.coll q k1 } }.refreshPins

/-- FLT_SRC_INFO: clearing VALID frees the slot (R466). -/
def Dev.writeSrcInfo (d : Dev) (src : RegSource) (c : Nat) (v : Word64) : Dev :=
  let d1 := if v.getLsbD 33 then { d with flt := { d.flt with slots := Map.put d.flt.slots c { d.slot c with overrun := false } } } else d
  if v.getLsbD 32 then d1.srcClear src c else d1

def Dev.writePwrStatus (d : Dev) (v : Word64) : Dev :=
  { d with pwr := { d.pwr with refused := d.pwr.refused && !v.getLsbD 7, wakeEv := d.pwr.wakeEv && !v.getLsbD 6 } }

/-! ### Others -/

/-- The first entry that does not continue the sequence ends streaming and resets the count; so does the detector's disable
(R285). -/
def Dev.streamEnd (d : Dev) (c : Nat) : Dev :=
  (d.updCache (l1No c) fun x => { x with streaming := false }).updCore c fun y => { y with sdRun := 0 }

/-- CACHE_CTRL, of which `mask` is written (R303). -/
def Dev.writeCacheCtrl (d : Dev) (n : Nat) (v mask : Word64) : Dev :=
  if !mask.getLsbD 0 then d
  else
    let d1 := d.updCache n fun k => { k with pfEn := v.getLsbD 1, streamEn := if n < 256 then k.streamEn else v.getLsbD 2 }
    let d2 := if n < 256 || v.getLsbD 2 then d1 else d1.streamEnd (n - 256)
    if v.getLsbD 0 then d2.enableCache n else d2.disableCache n

/-- HOME_BIAS_RANGE, HOME_BIAS_CMD, HOME_BIAS_STATUS (Table 13.6). -/
def Dev.writeBias (d : Dev) (src : RegSource) (i : Nat) (v mask : Word64) : Dev :=
  let x := d.hl
  match i with
  | 0 => { d with hl := { x with page := ((mergeBits (d.biasReg 0) v mask).extractLsb' 21 35).toNat } }
  | 1 =>
    let w := mergeBits (d.biasReg 1) v mask
    if v.getLsbD 63 then d.biasCmd src (w.getLsbD 24) (biasCount w)
    else { d with hl := { x with target := w.getLsbD 24, count := biasCount w } }
  | 2 => { d with hl := { x with
      rangeErr := x.rangeErr && !v.getLsbD 3, refused := x.refused && !v.getLsbD 2, abandoned := x.abandoned && !v.getLsbD 1 } }
  | _ => d

/-- TRC_LINK_CTRL (R429); ENABLE is RWP, persisted (R12). -/
def Dev.writeLinkCtrl (d : Dev) (n : Nat) (v mask : Word64) : Dev :=
  if !mask.getLsbD 0 then d
  else
    let d1 := (d.linkEnable n (v.getLsbD 0)).nvRecord 8
    let d2 := if v.getLsbD 1 then d1.forceRetrain n else d1
    if v.getLsbD 2 then d2.updLnk n fun l => { l with injectCrc := true } else d2

/-- A word of the MSI-X table; a pending vector is sent when its mask is taken away (R379). -/
def Dev.writeMsix (d : Dev) (i : Nat) (w : Word64) : Dev :=
  let n := i / 2
  let e := Map.get MsixEntry.reset d.msix n
  let e1 := if i % 2 = 0 then { e with addr := w } else { e with data := w.extractLsb' 0 32, masked := w.getLsbD 32 }
  let d1 := { d with msix := Map.put d.msix n e1 }
  if e.masked && !e1.masked && Map.get false d.msixPend n then
    { d1 with msixPend := Map.put d1.msixPend n false }.emit (.msix n e1.addr e1.data)
  else d1

/-- Queue registers: QDB_CFG, QDB_RING, QDB_CMPL; the others are read-only. -/
def Dev.writeQueueReg (d : Dev) (q i : Nat) (v mask : Word64) : Dev :=
  match i with
  | 0 => d.writeQdbCfg q (mergeBits (d.queueReg q 0) v mask)
  | 1 => d.writeQdbBase q true (mergeBits (d.queueReg q 1) v mask)
  | 2 => d.writeQdbBase q false (mergeBits (d.queueReg q 2) v mask)
  | _ => d

def Dev.writeSegReg (d : Dev) (ctx s i : Nat) (v mask : Word64) : Dev :=
  match i with
  | 0 => d.writeSegBase ctx s (mergeBits (d.segReg ctx s 0) v mask)
  | 1 => d.writeSegLimit ctx s (mergeBits (d.segReg ctx s 1) v mask)
  | 2 => d.writeSegAttr ctx s (mergeBits (d.segReg ctx s 2) v mask)
  | _ => d

/-- Registers of the control plane: none is written while that is held (R26). -/
def Dev.writeCpReg (d : Dev) (off : Nat) (v mask : Word64) : Dev :=
  if d.rst.held.contains .cp then d
  else if 0x400000 ≤ off && off < 0x500000 then d.writeQueueReg ((off - 0x400000) / 64) (off % 64 / 8) v mask
  else if 0x500000 ≤ off && off < 0x502000 then
    let m := (off - 0x500000) / 32
    let i := off % 32 / 8
    d.writeMailbox m i (if i = 2 then v else mergeBits (d.mailboxReg m i) v mask)
  else if 0x1000000 ≤ off && off < 0x1100000 then
    d.writeSegReg ((off - 0x1000000) / 256) ((off - 0x1000000) % 256 / 32) (off % 32 / 8) v mask
  else if 0x1100000 ≤ off && off < 0x1110000 && off % 16 = 0 then
    let c := (off - 0x1100000) / 16
    d.writeCtxCtrl c (mergeBits (d.ctxReg c) v mask)
  else d

/-- Registers of homes, caches and bias; none of a held part is written (R26). -/
def Dev.writeChReg (d : Dev) (src : RegSource) (off : Nat) (v mask : Word64) : Dev :=
  if d.regHeld off then d
  else if 0x200000 ≤ off && off < 0x201000 then (if off % 64 = 0 then d.writeHomeStatus ((off - 0x200000) / 64) v else d)
  else if 0x201000 ≤ off && off < 0x201018 then d.writeBias src ((off - 0x201000) / 8) v mask
  else
    let n := if off < 0x220000 then (off - 0x210000) / 64 else 256 + (off - 0x220000) / 64
    if !((0x210000 ≤ off && off < 0x211000) || (0x220000 ≤ off && off < 0x224400)) then d
    else if off % 64 = 0 then d.writeCacheCtrl n v mask
    else if off % 64 = 8 then d.writeCacheStatus n v
    else if off % 64 = 0x18 && mask.getLsbD 0 then d.pcmd n (v.extractLsb' 0 4).toNat
    else d

/-- Registers that BAR0 does not map: management and context 0 only (R429, R485, R515). -/
def Dev.writeInner (d : Dev) (src : RegSource) (off : Nat) (v mask : Word64) : Dev :=
  if !innerWriter src || d.regHeld off then d
  else if off < 0x600900 then
    let n := (off - 0x600000) / 64
    if off % 64 = 0 then d.writeLinkCtrl n v mask else if off % 64 = 8 then d.writeLinkStatus n v else d
  else if 0x700000 ≤ off && off < 0x700100 then (if off % 64 = 0 then d.writeFltStatus ((off - 0x700000) / 64) v else d)
  else if off = 0x701000 then d.inject src (mergeBits d.flt.inject v mask)
  else if off = 0x703000 then (if mask.getLsbD 0 then d.powerCtrl src (v.extractLsb' 0 2).toNat else d)
  else if off = 0x703008 then d.writePwrStatus v
  else if 0x710000 ≤ off && off < 0x718000 && off % 32 = 0 then d.writeSrcInfo src ((off - 0x710000) / 32) v
  else d

/-- BAR2 (R448): only the host reaches it. -/
def Dev.writeBar2 (d : Dev) (src : RegSource) (off size : Nat) (v mask : Word64) (raw : Word64) : Dev :=
  if src ≠ .host || d.rst.held.contains .cp then d
  else
    let m := d.mg
    if off / 8 = 0 then { d with mg := { m with winCtrl := mergeBits m.winCtrl v mask &&& 0x7FF#64 } }
    else if off / 8 = 1 then (if mask.getLsbD 0 then d.winGo src v else d)
    else if off / 8 = 2 then { d with mg := { m with winRefused := m.winRefused && !v.getLsbD 2, winDone := m.winDone && !v.getLsbD 1 } }
    else if 0x10000 ≤ off && off < 0x11000 then
      (if m.winBusy then d
      else { d with mg := { m with reqBuf := (List.range size).foldl (fun (b : Map Byte) i =>
        Map.put b (off - 0x10000 + i) (raw.extractLsb' (8 * i) 8)) m.reqBuf } })
    else d

/-- A write of `size` bytes at an offset of the register space. Accesses that are not 4 or 8 bytes, naturally aligned, and
offsets that hold no register are ignored. -/
def Dev.writeReg (d : Dev) (src : RegSource) (addr size : Nat) (value : Word64) : Dev :=
  if (size ≠ 4 && size ≠ 8) || addr % size ≠ 0 then d
  else
    let mask := halfMask addr size
    let v := onLanes addr size value
    if bar2 ≤ addr then d.writeBar2 src (addr - bar2) size v mask value
    else
      let off := addr / 8 * 8
      if 0x2000000 ≤ off && off < 0x3000000 then
        (if size = 8 && off % 4096 = 0 && !d.rst.held.contains .cp
          then d.doorbell ((off - 0x2000000) / 4096) (v.extractLsb' 36 14).toNat (v.extractLsb' 0 32).toNat else d)
      else if !RegSource.writer src then d
      else if 0x600000 ≤ off && off < 0x800000 then d.writeInner src off v mask
      else if off = 0x40 then (if d.regHeld off then d else d.writeTierStatus v)
      else if 0x200000 ≤ off && off < 0x300000 then d.writeChReg src off v mask
      else if 0x3000000 ≤ off && off < 0x3008000 && !d.rst.held.contains .hl then
        d.writeMsix ((off - 0x3000000) / 8) (mergeBits (d.msixReg ((off - 0x3000000) / 8)) v mask)
      else d.writeCpReg off v mask

/-! ### Writes of engines to the register space, which only a segment of context 0 reaches (R329) -/

/-- The registers that a masked write of a sector covers, whole or by halves. -/
def Dev.writeRegSector (d : Dev) (sector : Nat) (x : Sector) (mask : Word64) : Dev :=
  let off := 64 * sector - regDpa
  (List.range 8).foldl (fun (e : Dev) i =>
    let w : Word64 := x.extractLsb' (64 * i) 64
    let m := mask.extractLsb' (8 * i) 8
    if m = 0xFF then e.writeReg .context0 (off + 8 * i) 8 w
    else if m = 0x0F then e.writeReg .context0 (off + 8 * i) 4 w
    else if m = 0xF0 then e.writeReg .context0 (off + 8 * i + 4) 4 (w >>> 32)
    else e) d

/-- Register writes of the engines take effect in the order they were made. -/
def Dev.drainRegs (d : Dev) : Dev := d.regq.foldl (fun (e : Dev) p => e.writeRegSector p.1 p.2.1 p.2.2) { d with regq := [] }

/-! ### Meanings; those of engines that write where a segment says -/

def execCopy (d : DescId) (n : Nat) (h : List HostAnswer) (s : State) : Host.Outcome State Fault Refusal :=
  s.goes (s.dev.copy d n h).drainRegs
def execGather (d : DescId) (n : Nat) (h : List HostAnswer) (s : State) : Host.Outcome State Fault Refusal :=
  s.goes (s.dev.gather d n h).drainRegs
def execShardLoad (d : DescId) (s : State) : Host.Outcome State Fault Refusal := s.goes (s.dev.shardLoad d).drainRegs
def execSketchRead (d : DescId) (h : List HostAnswer) (s : State) : Host.Outcome State Fault Refusal :=
  s.goes (s.dev.sketchRead d h).drainRegs
def execTableRead (d : DescId) (h : List HostAnswer) (s : State) : Host.Outcome State Fault Refusal :=
  s.goes (s.dev.tableRead d h).drainRegs
def execRegisterWrite (src : RegSource) (addr : Nat) (size : Nat) (value : Word64) (s : State) : Host.Outcome State Fault Refusal :=
  s.goes (s.dev.writeReg src addr size value)

end Sys2Proof.Machine
end

