-- ==== Sys2Proof/Machine/Stores.lean ====
section
/-! DEFINITION. The store buffer's head leaves (R159, R264, R278, R285, R307, R313): performed in the L1, or sent to its
home. -/

namespace Sys2Proof.Machine

/-! ### The streaming detector (R285) -/

/-- Sectors of one 4 KiB window. -/
def sectorWindow (s : Nat) : Nat := s / 64

/-- An entry of a NORMAL region has left: the count of full lines goes on, begins again, or ends; with eight lines the L1
is streaming. A disabled detector counts nothing. -/
def Dev.detect (d : Dev) (c : Nat) (e : StoreEntry) : Dev :=
  let k := d.core c
  let full := e.mask = BitVec.allOnes 64
  let streaming := (d.cache (l1No c)).streaming
  if !(d.cache (l1No c)).streamEn then d.updCore c fun y => { y with sdRun := 0 }
  else if streaming && full && e.sector = k.sdNext then d.updCore c fun y => { y with sdNext := e.sector + 1 }
  else
    let run : Nat :=
      if full && 0 < k.sdRun && e.sector = k.sdNext && sectorWindow e.sector = sectorWindow k.sdStart then k.sdRun + 1
      else if full && e.sector % 4 = 0 then 1
      else 0
    let d1 := d.updCore c fun y => { y with sdRun := run, sdNext := e.sector + 1, sdStart := if run ≤ 1 then e.sector else y.sdStart }
    if run = 32 then d1.updCache (l1No c) fun x => { x with streaming := true } else d1


/-! ### Leaving -/

/-- The head leaves. A stopped core may be done then. -/
def Dev.popStore (d : Dev) (c : Nat) : Dev :=
  let d1 := d.updCore c fun k => { k with sb := k.sb.drop 1 }
  if (d1.core c).status = .stopped then d1.coreDone c else d1

/-- A write of the head goes to its home; `kept` leaves the entry where it is. -/
def Dev.sendStore (d : Dev) (c : Nat) (e : StoreEntry) (kept : Bool) : Dev :=
  let sec := e.sector % 4
  let kind : ReqKind := if e.mask = BitVec.allOnes 64 then .wrFull else .wrPart
  let d1 := d.updCore c fun k => { k with
    writes := k.writes ++ [{ sector := e.sector, da := e.da, mover := false, done := false, kept := kept }]
    sb := match k.sb with
      | x :: xs => if kept then { x with out := true } :: xs else xs
      | [] => [] }
  d1.coreReq c kind e.sector e.da e.rt fun m => { m with
    gen := e.gen, origin := .store, pay := [{ sec := sec, data := e.data, info := .zero }]
    bmask := BitVec.ofNat 256 (e.mask.toNat * 2 ^ (64 * sec)) }

/-- The head is performed in the L1, which holds its sector in E or M (R264): the sector is M, with no stamp. -/
def Dev.performStore (d : Dev) (c : Nat) (e : StoreEntry) : Dev :=
  let line := e.sector / 4
  let sec := e.sector % 4
  let x := d.cacheSec (l1No c) line sec
  let (y, i) := mergeWrite x.data x.info e.data e.mask false
  let (inj, d1) := d.takeInject [c] 1
  (((d1.cacheSet (l1No c) line sec { st := .M, data := y, info := i, err := inj }).l1Touch c line).detect c e).popStore c

/-- A head that needs ownership asks for it: CLAIM from S, else RDOWN (R278). -/
def Dev.claimStore (d : Dev) (c : Nat) (e : StoreEntry) (shared : Bool) : Dev :=
  let d1 := (d.pfMiss c (e.sector / 4) e.da).updCore c fun k => { k with
    miss := some e.sector
    sb := match k.sb with
      | x :: xs => { x with sent := true } :: xs
      | [] => [] }
  d1.coreReq c (if shared then .claim else .rdOwn) e.sector e.da .normal fun m => { m with gen := e.gen, origin := .store }

/-- The head of a NORMAL region. Through a segment that a REVOKE has marked it changes nothing and reports ASYNC (R326,
R334). -/
def Dev.drainNormal (d : Dev) (c : Nat) (e : StoreEntry) : Dev :=
  let n := l1No c
  let k := d.core c
  let line := e.sector / 4
  let sec := e.sector % 4
  let full := e.mask = BitVec.allOnes 64
  if e.out then d
  else if k.isRevoked e.da && k.miss ≠ some e.sector then (d.noteFail c e.da).popStore c
  else if !d.serves n then d.sendStore c e true
  else if k.pfHas line || (!k.wide && k.miss.isSome && k.miss ≠ some e.sector) then d
  else
    let cont : Bool := (d.cache n).streaming && (d.cache n).streamEn && full && decide (e.sector = k.sdNext)
    let d0 := if (d.cache n).streaming && !cont then d.streamEnd c else d
    let inSide := (d0.waySec n line sec).st = .I && (d0.cacheSec n line sec).st != .I
    let d1 := if inSide then
        (({ d0 with coh := { d0.coh with sideHits := d0.coh.sideHits + 1 } } : Dev).sidePull n line).pfHit c line
      else d0
    let x := d1.cacheSec n line sec
    if x.st = .E || x.st = .M then
      if 3 ≤ x.err && !full then
        (if x.st = .M then (d1.l1Uncorr c line sec x).sramError c else d1.l1Uncorr c line sec x)
      else (if full then d1 else d1.l1Correct c line sec x).performStore c e
    else if cont then
      ({ d1 with coh := { d1.coh with streamW := d1.coh.streamW + 1 } } : Dev).sendStore c e true
    else if k.miss.isSome then d1
    else if d1.l1Full c line then d1.sendStore c e true
    else d1.claimStore c e (x.st = .S)

/-- The head of a DEVICE region: sent when every earlier write is settled, gone when it is settled itself. -/
def Dev.drainDevice (d : Dev) (c : Nat) (e : StoreEntry) : Dev :=
  if !d.writesSettled c then d
  else if e.out then (d.dropSettled c).popStore c
  else if isReg (64 * e.sector) && d.regSecHeld (64 * e.sector - regDpa) then ((d.streamEnd c).noteFail c e.da).popStore c
  else if isReg (64 * e.sector) then ((d.streamEnd c).writeRegSector e.sector e.data e.mask).popStore c
  else (d.streamEnd c).sendStore c e true

/-- STORE_BUFFER_DRAIN: the oldest entry leaves, or moves on. -/
def Dev.storeDrain (d : Dev) (c : Nat) : Dev :=
  match (d.core c).sb.head? with
  | none => d
  | some e =>
    if d.partHeld c then d
    else match e.rt with
      | .normal => d.drainNormal c e
      | .stream =>
        let d1 := (d.streamEnd c).sendStore c e false
        if (d1.core c).status = .stopped then d1.coreDone c else d1
      | .device => d.drainDevice c e

def execStoreBufferDrain (c : CoreId) (s : State) : Host.Outcome State Fault Refusal := s.goes (s.dev.storeDrain c)

end Sys2Proof.Machine
end

