-- ==== Sys2Proof/Machine/CoreRsp.lean ====
section
/-! DEFINITION. Answers to requesters (R169, R258, R263, R264, R266, R268, R279, R286): DATA, GRANT, CMP, ATOMRSP, ERR, at
cores and at homes. -/

namespace Sys2Proof.Machine

/-! ### Data at a core -/

/-- A requester tells the home that it has installed what it got (R263). -/
def Dev.compAck (d : Dev) (c : Nat) (m : RspMsg) : Dev := d.send (.ans (mkAns .compAck c m.txid m.line m.sec))

/-- A sector enters the L1, or its side buffer for a prefetch; E and M begin a hold (R268). Without a place, or with the L1
out of service, it is given back at once. -/
def Dev.l1Install (d : Dev) (c : Nat) (m : RspMsg) (side : Bool) : Dev :=
  let n := l1No c
  let (inj, d0) := d.takeInject [c] 1
  let x : CSector := { st := m.st, data := m.data, info := m.info, err := inj }
  let d1 := if !d0.serves n then d0
    else if side && (d0.findWay n m.line).isNone then d0.sideFill n 8 m.line m.sec x
    else d0.cacheFill n m.line m.sec x
  if (d1.cacheSec n m.line m.sec).st = .I then d1.l1Release c m.line m.sec x
  else if m.st = .S then d1
  else d1.updCore c fun k => { k with held := Map.put k.held (4 * m.line + m.sec) (some 0) }

/-- The barrier's generation in a sector. -/
def barrierGen (x : Sector) (dpa : Nat) : Word32 := x.extractLsb' (8 * (dpa % 64) + 32) 32

/-- The sector a core asked for has come: a load takes it; a core in TBAR passes, or waits on its copy, reading again where
it could keep none (R169). -/
def Dev.missDone (d : Dev) (c : Nat) (m : RspMsg) : Dev :=
  let s := 4 * m.line + m.sec
  let k := d.core c
  match k.wait with
  | .gen old dpa da =>
    if m.info.poison then (d.setCore c { k with wait := .none }).raise c 0x0B da
    else if barrierGen m.data dpa ≠ old then d.setCore c ({ k with wait := .none } : Core).next
    else if (d.cacheSec (l1No c) m.line m.sec).st != .I then d
    else (d.updCore c fun y => { y with miss := some s }).coreReq c .rdCurrent s da .normal id
  | .none => if k.status = .stopped then d.coreDone c else d
  | w =>
    match w with
    | .load .. | .vload .. => (if m.st = .I then d else d.l1Touch c m.line).loadDone c w s m.data m.info.poison
    | _ => d

/-- DATA at a core: into scratch for the mover, into the side buffer for a prefetch, else for the miss outstanding. A copy
nobody waits for goes back. -/
def Dev.coreData (d : Dev) (m : RspMsg) : Dev :=
  let c := m.dst
  let s := 4 * m.line + m.sec
  let k := d.core c
  let back (e : Dev) : Dev :=
    if m.st = .I then e
    else (e.l1Release c m.line m.sec { st := m.st, data := m.data, info := m.info, err := 0 }).compAck c m
  match m.origin with
  | .fill =>
    match k.fillWaits s with
    | some (o, da) => d.fillPiece c o da (Sector.bytes m.data) m.info.poison
    | none => d
  | .dump => d
  | .prefetch =>
    let d1 := d.updCore c fun y => { y with pfLines := y.pfLines.filter (· ≠ s) }
    if k.pfLines.contains s && m.st != .I then
      let d2 := ((d1.l1Install c m true).compAck c m).pfPump c 16
      if k.status = .stopped then d2.coreDone c else d2
    else back d1
  | _ =>
    if k.miss = some s then
      let d1 := if m.st = .I then d else (d.l1Install c m false).compAck c m
      (d1.updCore c fun y => { y with miss := none }).missDone c m
    else back d

/-! ### Data at a home, for the host (R263, Table 8.9) -/

def Dev.hostFwd (d : Dev) (m : RspMsg) : Dev :=
  match d.lineTxn m.line with
  | none => d
  | some (h, slot, t) =>
    match t.req.kind with
    | .rdShared => d.emit (.memData t.req.tag .S m.data m.info.poison)
    | .rdOwn => d.emit (.memData t.req.tag .A m.data m.info.poison)
    | .claim => d.emit (.memCmp t.req.tag .A)
    | .rdCurrent => d.emit (.memData t.req.tag .I m.data m.info.poison)
    | .snpData | .snpCur => d.setTxn h slot (some { t with got := t.got ++ [{ sec := m.sec, data := m.data, info := m.info }] })
    | _ => d

/-- DATA arrives. -/
def Dev.dataIn (d : Dev) (m : RspMsg) : Dev :=
  let d0 := d.taken (.rsp m)
  if m.dst = hostAgent then d0.hostFwd m
  else if !isCore m.dst || d0.partHeld m.dst then d0
  else d0.coreData m

/-- GRANT: the sector held in S becomes E; one that has gone meanwhile is given back. -/
def Dev.grantIn (d : Dev) (m : RspMsg) : Dev :=
  let d0 := d.taken (.rsp m)
  let c := m.dst
  let n := l1No c
  if !isCore c || d0.partHeld c then d0
  else
    let x := d0.cacheSec n m.line m.sec
    let d1 := if x.st = .I then d0.l1Release c m.line m.sec { x with st := .E }
      else (d0.cacheSet n m.line m.sec { x with st := .E }).updCore c fun k => { k with held := Map.put k.held (4 * m.line + m.sec) (some 0) }
    (d1.updCore c fun k => if k.miss = some (4 * m.line + m.sec) then { k with miss := none } else k).compAck c m

/-! ### Completions -/

/-- The write that a completion or a refusal answers: the first of its sector not yet complete. -/
def Core.writeFor (k : Core) (s : Nat) (mover : Bool) : Option OutWrite :=
  k.writes.find? fun w => !w.done && w.sector = s && w.mover = mover

/-- The first write equal to w, complete. -/
def markDone (w : OutWrite) : List OutWrite → List OutWrite
  | [] => []
  | x :: xs => if x = w then { x with done := true } :: xs else x :: markDone w xs

/-- The head has been sent as this write and waits for it. -/
def Core.headOut (k : Core) (w : OutWrite) : Option StoreEntry :=
  match k.sb.head? with
  | some e => if w.kept && e.out && e.sector = w.sector then some e else none
  | none => none

/-- CMP at a core: a NORMAL entry that went to its home leaves; a DEVICE entry waits until it is settled; a piece of the
mover is over. -/
def Dev.coreCmp (d : Dev) (m : RspMsg) : Dev :=
  let c := m.dst
  let s := 4 * m.line + m.sec
  let k := d.core c
  let mover := m.origin = .dump
  match k.writeFor s mover with
  | none => d
  | some w =>
    let d1 := (d.setCore c { k with writes := markDone w k.writes }).dropSettled c
    if mover then d1.moverPiece c true (daOff w.da)
    else match k.headOut w with
      | some e => if e.rt = .normal then (d1.detect c e).popStore c else d1
      | none => if k.status = .stopped then d1.coreDone c else d1

/-- CMP arrives: at a core, or at a home whose row waited for it (R118). -/
def Dev.cmpIn (d : Dev) (m : RspMsg) : Dev :=
  let d0 := d.taken (.rsp m)
  if 0x180 ≤ m.dst && m.dst < 0x1C0 then d0.rowCmp m.txid none m.old.toNat
  else if !isCore m.dst || d0.partHeld m.dst then d0
  else d0.coreCmp m

/-- ATOMRSP: the old value reaches its register; in TBAR the core passes or waits for the next generation (R169). -/
def Dev.atomRspIn (d : Dev) (m : RspMsg) : Dev :=
  let d0 := d.taken (.rsp m)
  let c := m.dst
  if !isCore c || d0.partHeld c then d0
  else
    let k := d0.core c
    match k.wait with
    | .amo reg narrow da =>
      if m.info.poison then (d0.setCore c { k with wait := .none }).raise c 0x0B da
      else
        let v : Word64 := if narrow then m.old &&& 0x00000000FFFFFFFF#64 else m.old
        d0.setCore c ((({ k with wait := .none } : Core).setS reg v).next)
    | .arrive n da =>
      if m.info.poison then (d0.setCore c { k with wait := .none }).raise c 0x0B da
      else if (m.old.extractLsb' 0 32).toNat + 1 = n then d0.setCore c ({ k with wait := .none } : Core).next
      else
        let dpa := (k.segOf da).dpa (daOff da)
        let s := dpa / 64
        let kind : ReqKind := if !d0.serves (l1No c) || d0.l1Full c (s / 4) then .rdCurrent else .rdShared
        (d0.setCore c { k with wait := .gen (m.old.extractLsb' 32 32) dpa da, miss := some s }).coreReq c kind s da .normal id
    | _ => d0

/-! ### Refusals (R220, R221, R258) -/

/-- Exception of a load or atomic that was refused. -/
def refusalCode : ErrStatus → Nat
  | .revoked => 0x0A
  | .tagMismatch => 0x05
  | _ => 0x0B

/-- ERR at a core: a load or atomic raises its exception; a store or a transfer of the mover reports ASYNC later (R160); a
prefetch is dropped and counted. -/
def Dev.coreErr (d : Dev) (m : RspMsg) : Dev :=
  let c := m.dst
  let s := 4 * m.line + m.sec
  let k := d.core c
  let ended (e : Dev) : Dev := if k.status = .stopped then e.coreDone c else e
  match m.origin with
  | .load =>
    let k1 : Core := { k with wait := .none, miss := if k.miss = some s then none else k.miss }
    match k.wait with
    | .none => ended (d.setCore c k1)
    | w => (d.setCore c k1).raise c (refusalCode m.status) w.da
  | .store =>
    match k.sb.head?, k.writeFor s false with
    | some e, none =>
      if e.sector = s && e.sent && k.miss = some s then
        ((d.setCore c { k with miss := none }).noteFail c e.da).popStore c
      else d.setCore c { k with miss := if k.miss = some s then none else k.miss }
    | none, none => ended (d.setCore c { k with miss := if k.miss = some s then none else k.miss })
    | _, some w =>
      let d1 := (d.setCore c { k with writes := eraseFirst w k.writes }).noteFail c w.da
      match k.headOut w with
      | some _ => d1.popStore c
      | none => ended d1
  | .prefetch =>
    let d1 := d.updCore c fun y => { y with pfLines := y.pfLines.filter (· ≠ s) }
    if (d1.core c).pfHas m.line || !k.pfHas m.line then d1
    else ended ({ d1 with coh := { d1.coh with pfDrop := d1.coh.pfDrop + 1 } } : Dev)
  | .fill =>
    match k.fillWaits s with
    | some (o, da) => (d.noteFail c da).moverPiece c false o
    | none => d
  | .dump =>
    match k.writeFor s true with
    | some w => ((d.setCore c { k with writes := eraseFirst w k.writes }).noteFail c w.da).moverPiece c true (daOff w.da)
    | none => d

def Dev.errIn (d : Dev) (m : RspMsg) : Dev :=
  let d0 := d.taken (.rsp m)
  if 0x180 ≤ m.dst && m.dst < 0x1C0 then d0.rowCmp m.txid (some m.status) 2
  else if !isCore m.dst || d0.partHeld m.dst then d0
  else d0.coreErr m

/-! ### Meanings -/

def execData (m : RspMsg) (s : State) : Host.Outcome State Fault Refusal := s.homes (s.dev.dataIn { m with kind := .data })
def execGrant (m : RspMsg) (s : State) : Host.Outcome State Fault Refusal := s.goes (s.dev.grantIn { m with kind := .grant })
def execCmp (m : RspMsg) (s : State) : Host.Outcome State Fault Refusal := s.homes (s.dev.cmpIn { m with kind := .cmp })
def execAtomrsp (m : RspMsg) (s : State) : Host.Outcome State Fault Refusal := s.goes (s.dev.atomRspIn { m with kind := .atomRsp })
def execErr (m : RspMsg) (s : State) : Host.Outcome State Fault Refusal := s.homes (s.dev.errIn { m with kind := .err })

end Sys2Proof.Machine
end

