-- ==== Sys2Proof/Machine/Mover.lean ====
section
/-! DEFINITION. Instructions that reach memory past the store buffer: the scratch mover (R176), GSUB (R177, R367), atomics
(R159, R160, R266, R316). -/

namespace Sys2Proof.Machine

/-! ### SFILL and SDUMP -/

/-- Copy n sectors between scratch and the register space at once; a held part's answer is an error, reported later (R26,
R160). -/
def Dev.moverRegs (d : Dev) (c : Nat) (da : Word64) (dump : Bool) (dpa o : Nat) : Nat → Dev
  | 0 => d
  | n + 1 =>
    let d1 := if d.regSecHeld (dpa - regDpa) then d.noteFail c da
      else if dump then d.writeRegSector (dpa / 64) ((d.core c).scratchSector o) (BitVec.allOnes 64)
      else
        let x := ofLanes 64 fun i => (d.readReg .context0 (dpa - regDpa + 8 * i)).toNat
        d.updCore c fun k => k.putScratch o (Sector.bytes x)
    Dev.moverRegs d1 c (da + 64) dump (dpa + 64) (o + 64) n

/-- A transfer of the mover: ALIGN, LIMIT, RIGHTS, SCRATCH; a full queue stalls; then it starts. `base` is the block before
issue. -/
def Dev.moverGo (base d : Dev) (c : Nat) (dump : Bool) (da : Word64) (o len : Nat) : Dev :=
  let k := d.core c
  let r := k.segOf da
  if da.toNat % 64 ≠ 0 || len % 64 ≠ 0 then d.raise c 0x03 da
  else match (if len = 0 then Except.ok 0 else r.translate da len (if dump then .write else .read)) with
    | .error .limit => d.raise c 0x04 da
    | .error .access => d.raise c 0x05 da
    | .ok dpa =>
      if k.scratchSize < o + len then d.raise c 0x07 0
      else if 8 ≤ k.movQ.length then base
      else
        let d1 := d.updCore c Core.next
        if len = 0 then d1
        else if r.target = 4 then (if k.isRevoked da then d1.noteFail c da else d1.moverRegs c da dump dpa o (len / 64))
        else (d1.updCore c fun y => { y with
          movQ := y.movQ ++ [{ dump := dump, da := da, scratch := o, len := len, pos := 0, out := [] }] }).moverPump c 64

/-- The instruction: DA a A, scratch s B, length s C. -/
def moverOp (c : CoreId) (f : Fields) (dump : Bool) (s : State) : Host.Outcome State Fault Refusal :=
  s.goes (s.dev.issue c (f.legalR 0 16 32 32 false [] 0) [f.b.toNat, f.c.toNat] [] fun d k =>
    s.dev.moverGo d c dump (k.ar f.a.toNat) (k.sr f.b.toNat).toNat (k.sr f.c.toNat).toNat)

def execSfill (c : CoreId) (f : Fields) (s : State) : Host.Outcome State Fault Refusal := moverOp c f false s
def execSdump (c : CoreId) (f : Fields) (s : State) : Host.Outcome State Fault Refusal := moverOp c f true s

/-! ### GSUB -/

/-- The image a GSUB hands over: its SCOPE is the core's quarter. -/
def gsubWords (w : List Word64) (q : Nat) : List Word64 :=
  w.set 5 ((qWord w 5 &&& ~~~(packBits [(30, 3, 7)])) ||| packBits [(30, 3, 4 + q)])

/-- Its checks, as at queue time under the kernel's context. -/
def gsubCheck (w : List Word64) (ctx : Nat) : Eng (Except Nat Checked) := do
  if descType w ≠ tyGather || qBits w 0 48 8 ≠ 0 || qBits w 0 16 16 ≠ 0 then return .error stFormat
  match ← checkGather w ctx none true [] with
  | .error e => return .error e
  | .ok (n, x, ep) => return ({ notes := n, param := [], epoch := ep, x := x } : Checked).noPeer

/-- Bytes of the output range, from NBAGS and OUT_STRIDE. -/
def Dev.gsubLen (d : Dev) (w : List Word64) (ctx : Nat) : Nat :=
  if gaBags w = 0 then 0
  else match d.openTable (gaTable w) ctx false with
    | some t => (gaBags w - 1) * outStep w t.w + outSize w t.w
    | none => gaBags w * gaStride w

/-- GSUB whose operands lie in scratch: a fifth outstanding one stalls; a refusal goes into its record. -/
def Dev.gsubGo (base d : Dev) (c o out rec_ : Nat) : Dev :=
  let k := d.core c
  if k.scratchSize < o + 64 || k.scratchSize < rec_ + 32 then d.raise c 0x07 0
  else
    let w := gsubWords (bytesWords 8 (k.scratchBytes o 64)) (quarterOfCore c)
    let len := d.gsubLen w k.ctx
    if k.scratchSize < out + len then d.raise c 0x07 0
    else match (List.range 4).find? fun i => !(k.gsubs.any fun g => g.index = i) with
      | none => base
      | some i =>
        let id : DescId := { queue := gsubQueue c, index := i }
        match gsubCheck w k.ctx d with
        | .error .busy => base
        | .error (.recall line) => base.beginRecall line
        | .error (.crit line) => (base.dirRead line).2
        | .ok (r, d1) =>
          let d2 := d1.updCore c fun y => { y.next with gsubs := y.gsubs ++ [{ index := i, output := out, len := len, record := rec_ }] }
          let ck : Checked := match r with
            | .ok x => x
            | .error _ => Checked.ofNotes .none
          let run := (mkRun id w k.ctx k.cls d2.now ck).setCount 11 out
          (d2.enterRun run (match r with
            | .ok _ => none
            | .error e => some e)).gsubDone c id

def execGsub (c : CoreId) (f : Fields) (s : State) : Host.Outcome State Fault Refusal :=
  s.goes (s.dev.issue c (f.legalR 0 32 32 32 false [] 0) [f.a.toNat, f.b.toNat, f.c.toNat] [] fun d k =>
    s.dev.gsubGo d c (k.sr f.a.toNat).toNat (k.sr f.b.toNat).toNat (k.sr f.c.toNat).toNat)

/-! ### AMO -/

/-- Operation of MOD[3:0]. -/
def amoOp (f : Fields) : Option AtomicOp :=
  [AtomicOp.add, .swap, .cas, .and, .or, .xor, .smin, .smax, .umin, .umax][f.mod.toNat % 16]?

def amoNarrow (f : Fields) : Bool := f.mod.getLsbD 4

/-- An atomic on a register: one read and one write (R309). -/
def Dev.amoReg (d : Dev) (c off : Nat) (op : AtomicOp) (narrow : Bool) (reg : Nat) (x y : Word64) : Dev :=
  let whole := d.readReg .context0 (off / 8 * 8)
  let old : Nat := if narrow then (whole.extractLsb' (8 * (off % 8)) 32).toNat else whole.toNat
  let new := atomicOp op (if narrow then 32 else 64) old x.toNat y.toNat
  ((d.writeReg .context0 off (if narrow then 4 else 8) (BitVec.ofNat 64 new)).updCore c fun k => (k.setS reg (BitVec.ofNat 64 old)).next)

/-- AMO: it waits for an empty store buffer, in a DEVICE region for every earlier write to be settled; an earlier failure
raises ASYNC; then the request goes to the sector's home and the core waits for the old value. -/
def Dev.amoGo (base d : Dev) (c : Nat) (op : AtomicOp) (narrow : Bool) (reg : Nat) (da x y : Word64) : Dev :=
  let k := d.core c
  match k.access da (if narrow then 4 else 8) .atomic with
  | .error e => d.raise c e da
  | .ok sp =>
    if !k.sb.isEmpty || (sp.rt = .device && !d.writesSettled c) then base
    else match k.failDa with
      | some fd => d.raise c 0x0D fd
      | none =>
        if k.isRevoked da then d.raise c 0x0A da
        else if isReg sp.dpa && d.regHeld (sp.dpa - regDpa) then d.raise c 0x0B da
        else if isReg sp.dpa then d.amoReg c (sp.dpa - regDpa) op narrow reg x y
        else
          (d.updCore c fun z => { z with wait := .amo reg narrow da }).coreReq c .atomic (sp.dpa / 64) da sp.rt fun m =>
            { m with op := op, off := sp.dpa % 64, narrow := narrow, operand := x, cmp := y }

def execAmo (c : CoreId) (f : Fields) (s : State) : Host.Outcome State Fault Refusal :=
  s.goes (s.dev.issue c (f.legalR 32 16 32 32 false [] 0x1F && (amoOp f).isSome && (amoOp f = some .cas || f.c = 0)) [f.d.toNat, f.b.toNat, f.c.toNat] [] fun d k =>
    match amoOp f with
    | some op => s.dev.amoGo d c op (amoNarrow f) f.d.toNat (k.ar f.a.toNat) (k.sr f.b.toNat) (k.sr f.c.toNat)
    | none => d)

end Sys2Proof.Machine
end

