-- ==== Sys2Proof/Machine/Predicate.lean ====
section
/-! DEFINITION. Predicate instructions, class 0xB (R151, R212). -/

namespace Sys2Proof.Machine

/-- p D ← p A op p B; p0 keeps all ones. -/
def pred2 (c : CoreId) (f : Fields) (op : Word64 → Word64 → Word64) (s : State) : Host.Outcome State Fault Refusal :=
  s.goes (s.dev.issueReg c (f.legalR 8 8 8 0 false [] 0) [] [] fun k =>
    k.setP f.d.toNat (op (k.pr f.a.toNat) (k.pr f.b.toNat)))

def execPand (c : CoreId) (f : Fields) (s : State) := pred2 c f (· &&& ·) s
def execPor (c : CoreId) (f : Fields) (s : State) := pred2 c f (· ||| ·) s
def execPxor (c : CoreId) (f : Fields) (s : State) := pred2 c f (· ^^^ ·) s

def execPnot (c : CoreId) (f : Fields) (s : State) : Host.Outcome State Fault Refusal :=
  s.goes (s.dev.issueReg c (f.legalR 8 8 0 0 false [] 0) [] [] fun k => k.setP f.d.toNat (~~~(k.pr f.a.toNat)))

def execPfroms (c : CoreId) (f : Fields) (s : State) : Host.Outcome State Fault Refusal :=
  s.goes (s.dev.issueReg c (f.legalR 8 32 0 0 false [] 0) [f.a.toNat] [] fun k => k.setP f.d.toNat (k.sr f.a.toNat))

def execPtos (c : CoreId) (f : Fields) (s : State) : Host.Outcome State Fault Refusal :=
  s.goes (s.dev.issueReg c (f.legalR 32 8 0 0 false [] 0) [f.d.toNat] [] fun k => k.setS f.d.toNat (k.pr f.a.toNat))

def bitCount (x : Word64) : Nat → Nat
  | 0 => 0
  | n + 1 => bitCount x n + if x.getLsbD n then 1 else 0

def execPcnt (c : CoreId) (f : Fields) (s : State) : Host.Outcome State Fault Refusal :=
  s.goes (s.dev.issueReg c (f.legalR 32 8 0 0 false [] 0) [f.d.toNat] [] fun k =>
    k.setS f.d.toNat (BitVec.ofNat 64 (bitCount (k.pr f.a.toNat) 64)))

end Sys2Proof.Machine
end

