-- ==== Sys2Proof/Machine/Tile.lean ====
section
/-! DEFINITION. Tile and accumulator instructions, classes 0x7 and 0x8 (R152, R153, R181, R195-R204). All checks are made
at issue; the instruction then stands in the tile unit's queue with its scalar operands, and TILE_UNIT_COMPLETE gives it
its effect, in program order. -/

namespace Sys2Proof.Machine

/-! ### Checks (R153, R195, R196, R198) -/

/-- Registers of an MX scale group: 2 for MXFP8, 4 for MXFP4. -/
def mxRegs (fmt : Nat) : Nat := if fmt = 8 then 4 else if fmt = 5 || fmt = 6 then 2 else 0

/-- A starting register of a scale group. -/
def mxStart (fmt n : Nat) : Bool :=
  if mxRegs fmt = 0 then n = 0 else n % mxRegs fmt = 0 && n + mxRegs fmt ≤ 32

/-- Encoding of a tile instruction: THAM takes BIN only, the others every format of Table 6.3 but BIN; MOD[6] is Z. -/
def Fields.legalTile (f : Fields) (ham : Bool) : Bool :=
  let fmt := f.fmt.toNat
  !f.imm && regOk f.d 4 && regOk f.a 16 && regOk f.b 16 && f.p = 0 && f.mod &&& ~~~(0x7F#20) = 0 &&
  (if ham then fmt = 0xB else [1, 2, 3, 4, 5, 6, 7, 8, 9, 0xA].contains fmt) &&
  mxStart fmt f.c.toNat && mxStart fmt (f.mod.toNat % 64)

/-- An accumulator that the mode does not have. -/
def Core.accMissing (k : Core) (n : Nat) : Bool := k.exact && decide (2 ≤ n)

/-- Another unit has yet to read accumulator n (R152). -/
def Core.accHeldByTop (k : Core) (n : Nat) : Bool := k.topQ.any fun x => x.accUse.contains n

/-- Issue of a tile-unit instruction: MODE, then a stall on a full queue or an accumulator the top-k unit still reads, then
its place in the queue. `pre` gives an exception found at issue. -/
def tileIssue (c : CoreId) (f : Fields) (legal : Bool) (ss : List Nat) (op : UnitOp) (acc : Option Nat)
    (pre : Core → Option Nat) (xyz : Core → Word64 × Word64 × Word64) (s : State) : Host.Outcome State Fault Refusal :=
  s.goes (s.dev.issue c legal ss [] fun d k =>
    let missing : Bool := match acc with
      | some n => k.accMissing n
      | none => false
    if missing then d.raise c 0x08 0
    else match pre k with
      | some e => d.raise c e 0
      | none =>
        let held : Bool := match acc with
          | some n => k.accHeldByTop n
          | none => false
        if held || decide (4 ≤ k.tileQ.length) then s.dev
        else
          let (x, y, z) := xyz k
          d.setCore c { k.next with tileQ := k.tileQ ++ [{ op := op, f := f, x := x, y := y, z := z }] })

def noPre : Core → Option Nat := fun _ => none
def noXyz : Core → Word64 × Word64 × Word64 := fun _ => (0, 0, 0)

/-- BF16 and FP16 are refused in exact mode (Table 6.3). -/
def tileMode (f : Fields) (k : Core) : Option Nat := if k.exact && (f.fmt = 1 || f.fmt = 2) then some 0x08 else none

def execTmma (c : CoreId) (f : Fields) (s : State) := tileIssue c f (Fields.legalTile f false) [] .tmma (some f.d.toNat) (tileMode f) noXyz s
def execTl2 (c : CoreId) (f : Fields) (s : State) := tileIssue c f (Fields.legalTile f false) [] .tl2 (some f.d.toNat) (tileMode f) noXyz s
def execTl1 (c : CoreId) (f : Fields) (s : State) := tileIssue c f (Fields.legalTile f false) [] .tl1 (some f.d.toNat) (tileMode f) noXyz s
def execTham (c : CoreId) (f : Fields) (s : State) := tileIssue c f (Fields.legalTile f true) [] .tham (some f.d.toNat) (tileMode f) noXyz s
def execTmins (c : CoreId) (f : Fields) (s : State) := tileIssue c f (Fields.legalTile f false) [] .tmins (some f.d.toNat) (tileMode f) noXyz s
def execTmaxs (c : CoreId) (f : Fields) (s : State) := tileIssue c f (Fields.legalTile f false) [] .tmaxs (some f.d.toNat) (tileMode f) noXyz s

/-- TLD, TST: a tile and 4,096 B of scratch at s A. -/
def execTld (c : CoreId) (f : Fields) (s : State) : Host.Outcome State Fault Refusal :=
  tileIssue c f (f.legalR 16 32 0 0 false [] 0) [f.a.toNat] .tld none (fun k => k.scratchExc (k.sr f.a.toNat).toNat 4096 64)
    (fun k => (k.sr f.a.toNat, 0, 0)) s
def execTst (c : CoreId) (f : Fields) (s : State) : Host.Outcome State Fault Refusal :=
  tileIssue c f (f.legalR 16 32 0 0 false [] 0) [f.a.toNat] .tst none (fun k => k.scratchExc (k.sr f.a.toNat).toNat 4096 64)
    (fun k => (k.sr f.a.toNat, 0, 0)) s
def execTzero (c : CoreId) (f : Fields) (s : State) : Host.Outcome State Fault Refusal :=
  tileIssue c f (f.legalR 16 0 0 0 false [] 0) [] .tzero none noPre noXyz s
def execTtr8 (c : CoreId) (f : Fields) (s : State) : Host.Outcome State Fault Refusal :=
  tileIssue c f (f.legalR 16 16 0 0 false [] 0) [] .ttr8 none noPre noXyz s

/-! ### Accumulators -/

/-- ACCMODE waits for queued instructions that name an accumulator, then switches mode and L and clears them all (R153,
R199, R209). -/
def execAccmode (c : CoreId) (f : Fields) (s : State) : Host.Outcome State Fault Refusal :=
  s.goes (s.dev.issue c (f.legalRI false 0 0) [] [] fun d k =>
    if (k.tileQ ++ k.topQ).any fun x => !x.accUse.isEmpty then s.dev
    else d.setCore c { k.next with exact := f.mod.getLsbD 8, accL := (f.mod.extractLsb' 0 8).toInt, accF := [], accX := [] })

def execAcczero (c : CoreId) (f : Fields) (s : State) : Host.Outcome State Fault Refusal :=
  tileIssue c f (f.legalR 4 0 0 0 false [] 0) [] .acczero (some f.d.toNat) noPre noXyz s

/-- Bytes of one row of 64 elements in FMT, and of the scales that follow the rows. -/
def accRowBytes (fmt : Nat) : Nat := 64 * fmtWidth fmt / 8
def accScaleBytes (fmt : Nat) : Nat := if mxRegs fmt = 0 then 0 else 128

/-- A strided scratch range of 64 rows: ALIGN for an offset or stride that is no multiple of 64 B, then SCRATCH. -/
def Core.rowsExc (k : Core) (o stride row tail : Nat) : Option Nat :=
  if o % 64 ≠ 0 || stride % 64 ≠ 0 then some 0x03
  else if k.scratchSize < o + 63 * stride + row || (tail ≠ 0 && k.scratchSize < o + 64 * stride + tail) then some 0x07
  else none

/-- ACCST: acc A to scratch at s B, row stride s C, in FMT, MOD[4] SAT. -/
def execAccst (c : CoreId) (f : Fields) (s : State) : Host.Outcome State Fault Refusal :=
  tileIssue c f (f.legalR 0 4 32 32 false [0, 1, 2, 3, 4, 5, 6, 7, 8, 9, 10, 11, 12, 13, 14] 0x10) [f.b.toNat, f.c.toNat] .accst
    (some f.a.toNat)
    (fun k => k.rowsExc (k.sr f.b.toNat).toNat (k.sr f.c.toNat).toNat (accRowBytes f.fmt.toNat) (accScaleBytes f.fmt.toNat))
    (fun k => (k.sr f.b.toNat, k.sr f.c.toNat, 0)) s

/-- ACCLD: acc D from FP32 rows at scratch s A, stride s B, in FP32 mode. -/
def execAccld (c : CoreId) (f : Fields) (s : State) : Host.Outcome State Fault Refusal :=
  tileIssue c f (f.legalR 4 32 32 0 false [] 0) [f.a.toNat, f.b.toNat] .accld (some f.d.toNat)
    (fun k => if k.exact then some 0x08 else k.rowsExc (k.sr f.a.toNat).toNat (k.sr f.b.toNat).toNat 256 0)
    (fun k => (k.sr f.a.toNat, k.sr f.b.toNat, 0)) s

/-- Size of an accumulator image: 64 KiB in exact mode, 16 KiB in FP32 mode (R204). -/
def Core.imageSize (k : Core) : Nat := if k.exact then 65536 else 16384

/-- ACCSAVE: acc A to scratch at s B (notes/assumptions 31). -/
def execAccsave (c : CoreId) (f : Fields) (s : State) : Host.Outcome State Fault Refusal :=
  tileIssue c f (f.legalR 0 4 32 0 false [] 0) [f.b.toNat] .accsave (some f.a.toNat)
    (fun k => k.scratchExc (k.sr f.b.toNat).toNat k.imageSize 64) (fun k => (k.sr f.b.toNat, 0, 0)) s

/-- ACCRESTORE: acc D from an exact image at scratch s A; MODE in FP32 mode, where ACCLD takes what ACCSAVE wrote (R204;
notes/assumptions 31). -/
def execAccrestore (c : CoreId) (f : Fields) (s : State) : Host.Outcome State Fault Refusal :=
  tileIssue c f (f.legalR 4 32 0 0 false [] 0) [f.a.toNat] .accrestore (some f.d.toNat)
    (fun k => if k.exact then k.scratchExc (k.sr f.a.toNat).toNat 65536 64 else some 0x08) (fun k => (k.sr f.a.toNat, 0, 0)) s

/-- ACCMRG: an exact image at scratch s A into acc D. -/
def execAccmrg (c : CoreId) (f : Fields) (s : State) : Host.Outcome State Fault Refusal :=
  tileIssue c f (f.legalR 4 32 0 0 false [] 0) [f.a.toNat] .accmrg (some f.d.toNat)
    (fun k => if k.exact then k.scratchExc (k.sr f.a.toNat).toNat 65536 64 else some 0x08) (fun k => (k.sr f.a.toNat, 0, 0)) s

/-! ### Effects -/

/-- Inner length of one tile pair (Table 6.3). -/
def innerLen (fmt : Nat) : Nat := 512 / fmtWidth fmt

/-- Scale byte of block m of row i in a register group: byte b × i + m, b blocks a row (R198). -/
def Core.scaleByte (k : Core) (start fmt i m : Nat) : Nat :=
  let n := mxRegs fmt * i + m
  Sector.lane (k.vr (start + n / 64)) 8 (n % 64)

/-- Decoded element kk of row i of a tile, its MX scale applied. -/
def Core.tileElem (k : Core) (t start fmt i kk : Nat) : Val :=
  let bits := Sector.lane (k.tileRow t i) (fmtWidth fmt) kk
  if mxRegs fmt = 0 then fmtDecode fmt bits
  else match fmtFloat fmt with
    | some F => mxValue F (k.scaleByte start fmt i (kk / 32)) bits
    | none => .nan

/-- The term of Table 6.4. -/
def tileTerm (op : UnitOp) (a b : Val) : Val :=
  match op with
  | .tl2 => (a.sub b).mul (a.sub b)
  | .tl1 => (a.sub b).abs
  | .tham => if a.eqv b then Val.zero else Val.ofInt 1
  | .tmins => a.min b
  | .tmaxs => a.max b
  | _ => a.mul b

/-- Terms of element (i, j), by inner position. -/
def Core.tileTerms (k : Core) (q : Queued) (i j : Nat) : List Val :=
  let fmt := q.f.fmt.toNat
  (List.range (innerLen fmt)).map fun kk =>
    tileTerm q.op (k.tileElem q.f.a.toNat q.f.c.toNat fmt i kk) (k.tileElem q.f.b.toNat (q.f.mod.toNat % 64) fmt j kk)

/-- The exact sum of FP32 mode; zero terms sum to +0 (R197). -/
def exactSum (ts : List Val) : Val := ts.foldl Val.add Val.zero

/-- A change of every element of an accumulator. -/
def Core.accAll (k : Core) (g : Core → Nat → Nat → Core) : Core := (List.range 4096).foldl (fun y e => g y (e / 64) (e % 64)) k

/-- Effect of a tile multiply-accumulate or distance: one rounding in FP32 mode, each term on its own in exact mode
(R197, R200). -/
def Core.tileAcc (k : Core) (q : Queued) : Core :=
  let n := q.f.d.toNat
  let z := q.f.mod.getLsbD 6
  if k.exact then
    k.accAll fun y i j =>
      y.setAccX n i j ((k.tileTerms q i j).foldl (Exact.addVal k.accL) (if z then .zero else k.accXAt n i j))
  else
    k.accAll fun y i j =>
      let old := if z then Val.zero else FloatFmt.fp32.decode (k.accAt n i j).toNat
      y.setAcc n i j (BitVec.ofNat 32 (FloatFmt.fp32.round false (old.add (exactSum (k.tileTerms q i j)))))

/-- Element (i, j) of an accumulator as FP32, by IEEE-RNE: a NaN becomes the canonical one (R185, R201, R208). -/
def Core.accFp32 (k : Core) (n i j : Nat) : Nat :=
  if k.exact then (k.accXAt n i j).convert .fp32 false k.accL 1 else FloatFmt.fp32.round false (FloatFmt.fp32.decode (k.accAt n i j).toNat)

/-- Element (i, j) converted into FMT. -/
def Core.accConvert (k : Core) (n fmt : Nat) (sat : Bool) (i j : Nat) : Nat :=
  if k.exact then
    match fmtFloat fmt with
    | some F => (k.accXAt n i j).convert F sat k.accL 1
    | none => fmtEncode fmt sat false ((k.accXAt n i j).value k.accL)
  else fmtEncode fmt sat false (FloatFmt.fp32.decode (k.accAt n i j).toNat)

/-- Elements of one row packed from the lowest bit. -/
def packRow (w : Nat) (xs : List Nat) : Nat := xs.foldr (fun x r => x % 2 ^ w + 2 ^ w * r) 0

/-- One row in FMT: its bytes, and its scale bytes for an MX format (R188). -/
def Core.accRow (k : Core) (n fmt : Nat) (sat : Bool) (i : Nat) : List Byte × List Byte :=
  if mxRegs fmt = 0 then
    (leBytes (accRowBytes fmt) (packRow (fmtWidth fmt) ((List.range 64).map fun j => k.accConvert n fmt sat i j)), [])
  else match fmtFloat fmt with
    | some F =>
      let blk (m : Nat) : Nat × List Nat := mxEncode F ((List.range 32).map fun j => FloatFmt.fp32.decode (k.accFp32 n i (32 * m + j)))
      (leBytes (accRowBytes fmt) (packRow (fmtWidth fmt) ((blk 0).2 ++ (blk 1).2)), leBytes 1 (blk 0).1 ++ leBytes 1 (blk 1).1)
    | none => ([], [])

def Core.accStore (k : Core) (q : Queued) : Core :=
  let fmt := q.f.fmt.toNat
  let o := q.x.toNat
  let stride := q.y.toNat
  let row (i : Nat) : List Byte × List Byte := k.accRow q.f.a.toNat fmt (q.f.mod.getLsbD 4) i
  let k1 := (List.range 64).foldl (fun (y : Core) i => y.putScratch (o + stride * i) (row i).1) k
  k1.putScratch (o + 64 * stride) ((List.range 64).flatMap fun i => (row i).2)

/-- Byte offset of element (i, j) of an image. -/
def imageAt (w i j : Nat) : Nat := w * (64 * i + j)

def Core.accSave (k : Core) (q : Queued) : Core :=
  let n := q.f.a.toNat
  let o := q.x.toNat
  if k.exact then k.accAll fun y i j => y.putScratch (o + imageAt 16 i j) (leBytes 16 ((k.accXAt n i j).image k.accL).toNat)
  else k.accAll fun y i j => y.putScratch (o + imageAt 4 i j) (leBytes 4 (k.accAt n i j).toNat)

def Core.imageElem (k : Core) (o i j : Nat) : BitVec 128 := BitVec.ofNat 128 (k.scratchNat (o + imageAt 16 i j) 16)

def Core.accRestore (k : Core) (q : Queued) : Core :=
  let n := q.f.d.toNat
  let o := q.x.toNat
  k.accAll fun y i j => y.setAccX n i j (Exact.ofImage (k.imageElem o i j))

/-- An image of another L sets NAN in every element (R204). -/
def Core.accMerge (k : Core) (q : Queued) : Core :=
  let n := q.f.d.toNat
  let o := q.x.toNat
  let differs := (List.range 4096).any fun e => decide (Exact.imageL (k.imageElem o (e / 64) (e % 64)) ≠ k.accL)
  k.accAll fun y i j =>
    let x := k.accXAt n i j
    y.setAccX n i j (if differs then { x with nan := true } else x.merge (Exact.ofImage (k.imageElem o i j)))

/-- Effect of the instruction at the head of the tile unit. -/
def Core.tileRun (k : Core) (q : Queued) : Core :=
  let d := q.f.d.toNat
  match q.op with
  | .tmma | .tl2 | .tl1 | .tham | .tmins | .tmaxs => k.tileAcc q
  | .tld => (List.range 64).foldl (fun (y : Core) r => y.setTileRow d r (k.scratchSector (q.x.toNat + 64 * r))) k
  | .tst => (List.range 64).foldl (fun (y : Core) r => y.putScratch (q.x.toNat + 64 * r) (Sector.bytes (k.tileRow d r))) k
  | .tzero => (List.range 64).foldl (fun (y : Core) r => y.setTileRow d r 0) k
  | .ttr8 =>
    (List.range 64).foldl (fun (y : Core) r => y.setTileRow d r (ofLanes 8 fun j => Sector.lane (k.tileRow q.f.a.toNat j) 8 r)) k
  | .acczero => k.accAll fun y i j => if k.exact then y.setAccX d i j .zero else y.setAcc d i j 0
  | .accst => k.accStore q
  | .accld =>
    k.accAll fun y i j => y.setAcc d i j (BitVec.ofNat 32 (k.scratchNat (q.x.toNat + q.y.toNat * i + 4 * j) 4))
  | .accsave => k.accSave q
  | .accrestore => k.accRestore q
  | .accmrg => k.accMerge q
  | _ => k

/-- The oldest instruction of the tile unit ends. A unit that waits for its restart after a throttle does nothing (R69). -/
def Dev.tileEnd (d : Dev) (c : Nat) : Dev :=
  let k := d.core c
  if (d.qr (quarterOfCore c)).restart.contains c then d
  else
    match k.tileQ with
    | [] => d
    | q :: rest =>
      let d1 := d.setCore c ({ k with tileQ := rest }.tileRun q)
      if k.status = .running then d1 else d1.coreDone c

/-- TILE_UNIT_COMPLETE. -/
def execTileUnitComplete (c : CoreId) (s : State) : Host.Outcome State Fault Refusal := s.goes (s.dev.tileEnd c.val)

end Sys2Proof.Machine
end

