-- ==== Sys2Proof/Machine/TopK.lean ====
section
/-! DEFINITION. The top-k unit, class 0x9 (R152, R205-R209): its queue of two, the total order of candidates, the lists.
Where the manual states no result for an operand (a row beyond 63, a list number of L_k or more), the value used is free
(notes/assumptions 32). -/

namespace Sys2Proof.Machine

/-! ### Order of candidates (R206) -/

/-- Key a ranks before key b in the list's direction; F32 NaN ranks last in either. -/
def keyBefore (desc : Bool) (ty : Nat) (a b : Word32) : Bool :=
  if ty = 0 then
    let x := FloatFmt.fp32.decode a.toNat
    let y := FloatFmt.fp32.decode b.toNat
    if x.isNan then false else if y.isNan then true else if desc then y.lt x else x.lt y
  else if ty = 1 then (if desc then b.ult a else a.ult b)
  else if desc then b.slt a else a.slt b

/-- Entry x ranks before y: by key, then the lower ID. Entries that rank equal and differ in key bits (zeros of both signs,
NaNs) stand in the order of those bits, so that a list does not show the order of its pushes (R207; notes/assumptions 152). -/
def TkEntry.before (desc : Bool) (ty : Nat) (x y : TkEntry) : Bool :=
  if keyBefore desc ty x.key y.key then true
  else if keyBefore desc ty y.key x.key then false
  else x.id.ult y.id || (x.id = y.id && x.key.ult y.key)

/-- Insertion behind every entry that does not rank after it. -/
def tkInsert (desc : Bool) (ty : Nat) (x : TkEntry) : List TkEntry → List TkEntry
  | [] => [x]
  | y :: ys => if x.before desc ty y then x :: y :: ys else y :: tkInsert desc ty x ys

/-- A push keeps the best k. -/
def Core.tkPush1 (k : Core) (list : Nat) (x : TkEntry) : Core :=
  { k with tkLists := Map.put k.tkLists list ((tkInsert k.tkDesc k.tkKey x (Map.get [] k.tkLists list)).take k.tkK) }

/-- An entry in scratch (Table 6.8). -/
def TkEntry.bytes (x : TkEntry) : List Byte := leBytes 4 x.key.toNat ++ leBytes 4 0 ++ leBytes 8 x.id.toNat
def Core.entryAt (k : Core) (o : Nat) : TkEntry :=
  { id := BitVec.ofNat 64 (k.scratchNat (o + 8) 8), key := BitVec.ofNat 32 (k.scratchNat o 4) }

/-! ### Issue -/

/-- Issue of a top-k instruction: exceptions first, then a stall on a full queue, or on an accumulator that the tile unit
still writes (R152, R209). -/
def topIssue (c : CoreId) (f : Fields) (legal : Bool) (ss : List Nat) (op : UnitOp) (acc : Option Nat)
    (pre : Core → Option Nat) (xyz : Core → Word64 × Word64 × Word64) (s : State) : Host.Outcome State Fault Refusal :=
  s.goes (s.dev.issue c legal ss [] fun d k =>
    let missing : Bool := match acc with
      | some n => k.accMissing n
      | none => false
    if missing then d.raise c 0x08 0
    else match pre k with
      | some e => d.raise c e 0
      | none =>
        let held : Bool := match acc with
          | some n => k.tileQ.any fun x => x.accWrite.contains n
          | none => false
        if held || decide (2 ≤ k.topQ.length) then s.dev
        else
          let (x, y, z) := xyz k
          d.setCore c { k.next with topQ := k.topQ ++ [{ op := op, f := f, x := x, y := y, z := z }] })

/-- k of the lists that an instruction issued now will meet. -/
def Core.tkKAhead (k : Core) : Nat :=
  match (k.topQ.filter fun q => q.op = .tkinit).getLast? with
  | some q => q.x.toNat
  | none => k.tkK

/-- TKINIT: the limits of R205 are checked at issue. -/
def execTkinit (c : CoreId) (f : Fields) (s : State) : Host.Outcome State Fault Refusal :=
  topIssue c f (f.legalR 0 32 32 0 false [] 7 && decide (f.mod.toNat / 2 % 4 ≠ 3)) [f.a.toNat, f.b.toNat] .tkinit none
    (fun k =>
      let n := (k.sr f.a.toNat).toNat
      let l := (k.sr f.b.toNat).toNat
      if 1 ≤ n && n ≤ 1024 && 1 ≤ l && l ≤ 64 && n * l ≤ 1024 then none else some 0x01)
    (fun k => (k.sr f.a.toNat, k.sr f.b.toNat, 0)) s

/-- TKPUSH: row s B of acc A, IDs from s C. -/
def execTkpush (c : CoreId) (f : Fields) (s : State) : Host.Outcome State Fault Refusal :=
  topIssue c f (f.legalR 0 4 32 32 false [] 0) [f.b.toNat, f.c.toNat] .tkpush (some f.a.toNat) noPre
    (fun k => (k.sr f.b.toNat, k.sr f.c.toNat, 0)) s

/-- TKPUSHS: s B entries at scratch s A into list s C. -/
def execTkpushs (c : CoreId) (f : Fields) (s : State) : Host.Outcome State Fault Refusal :=
  topIssue c f (f.legalR 0 32 32 32 false [] 0) [f.a.toNat, f.b.toNat, f.c.toNat] .tkpushs none
    (fun k => k.scratchExc (k.sr f.a.toNat).toNat (16 * (k.sr f.b.toNat).toNat) 16)
    (fun k => (k.sr f.a.toNat, k.sr f.b.toNat, k.sr f.c.toNat)) s

/-- TKOUT: list s B to scratch s A, whose range is checked for k entries; s D takes the entry count. -/
def execTkout (c : CoreId) (f : Fields) (s : State) : Host.Outcome State Fault Refusal :=
  topIssue c f (f.legalR 32 32 32 0 false [] 0) [f.d.toNat, f.a.toNat, f.b.toNat] .tkout none
    (fun k => k.scratchExc (k.sr f.a.toNat).toNat (16 * k.tkKAhead) 16)
    (fun k => (k.sr f.a.toNat, k.sr f.b.toNat, 0)) s

/-! ### Effects -/

/-- A list number: free when the lists do not have it. -/
def Dev.tkList (d : Dev) (l : Nat) (n : Nat) : Nat × Dev :=
  if n < l then (n, d)
  else
    let (w, e) := d.freeWord
    (w.toNat % l, e)

/-- Key of element j of row i of an accumulator: free beyond row 63. -/
def Dev.tkKeyOf (d : Dev) (k : Core) (n i j : Nat) : Word32 × Dev :=
  if i < 64 then (BitVec.ofNat 32 (k.accFp32 n i j), d)
  else
    let (w, e) := d.freeWord
    (w.extractLsb' 0 32, e)

/-- Effect of the instruction at the head of the top-k unit, at a core whose queue it has left. -/
def Dev.topRun (d : Dev) (c : Nat) (q : Queued) : Dev :=
  let k := d.core c
  match q.op with
  | .tkinit =>
    d.setCore c { k with tkK := q.x.toNat, tkL := q.y.toNat, tkDesc := q.f.mod.getLsbD 0, tkKey := q.f.mod.toNat / 2 % 4, tkLists := [] }
  | .tkpush =>
    let row := q.x.toNat
    (List.range 64).foldl (fun (e : Dev) j =>
      let (key, e1) := e.tkKeyOf k q.f.a.toNat row j
      e1.updCore c fun y => y.tkPush1 (row % y.tkL) { id := q.y + BitVec.ofNat 64 j, key := key }) d
  | .tkpushs =>
    let (list, d1) := d.tkList k.tkL q.z.toNat
    (List.range q.y.toNat).foldl (fun (e : Dev) i =>
      e.updCore c fun y => y.tkPush1 list (k.entryAt (q.x.toNat + 16 * i))) d1
  | .tkout =>
    let (list, d1) := d.tkList k.tkL q.y.toNat
    let es := Map.get [] k.tkLists list
    d1.updCore c fun y =>
      ({ y with tkLists := Map.put y.tkLists list [] }.putScratch q.x.toNat (es.flatMap TkEntry.bytes)).setS q.f.d.toNat
        (BitVec.ofNat 64 es.length)
  | _ => d

/-- TOPK_UNIT_COMPLETE: the oldest instruction of the top-k unit ends. -/
def execTopkUnitComplete (c : CoreId) (s : State) : Host.Outcome State Fault Refusal :=
  let k := s.dev.core c
  match k.topQ with
  | [] => s.goes s.dev
  | q :: rest =>
    let d := (s.dev.setCore c { k with topQ := rest }).topRun c q
    s.goes (if k.status = .running then d else d.coreDone c)

end Sys2Proof.Machine
end

