-- ==== Sys2Proof/Machine/Dispatch.lean ====
section
/-! DEFINITION. One arm per command, each one direct call of its meaning. -/

namespace Sys2Proof.Machine

/-- The command's effect on everything but the queue. -/
def exec (i : Instr) (s : State) : Host.Outcome State Fault Refusal :=
  match i with
  | .canaryReadRound q margins rate => Sys2Proof.Machine.execCanaryReadRound q margins rate s
  | .canaryFail q g n suspects reads bad => Sys2Proof.Machine.execCanaryFail q g n suspects reads bad s
  | .marginDeadline q => Sys2Proof.Machine.execMarginDeadline q s
  | .issueGateDouble q => Sys2Proof.Machine.execIssueGateDouble q s
  | .replanInterval q => Sys2Proof.Machine.execReplanInterval q s
  | .voltStepSettle q measured => Sys2Proof.Machine.execVoltStepSettle q measured s
  | .powerLimiterWindow avg => Sys2Proof.Machine.execPowerLimiterWindow avg s
  | .ageingBeyondRating q => Sys2Proof.Machine.execAgeingBeyondRating q s
  | .refclkLost q => Sys2Proof.Machine.execRefclkLost q s
  | .refclkReturn q => Sys2Proof.Machine.execRefclkReturn q s
  | .vreqRepeat => Sys2Proof.Machine.execVreqRepeat s
  | .launchStaggerWindow q => Sys2Proof.Machine.execLaunchStaggerWindow q s
  | .tableDefine d h => Sys2Proof.Machine.execTableDefine d h s
  | .tableRetire d => Sys2Proof.Machine.execTableRetire d s
  | .gather d n h => Sys2Proof.Machine.execGather d n h s
  | .shardLoadFlush g => Sys2Proof.Machine.execShardLoadFlush g s
  | .carafeRefresh d n h => Sys2Proof.Machine.execCarafeRefresh d n h s
  | .sketchDecay d => Sys2Proof.Machine.execSketchDecay d s
  | .shardLoad d => Sys2Proof.Machine.execShardLoad d s
  | .sketchRead d h => Sys2Proof.Machine.execSketchRead d h s
  | .tableRead d h => Sys2Proof.Machine.execTableRead d h s
  | .epochOpen d => Sys2Proof.Machine.execEpochOpen d s
  | .epochAdvance t => Sys2Proof.Machine.execEpochAdvance t s
  | .epochWaitLimit m => Sys2Proof.Machine.execEpochWaitLimit m s
  | .update d h => Sys2Proof.Machine.execUpdate d h s
  | .determStepLimit t step => Sys2Proof.Machine.execDetermStepLimit t step s
  | .determPeers d h => Sys2Proof.Machine.execDetermPeers d h s
  | .migrate d h => Sys2Proof.Machine.execMigrate d h s
  | .waitingCremaResume d => Sys2Proof.Machine.execWaitingCremaResume d s
  | .migrationCommit t row h => Sys2Proof.Machine.execMigrationCommit t row h s
  | .guestAttach d => Sys2Proof.Machine.execGuestAttach d s
  | .guestDetach d => Sys2Proof.Machine.execGuestDetach d s
  | .kernel d h => Sys2Proof.Machine.execKernel d h s
  | .teamStart d h => Sys2Proof.Machine.execTeamStart d h s
  | .coreRetire id => Sys2Proof.Machine.execCoreRetire id s
  | .storeBufferDrain c => Sys2Proof.Machine.execStoreBufferDrain c s
  | .tileUnitComplete c => Sys2Proof.Machine.execTileUnitComplete c s
  | .add c f => Sys2Proof.Machine.execAdd c f s
  | .sub c f => Sys2Proof.Machine.execSub c f s
  | .mul c f => Sys2Proof.Machine.execMul c f s
  | .mulh c f => Sys2Proof.Machine.execMulh c f s
  | .mulhu c f => Sys2Proof.Machine.execMulhu c f s
  | .div c f => Sys2Proof.Machine.execDiv c f s
  | .divu c f => Sys2Proof.Machine.execDivu c f s
  | .rem c f => Sys2Proof.Machine.execRem c f s
  | .remu c f => Sys2Proof.Machine.execRemu c f s
  | .and c f => Sys2Proof.Machine.execAnd c f s
  | .or c f => Sys2Proof.Machine.execOr c f s
  | .xor c f => Sys2Proof.Machine.execXor c f s
  | .shl c f => Sys2Proof.Machine.execShl c f s
  | .shr c f => Sys2Proof.Machine.execShr c f s
  | .sar c f => Sys2Proof.Machine.execSar c f s
  | .min c f => Sys2Proof.Machine.execMin c f s
  | .max c f => Sys2Proof.Machine.execMax c f s
  | .minu c f => Sys2Proof.Machine.execMinu c f s
  | .maxu c f => Sys2Proof.Machine.execMaxu c f s
  | .cmpeq c f => Sys2Proof.Machine.execCmpeq c f s
  | .cmplt c f => Sys2Proof.Machine.execCmplt c f s
  | .cmpltu c f => Sys2Proof.Machine.execCmpltu c f s
  | .popc c f => Sys2Proof.Machine.execPopc c f s
  | .clz c f => Sys2Proof.Machine.execClz c f s
  | .ctz c f => Sys2Proof.Machine.execCtz c f s
  | .li c f => Sys2Proof.Machine.execLi c f s
  | .lih c f => Sys2Proof.Machine.execLih c f s
  | .aadd c f => Sys2Proof.Machine.execAadd c f s
  | .aaddi c f => Sys2Proof.Machine.execAaddi c f s
  | .amovs c f => Sys2Proof.Machine.execAmovs c f s
  | .smova c f => Sys2Proof.Machine.execSmova c f s
  | .aseg c f => Sys2Proof.Machine.execAseg c f s
  | .fadd c f => Sys2Proof.Machine.execFadd c f s
  | .fsub c f => Sys2Proof.Machine.execFsub c f s
  | .fmul c f => Sys2Proof.Machine.execFmul c f s
  | .fdiv c f => Sys2Proof.Machine.execFdiv c f s
  | .fsqrt c f => Sys2Proof.Machine.execFsqrt c f s
  | .fma c f => Sys2Proof.Machine.execFma c f s
  | .fmin c f => Sys2Proof.Machine.execFmin c f s
  | .fmax c f => Sys2Proof.Machine.execFmax c f s
  | .fcmpeq c f => Sys2Proof.Machine.execFcmpeq c f s
  | .fcmplt c f => Sys2Proof.Machine.execFcmplt c f s
  | .fcmple c f => Sys2Proof.Machine.execFcmple c f s
  | .fcvtfi c f => Sys2Proof.Machine.execFcvtfi c f s
  | .fcvtif c f => Sys2Proof.Machine.execFcvtif c f s
  | .j c f => Sys2Proof.Machine.execJ c f s
  | .call c f => Sys2Proof.Machine.execCall c f s
  | .jr c f => Sys2Proof.Machine.execJr c f s
  | .bz c f => Sys2Proof.Machine.execBz c f s
  | .bnz c f => Sys2Proof.Machine.execBnz c f s
  | .bpany c f => Sys2Proof.Machine.execBpany c f s
  | .endK c f => Sys2Proof.Machine.execEndK c f s
  | .drain c f => Sys2Proof.Machine.execDrain c f s
  | .waitm c f => Sys2Proof.Machine.execWaitm c f s
  | .tbar c f => Sys2Proof.Machine.execTbar c f s
  | .brk c f => Sys2Proof.Machine.execBrk c f s
  | .waits c f => Sys2Proof.Machine.execWaits c f s
  | .nop c f => Sys2Proof.Machine.execNop c f s
  | .rdref c f => Sys2Proof.Machine.execRdref c f s
  | .rdwave c f => Sys2Proof.Machine.execRdwave c f s
  | .ld8 c f => Sys2Proof.Machine.execLd8 c f s
  | .ld16 c f => Sys2Proof.Machine.execLd16 c f s
  | .ld32 c f => Sys2Proof.Machine.execLd32 c f s
  | .ld64 c f => Sys2Proof.Machine.execLd64 c f s
  | .lds8 c f => Sys2Proof.Machine.execLds8 c f s
  | .lds16 c f => Sys2Proof.Machine.execLds16 c f s
  | .lds32 c f => Sys2Proof.Machine.execLds32 c f s
  | .st8 c f => Sys2Proof.Machine.execSt8 c f s
  | .st16 c f => Sys2Proof.Machine.execSt16 c f s
  | .st32 c f => Sys2Proof.Machine.execSt32 c f s
  | .st64 c f => Sys2Proof.Machine.execSt64 c f s
  | .vld c f => Sys2Proof.Machine.execVld c f s
  | .vst c f => Sys2Proof.Machine.execVst c f s
  | .vlds c f => Sys2Proof.Machine.execVlds c f s
  | .vsts c f => Sys2Proof.Machine.execVsts c f s
  | .sld64 c f => Sys2Proof.Machine.execSld64 c f s
  | .sst64 c f => Sys2Proof.Machine.execSst64 c f s
  | .amo c f => Sys2Proof.Machine.execAmo c f s
  | .vadd c f => Sys2Proof.Machine.execVadd c f s
  | .vsub c f => Sys2Proof.Machine.execVsub c f s
  | .vmul c f => Sys2Proof.Machine.execVmul c f s
  | .vmulh c f => Sys2Proof.Machine.execVmulh c f s
  | .vmin c f => Sys2Proof.Machine.execVmin c f s
  | .vmax c f => Sys2Proof.Machine.execVmax c f s
  | .vminu c f => Sys2Proof.Machine.execVminu c f s
  | .vmaxu c f => Sys2Proof.Machine.execVmaxu c f s
  | .vand c f => Sys2Proof.Machine.execVand c f s
  | .vor c f => Sys2Proof.Machine.execVor c f s
  | .vxor c f => Sys2Proof.Machine.execVxor c f s
  | .vshl c f => Sys2Proof.Machine.execVshl c f s
  | .vshr c f => Sys2Proof.Machine.execVshr c f s
  | .vsar c f => Sys2Proof.Machine.execVsar c f s
  | .vpopc c f => Sys2Proof.Machine.execVpopc c f s
  | .vabsd c f => Sys2Proof.Machine.execVabsd c f s
  | .vadds c f => Sys2Proof.Machine.execVadds c f s
  | .vsubs c f => Sys2Proof.Machine.execVsubs c f s
  | .vcmpeq c f => Sys2Proof.Machine.execVcmpeq c f s
  | .vcmplt c f => Sys2Proof.Machine.execVcmplt c f s
  | .vcmpltu c f => Sys2Proof.Machine.execVcmpltu c f s
  | .vfadd c f => Sys2Proof.Machine.execVfadd c f s
  | .vfsub c f => Sys2Proof.Machine.execVfsub c f s
  | .vfmul c f => Sys2Proof.Machine.execVfmul c f s
  | .vfdiv c f => Sys2Proof.Machine.execVfdiv c f s
  | .vfsqrt c f => Sys2Proof.Machine.execVfsqrt c f s
  | .vfma c f => Sys2Proof.Machine.execVfma c f s
  | .vfmin c f => Sys2Proof.Machine.execVfmin c f s
  | .vfmax c f => Sys2Proof.Machine.execVfmax c f s
  | .vfcmpeq c f => Sys2Proof.Machine.execVfcmpeq c f s
  | .vfcmplt c f => Sys2Proof.Machine.execVfcmplt c f s
  | .vfcmple c f => Sys2Proof.Machine.execVfcmple c f s
  | .vfabs c f => Sys2Proof.Machine.execVfabs c f s
  | .vfneg c f => Sys2Proof.Machine.execVfneg c f s
  | .vcvt c f => Sys2Proof.Machine.execVcvt c f s
  | .vmxenc c f => Sys2Proof.Machine.execVmxenc c f s
  | .vmxdec c f => Sys2Proof.Machine.execVmxdec c f s
  | .vperm c f => Sys2Proof.Machine.execVperm c f s
  | .vbcast c f => Sys2Proof.Machine.execVbcast c f s
  | .vext c f => Sys2Proof.Machine.execVext c f s
  | .vins c f => Sys2Proof.Machine.execVins c f s
  | .vredadd c f => Sys2Proof.Machine.execVredadd c f s
  | .vredmin c f => Sys2Proof.Machine.execVredmin c f s
  | .vredmax c f => Sys2Proof.Machine.execVredmax c f s
  | .vsel c f => Sys2Proof.Machine.execVsel c f s
  | .tmma c f => Sys2Proof.Machine.execTmma c f s
  | .tl2 c f => Sys2Proof.Machine.execTl2 c f s
  | .tl1 c f => Sys2Proof.Machine.execTl1 c f s
  | .tham c f => Sys2Proof.Machine.execTham c f s
  | .tmins c f => Sys2Proof.Machine.execTmins c f s
  | .tmaxs c f => Sys2Proof.Machine.execTmaxs c f s
  | .tld c f => Sys2Proof.Machine.execTld c f s
  | .tst c f => Sys2Proof.Machine.execTst c f s
  | .tzero c f => Sys2Proof.Machine.execTzero c f s
  | .ttr8 c f => Sys2Proof.Machine.execTtr8 c f s
  | .accmode c f => Sys2Proof.Machine.execAccmode c f s
  | .acczero c f => Sys2Proof.Machine.execAcczero c f s
  | .accst c f => Sys2Proof.Machine.execAccst c f s
  | .accld c f => Sys2Proof.Machine.execAccld c f s
  | .accsave c f => Sys2Proof.Machine.execAccsave c f s
  | .accrestore c f => Sys2Proof.Machine.execAccrestore c f s
  | .accmrg c f => Sys2Proof.Machine.execAccmrg c f s
  | .tkinit c f => Sys2Proof.Machine.execTkinit c f s
  | .tkpush c f => Sys2Proof.Machine.execTkpush c f s
  | .tkpushs c f => Sys2Proof.Machine.execTkpushs c f s
  | .tkout c f => Sys2Proof.Machine.execTkout c f s
  | .sfill c f => Sys2Proof.Machine.execSfill c f s
  | .sdump c f => Sys2Proof.Machine.execSdump c f s
  | .gsub c f => Sys2Proof.Machine.execGsub c f s
  | .pand c f => Sys2Proof.Machine.execPand c f s
  | .por c f => Sys2Proof.Machine.execPor c f s
  | .pxor c f => Sys2Proof.Machine.execPxor c f s
  | .pnot c f => Sys2Proof.Machine.execPnot c f s
  | .pfroms c f => Sys2Proof.Machine.execPfroms c f s
  | .ptos c f => Sys2Proof.Machine.execPtos c f s
  | .pcnt c f => Sys2Proof.Machine.execPcnt c f s
  | .rdshared m => Sys2Proof.Machine.execRdshared m s
  | .rdown m => Sys2Proof.Machine.execRdown m s
  | .claim m => Sys2Proof.Machine.execClaim m s
  | .rdcurrent m => Sys2Proof.Machine.execRdcurrent m s
  | .wrfull m => Sys2Proof.Machine.execWrfull m s
  | .wrpart m => Sys2Proof.Machine.execWrpart m s
  | .evictdirty m => Sys2Proof.Machine.execEvictdirty m s
  | .evictclean m => Sys2Proof.Machine.execEvictclean m s
  | .atomic m => Sys2Proof.Machine.execAtomic m s
  | .updrow m => Sys2Proof.Machine.execUpdrow m s
  | .snpinv m => Sys2Proof.Machine.execSnpinv m s
  | .fwdshared m => Sys2Proof.Machine.execFwdshared m s
  | .fwdowned m => Sys2Proof.Machine.execFwdowned m s
  | .fwdcurrent m => Sys2Proof.Machine.execFwdcurrent m s
  | .data m => Sys2Proof.Machine.execData m s
  | .grant m => Sys2Proof.Machine.execGrant m s
  | .cmp m => Sys2Proof.Machine.execCmp m s
  | .atomrsp m => Sys2Proof.Machine.execAtomrsp m s
  | .err m => Sys2Proof.Machine.execErr m s
  | .ack m => Sys2Proof.Machine.execAck m s
  | .ackdata m => Sys2Proof.Machine.execAckdata m s
  | .fwddone m => Sys2Proof.Machine.execFwddone m s
  | .fwdmiss m => Sys2Proof.Machine.execFwdmiss m s
  | .compack m => Sys2Proof.Machine.execCompack m s
  | .memrd m => Sys2Proof.Machine.execMemrd m s
  | .memwr m => Sys2Proof.Machine.execMemwr m s
  | .memrmw m => Sys2Proof.Machine.execMemrmw m s
  | .memdata m => Sys2Proof.Machine.execMemdata m s
  | .memcmp m => Sys2Proof.Machine.execMemcmp m s
  | .holdEnd holder line => Sys2Proof.Machine.execHoldEnd holder line s
  | .requestStarved m => Sys2Proof.Machine.execRequestStarved m s
  | .memRd m => Sys2Proof.Machine.execMemRd m s
  | .memRdData m => Sys2Proof.Machine.execMemRdData m s
  | .memRdFwd m => Sys2Proof.Machine.execMemRdFwd m s
  | .memInv m => Sys2Proof.Machine.execMemInv m s
  | .memClnEvct m => Sys2Proof.Machine.execMemClnEvct m s
  | .memWr m => Sys2Proof.Machine.execMemWr m s
  | .memWrPtl m => Sys2Proof.Machine.execMemWrPtl m s
  | .memSpecRd m => Sys2Proof.Machine.execMemSpecRd m s
  | .birsp line sec a => Sys2Proof.Machine.execBirsp line sec a s
  | .biconflict m => Sys2Proof.Machine.execBiconflict m s
  | .snpInv hpa => Sys2Proof.Machine.execSnpInv hpa s
  | .snpData hpa => Sys2Proof.Machine.execSnpData hpa s
  | .snpCur hpa => Sys2Proof.Machine.execSnpCur hpa s
  | .go line sec grant data poison => Sys2Proof.Machine.execGo line sec grant data poison s
  | .goErr line sec => Sys2Proof.Machine.execGoErr line sec s
  | .cacheEnable src n => Sys2Proof.Machine.execCacheEnable src n s
  | .cacheDisable src n => Sys2Proof.Machine.execCacheDisable src n s
  | .pcmdInvalidateAll src n => Sys2Proof.Machine.execPcmdInvalidateAll src n s
  | .pcmdWritebackAll src n => Sys2Proof.Machine.execPcmdWritebackAll src n s
  | .pcmdFlushAll src n => Sys2Proof.Machine.execPcmdFlushAll src n s
  | .cacheRangeWriteback d n h => Sys2Proof.Machine.execCacheRangeWriteback d n h s
  | .cacheRangeFlush d n h => Sys2Proof.Machine.execCacheRangeFlush d n h s
  | .cacheRangeInvalidate d n h => Sys2Proof.Machine.execCacheRangeInvalidate d n h s
  | .cacheRangePrefetch d n h => Sys2Proof.Machine.execCacheRangePrefetch d n h s
  | .preloadLock d n h => Sys2Proof.Machine.execPreloadLock d n h s
  | .unlock d n h => Sys2Proof.Machine.execUnlock d n h s
  | .cacheRangeInvalidateAll d n h => Sys2Proof.Machine.execCacheRangeInvalidateAll d n h s
  | .cacheRangeWritebackAll d n h => Sys2Proof.Machine.execCacheRangeWritebackAll d n h s
  | .cacheRangeFlushAll d n h => Sys2Proof.Machine.execCacheRangeFlushAll d n h s
  | .cacheEnableWrite v => Sys2Proof.Machine.execCacheEnableWrite v s
  | .cacheCommand v => Sys2Proof.Machine.execCacheCommand v s
  | .cacheWayRestore v => Sys2Proof.Machine.execCacheWayRestore v s
  | .fence d => Sys2Proof.Machine.execFence d s
  | .segValidate src ctx seg value => Sys2Proof.Machine.execSegValidate src ctx seg value s
  | .segLimitWrite src ctx seg value => Sys2Proof.Machine.execSegLimitWrite src ctx seg value s
  | .revoke d => Sys2Proof.Machine.execRevoke d s
  | .generationBump ctx seg => Sys2Proof.Machine.execGenerationBump ctx seg s
  | .generationCopyAck ctx seg copy => Sys2Proof.Machine.execGenerationCopyAck ctx seg copy s
  | .drainMarkerAnswer ctx seg agent => Sys2Proof.Machine.execDrainMarkerAnswer ctx seg agent s
  | .qdbEnable src q value => Sys2Proof.Machine.execQdbEnable src q value s
  | .qdbDisable src q value => Sys2Proof.Machine.execQdbDisable src q value s
  | .qdoorbell src ctx q value size => Sys2Proof.Machine.execQdoorbell src ctx q value size s
  | .descriptorFetch q h => Sys2Proof.Machine.execDescriptorFetch q h s
  | .descriptorTimeout d => Sys2Proof.Machine.execDescriptorTimeout d s
  | .interimRecord d => Sys2Proof.Machine.execInterimRecord d s
  | .completionRecord d => Sys2Proof.Machine.execCompletionRecord d s
  | .copy d n h => Sys2Proof.Machine.execCopy d n h s
  | .mailboxDelivery mb => Sys2Proof.Machine.execMailboxDelivery mb s
  | .mbxWaitLimit mb => Sys2Proof.Machine.execMbxWaitLimit mb s
  | .mailboxReply mb => Sys2Proof.Machine.execMailboxReply mb s
  | .hostLinkUp ok width rate cacheId biId => Sys2Proof.Machine.execHostLinkUp ok width rate cacheId biId s
  | .linkRecovery width rate => Sys2Proof.Machine.execLinkRecovery width rate s
  | .dlDown => Sys2Proof.Machine.execDlDown s
  | .hostAnswerLimit => Sys2Proof.Machine.execHostAnswerLimit s
  | .ideFailure stream => Sys2Proof.Machine.execIdeFailure stream s
  | .ideKeyRefresh stream => Sys2Proof.Machine.execIdeKeyRefresh stream s
  | .decoderCommit decoder base size ways bi => Sys2Proof.Machine.execDecoderCommit decoder base size ways bi s
  | .cxlReset => Sys2Proof.Machine.execCxlReset s
  | .gpfPhase1 => Sys2Proof.Machine.execGpfPhase1 s
  | .gpfPhase2 => Sys2Proof.Machine.execGpfPhase2 s
  | .biasCmdDevice src value => Sys2Proof.Machine.execBiasCmdDevice src value s
  | .biasCmdShared src value => Sys2Proof.Machine.execBiasCmdShared src value s
  | .d3hotWrite => Sys2Proof.Machine.execD3hotWrite s
  | .d0Write => Sys2Proof.Machine.execD0Write s
  | .flitReceive n header words crc => Sys2Proof.Machine.execFlitReceive n header words crc s
  | .nak n fseq => Sys2Proof.Machine.execNak n fseq s
  | .retryTimeout n => Sys2Proof.Machine.execRetryTimeout n s
  | .linkRetrainLimit n => Sys2Proof.Machine.execLinkRetrainLimit n s
  | .linkUpAttempt n => Sys2Proof.Machine.execLinkUpAttempt n s
  | .capx n words => Sys2Proof.Machine.execCapx n words s
  | .lenprobe n words => Sys2Proof.Machine.execLenprobe n words s
  | .lenecho n words => Sys2Proof.Machine.execLenecho n words s
  | .lookup m => Sys2Proof.Machine.execLookup m s
  | .bkrd m => Sys2Proof.Machine.execBkrd m s
  | .lookrsp m => Sys2Proof.Machine.execLookrsp m s
  | .tarucAck m => Sys2Proof.Machine.execTarucAck m s
  | .tarucErr m => Sys2Proof.Machine.execTarucErr m s
  | .redirect m => Sys2Proof.Machine.execRedirect m s
  | .tarucUpdate m => Sys2Proof.Machine.execTarucUpdate m s
  | .stepend m => Sys2Proof.Machine.execStepend m s
  | .migcopy m => Sys2Proof.Machine.execMigcopy m s
  | .migcommit m => Sys2Proof.Machine.execMigcommit m s
  | .migabort m => Sys2Proof.Machine.execMigabort m s
  | .bkwr m => Sys2Proof.Machine.execBkwr m s
  | .bkdata m => Sys2Proof.Machine.execBkdata m s
  | .ping m => Sys2Proof.Machine.execPing m s
  | .pong m => Sys2Proof.Machine.execPong m s
  | .peerAnswerLimit txid => Sys2Proof.Machine.execPeerAnswerLimit txid s
  | .linkEnable n v => Sys2Proof.Machine.execLinkEnable n v s
  | .retrain n => Sys2Proof.Machine.execRetrain n s
  | .injectCrc n => Sys2Proof.Machine.execInjectCrc n s
  | .read => Sys2Proof.Machine.execRead s
  | .write => Sys2Proof.Machine.execWrite s
  | .discover => Sys2Proof.Machine.execDiscover s
  | .fnDatagram src dst port dport hop bytes => Sys2Proof.Machine.execFnDatagram src dst port dport hop bytes s
  | .neighbourSolicitation target => Sys2Proof.Machine.execNeighbourSolicitation target s
  | .icmpv6Echo src bytes => Sys2Proof.Machine.execIcmpv6Echo src bytes s
  | .fnLinkUp => Sys2Proof.Machine.execFnLinkUp s
  | .dictWinGo src value => Sys2Proof.Machine.execDictWinGo src value s
  | .lockoutEnd role => Sys2Proof.Machine.execLockoutEnd role s
  | .roleKeyWrite writer seq role value via => Sys2Proof.Machine.execRoleKeyWrite writer seq role value via s
  | .calendarWrite v => Sys2Proof.Machine.execCalendarWrite v s
  | .calendarAdvance => Sys2Proof.Machine.execCalendarAdvance s
  | .calendarPersist => Sys2Proof.Machine.execCalendarPersist s
  | .nvCompact => Sys2Proof.Machine.execNvCompact s
  | .restoreDefaults => Sys2Proof.Machine.execRestoreDefaults s
  | .sensorSample m => Sys2Proof.Machine.execSensorSample m s
  | .faultRaise m => Sys2Proof.Machine.execFaultRaise m s
  | .faultPulseEnd => Sys2Proof.Machine.execFaultPulseEnd s
  | .faultClear v => Sys2Proof.Machine.execFaultClear v s
  | .faultPinDrive v => Sys2Proof.Machine.execFaultPinDrive v s
  | .fltSrcClear src code => Sys2Proof.Machine.execFltSrcClear src code s
  | .faultInject src v => Sys2Proof.Machine.execFaultInject src v s
  | .watchdogHeartbeat which => Sys2Proof.Machine.execWatchdogHeartbeat which s
  | .watchdogExpiry => Sys2Proof.Machine.execWatchdogExpiry s
  | .warmReset v => Sys2Proof.Machine.execWarmReset v s
  | .isolateAgent v => Sys2Proof.Machine.execIsolateAgent v s
  | .resetSequence => Sys2Proof.Machine.execResetSequence s
  | .crit origin source info => Sys2Proof.Machine.execCrit origin source info s
  | .stopTimeout agent bound => Sys2Proof.Machine.execStopTimeout agent bound s
  | .storeDrainLimit => Sys2Proof.Machine.execStoreDrainLimit s
  | .directoriesEmpty => Sys2Proof.Machine.execDirectoriesEmpty s
  | .resetRelease => Sys2Proof.Machine.execResetRelease s
  | .nvPulseEnd => Sys2Proof.Machine.execNvPulseEnd s
  | .bkGoodFall => Sys2Proof.Machine.execBkGoodFall s
  | .bkGoodRise => Sys2Proof.Machine.execBkGoodRise s
  | .persistWaitLimit => Sys2Proof.Machine.execPersistWaitLimit s
  | .throttleNAssert => Sys2Proof.Machine.execThrottleNAssert s
  | .throttleNRelease => Sys2Proof.Machine.execThrottleNRelease s
  | .perstRelayN => Sys2Proof.Machine.execPerstRelayN s
  | .supplyFail => Sys2Proof.Machine.execSupplyFail s
  | .coldStart => Sys2Proof.Machine.execColdStart s
  | .hdm0Ready absent => Sys2Proof.Machine.execHdm0Ready absent s
  | .hdm1Ready absent => Sys2Proof.Machine.execHdm1Ready absent s
  | .tierTag d n => Sys2Proof.Machine.execTierTag d n s
  | .refresh st group => Sys2Proof.Machine.execRefresh st group s
  | .dramScrub sector errors => Sys2Proof.Machine.execDramScrub sector errors s
  | .retentionSweep die block shifted errors => Sys2Proof.Machine.execRetentionSweep die block shifted errors s
  | .sweepLate die => Sys2Proof.Machine.execSweepLate die s
  | .blockWrite die pulses => Sys2Proof.Machine.execBlockWrite die pulses s
  | .wearSwap die => Sys2Proof.Machine.execWearSwap die s
  | .lifePersist => Sys2Proof.Machine.execLifePersist s
  | .pwrActive src => Sys2Proof.Machine.execPwrActive src s
  | .pwrStandby src => Sys2Proof.Machine.execPwrStandby src s
  | .pwrDormant src => Sys2Proof.Machine.execPwrDormant src s
  | .pwrOffReady src => Sys2Proof.Machine.execPwrOffReady src s
  | .powerEntryStep => Sys2Proof.Machine.execPowerEntryStep s
  | .powerExitStep => Sys2Proof.Machine.execPowerExitStep s
  | .registerWrite src addr size value => Sys2Proof.Machine.execRegisterWrite src addr size value s
  | .perstRelayNRelease => Sys2Proof.Machine.execPerstRelayNRelease s
  | .topkUnitComplete c => Sys2Proof.Machine.execTopkUnitComplete c s
  | .tarucPhyTrained n medium loss latency => Sys2Proof.Machine.execTarucPhyTrained n medium loss latency s
  | .fnLinkDown => Sys2Proof.Machine.execFnLinkDown s
  | .duplicateAddressDetection inUse => Sys2Proof.Machine.execDuplicateAddressDetection inUse s
  | .discoverAnswer => Sys2Proof.Machine.execDiscoverAnswer s
  | .percolatorWalkEnd => Sys2Proof.Machine.execPercolatorWalkEnd s
  | .doeRequest protocol bytes => Sys2Proof.Machine.execDoeRequest protocol bytes s

end Sys2Proof.Machine
end

