-- ==== Sys2Proof/Machine/Step.lean ====
section
/-! DEFINITION. One step: the command at the front of the queue, or one reference count when none waits
(notes/assumptions 8). -/

namespace Sys2Proof.Machine

/-- Take the front command and run it with the queue's rest; an idle block counts. -/
def step (s : State) : Host.Outcome State Fault Refusal :=
  match s.pending with
  | [] => .next { s with dev := s.dev.tick }
  | c :: rest => exec c { s with pending := rest }

/-- What a word of code does at the core that issues it (R210-R212). -/
def runCoreWord (c : CoreId) (w : Word64) (s : State) : Host.Outcome State Fault Refusal :=
  match decodeCoreWord c w with
  | some i => exec i s
  | none => execUndefined c s

/-- The command a word of the table spells, put at the front of the queue; no row of the table gives bits, so no
word spells one (notes/assumptions 9). -/
def State.withFetchWord (s : State) (nbits w : Nat) : State :=
  match decodeTableWord nbits w with
  | some c => { s with pending := c :: s.pending }
  | none => s

end Sys2Proof.Machine
end

