-- ==== Sys2Proof/WellFormed.lean ====
section
/-! DEFINITION. Commands that can arrive: a message of the type its command names, fields within their widths, readings in
the numbers their senders have. The meanings do not ask for it: they give every command an effect. -/

namespace Sys2Proof

/-- Only class.ops 0x0.20-38 have an immediate form of the same mnemonic (Table 6.12). -/
def Fields.wf (imm : Bool) (f : Fields) : Bool := imm || !f.imm

/-- Sector metadata within its fields (Table 7.2). -/
def SectorMeta.wf (i : SectorMeta) : Bool := decide (i.tag < 4096) && decide (i.epoch < 65536) && decide (i.wclass < 8)

/-- Widths of Table 8.5: a 10-bit agent, DPA[55:8], CTX, SEG, GEN; a payload names its sectors. -/
def ReqMsg.wf (k : ReqKind) (m : ReqMsg) : Bool :=
  m.kind = k && decide (m.src < 0x400) && decide (m.line < 2 ^ 48) && decide (m.ctx < 4096) && decide (m.seg < 8) && decide (m.gen < 16) &&
  decide (m.off < 64) && m.pay.all fun p => decide (p.sec < 4) && p.info.wf

def SnpMsg.wf (k : SnpKind) (m : SnpMsg) : Bool :=
  m.kind = k && (m.core < 0x110 || (0x400 ≤ m.core && m.core < 0x404)) && decide (m.line < 2 ^ 48) && decide (m.sec < 4)

def RspMsg.wf (k : RspKind) (m : RspMsg) : Bool :=
  m.kind = k && decide (m.dst < 0x400) && decide (m.line < 2 ^ 48) && decide (m.sec < 4) && m.info.wf

def AnsMsg.wf (k : AnsKind) (m : AnsMsg) : Bool :=
  m.kind = k && decide (m.src < 0x404) && decide (m.line < 2 ^ 48) && decide (m.sec < 4) && m.info.wf

def MemMsg.wf (k : MemKind) (m : MemMsg) : Bool := m.kind = k && decide (m.line < 2 ^ 48) && decide (m.sec < 4) && m.info.wf

/-- Host requests name a sector. -/
def HostReq.wf (m : HostReq) : Bool := decide (m.hpa % 64 = 0)

/-- A Taruc message of a type: LEN words, from a link or this device (R405). -/
def TMsg.wf (ty : Nat) (m : TMsg) : Bool :=
  decide (m.link ≤ 36) && decide (2 ≤ m.words.length) && ((m.words.getD 0 0).extractLsb' 56 8).toNat = ty &&
  ((m.words.getD 0 0).extractLsb' 38 10).toNat = m.words.length

/-- Four quarters, eight stacks, 64 dies (R454). -/
def Sensors.wf (m : Sensors) : Bool := m.quarters.length = 4 && m.stackT.length = 8 && m.dieT.length = 64

/-- Numbers of slices and L1s (Table 9.9). -/
def cacheNumber (n : Nat) : Bool := n < 64 || (256 ≤ n && n < 528)

def WellFormed (i : Instr) : Bool :=
  match i with
  | .canaryReadRound _ ms _ => decide (ms.length = 64)
  | .canaryFail _ _ _ _ _ _ => true
  | .marginDeadline _ => true
  | .issueGateDouble _ => true
  | .replanInterval _ => true
  | .voltStepSettle _ _ => true
  | .powerLimiterWindow _ => true
  | .ageingBeyondRating _ => true
  | .refclkLost _ => true
  | .refclkReturn _ => true
  | .vreqRepeat => true
  | .launchStaggerWindow _ => true
  | .tableDefine _ _ => true
  | .tableRetire _ => true
  | .gather _ _ _ => true
  | .shardLoadFlush _ => true
  | .carafeRefresh _ _ _ => true
  | .sketchDecay _ => true
  | .shardLoad _ => true
  | .sketchRead _ _ => true
  | .tableRead _ _ => true
  | .epochOpen _ => true
  | .epochAdvance _ => true
  | .epochWaitLimit m => m.wf 0x10
  | .update _ _ => true
  | .determStepLimit _ _ => true
  | .determPeers _ _ => true
  | .migrate _ _ => true
  | .waitingCremaResume _ => true
  | .migrationCommit _ _ _ => true
  | .guestAttach _ => true
  | .guestDetach _ => true
  | .kernel _ _ => true
  | .teamStart _ _ => true
  | .coreRetire _ => true
  | .storeBufferDrain _ => true
  | .tileUnitComplete _ => true
  | .add _ f => f.wf true
  | .sub _ f => f.wf true
  | .mul _ f => f.wf true
  | .mulh _ f => f.wf true
  | .mulhu _ f => f.wf true
  | .div _ f => f.wf true
  | .divu _ f => f.wf true
  | .rem _ f => f.wf true
  | .remu _ f => f.wf true
  | .and _ f => f.wf true
  | .or _ f => f.wf true
  | .xor _ f => f.wf true
  | .shl _ f => f.wf true
  | .shr _ f => f.wf true
  | .sar _ f => f.wf true
  | .min _ f => f.wf true
  | .max _ f => f.wf true
  | .minu _ f => f.wf true
  | .maxu _ f => f.wf true
  | .cmpeq _ f => f.wf true
  | .cmplt _ f => f.wf true
  | .cmpltu _ f => f.wf true
  | .popc _ f => f.wf true
  | .clz _ f => f.wf true
  | .ctz _ f => f.wf true
  | .li _ f => f.wf false
  | .lih _ f => f.wf false
  | .aadd _ f => f.wf false
  | .aaddi _ f => f.wf false
  | .amovs _ f => f.wf false
  | .smova _ f => f.wf false
  | .aseg _ f => f.wf false
  | .fadd _ f => f.wf false
  | .fsub _ f => f.wf false
  | .fmul _ f => f.wf false
  | .fdiv _ f => f.wf false
  | .fsqrt _ f => f.wf false
  | .fma _ f => f.wf false
  | .fmin _ f => f.wf false
  | .fmax _ f => f.wf false
  | .fcmpeq _ f => f.wf false
  | .fcmplt _ f => f.wf false
  | .fcmple _ f => f.wf false
  | .fcvtfi _ f => f.wf false
  | .fcvtif _ f => f.wf false
  | .j _ f => f.wf false
  | .call _ f => f.wf false
  | .jr _ f => f.wf false
  | .bz _ f => f.wf false
  | .bnz _ f => f.wf false
  | .bpany _ f => f.wf false
  | .endK _ f => f.wf false
  | .drain _ f => f.wf false
  | .waitm _ f => f.wf false
  | .tbar _ f => f.wf false
  | .brk _ f => f.wf false
  | .waits _ f => f.wf false
  | .nop _ f => f.wf false
  | .rdref _ f => f.wf false
  | .rdwave _ f => f.wf false
  | .ld8 _ f => f.wf false
  | .ld16 _ f => f.wf false
  | .ld32 _ f => f.wf false
  | .ld64 _ f => f.wf false
  | .lds8 _ f => f.wf false
  | .lds16 _ f => f.wf false
  | .lds32 _ f => f.wf false
  | .st8 _ f => f.wf false
  | .st16 _ f => f.wf false
  | .st32 _ f => f.wf false
  | .st64 _ f => f.wf false
  | .vld _ f => f.wf false
  | .vst _ f => f.wf false
  | .vlds _ f => f.wf false
  | .vsts _ f => f.wf false
  | .sld64 _ f => f.wf false
  | .sst64 _ f => f.wf false
  | .amo _ f => f.wf false
  | .vadd _ f => f.wf false
  | .vsub _ f => f.wf false
  | .vmul _ f => f.wf false
  | .vmulh _ f => f.wf false
  | .vmin _ f => f.wf false
  | .vmax _ f => f.wf false
  | .vminu _ f => f.wf false
  | .vmaxu _ f => f.wf false
  | .vand _ f => f.wf false
  | .vor _ f => f.wf false
  | .vxor _ f => f.wf false
  | .vshl _ f => f.wf false
  | .vshr _ f => f.wf false
  | .vsar _ f => f.wf false
  | .vpopc _ f => f.wf false
  | .vabsd _ f => f.wf false
  | .vadds _ f => f.wf false
  | .vsubs _ f => f.wf false
  | .vcmpeq _ f => f.wf false
  | .vcmplt _ f => f.wf false
  | .vcmpltu _ f => f.wf false
  | .vfadd _ f => f.wf false
  | .vfsub _ f => f.wf false
  | .vfmul _ f => f.wf false
  | .vfdiv _ f => f.wf false
  | .vfsqrt _ f => f.wf false
  | .vfma _ f => f.wf false
  | .vfmin _ f => f.wf false
  | .vfmax _ f => f.wf false
  | .vfcmpeq _ f => f.wf false
  | .vfcmplt _ f => f.wf false
  | .vfcmple _ f => f.wf false
  | .vfabs _ f => f.wf false
  | .vfneg _ f => f.wf false
  | .vcvt _ f => f.wf false
  | .vmxenc _ f => f.wf false
  | .vmxdec _ f => f.wf false
  | .vperm _ f => f.wf false
  | .vbcast _ f => f.wf false
  | .vext _ f => f.wf false
  | .vins _ f => f.wf false
  | .vredadd _ f => f.wf false
  | .vredmin _ f => f.wf false
  | .vredmax _ f => f.wf false
  | .vsel _ f => f.wf false
  | .tmma _ f => f.wf false
  | .tl2 _ f => f.wf false
  | .tl1 _ f => f.wf false
  | .tham _ f => f.wf false
  | .tmins _ f => f.wf false
  | .tmaxs _ f => f.wf false
  | .tld _ f => f.wf false
  | .tst _ f => f.wf false
  | .tzero _ f => f.wf false
  | .ttr8 _ f => f.wf false
  | .accmode _ f => f.wf false
  | .acczero _ f => f.wf false
  | .accst _ f => f.wf false
  | .accld _ f => f.wf false
  | .accsave _ f => f.wf false
  | .accrestore _ f => f.wf false
  | .accmrg _ f => f.wf false
  | .tkinit _ f => f.wf false
  | .tkpush _ f => f.wf false
  | .tkpushs _ f => f.wf false
  | .tkout _ f => f.wf false
  | .sfill _ f => f.wf false
  | .sdump _ f => f.wf false
  | .gsub _ f => f.wf false
  | .pand _ f => f.wf false
  | .por _ f => f.wf false
  | .pxor _ f => f.wf false
  | .pnot _ f => f.wf false
  | .pfroms _ f => f.wf false
  | .ptos _ f => f.wf false
  | .pcnt _ f => f.wf false
  | .rdshared m => m.wf .rdShared
  | .rdown m => m.wf .rdOwn
  | .claim m => m.wf .claim
  | .rdcurrent m => m.wf .rdCurrent
  | .wrfull m => m.wf .wrFull
  | .wrpart m => m.wf .wrPart
  | .evictdirty m => m.wf .evictDirty
  | .evictclean m => m.wf .evictClean
  | .atomic m => m.wf .atomic
  | .updrow m => m.wf .updRow
  | .snpinv m => m.wf .inv
  | .fwdshared m => m.wf .fwdShared
  | .fwdowned m => m.wf .fwdOwned
  | .fwdcurrent m => m.wf .fwdCurrent
  | .data m => m.wf .data
  | .grant m => m.wf .grant
  | .cmp m => m.wf .cmp
  | .atomrsp m => m.wf .atomRsp
  | .err m => m.wf .err
  | .ack m => m.wf .ack
  | .ackdata m => m.wf .ackData
  | .fwddone m => m.wf .fwdDone
  | .fwdmiss m => m.wf .fwdMiss
  | .compack m => m.wf .compAck
  | .memrd m => m.wf .rd
  | .memwr m => m.wf .wr
  | .memrmw m => m.wf .rmw
  | .memdata m => m.wf .data
  | .memcmp m => m.wf .cmp
  | .holdEnd h line => (h < 0x110 || (0x180 ≤ h && h < 0x1C0)) && decide (line < 2 ^ 48)
  | .requestStarved m => m.wf m.kind
  | .memRd m => m.wf
  | .memRdData m => m.wf
  | .memRdFwd m => m.wf
  | .memInv m => m.wf
  | .memClnEvct m => m.wf
  | .memWr m => m.wf
  | .memWrPtl m => m.wf
  | .memSpecRd m => m.wf
  | .birsp line _ _ => decide (line < 2 ^ 48)
  | .biconflict m => m.wf
  | .snpInv a => decide (a % 64 = 0)
  | .snpData a => decide (a % 64 = 0)
  | .snpCur a => decide (a % 64 = 0)
  | .go line _ _ _ _ => decide (line < 2 ^ 48)
  | .goErr line _ => decide (line < 2 ^ 48)
  | .cacheEnable _ n => cacheNumber n
  | .cacheDisable _ n => cacheNumber n
  | .pcmdInvalidateAll _ n => cacheNumber n
  | .pcmdWritebackAll _ n => cacheNumber n
  | .pcmdFlushAll _ n => cacheNumber n
  | .cacheRangeWriteback _ _ _ => true
  | .cacheRangeFlush _ _ _ => true
  | .cacheRangeInvalidate _ _ _ => true
  | .cacheRangePrefetch _ _ _ => true
  | .preloadLock _ _ _ => true
  | .unlock _ _ _ => true
  | .cacheRangeInvalidateAll _ _ _ => true
  | .cacheRangeWritebackAll _ _ _ => true
  | .cacheRangeFlushAll _ _ _ => true
  | .cacheEnableWrite _ => true
  | .cacheCommand _ => true
  | .cacheWayRestore _ => true
  | .fence _ => true
  | .segValidate _ _ _ _ => true
  | .segLimitWrite _ _ _ _ => true
  | .revoke _ => true
  | .generationBump _ _ => true
  | .generationCopyAck _ _ k => decide (k < 140)
  | .drainMarkerAnswer _ _ _ => true
  | .qdbEnable _ _ _ => true
  | .qdbDisable _ _ _ => true
  | .qdoorbell _ _ _ _ size => size = 4 || size = 8
  | .descriptorFetch _ _ => true
  | .descriptorTimeout _ => true
  | .interimRecord _ => true
  | .completionRecord _ => true
  | .copy _ _ _ => true
  | .mailboxDelivery _ => true
  | .mbxWaitLimit _ => true
  | .mailboxReply _ => true
  | .hostLinkUp _ _ _ _ _ => true
  | .linkRecovery _ _ => true
  | .dlDown => true
  | .hostAnswerLimit => true
  | .ideFailure _ => true
  | .ideKeyRefresh _ => true
  | .decoderCommit _ _ _ _ _ => true
  | .cxlReset => true
  | .gpfPhase1 => true
  | .gpfPhase2 => true
  | .biasCmdDevice _ _ => true
  | .biasCmdShared _ _ => true
  | .d3hotWrite => true
  | .d0Write => true
  | .flitReceive _ _ ws _ => decide (ws.length = 31)
  | .nak _ _ => true
  | .retryTimeout _ => true
  | .linkRetrainLimit _ => true
  | .linkUpAttempt _ => true
  | .capx _ ws => decide (ws.length = 6)
  | .lenprobe _ ws => decide (ws.length = 3)
  | .lenecho _ ws => decide (ws.length = 3)
  | .lookup m => m.wf 0x10
  | .bkrd m => m.wf 0x11
  | .lookrsp m => m.wf 0x20
  | .tarucAck m => m.wf 0x21
  | .tarucErr m => m.wf 0x22
  | .redirect m => m.wf 0x23
  | .tarucUpdate m => m.wf 0x30
  | .stepend m => m.wf 0x31
  | .migcopy m => m.wf 0x42
  | .migcommit m => m.wf 0x32
  | .migabort m => m.wf 0x33
  | .bkwr m => m.wf 0x40
  | .bkdata m => m.wf 0x41
  | .ping m => m.wf 0x60
  | .pong m => m.wf 0x61
  | .peerAnswerLimit t => decide (t < 65536)
  | .linkEnable _ _ => true
  | .retrain _ => true
  | .injectCrc _ => true
  | .read => true
  | .write => true
  | .discover => true
  | .fnDatagram _ _ p q h _ => decide (p < 65536) && decide (q < 65536) && decide (h < 256)
  | .neighbourSolicitation _ => true
  | .icmpv6Echo _ _ => true
  | .fnLinkUp => true
  | .dictWinGo _ _ => true
  | .lockoutEnd _ => true
  | .roleKeyWrite _ _ _ _ _ => true
  | .calendarWrite _ => true
  | .calendarAdvance => true
  | .calendarPersist => true
  | .nvCompact => true
  | .restoreDefaults => true
  | .sensorSample m => m.wf
  | .faultRaise m => decide (m.source < 0x400)
  | .faultPulseEnd => true
  | .faultClear _ => true
  | .faultPinDrive _ => true
  | .fltSrcClear _ _ => true
  | .faultInject _ _ => true
  | .watchdogHeartbeat _ => true
  | .watchdogExpiry => true
  | .warmReset _ => true
  | .isolateAgent _ => true
  | .resetSequence => true
  | .crit _ src _ => decide (src < 0x400)
  | .stopTimeout _ _ => true
  | .storeDrainLimit => true
  | .directoriesEmpty => true
  | .resetRelease => true
  | .nvPulseEnd => true
  | .bkGoodFall => true
  | .bkGoodRise => true
  | .persistWaitLimit => true
  | .throttleNAssert => true
  | .throttleNRelease => true
  | .perstRelayN => true
  | .supplyFail => true
  | .coldStart => true
  | .hdm0Ready ks => ks.all (· < 8)
  | .hdm1Ready ks => ks.all (· < 64)
  | .tierTag _ _ => true
  | .refresh _ g => decide (g < 8192)
  | .dramScrub _ es => es.all (· < 40)
  | .retentionSweep _ _ sh es => sh.all (· < 160) && es.all (· < 160)
  | .sweepLate _ => true
  | .blockWrite _ _ => true
  | .wearSwap _ => true
  | .lifePersist => true
  | .pwrActive _ => true
  | .pwrStandby _ => true
  | .pwrDormant _ => true
  | .pwrOffReady _ => true
  | .powerEntryStep => true
  | .powerExitStep => true
  | .registerWrite _ addr size _ => (size = 4 || size = 8) && decide (addr % size = 0)
  | .perstRelayNRelease => true
  | .topkUnitComplete _ => true
  | .tarucPhyTrained _ _ _ _ => true
  | .fnLinkDown => true
  | .duplicateAddressDetection _ => true
  | .discoverAnswer => true
  | .percolatorWalkEnd => true
  | .doeRequest _ _ => true

end Sys2Proof
end

