-- ==== Sys2Proof/Safety.lean ====
section
/-! DEFINITION. The terms in which the statements are made: a run that goes on, a core that issues, what an instruction
computes (Tables 6.13, 6.15 and R190-R194, in integers and naturals), a block seen without its cores. -/

namespace Sys2Proof.Machine

/-- A step that goes on. -/
def Goes (s : State) : Prop := ∃ t, step s = .next t

/-- The canonical form of tier memory holds in a state (notes/assumptions 7). -/
def State.memOk (s : State) : Prop := Memory.wf s.dev.mem = true

/-- Every waiting command is well-formed. -/
def State.queueOk (s : State) : Prop := ∀ i ∈ s.pending, WellFormed i = true

/-! ### A core that issues -/

/-- Core c issues an instruction now: it runs and waits for nothing, its code goes on, and no decoupled instruction still
needs a scalar register of ss or a vector register of vw (R152, R171). -/
def State.issues (s : State) (c : CoreId) (ss vw : List Nat) : Prop :=
  (s.dev.core c).status = .running ∧ (s.dev.core c).wait = .none ∧ (s.dev.core c).pc < (s.dev.core c).codeSize ∧
    (s.dev.core c).stallS ss = false ∧ (s.dev.core c).stallV vw = false

/-- k after an issue at k0 that goes on at code offset pc, one more issue counted. -/
def Core.retiredTo (k k0 : Core) (pc : Nat) : Core := { k with pc := pc, waves := k0.waves + 1 }
/-- k after an issue at k0 that goes on at the next instruction. -/
def Core.retired (k k0 : Core) : Core := k.retiredTo k0 (k0.pc + 8)
/-- k after an issue that waits, or has waited, at its own instruction. -/
def Core.counted (k : Core) : Core := { k with waves := k.waves + 1 }

/-- The state in which core c holds k. -/
def State.withCore (s : State) (c : Nat) (k : Core) : State := { s with dev := s.dev.setCore c k }
/-- The state with one more message on its way. -/
def State.sends (s : State) (m : Msg) : State := { s with dev := s.dev.send m }
/-- The state with another block. -/
def State.withDev (s : State) (d : Dev) : State := { s with dev := d }

/-- The state in which core c holds k, retired. -/
def State.retires (s : State) (c : CoreId) (k : Core) : State := { s with dev := s.dev.setCore c (k.retired (s.dev.core c)) }
/-- The state in which core c has gone on at code offset pc. -/
def State.goesTo (s : State) (c : CoreId) (k : Core) (pc : Nat) : State :=
  { s with dev := s.dev.setCore c (k.retiredTo (s.dev.core c) pc) }
/-- The state in which the next free value is drawn. -/
def State.drawn (s : State) : State := { s with dev := { s.dev with fresh := s.dev.fresh + 1 } }
/-- The state in which core c stops with an exception at the instruction it issued. -/
def State.excepts (s : State) (c : CoreId) (code : Nat) (da : Word64) : State :=
  { s with dev := (s.dev.setCore c (s.dev.core c).counted).raise c code da }

/-- The block but for its cores, teams, free values, outstanding GSUBs, and the epochs that a GSUB's end may retire. -/
def Dev.besides (d : Dev) : Dev :=
  { d with
    cores := [], teams := [], fresh := 0, cmap := .reset, cp := { d.cp with runs := [] }, tb := { d.tb with store := [], pre := [] } }

/-- The constructor of an instruction of the Nytrix cores. -/
abbrev CoreCmd := CoreId → Fields → Instr

/-! ### Scalar results (R192) -/

def wordInt (z : Int) : Word64 := BitVec.ofInt 64 z
def wordIf (p : Prop) [Decidable p] : Word64 := if p then 1 else 0

/-- Two-operand scalar instructions with their results. -/
def scalarOps : List (CoreCmd × (Word64 → Word64 → Word64)) :=
  [(.add, fun a b => a + b), (.sub, fun a b => a - b), (.mul, fun a b => a * b),
   (.mulh, fun a b => wordInt (a.toInt * b.toInt / 2 ^ 64)),
   (.mulhu, fun a b => BitVec.ofNat 64 (a.toNat * b.toNat / 2 ^ 64)),
   (.div, fun a b => if b = 0 then BitVec.allOnes 64 else wordInt (a.toInt.tdiv b.toInt)),
   (.divu, fun a b => if b = 0 then BitVec.allOnes 64 else BitVec.ofNat 64 (a.toNat / b.toNat)),
   (.rem, fun a b => if b = 0 then a else wordInt (a.toInt.tmod b.toInt)),
   (.remu, fun a b => if b = 0 then a else BitVec.ofNat 64 (a.toNat % b.toNat)),
   (.and, fun a b => a &&& b), (.or, fun a b => a ||| b), (.xor, fun a b => a ^^^ b),
   (.shl, fun a b => BitVec.ofNat 64 (a.toNat * 2 ^ (b.toNat % 64))),
   (.shr, fun a b => BitVec.ofNat 64 (a.toNat / 2 ^ (b.toNat % 64))),
   (.sar, fun a b => wordInt (a.toInt / 2 ^ (b.toNat % 64))),
   (.min, fun a b => if a.toInt ≤ b.toInt then a else b), (.max, fun a b => if a.toInt ≤ b.toInt then b else a),
   (.minu, fun a b => if a.toNat ≤ b.toNat then a else b), (.maxu, fun a b => if a.toNat ≤ b.toNat then b else a),
   (.cmpeq, fun a b => wordIf (a = b)), (.cmplt, fun a b => wordIf (a.toInt < b.toInt)),
   (.cmpltu, fun a b => wordIf (a.toNat < b.toNat))]

/-- Counts over one operand: set bits; zeros above the highest set bit; zeros below the lowest. -/
def countOps : List (CoreCmd × (Word64 → Nat)) :=
  [(.popc, fun a => (List.range 64).countP a.getLsbD),
   (.clz, fun a => if a = 0 then 64 else 63 - Nat.log2 a.toNat),
   (.ctz, fun a => ((List.range 64).find? a.getLsbD).getD 64)]

/-- FP32 results of two operands, by exact value and one rounding (R191). -/
def fp32Ops : List (CoreCmd × (Val → Val → Nat)) :=
  [(.fadd, fun a b => FloatFmt.fp32.round false (a.add b)), (.fsub, fun a b => FloatFmt.fp32.round false (a.add b.neg)),
   (.fmul, fun a b => FloatFmt.fp32.round false (a.mul b)), (.fdiv, fun a b => FloatFmt.fp32.divRound a b),
   (.fmin, fun a b => FloatFmt.fp32.round false (a.min b)), (.fmax, fun a b => FloatFmt.fp32.round false (a.max b)),
   (.fcmpeq, fun a b => if a.eqv b then 1 else 0), (.fcmplt, fun a b => if a.lt b then 1 else 0),
   (.fcmple, fun a b => if a.lt b ∨ a.eqv b then 1 else 0)]

def predOps : List (CoreCmd × (Word64 → Word64 → Word64)) :=
  [(.pand, fun a b => a &&& b), (.por, fun a b => a ||| b), (.pxor, fun a b => a ^^^ b)]

/-! ### Vector results (R192, R194): lanes of w bits as naturals -/

/-- A signed result in a lane, modulo 2^w. -/
def laneInt (w : Nat) (z : Int) : Nat := (z % 2 ^ w).toNat
/-- The value nearest z in w-bit two's complement. -/
def satInt (w : Nat) (z : Int) : Int := max (-(2 ^ (w - 1))) (min z (2 ^ (w - 1) - 1))

def vecIntOps : List (CoreCmd × (Nat → Nat → Nat → Nat)) :=
  [(.vadd, fun w a b => (a + b) % 2 ^ w), (.vsub, fun w a b => laneInt w (a - b)), (.vmul, fun w a b => a * b % 2 ^ w),
   (.vmulh, fun w a b => laneInt w (signedOf w a * signedOf w b / 2 ^ w)),
   (.vmin, fun w a b => if signedOf w a ≤ signedOf w b then a else b),
   (.vmax, fun w a b => if signedOf w a ≤ signedOf w b then b else a),
   (.vminu, fun _ a b => min a b), (.vmaxu, fun _ a b => max a b),
   (.vand, fun _ a b => a &&& b), (.vor, fun _ a b => a ||| b), (.vxor, fun _ a b => a ^^^ b),
   (.vshl, fun w a b => a * 2 ^ (b % w) % 2 ^ w), (.vshr, fun w a b => a / 2 ^ (b % w)),
   (.vsar, fun w a b => laneInt w (signedOf w a / 2 ^ (b % w))),
   (.vabsd, fun w a b => (signedOf w a - signedOf w b).natAbs % 2 ^ w),
   (.vadds, fun w a b => laneInt w (satInt w (signedOf w a + signedOf w b))),
   (.vsubs, fun w a b => laneInt w (satInt w (signedOf w a - signedOf w b)))]

def vecFloatOps : List (CoreCmd × (FloatFmt → Nat → Nat → Nat)) :=
  [(.vfadd, fun F a b => F.round false ((F.decode a).add (F.decode b))),
   (.vfsub, fun F a b => F.round false ((F.decode a).add (F.decode b).neg)),
   (.vfmul, fun F a b => F.round false ((F.decode a).mul (F.decode b))),
   (.vfdiv, fun F a b => F.divRound (F.decode a) (F.decode b)),
   (.vfmin, fun F a b => F.round false ((F.decode a).min (F.decode b))),
   (.vfmax, fun F a b => F.round false ((F.decode a).max (F.decode b)))]

def vecUnaryOps : List (CoreCmd × (FloatFmt → Nat → Nat)) :=
  [(.vfsqrt, fun F a => F.sqrtRound (F.decode a)), (.vfabs, fun F a => F.round false (F.decode a).abs),
   (.vfneg, fun F a => F.round false (F.decode a).neg)]

/-- Comparisons of lanes: the formats each takes, and the relation. -/
def vecCmpOps : List (CoreCmd × List Nat × (Fields → Nat → Nat → Bool)) :=
  [(.vcmpeq, intFmts, fun _ a b => a == b),
   (.vcmplt, intFmts, fun f a b => decide (signedOf (Fields.w f) a < signedOf (Fields.w f) b)),
   (.vcmpltu, intFmts, fun _ a b => decide (a < b)),
   (.vfcmpeq, fpFmts, fun f a b => ((Fields.ff f).decode a).eqv ((Fields.ff f).decode b)),
   (.vfcmplt, fpFmts, fun f a b => ((Fields.ff f).decode a).lt ((Fields.ff f).decode b)),
   (.vfcmple, fpFmts, fun f a b =>
     ((Fields.ff f).decode a).lt ((Fields.ff f).decode b) || ((Fields.ff f).decode a).eqv ((Fields.ff f).decode b))]

/-- Reductions: the value a disabled lane takes, and the operation. -/
def vecRedOps : List (CoreCmd × (FloatFmt → Nat) × (Val → Val → Val)) :=
  [(.vredadd, fun F => F.sign true, Val.add), (.vredmin, fun F => F.infOr false false, Val.min),
   (.vredmax, fun F => F.infOr false true, Val.max)]

/-- Loads of s: bytes, and whether they are sign-extended (Table 6.14). -/
def loadOps : List (CoreCmd × Nat × Bool) :=
  [(.ld8, 1, false), (.ld16, 2, false), (.ld32, 4, false), (.ld64, 8, false), (.lds8, 1, true), (.lds16, 2, true), (.lds32, 4, true)]
def storeOps : List (CoreCmd × Nat) := [(.st8, 1), (.st16, 2), (.st32, 4), (.st64, 8)]

/-- The size bytes at byte off of a sector, as a register takes them. -/
def loadValue (x : Sector) (off size : Nat) (sext : Bool) : Word64 :=
  let n := x.toNat / 2 ^ (8 * off) % 2 ^ (8 * size)
  if sext then wordInt (signedOf (8 * size) n) else BitVec.ofNat 64 n

/-- Code offset n instructions from the present one, in 64-bit arithmetic (R210). -/
def Core.pcAt (k : Core) (n : Int) : Nat := (((k.pc : Int) + 8 * n) % 2 ^ 64).toNat

/-- Instructions whose whole effect is on the registers of their core: classes 0x0, 0x1, 0x4-0x6, 0xB and NOP, RDREF, RDWAVE. -/
def regOps : List CoreCmd :=
  scalarOps.map (·.1) ++ countOps.map (·.1) ++ fp32Ops.map (·.1) ++ predOps.map (·.1) ++ vecIntOps.map (·.1) ++ vecFloatOps.map (·.1) ++
    vecUnaryOps.map (·.1) ++ vecCmpOps.map (·.1) ++ vecRedOps.map (·.1) ++
    [.li, .lih, .aadd, .aaddi, .amovs, .smova, .aseg, .fsqrt, .fma, .fcvtfi, .fcvtif, .pnot, .pfroms, .ptos, .pcnt, .vpopc, .vfma, .vcvt,
     .vmxenc, .vmxdec, .vperm, .vbcast, .vext, .vins, .vsel, .nop, .rdref, .rdwave]

/-- The instruction of the tile or top-k unit stands in its queue with its scalar operands. -/
def State.queuedTile (s : State) (c : CoreId) (op : UnitOp) (f : Fields) (x y z : Word64) : State :=
  s.retires c { s.dev.core c with tileQ := (s.dev.core c).tileQ ++ [{ op := op, f := f, x := x, y := y, z := z }] }
def State.queuedTop (s : State) (c : CoreId) (op : UnitOp) (f : Fields) (x y z : Word64) : State :=
  s.retires c { s.dev.core c with topQ := (s.dev.core c).topQ ++ [{ op := op, f := f, x := x, y := y, z := z }] }

/-- Room in the tile unit's queue of four, and accumulator n neither missing in the mode nor still read by the top-k unit. -/
def Core.tileFree (k : Core) (acc : Option Nat) : Prop :=
  k.tileQ.length < 4 ∧ ∀ n, acc = some n → (k.exact = true → n < 2) ∧ k.accHeldByTop n = false
/-- Room in the top-k unit's queue of two. -/
def Core.topFree (k : Core) : Prop := k.topQ.length < 2

/-- Tile multiply-accumulates and distances. -/
def tileOps : List (CoreCmd × UnitOp × Bool) :=
  [(.tmma, .tmma, false), (.tl2, .tl2, false), (.tl1, .tl1, false), (.tham, .tham, true), (.tmins, .tmins, false), (.tmaxs, .tmaxs, false)]

/-- Vector register n after a lane-wise write under predicate P: `new` in the enabled lanes, the rest as before (R194). -/
def Core.lanes (k : Core) (f : Fields) (new : Nat → Nat) : Core :=
  k.setV f.d.toNat (ofLanes (Fields.w f) fun i =>
    if (k.govern f.p).getLsbD (i * Fields.w f / 8) then new i else Sector.lane (k.vr f.d.toNat) (Fields.w f) i)

/-- Lane i of the second operand: of v B, or the low bits of s B in every lane with MOD[0] (Table 6.15). -/
def Core.laneB (k : Core) (f : Fields) (i : Nat) : Nat :=
  if f.mod.getLsbD 0 then (k.sr f.b.toNat).toNat % 2 ^ Fields.w f else Sector.lane (k.vr f.b.toNat) (Fields.w f) i

/-! ### Descriptors being served (R119, R384) -/

/-- The block in which the part serving id has begun. -/
def Dev.begun (d : Dev) (id : DescId) : Dev := d.updRun id fun x => { x with stage := .running }
/-- Run r of id is admitted or running and holds a descriptor of the type and, where one is named, the operation. -/
def State.serving (s : State) (id : DescId) (r : Run) (ty : Nat) (op : Option Nat) : Prop :=
  s.dev.run id = some r ∧ r.live = true ∧ r.isOp ty op = true
/-- The segments a descriptor names for the part that is its source, in the block's present copies or the run's own. -/
def Run.segsBy (r : Run) (src ctx : Nat) (h : List HostAnswer) : SegBy := fun s => r.acc src ctx s h
/-- What a part reads at da, off, of n bytes: the bytes, no poison, and the block after. -/
def Dev.reads (d : Dev) (ac : SegBy) (da : Word64) (off n : Nat) (bs : List Byte) (d2 : Dev) : Prop :=
  ∃ m, readDa ac da off n d = .ok (.ok (bs, false, m), d2)

/-! ### Homes (R255-R263) -/

/-- Nothing waits at the homes that another line's freeing would let begin: no row update, no host request held back by a full
queue, no report of upkeep. -/
def Dev.homesQuiet (d : Dev) : Prop := d.rowsWaiting = 0 ∧ (∀ m, Msg.req m ∈ d.net → m.src ≠ hostAgent) ∧ d.tier.suspects = []

/-- Nothing but its transactions txns keeps home h. -/
def Dev.homeIdle (d : Dev) (h : Nat) (txns : Map (Option Txn)) : Prop :=
  (d.home h).txns = txns ∧ (d.home h).queue = [] ∧ (d.home h).closed = [] ∧ (d.home h).held = [] ∧ d.hl.busy = false ∧
    d.hl.gpf = 0 ∧ d.flt.inject = 0 ∧ d.homesQuiet

/-- Request q of one sector comes to an idle home that its checks and its directory let start at once. -/
def Dev.starts (d : Dev) (q : ReqMsg) (sec : Nat) : Prop :=
  d.homeIdle (d.homeOf (lineDpa q.line)) [] ∧ sec < 4 ∧ q.smask = secMask sec ∧ d.reqInOrder q = true ∧ isCore q.src = true ∧
    d.partHeld q.src = false ∧ d.checkSec q sec = none ∧ ∀ k, d.dirWay q.line = some k → (d.dirAt k).err = 0

/-- Core o holds sector sec of the line in E, alone, by the directory. -/
def Dev.ownedBy (d : Dev) (line sec o : Nat) : Prop :=
  (∃ k, d.dirWay line = some k) ∧ ((d.dirEntry line).sector sec).ds = .E ∧ ((d.dirEntry line).sector sec).own = o ∧
    ((d.dirEntry line).sector sec).hs = 0 ∧ d.partHeld o = false

/-- The block with other home records that read as before. -/
def Dev.sameBut (d e : Dev) : Prop := e = { d with homes := e.homes }

/-- The transaction waits for this answer and for more before its next stage. -/
def Txn.waitsOn (t : Txn) (a : Await) : Prop := t.waits a = true ∧ (t.got1 a).await ≠ [] ∧ t.stage ≠ .entry

/-- The host's requests for the sector at dpa enter the device and its idle home at once: the link is up, the block powered, the page
SHARED and not device-owned, the tier ready, the directory sector without an owner. -/
def Dev.hostMay (d : Dev) (hpa dpa : Nat) : Prop :=
  d.hl.state = 2 ∧ d.hostAsI = false ∧ d.lowPower = false ∧ d.hostToDpa hpa = some dpa ∧ d.ownedRegion dpa = false ∧
    (isDram (lineDpa (dpa / 256)) = true → lineDpa (dpa / 256) < d.ownedFrom) ∧ d.biasOf (dpa / 256 / 2 ^ 13) = 1 ∧
    d.homeIdle (d.homeOf (lineDpa (dpa / 256))) [] ∧ isTier (secDpa (dpa / 256) (dpa / 64 % 4)) = true ∧
    d.tierReady (secDpa (dpa / 256) (dpa / 64 % 4)) = true ∧ isHost (lineDpa (dpa / 256)) = false ∧ dpa / 256 < mailboxLine 0 ∧
    (∃ k, d.dirWay (dpa / 256) = some k ∧ (d.dirAt k).err = 0) ∧ ((d.dirEntry (dpa / 256)).sector (dpa / 64 % 4)).ds = .I

end Sys2Proof.Machine
end

