-- ==== Sys2Proof/Certificates/Slice0/Obligations.lean ====
section
/-! DEFINITION. What is to be proved of the model: the rules of spec/ that say what a command or the block does. -/

open Sys2Proof Sys2Proof.Machine

/-! ### Scalar, address and predicate instructions (05_nytrix_cores.md R151; 06_arithmetic_and_encodings.md R191, R192, R212) -/

/-- s D of a two-operand scalar instruction takes its result, in both forms; the rest of the core and the block stay. POPC, CLZ and
CTZ count over s A. LI, LIH and the address instructions of class 0x0.1A-1B and 0x1.00-04. -/
def Obligations.ScalarInteger : Prop :=
  (∀ p ∈ scalarOps, ∀ (s : State) (c : CoreId) (f : Fields),
    Fields.legalAlu f = true → s.issues c [f.d.toNat, f.a.toNat, f.b.toNat] [] →
    exec (p.1 c f) s = .next (s.retires c ((s.dev.core c).setS f.d.toNat
      (p.2 ((s.dev.core c).sr f.a.toNat) (if f.imm then wordInt f.mod.toInt else (s.dev.core c).sr f.b.toNat))))) ∧
  (∀ p ∈ countOps, ∀ (s : State) (c : CoreId) (f : Fields),
    Fields.legalUnary f = true → s.issues c [f.d.toNat, f.a.toNat] [] →
    exec (p.1 c f) s = .next (s.retires c ((s.dev.core c).setS f.d.toNat (BitVec.ofNat 64 (p.2 ((s.dev.core c).sr f.a.toNat)))))) ∧
  (∀ (s : State) (c : CoreId) (f : Fields), let k := s.dev.core c
    (f.legalL 32 = true → s.issues c [f.d.toNat] [] →
      exec (.li c f) s = .next (s.retires c (k.setS f.d.toNat (wordInt (f.a ++ f.b ++ f.c ++ f.fmt ++ f.mod).toInt))) ∧
      exec (.lih c f) s = .next (s.retires c (k.setS f.d.toNat
        (BitVec.ofNat 64 ((f.a ++ f.b ++ f.c ++ f.fmt ++ f.mod).toNat % 2 ^ 22 * 2 ^ 42 + (k.sr f.d.toNat).toNat % 2 ^ 42))))) ∧
    (f.legalR 16 16 32 0 false [] 0 = true → s.issues c [f.b.toNat] [] →
      exec (.aadd c f) s = .next (s.retires c (k.setA f.d.toNat (k.ar f.a.toNat + k.sr f.b.toNat)))) ∧
    (f.legalI 16 16 false = true → s.issues c [] [] →
      exec (.aaddi c f) s = .next (s.retires c (k.setA f.d.toNat (k.ar f.a.toNat + wordInt (f.b ++ f.c ++ f.fmt ++ f.mod).toInt)))) ∧
    (f.legalR 16 32 0 0 false [] 0 = true → s.issues c [f.a.toNat] [] →
      exec (.amovs c f) s = .next (s.retires c (k.setA f.d.toNat (k.sr f.a.toNat)))) ∧
    (f.legalR 32 16 0 0 false [] 0 = true → s.issues c [f.d.toNat] [] →
      exec (.smova c f) s = .next (s.retires c (k.setS f.d.toNat (k.ar f.a.toNat)))) ∧
    (f.legalRI false 16 32 = true → s.issues c [f.a.toNat] [] →
      exec (.aseg c f) s = .next (s.retires c (k.setA f.d.toNat
        (BitVec.ofNat 64 (f.mod.toNat % 8 * 2 ^ 61 + (k.sr f.a.toNat).toNat % 2 ^ 48))))))

/-- FP32 instructions: bits [31:0] take the result, bits [63:32] are zero. Predicate instructions; p0 reads as all ones after any of
them. -/
def Obligations.ScalarFloatAndPredicates : Prop :=
  ((∀ p ∈ fp32Ops, ∀ (s : State) (c : CoreId) (f : Fields),
    f.legalR 32 32 32 0 false [] 0 = true → s.issues c [f.d.toNat, f.a.toNat, f.b.toNat] [] →
    exec (p.1 c f) s = .next (s.retires c ((s.dev.core c).setS f.d.toNat (BitVec.ofNat 64
      (p.2 (FloatFmt.fp32.decode ((s.dev.core c).sr f.a.toNat).toNat) (FloatFmt.fp32.decode ((s.dev.core c).sr f.b.toNat).toNat)))))) ∧
  ∀ (s : State) (c : CoreId) (f : Fields), let k := s.dev.core c
    let a := FloatFmt.fp32.decode (k.sr f.a.toNat).toNat
    (f.legalR 32 32 0 0 false [] 0 = true → s.issues c [f.d.toNat, f.a.toNat] [] →
      exec (.fsqrt c f) s = .next (s.retires c (k.setS f.d.toNat (BitVec.ofNat 64 (FloatFmt.fp32.sqrtRound a)))) ∧
      exec (.fcvtif c f) s = .next (s.retires c (k.setS f.d.toNat (BitVec.ofNat 64
        (FloatFmt.fp32.round false (Val.ofInt (k.sr f.a.toNat).toInt)))))) ∧
    (f.legalR 32 32 0 0 false [] 1 = true → s.issues c [f.d.toNat, f.a.toNat] [] →
      exec (.fcvtfi c f) s = .next (s.retires c (k.setS f.d.toNat (wordInt (a.toInt 64 (f.mod.getLsbD 0)))))) ∧
    (f.legalR 32 32 32 32 false [] 0 = true → s.issues c [f.d.toNat, f.a.toNat, f.b.toNat, f.c.toNat] [] →
      exec (.fma c f) s = .next (s.retires c (k.setS f.d.toNat (BitVec.ofNat 64 (FloatFmt.fp32.round false
        ((a.mul (FloatFmt.fp32.decode (k.sr f.b.toNat).toNat)).add (FloatFmt.fp32.decode (k.sr f.c.toNat).toNat)))))))) ∧
  ((∀ p ∈ predOps, ∀ (s : State) (c : CoreId) (f : Fields),
    f.legalR 8 8 8 0 false [] 0 = true → s.issues c [] [] →
    exec (p.1 c f) s = .next (s.retires c ((s.dev.core c).setP f.d.toNat
      (p.2 ((s.dev.core c).pr f.a.toNat) ((s.dev.core c).pr f.b.toNat))))) ∧
  (∀ (s : State) (c : CoreId) (f : Fields), let k := s.dev.core c
    (f.legalR 8 8 0 0 false [] 0 = true → s.issues c [] [] →
      exec (.pnot c f) s = .next (s.retires c (k.setP f.d.toNat (~~~(k.pr f.a.toNat))))) ∧
    (f.legalR 8 32 0 0 false [] 0 = true → s.issues c [f.a.toNat] [] →
      exec (.pfroms c f) s = .next (s.retires c (k.setP f.d.toNat (k.sr f.a.toNat)))) ∧
    (f.legalR 32 8 0 0 false [] 0 = true → s.issues c [f.d.toNat] [] →
      exec (.ptos c f) s = .next (s.retires c (k.setS f.d.toNat (k.pr f.a.toNat))) ∧
      exec (.pcnt c f) s = .next (s.retires c (k.setS f.d.toNat
        (BitVec.ofNat 64 ((List.range 64).countP (k.pr f.a.toNat).getLsbD)))))) ∧
  ∀ (k : Core) (n j : Nat) (x : Word64),
    (k.setP n x).pr j = if j = 0 then BitVec.allOnes 64 else if j = n then x else k.pr j)

/-! ### Vector instructions (R192-R194, R212) -/

/-- A lane written under the predicate reads back as its result, a disabled one as before; no other register changes. -/
def Obligations.LaneWrites : Prop :=
  ∀ (k : Core) (f : Fields) (new : Nat → Nat), Fields.w f ∈ [1, 4, 8, 16, 32, 64] →
    (∀ i, i < 512 / Fields.w f → Sector.lane ((k.lanes f new).vr f.d.toNat) (Fields.w f) i =
      if (k.govern f.p).getLsbD (i * Fields.w f / 8) then new i % 2 ^ Fields.w f else Sector.lane (k.vr f.d.toNat) (Fields.w f) i) ∧
    (∀ n, n ≠ f.d.toNat → (k.lanes f new).vr n = k.vr n) ∧
    ({ k.lanes f new with v := [] } : Core) = { k with v := [] }

/-- Integer lanes. Floating-point lanes, each result rounded once. -/
def Obligations.VectorArithmetic : Prop :=
  ((∀ p ∈ vecIntOps, ∀ (s : State) (c : CoreId) (f : Fields),
    f.legalR 32 32 32 0 true intFmts 1 = true → s.issues c (if f.mod.getLsbD 0 then [f.b.toNat] else []) [f.d.toNat] →
    exec (p.1 c f) s = .next (s.retires c ((s.dev.core c).lanes f fun i =>
      p.2 (Fields.w f) (Sector.lane ((s.dev.core c).vr f.a.toNat) (Fields.w f) i) ((s.dev.core c).laneB f i)))) ∧
  ∀ (s : State) (c : CoreId) (f : Fields),
    f.legalR 32 32 0 0 true intFmts 0 = true → s.issues c [] [f.d.toNat] →
    exec (.vpopc c f) s = .next (s.retires c ((s.dev.core c).lanes f fun i =>
      (List.range (Fields.w f)).countP (Sector.lane ((s.dev.core c).vr f.a.toNat) (Fields.w f) i).testBit))) ∧
  ((∀ p ∈ vecFloatOps, ∀ (s : State) (c : CoreId) (f : Fields),
    f.legalR 32 32 32 0 true fpFmts 1 = true → s.issues c (if f.mod.getLsbD 0 then [f.b.toNat] else []) [f.d.toNat] →
    exec (p.1 c f) s = .next (s.retires c ((s.dev.core c).lanes f fun i =>
      p.2 (Fields.ff f) (Sector.lane ((s.dev.core c).vr f.a.toNat) (Fields.w f) i) ((s.dev.core c).laneB f i)))) ∧
  (∀ p ∈ vecUnaryOps, ∀ (s : State) (c : CoreId) (f : Fields),
    f.legalR 32 32 0 0 true fpFmts 0 = true → s.issues c [] [f.d.toNat] →
    exec (p.1 c f) s = .next (s.retires c ((s.dev.core c).lanes f fun i =>
      p.2 (Fields.ff f) (Sector.lane ((s.dev.core c).vr f.a.toNat) (Fields.w f) i)))) ∧
  ∀ (s : State) (c : CoreId) (f : Fields),
    f.legalR 32 32 32 32 true fpFmts 1 = true → s.issues c (if f.mod.getLsbD 0 then [f.b.toNat] else []) [f.d.toNat] →
    exec (.vfma c f) s = .next (s.retires c ((s.dev.core c).lanes f fun i =>
      (Fields.ff f).round false
        ((((Fields.ff f).decode (Sector.lane ((s.dev.core c).vr f.a.toNat) (Fields.w f) i)).mul
            ((Fields.ff f).decode ((s.dev.core c).laneB f i))).add
          ((Fields.ff f).decode (Sector.lane ((s.dev.core c).vr f.c.toNat) (Fields.w f) i))))))

/-- Comparisons write every bit of an enabled lane's bytes with the lane's result and leave the others; reductions run the fixed
tree. Moves, conversions and MX blocks of class 0x6. A lane number beyond the vector gives a free value (notes/assumptions 22),
in the enabled lanes alone where lanes are written. VCVT: with lanes counted in the wider of the two widths, the part MOD[9:8]
of the source fills v D, or the source fills that part of v D. VMXENC and VMXDEC: one block of 32 elements and its scale byte. -/
def Obligations.VectorDataAndCompare : Prop :=
  ((∀ p ∈ vecCmpOps, ∀ (s : State) (c : CoreId) (f : Fields),
    f.legalR 8 32 32 0 true p.2.1 1 = true → s.issues c (if f.mod.getLsbD 0 then [f.b.toNat] else []) [] →
    ∃ x : Word64, exec (p.1 c f) s = .next (s.retires c ((s.dev.core c).setP f.d.toNat x)) ∧
      ∀ b, b < 64 → let i := b / (Fields.w f / 8)
        x.getLsbD b = if ((s.dev.core c).govern f.p).getLsbD (i * Fields.w f / 8)
          then p.2.2 f (Sector.lane ((s.dev.core c).vr f.a.toNat) (Fields.w f) i) ((s.dev.core c).laneB f i)
          else ((s.dev.core c).pr f.d.toNat).getLsbD b) ∧
  ∀ p ∈ vecRedOps, ∀ (s : State) (c : CoreId) (f : Fields),
    f.legalR 32 32 0 0 true fpFmts 0 = true → s.issues c [f.d.toNat] [] →
    exec (p.1 c f) s = .next (s.retires c ((s.dev.core c).setS f.d.toNat (BitVec.ofNat 64
      ((reduceTree (fpLane (Fields.ff f) p.2.2) 5 ((List.range (512 / Fields.w f)).map fun i =>
        if ((s.dev.core c).govern f.p).getLsbD (i * Fields.w f / 8)
          then Sector.lane ((s.dev.core c).vr f.a.toNat) (Fields.w f) i else p.2.1 (Fields.ff f))).headD 0))))) ∧
  (∀ (s : State) (c : CoreId) (f : Fields), let k := s.dev.core c; let w := Fields.w f
    (f.legalR 32 32 0 0 true laneFmts 0 = true → s.issues c [f.a.toNat] [f.d.toNat] →
      exec (.vbcast c f) s = .next (s.retires c (k.lanes f fun _ => (k.sr f.a.toNat).toNat % 2 ^ w))) ∧
    (f.legalR 32 32 32 0 true laneFmts 0 = true → s.issues c [] [f.d.toNat] →
      exec (.vsel c f) s = .next (s.retires c (k.setV f.d.toNat (ofLanes w fun i =>
        if (k.govern f.p).getLsbD (i * w / 8) then Sector.lane (k.vr f.a.toNat) w i else Sector.lane (k.vr f.b.toNat) w i))) ∧
      exec (.vperm c f) s = .next (s.drawn.retires c (k.lanes f fun i =>
        if Sector.lane (k.vr f.b.toNat) w i < 512 / w then Sector.lane (k.vr f.a.toNat) w (Sector.lane (k.vr f.b.toNat) w i)
        else Sector.lane (Config.freeSector s.dev.fresh) w i))) ∧
    (f.legalR 32 32 32 0 true laneFmts 0 = true → s.issues c [f.d.toNat, f.b.toNat] [] →
      exec (.vext c f) s = .next (s.drawn.retires c (k.setS f.d.toNat
        (if (k.sr f.b.toNat).toNat < 512 / w then BitVec.ofNat 64 (Sector.lane (k.vr f.a.toNat) w (k.sr f.b.toNat).toNat)
         else Config.freeWord s.dev.fresh)))) ∧
    (f.legalR 32 32 32 0 true laneFmts 0 = true → s.issues c [f.a.toNat, f.b.toNat] [f.d.toNat] →
      exec (.vins c f) s = .next (s.drawn.retires c
        (if (k.sr f.b.toNat).toNat < 512 / w then k.lanes f fun i =>
          if i = (k.sr f.b.toNat).toNat then (k.sr f.a.toNat).toNat % 2 ^ w else Sector.lane (k.vr f.d.toNat) w i
         else k.lanes f fun i => Sector.lane (Config.freeSector s.dev.fresh) w i)))) ∧
  (∀ (s : State) (c : CoreId) (f : Fields), let k := s.dev.core c; let w := Fields.w f
    let part := f.mod.toNat / 256 % 4; let byte := f.mod.toNat / 1024 % 64; let src := f.mod.toNat % 16; let ws := fmtWidth src
    let cvt := fun x => fmtEncode f.fmt.toNat (f.mod.getLsbD 4) (f.mod.getLsbD 5) (fmtDecode src x)
    let on := fun b => (k.govern f.p).getLsbD b
    (f.legalR 32 32 0 0 true cvtFmts 0x33F = true → cvtOk src f.fmt.toNat part = true → s.issues c [] [f.d.toNat] →
      (ws ≤ w → exec (.vcvt c f) s = .next (s.retires c (k.lanes f fun i =>
        cvt (Sector.lane (k.vr f.a.toNat) ws (part * (512 / w) + i))))) ∧
      (w < ws → exec (.vcvt c f) s = .next (s.retires c (k.setV f.d.toNat (ofLanes w fun j =>
        if 512 / ws * part ≤ j ∧ j < 512 / ws * (part + 1) ∧ on (j * w / 8) = true
          then cvt (Sector.lane (k.vr f.a.toNat) ws (j - 512 / ws * part)) else Sector.lane (k.vr f.d.toNat) w j))))) ∧
    (f.legalR 32 32 0 32 true [5, 6, 8] 0xFF00 = true → f.a.toNat % 2 = 0 → (part + 1) * 32 * w ≤ 512 →
      s.issues c [] [f.d.toNat, f.c.toNat] →
      let block := mxEncode (Fields.ff f) ((List.range 32).map fun i =>
        FloatFmt.fp32.decode (Sector.lane (k.vr (f.a.toNat + i / 16)) 32 (i % 16)))
      let k1 := k.setV f.d.toNat (ofLanes w fun j => if 32 * part ≤ j ∧ j < 32 * (part + 1) ∧ on (j * w / 8) = true
        then block.2.getD (j - 32 * part) 0 else Sector.lane (k.vr f.d.toNat) w j)
      exec (.vmxenc c f) s = .next (s.retires c (k1.setV f.c.toNat
        (ofLanes 8 fun j => if j = byte ∧ on j = true then block.1 else Sector.lane (k1.vr f.c.toNat) 8 j)))) ∧
    (f.legalR 32 32 32 0 true [5, 6, 8] 0xFF00 = true → f.d.toNat % 2 = 0 → (part + 1) * 32 * w ≤ 512 →
      s.issues c [] [f.d.toNat, f.d.toNat + 1] →
      let dec := fun i => FloatFmt.fp32.round false
        (mxValue (Fields.ff f) (Sector.lane (k.vr f.b.toNat) 8 byte) (Sector.lane (k.vr f.a.toNat) w (32 * part + i)))
      let half := fun n o => ofLanes 32 fun i => if on (i * 32 / 8) then dec (o + i) else Sector.lane (k.vr n) 32 i
      exec (.vmxdec c f) s = .next (s.retires c
        ((k.setV f.d.toNat (half f.d.toNat 0)).setV (f.d.toNat + 1) (half (f.d.toNat + 1) 16)))))

/-! ### Control and ordering (R160, R168-R171, R177, R210, R315) -/

/-- DRAIN and WAITM end when nothing they wait for is outstanding (WAITM: no mover transfer and no store), wait while something is,
and report the first earlier failure with ASYNC, WAITM a poisoned sector with POISON. END at a core whose team has another core
to come: the core has ended, with s A as its exit value. -/
def Obligations.DrainWaitAndEnd : Prop :=
  (∀ (s : State) (c : CoreId) (f : Fields), let k := s.dev.core c
    f.legalR 0 0 0 0 false [] 0 = true → s.issues c [] [] →
    (exec (.drain c f) s =
      if !k.sb.isEmpty || !s.dev.writesSettled c || k.movQ.any (·.dump) then .next s
      else match k.failDa with
        | some da => .next (s.excepts c 0x0D da)
        | none => .next (s.retires c { k with writes := [] })) ∧
    (exec (.waitm c f) s =
      if !k.movQ.isEmpty || !k.sb.isEmpty || !s.dev.writesSettled c then .next s
      else match k.failDa, k.movPoison with
        | some da, _ => .next (s.excepts c 0x0D da)
        | none, some da => .next ((s.withCore c { k with writes := [] }).excepts c 0x0B da)
        | none, none => .next (s.retires c { k with writes := [] }))) ∧
  (∀ (s : State) (c : CoreId) (f : Fields) (t : Nat) (tm : Team) (j : Nat), let k := s.dev.core c
    f.legalR 0 32 0 0 false [] 0 = true → s.issues c [f.a.toNat] [] →
    k.sb = [] → s.dev.writesSettled c = true → k.movQ = [] → k.failDa = none → k.movPoison = none →
    k.team = some t → s.dev.team t = some tm → j ∈ tm.cores → j ≠ c → (s.dev.core j).finished = false →
    exec (.endK c f) s = .next (s.retires c { k with writes := [], status := .ended, exitVal := k.sr f.a.toNat }))

/-- Branches go to 8 times their offset from their own place, or to the next instruction; NOP, RDREF and RDWAVE. TBAR arrives at the
team's barrier word with the team's size; WAITS passes a scratch word that is not zero and waits at one that is; BRK stops the
core with its own code. -/
def Obligations.ControlTransfers : Prop :=
  (∀ (s : State) (c : CoreId) (f : Fields), let k := s.dev.core c
    let n42 := (f.a ++ f.b ++ f.c ++ f.fmt ++ f.mod).toInt; let n36 := (f.b ++ f.c ++ f.fmt ++ f.mod).toInt
    (f.legalL 0 = true → s.issues c [] [] → exec (.j c f) s = .next (s.goesTo c k (k.pcAt n42))) ∧
    (f.legalL 32 = true → s.issues c [f.d.toNat] [] →
      exec (.call c f) s = .next (s.goesTo c (k.setS f.d.toNat (BitVec.ofNat 64 (k.pc + 8))) (k.pcAt n42))) ∧
    (f.legalR 0 32 0 0 false [] 0 = true → s.issues c [f.a.toNat] [] →
      exec (.jr c f) s = .next (s.goesTo c k (k.sr f.a.toNat).toNat)) ∧
    (f.legalI 0 32 false = true → s.issues c [f.a.toNat] [] →
      exec (.bz c f) s = .next (if k.sr f.a.toNat = 0 then s.goesTo c k (k.pcAt n36) else s.retires c k) ∧
      exec (.bnz c f) s = .next (if k.sr f.a.toNat = 0 then s.retires c k else s.goesTo c k (k.pcAt n36))) ∧
    (f.legalI 0 8 false = true → s.issues c [] [] →
      exec (.bpany c f) s = .next (if k.pr f.a.toNat = 0 then s.retires c k else s.goesTo c k (k.pcAt n36))) ∧
    (f.legalR 0 0 0 0 false [] 0 = true → s.issues c [] [] → exec (.nop c f) s = .next (s.retires c k)) ∧
    (f.legalR 32 0 0 0 false [] 0 = true → s.issues c [f.d.toNat] [] →
      exec (.rdref c f) s = .next (s.retires c (k.setS f.d.toNat (s.dev.qr (c.val / 68)).refCount)) ∧
      exec (.rdwave c f) s = .next (s.retires c (k.setS f.d.toNat (k.waves + 1))))) ∧
  (∀ (s : State) (c : CoreId) (f : Fields), let k := s.dev.core c
    ((f.legalRI false 0 0 && f.mod = 0) = true → s.issues c [] [] → exec (.brk c f) s = .next (s.excepts c 0x0E 0)) ∧
    (f.legalR 0 32 0 0 false [] 0 = true → s.issues c [f.a.toNat] [] →
      (k.sr f.a.toNat).toNat % 8 = 0 → (k.sr f.a.toNat).toNat + 8 ≤ k.scratchSize →
      exec (.waits c f) s = .next (if k.scratchNat (k.sr f.a.toNat).toNat 8 = 0 then s else s.retires c k)) ∧
    ∀ (t : Nat) (tm : Team) (dpa : Nat), f.legalR 0 0 0 0 false [] 0 = true → s.issues c [] [] →
      k.sb = [] → s.dev.writesSettled c = true → k.movQ.any (·.dump) = false → k.failDa = none →
      k.team = some t → s.dev.team t = some tm → tm.barrier ≠ 0 →
      (k.segOf tm.barrier).translate tm.barrier 8 .atomic = .ok dpa → (k.segOf tm.barrier).target ≠ 3 → isDram dpa = true →
      (k.segOf tm.barrier).typeAt dpa = .normal → k.isRevoked tm.barrier = false →
      ∃ m, exec (.tbar c f) s = .next ((s.withCore c
          { k.counted with writes := [], miss := none, wait := .arrive tm.cores.length tm.barrier }).sends (.req m)) ∧
        m.kind = .atomic ∧ m.op = .barrierArrive ∧ m.src = c.val ∧ m.line = dpa / 256 ∧ m.off = dpa % 64 ∧
        m.operand = BitVec.ofNat 64 tm.cores.length)

/-! ### Exceptions (R171-R174, R211) -/

/-- An exception is precise: it is recorded with the core's own offset, the core stops and keeps its registers, its store buffer
and the queued unit instructions, which are older than the faulting one; the running cores of its team stop, every other core
and the memory stay. -/
def Obligations.ExceptionIsPrecise : Prop :=
  ∀ (d : Dev) (c code : Nat) (da : Word64), let k := d.core c; let e := d.raise c code da
    (e.core c).exc = some { code := code, ioff := k.pc, da := da } ∧ (e.core c).status = .stopped ∧
    (e.core c).pc = k.pc ∧ (e.core c).s = k.s ∧ (e.core c).a = k.a ∧ (e.core c).p = k.p ∧ (e.core c).v = k.v ∧
    (e.core c).sb = k.sb ∧ (e.core c).tileQ = k.tileQ ∧ (e.core c).topQ = k.topQ ∧ (e.core c).gsubs = [] ∧
    (∀ j, j ≠ c → (k.team = none ∨ (d.core j).team ≠ k.team) → e.core j = d.core j) ∧
    (∀ t tm j, k.team = some t → d.team t = some tm → j ∈ tm.cores → (d.core j).team = some t → (d.core j).status = .running →
      (e.core j).status = .stopped) ∧
    e.mem = d.mem ∧ e.net = d.net

/-- Every instruction of the register classes raises FETCH beyond the code, does nothing at a core that does not run or waits
for data, and otherwise changes no part of the block beside cores and teams; epochs may retire only where the core stops. -/
def Obligations.RegisterInstructions : Prop :=
  ∀ op ∈ regOps, ∀ (s : State) (c : CoreId) (f : Fields), let k := s.dev.core c
    (k.status ≠ .running ∨ k.wait ≠ .none → exec (op c f) s = .next s) ∧
    (k.status = .running → k.wait = .none → k.codeSize ≤ k.pc → exec (op c f) s = .next (s.withDev (s.dev.raise c 0x02 0))) ∧
    ∃ t, exec (op c f) s = .next t ∧ t.pending = s.pending ∧ t.dev.besides = s.dev.besides ∧
      ((t.dev.core c).status = .running → t.dev.tb = s.dev.tb ∧ t.dev.cp = s.dev.cp) ∧
      (k.team = none → ∀ j, j ≠ c.val → t.dev.core j = s.dev.core j)

/-! ### Loads, stores, scratch (R157-R160, R277-R280, R309-R314) -/

/-- A load whose bytes the store buffer holds takes them; one whose sector the L1 holds takes it with the buffered bytes over it. A
load that misses in the L1 asks its home for the sector and waits; with the prefetcher off nothing else is asked. -/
def Obligations.Loads : Prop :=
  ((∀ p ∈ loadOps, ∀ (s : State) (c : CoreId) (f : Fields) (sp : Spot), let k := s.dev.core c
    let x := s.dev.cacheSec (l1No c) (sp.dpa / 256) (sp.dpa / 64 % 4)
    f.legalI 32 16 false = true → s.issues c [f.d.toNat] [] →
    k.access (k.ar f.a.toNat + wordInt f.imm36) p.2.1 .read = .ok sp → k.isRevoked sp.da = false →
    sp.rt = .normal → (k.sb.any fun e => e.rt = .device) = false →
    (byteMask (sp.dpa % 64) p.2.1 &&& ~~~(k.buffered (sp.dpa / 64)) = 0 →
      exec (p.1 c f) s = .next (s.retires c (k.setS f.d.toNat (loadValue (k.overlay (sp.dpa / 64) 0) (sp.dpa % 64) p.2.1 p.2.2)))) ∧
    (byteMask (sp.dpa % 64) p.2.1 &&& ~~~(k.buffered (sp.dpa / 64)) ≠ 0 → s.dev.serves (l1No c) = true → k.pfHas (sp.dpa / 256) = false →
      k.miss = none → (s.dev.waySec (l1No c) (sp.dpa / 256) (sp.dpa / 64 % 4)).st ≠ .I → x.st ≠ .I → x.err = 0 → x.info.poison = false →
      ∃ h, exec (p.1 c f) s = .next (s.retires c (({ k with held := h } : Core).setS f.d.toNat
        (loadValue (k.overlay (sp.dpa / 64) x.data) (sp.dpa % 64) p.2.1 p.2.2))))) ∧
  ∀ (s : State) (c : CoreId) (f : Fields) (sp : Spot), let k := s.dev.core c
    f.legalI 32 16 true = true → s.issues c [] [f.d.toNat] →
    k.access (k.ar f.a.toNat + wordInt f.imm36) 64 .read = .ok sp → k.isRevoked sp.da = false →
    sp.rt ≠ .device → (k.sb.any fun e => e.rt = .device) = false → k.buffered (sp.dpa / 64) = BitVec.allOnes 64 →
    exec (.vld c f) s = .next (s.retires c (k.setV f.d.toNat
      (Sector.merge (k.vr f.d.toNat) (k.overlay (sp.dpa / 64) 0) (k.govern f.p))))) ∧
  (∀ p ∈ loadOps, ∀ (s : State) (c : CoreId) (f : Fields) (sp : Spot), let k := s.dev.core c
    let da := k.ar f.a.toNat + wordInt f.imm36
    f.legalI 32 16 false = true → s.issues c [f.d.toNat] [] → k.access da p.2.1 .read = .ok sp → k.isRevoked sp.da = false →
    sp.rt = .normal → (k.sb.any fun e => e.rt = .device) = false →
    byteMask (sp.dpa % 64) p.2.1 &&& ~~~(k.buffered (sp.dpa / 64)) ≠ 0 → s.dev.serves (l1No c) = true → k.pfHas (sp.dpa / 256) = false →
    k.miss = none → (s.dev.cacheSec (l1No c) (sp.dpa / 256) (sp.dpa / 64 % 4)).st = .I → s.dev.l1Full c (sp.dpa / 256) = false →
    (s.dev.cache (l1No c)).pfEn = false →
    ∃ m, exec (p.1 c f) s = .next ((s.withCore c
        { k.counted with wait := .load f.d.toNat p.2.1 p.2.2 (sp.dpa % 64) da, miss := some (sp.dpa / 64) }).sends (.req m)) ∧
      m.kind = .rdShared ∧ m.src = c.val ∧ m.line = sp.dpa / 256 ∧ m.smask = secMask (sp.dpa / 64 % 4) ∧ m.rt = .normal)

/-- A store enters the store buffer; afterwards the core's own loads see its bytes over whatever the sector held. Scratch accesses
within the core's scratch, aligned to their size; a write changes its own bytes only. -/
def Obligations.StoresAndScratch : Prop :=
  ((∀ p ∈ storeOps, ∀ (s : State) (c : CoreId) (f : Fields) (sp : Spot), let k := s.dev.core c
    let mask := byteMask (sp.dpa % 64) p.2
    let x : Sector := BitVec.ofNat 512 ((k.sr f.d.toNat).toNat % 2 ^ (8 * p.2) * 256 ^ (sp.dpa % 64))
    f.legalI 32 16 false = true → s.issues c [f.d.toNat] [] →
    k.access (k.ar f.a.toNat + wordInt f.imm36) p.2 .write = .ok sp → k.isRevoked (k.ar f.a.toNat + wordInt f.imm36) = false →
    (k.storeIn sp mask x).sb.length ≤ 16 → exec (p.1 c f) s = .next (s.retires c (k.storeIn sp mask x))) ∧
  (∀ (s : State) (c : CoreId) (f : Fields) (sp : Spot), let k := s.dev.core c
    f.legalI 32 16 true = true → s.issues c [] [] →
    k.access (k.ar f.a.toNat + wordInt f.imm36) 64 .write = .ok sp → k.isRevoked (k.ar f.a.toNat + wordInt f.imm36) = false →
    (k.storeIn sp (k.govern f.p) (k.vr f.d.toNat)).sb.length ≤ 16 →
    exec (.vst c f) s = .next (s.retires c (k.storeIn sp (k.govern f.p) (k.vr f.d.toNat)))) ∧
  ∀ (k : Core) (sp : Spot) (mask : Word64) (x y : Sector) (i n : Nat), i < 64 →
    Sector.lane ((k.storeIn sp mask x).overlay n y) 8 i =
      if n = sp.dpa / 64 ∧ mask.getLsbD i = true then Sector.lane x 8 i else Sector.lane (k.overlay n y) 8 i) ∧
  ((∀ (s : State) (c : CoreId) (f : Fields), let k := s.dev.core c; let o := (k.sr f.a.toNat + wordInt f.imm36).toNat
    (f.legalI 32 32 true = true → o % 64 = 0 → o + 64 ≤ k.scratchSize →
      (s.issues c [f.a.toNat] [f.d.toNat] → exec (.vlds c f) s = .next (s.retires c (k.setV f.d.toNat
        (Sector.merge (k.vr f.d.toNat) (k.scratchSector o) (k.govern f.p))))) ∧
      (s.issues c [f.a.toNat] [] → exec (.vsts c f) s = .next (s.retires c (k.putScratch o (Sector.bytes
        (Sector.merge (k.scratchSector o) (k.vr f.d.toNat) (k.govern f.p))))))) ∧
    (f.legalI 32 32 false = true → o % 8 = 0 → o + 8 ≤ k.scratchSize → s.issues c [f.a.toNat, f.d.toNat] [] →
      exec (.sld64 c f) s = .next (s.retires c (k.setS f.d.toNat (BitVec.ofNat 64 (k.scratchNat o 8)))) ∧
      exec (.sst64 c f) s = .next (s.retires c (k.putScratch o (leBytes 8 (k.sr f.d.toNat).toNat))))) ∧
  ∀ (k : Core) (o a : Nat) (bs : List Byte),
    (k.putScratch o bs).scratchByte a = (if o ≤ a ∧ a < o + bs.length then bs.getD (a - o) 0 else k.scratchByte a) ∧
    ({ k.putScratch o bs with scratch := [] } : Core) = { k with scratch := [] })

/-- Accesses are checked in the order alignment, limit, rights, target, and the first failure is the exception; nothing is
loaded or stored. -/
def Obligations.AccessExceptions : Prop :=
  (∀ (k : Core) (da : Word64) (size : Nat) (right : Right), let r := k.segOf da
    k.access da size right =
      if da.toNat % size ≠ 0 then .error 0x03
      else if r.valid = false ∨ da.toNat / 2 ^ 48 % 2 ^ 13 ≠ 0 ∨ r.limit < da.toNat % 2 ^ 48 + (size - 1) then .error 0x04
      else if r.has right = false then .error 0x05
      else if r.target = 3 then .error 0x06
      else .ok { da := da, dpa := r.dpa (da.toNat % 2 ^ 48), rt := r.typeAt (r.dpa (da.toNat % 2 ^ 48)) }) ∧
  (∀ p ∈ loadOps, ∀ (s : State) (c : CoreId) (f : Fields) (e : Nat), let da := (s.dev.core c).ar f.a.toNat + wordInt f.imm36
    f.legalI 32 16 false = true → s.issues c [f.d.toNat] [] → (s.dev.core c).access da p.2.1 .read = .error e →
    exec (p.1 c f) s = .next (s.excepts c e da)) ∧
  ∀ p ∈ storeOps, ∀ (s : State) (c : CoreId) (f : Fields) (e : Nat), let da := (s.dev.core c).ar f.a.toNat + wordInt f.imm36
    f.legalI 32 16 false = true → s.issues c [f.d.toNat] [] → (s.dev.core c).access da p.2 .write = .error e →
    exec (p.1 c f) s = .next (s.excepts c e da)

/-! ### Tile and top-k units (R152, R153, R195-R209) -/

/-- A tile instruction whose checks pass enters the unit's queue with its scalar operands; ACCMODE takes effect at once; an exact
image is refused with MODE in FP32 mode. TILE_UNIT_COMPLETE gives the oldest instruction its effect and nothing else, but that a
core which no longer runs may have nothing more to do; at a core that is to restart its unit, or with an empty queue, it changes
nothing. What the tile unit computes, element by element: in FP32 mode the exact sum of a row's terms with the old value,
rounded once; in exact mode each term on its own, in any order of equal effect; tile moves row by row. -/
def Obligations.TileUnit : Prop :=
  ((∀ p ∈ tileOps, ∀ (s : State) (c : CoreId) (f : Fields), let k := s.dev.core c
    Fields.legalTile f p.2.2 = true → s.issues c [] [] → k.tileFree (some f.d.toNat) →
    (k.exact = true → f.fmt ≠ 1 ∧ f.fmt ≠ 2) → exec (p.1 c f) s = .next (s.queuedTile c p.2.1 f 0 0 0)) ∧
  ∀ (s : State) (c : CoreId) (f : Fields), let k := s.dev.core c
    let sa := k.sr f.a.toNat; let sb := k.sr f.b.toNat; let sc := k.sr f.c.toNat
    let fits := fun (o : Word64) n => o.toNat % 64 = 0 ∧ o.toNat + n ≤ k.scratchSize
    (f.legalR 16 32 0 0 false [] 0 = true → s.issues c [f.a.toNat] [] → k.tileFree none → fits sa 4096 →
      exec (.tld c f) s = .next (s.queuedTile c .tld f sa 0 0) ∧ exec (.tst c f) s = .next (s.queuedTile c .tst f sa 0 0)) ∧
    (f.legalR 16 0 0 0 false [] 0 = true → s.issues c [] [] → k.tileFree none →
      exec (.tzero c f) s = .next (s.queuedTile c .tzero f 0 0 0)) ∧
    (f.legalR 16 16 0 0 false [] 0 = true → s.issues c [] [] → k.tileFree none →
      exec (.ttr8 c f) s = .next (s.queuedTile c .ttr8 f 0 0 0)) ∧
    (f.legalR 4 0 0 0 false [] 0 = true → s.issues c [] [] → k.tileFree (some f.d.toNat) →
      exec (.acczero c f) s = .next (s.queuedTile c .acczero f 0 0 0)) ∧
    (f.legalR 0 4 32 32 false [0, 1, 2, 3, 4, 5, 6, 7, 8, 9, 10, 11, 12, 13, 14] 0x10 = true → s.issues c [f.b.toNat, f.c.toNat] [] →
      k.tileFree (some f.a.toNat) →
      k.rowsExc sb.toNat sc.toNat (accRowBytes f.fmt.toNat) (accScaleBytes f.fmt.toNat) = none →
      exec (.accst c f) s = .next (s.queuedTile c .accst f sb sc 0)) ∧
    (f.legalR 4 32 32 0 false [] 0 = true → s.issues c [f.a.toNat, f.b.toNat] [] → k.tileFree (some f.d.toNat) → k.exact = false →
      k.rowsExc sa.toNat sb.toNat 256 0 = none → exec (.accld c f) s = .next (s.queuedTile c .accld f sa sb 0)) ∧
    (f.legalR 0 4 32 0 false [] 0 = true → s.issues c [f.b.toNat] [] → k.tileFree (some f.a.toNat) →
      fits sb (if k.exact then 65536 else 16384) → exec (.accsave c f) s = .next (s.queuedTile c .accsave f sb 0 0)) ∧
    (f.legalR 4 32 0 0 false [] 0 = true → s.issues c [f.a.toNat] [] → k.tileFree (some f.d.toNat) →
      (k.exact = true → fits sa 65536 → exec (.accrestore c f) s = .next (s.queuedTile c .accrestore f sa 0 0) ∧
        exec (.accmrg c f) s = .next (s.queuedTile c .accmrg f sa 0 0)) ∧
      (k.exact = false → exec (.accrestore c f) s = .next (s.excepts c 0x08 0) ∧ exec (.accmrg c f) s = .next (s.excepts c 0x08 0))) ∧
    (f.legalRI false 0 0 = true → s.issues c [] [] → ((k.tileQ ++ k.topQ).any fun x => !x.accUse.isEmpty) = false →
      exec (.accmode c f) s = .next (s.retires c
        { k with exact := f.mod.getLsbD 8, accL := (BitVec.ofNat 8 f.mod.toNat).toInt, accF := [], accX := [] }))) ∧
  (∀ (s : State) (c : CoreId), let k := s.dev.core c
    (∀ q rest, k.tileQ = q :: rest → (s.dev.qr (c.val / 68)).restart.contains c.val = false →
      let t := s.withCore c (({ k with tileQ := rest } : Core).tileRun q)
      exec (.tileUnitComplete c) s = .next (if k.status = .running then t else t.withDev (t.dev.coreDone c))) ∧
    (k.tileQ = [] ∨ (s.dev.qr (c.val / 68)).restart.contains c.val = true → exec (.tileUnitComplete c) s = .next s)) ∧
  (∀ (k : Core) (q : Queued) (i j : Nat), i < 64 → j < 64 → let d := q.f.d.toNat; let z := q.f.mod.getLsbD 6
    (q.op ∈ [.tmma, .tl2, .tl1, .tham, .tmins, .tmaxs] →
      (k.exact = false → (k.tileRun q).accAt d i j = BitVec.ofNat 32 (FloatFmt.fp32.round false
        ((if z then Val.zero else FloatFmt.fp32.decode (k.accAt d i j).toNat).add (exactSum (k.tileTerms q i j))))) ∧
      (k.exact = true → (k.tileRun q).accXAt d i j =
        (k.tileTerms q i j).foldl (Exact.addVal k.accL) (if z then .zero else k.accXAt d i j)) ∧
      ∀ n, n ≠ d → (k.tileRun q).accAt n i j = k.accAt n i j ∧ (k.tileRun q).accXAt n i j = k.accXAt n i j) ∧
    (q.op = .acczero → (k.exact = false → (k.tileRun q).accAt d i j = 0) ∧ (k.exact = true → (k.tileRun q).accXAt d i j = .zero)) ∧
    (q.op = .accld → (k.tileRun q).accAt d i j = BitVec.ofNat 32 (k.scratchNat (q.x.toNat + q.y.toNat * i + 4 * j) 4)) ∧
    (q.op = .accrestore → (k.tileRun q).accXAt d i j =
      Exact.ofImage (BitVec.ofNat 128 (k.scratchNat (q.x.toNat + 16 * (64 * i + j)) 16))) ∧
    (q.op = .accsave →
      (k.exact = false → (k.tileRun q).scratchNat (q.x.toNat + 4 * (64 * i + j)) 4 = (k.accAt q.f.a.toNat i j).toNat) ∧
      (k.exact = true → (k.tileRun q).scratchNat (q.x.toNat + 16 * (64 * i + j)) 16 =
        ((k.accXAt q.f.a.toNat i j).image k.accL).toNat)) ∧
    (q.op = .accmrg → (∀ e, e < 4096 → Exact.imageL (BitVec.ofNat 128 (k.scratchNat (q.x.toNat + 16 * e) 16)) = k.accL) →
      (k.tileRun q).accXAt d i j =
        (k.accXAt d i j).merge (Exact.ofImage (BitVec.ofNat 128 (k.scratchNat (q.x.toNat + 16 * (64 * i + j)) 16)))) ∧
    (q.op = .accst → accRowBytes q.f.fmt.toNat ≤ q.y.toNat → ∀ b, b < accRowBytes q.f.fmt.toNat →
      (k.tileRun q).scratchByte (q.x.toNat + q.y.toNat * i + b) =
        (k.accRow q.f.a.toNat q.f.fmt.toNat (q.f.mod.getLsbD 4) i).1.getD b 0) ∧
    (q.op = .tzero → (k.tileRun q).tileRow d i = 0) ∧
    (q.op = .tld → (k.tileRun q).tileRow d i = k.scratchSector (q.x.toNat + 64 * i)) ∧
    (q.op = .tst → (k.tileRun q).scratchByte (q.x.toNat + 64 * i + j) = Sector.byte (k.tileRow d i) j) ∧
    (q.op = .ttr8 → Sector.lane ((k.tileRun q).tileRow d i) 8 j = Sector.lane (k.tileRow q.f.a.toNat j) 8 i))

/-- A top-k instruction whose checks pass enters its unit's queue with its scalar operands. TOPK_UNIT_COMPLETE: TKINIT sets k, the
lists, direction and key type and empties every list; a push of entries from scratch leaves the best k of its list; TKOUT stores
the list, best first, empties it and writes the count. At a core that no longer runs the effect is the same, and the core may
have nothing more to do. -/
def Obligations.TopkUnit : Prop :=
  (∀ (s : State) (c : CoreId) (f : Fields), let k := s.dev.core c
    let sa := k.sr f.a.toNat; let sb := k.sr f.b.toNat; let sc := k.sr f.c.toNat
    (f.legalR 0 32 32 0 false [] 7 = true → f.mod.toNat / 2 % 4 ≠ 3 → s.issues c [f.a.toNat, f.b.toNat] [] → k.topFree →
      1 ≤ sa.toNat → sa.toNat ≤ 1024 → 1 ≤ sb.toNat → sb.toNat ≤ 64 → sa.toNat * sb.toNat ≤ 1024 →
      exec (.tkinit c f) s = .next (s.queuedTop c .tkinit f sa sb 0)) ∧
    (f.legalR 0 4 32 32 false [] 0 = true → s.issues c [f.b.toNat, f.c.toNat] [] → k.topFree → (k.exact = true → f.a.toNat < 2) →
      (k.tileQ.any fun x => x.accWrite.contains f.a.toNat) = false →
      exec (.tkpush c f) s = .next (s.queuedTop c .tkpush f sb sc 0)) ∧
    (f.legalR 0 32 32 32 false [] 0 = true → s.issues c [f.a.toNat, f.b.toNat, f.c.toNat] [] → k.topFree →
      sa.toNat % 16 = 0 → sa.toNat + 16 * sb.toNat ≤ k.scratchSize →
      exec (.tkpushs c f) s = .next (s.queuedTop c .tkpushs f sa sb sc)) ∧
    (f.legalR 32 32 32 0 false [] 0 = true → s.issues c [f.d.toNat, f.a.toNat, f.b.toNat] [] → k.topFree →
      sa.toNat % 16 = 0 → sa.toNat + 16 * k.tkKAhead ≤ k.scratchSize →
      exec (.tkout c f) s = .next (s.queuedTop c .tkout f sa sb 0))) ∧
  (∀ (s : State) (c : CoreId) (q : Queued) (rest : List Queued), let k := s.dev.core c
    k.topQ = q :: rest →
    (k.status ≠ .running →
      exec (.topkUnitComplete c) s = .next (s.withDev (((s.dev.setCore c { k with topQ := rest }).topRun c q).coreDone c))) ∧
    (k.status = .running →
    (q.op = .tkinit → exec (.topkUnitComplete c) s = .next (s.withCore c
      { k with topQ := rest, tkK := q.x.toNat, tkL := q.y.toNat, tkDesc := q.f.mod.getLsbD 0, tkKey := q.f.mod.toNat / 2 % 4, tkLists := [] })) ∧
    (q.op = .tkpushs → q.z.toNat < k.tkL → ∃ ls, exec (.topkUnitComplete c) s = .next (s.withCore c { k with topQ := rest, tkLists := ls }) ∧
      Map.get [] ls q.z.toNat = ((List.range q.y.toNat).foldl (fun xs i =>
        (tkInsert k.tkDesc k.tkKey (k.entryAt (q.x.toNat + 16 * i)) xs).take k.tkK) (Map.get [] k.tkLists q.z.toNat)) ∧
      ∀ n, n ≠ q.z.toNat → Map.get [] ls n = Map.get [] k.tkLists n) ∧
    (q.op = .tkpush → q.x.toNat < 64 → ∃ ls, exec (.topkUnitComplete c) s = .next (s.withCore c { k with topQ := rest, tkLists := ls }) ∧
      Map.get [] ls (q.x.toNat % k.tkL) = ((List.range 64).foldl (fun xs j =>
        (tkInsert k.tkDesc k.tkKey { id := q.y + BitVec.ofNat 64 j, key := BitVec.ofNat 32 (k.accFp32 q.f.a.toNat q.x.toNat j) } xs).take
          k.tkK) (Map.get [] k.tkLists (q.x.toNat % k.tkL))) ∧
      ∀ n, n ≠ q.x.toNat % k.tkL → Map.get [] ls n = Map.get [] k.tkLists n) ∧
    (q.op = .tkout → q.y.toNat < k.tkL → exec (.topkUnitComplete c) s = .next (s.withCore c
      ((({ k with topQ := rest, tkLists := Map.put k.tkLists q.y.toNat [] } : Core).putScratch q.x.toNat
        ((Map.get [] k.tkLists q.y.toNat).flatMap TkEntry.bytes)).setS q.f.d.toNat
          (BitVec.ofNat 64 (Map.get [] k.tkLists q.y.toNat).length))))))

/-! ### The scratch mover, GSUB and atomics (R159, R160, R176, R177, R266) -/

/-- A one-sector transfer between scratch and a tier or host segment, with the mover idle: SFILL asks the sector's home for
its data, SDUMP sends the bytes of scratch. -/
def Obligations.MoverTransfers : Prop :=
  ∀ (s : State) (c : CoreId) (f : Fields) (dpa : Nat), let k := s.dev.core c
    let da := k.ar f.a.toNat; let o := (k.sr f.b.toNat).toNat; let r := k.segOf da
    f.legalR 0 16 32 32 false [] 0 = true → s.issues c [f.b.toNat, f.c.toNat] [] → k.sr f.c.toNat = 64 → da.toNat % 64 = 0 →
    o + 64 ≤ k.scratchSize → k.movQ = [] → k.isRevoked da = false → r.target ≤ 2 → r.dpa (daOff da) = dpa → dpa % 64 = 0 →
    (r.translate da 64 .read = .ok dpa → ∃ m, exec (.sfill c f) s = .next ((s.retires c
        { k with movQ := [{ dump := false, da := da, scratch := o, len := 64, pos := 64, out := [o] }] }).sends (.req m)) ∧
      m.kind = .rdCurrent ∧ m.src = c.val ∧ m.line = dpa / 256 ∧ m.smask = secMask (dpa / 64 % 4)) ∧
    (r.translate da 64 .write = .ok dpa → ∃ m, exec (.sdump c f) s = .next ((s.retires c { k with
        movQ := [{ dump := true, da := da, scratch := o, len := 64, pos := 64, out := [daOff da] }]
        writes := k.writes ++ [{ sector := dpa / 64, da := da, mover := true, done := false, kept := false }] }).sends (.req m)) ∧
      m.kind = .wrFull ∧ m.src = c.val ∧ m.line = dpa / 256 ∧ m.smask = secMask (dpa / 64 % 4) ∧
      m.pay = [{ sec := dpa / 64 % 4, data := k.scratchSector o, info := .zero }])

/-- AMO with an empty store buffer sends one atomic of its operation and operands to the sector's home, and the core waits
for the old value; ATOMRSP writes that value and the core goes on. -/
def Obligations.AtomicsComplete : Prop :=
  (∀ (s : State) (c : CoreId) (f : Fields) (op : AtomicOp) (sp : Spot), let k := s.dev.core c; let n := f.mod.getLsbD 4
    f.legalR 32 16 32 32 false [] 0x1F = true → amoOp f = some op → op = .cas ∨ f.c = 0 → s.issues c [f.d.toNat, f.b.toNat, f.c.toNat] [] →
    k.access (k.ar f.a.toNat) (if n then 4 else 8) .atomic = .ok sp → k.sb = [] → sp.rt ≠ .device → k.failDa = none →
    k.isRevoked (k.ar f.a.toNat) = false → isReg sp.dpa = false →
    ∃ m, exec (.amo c f) s = .next ((s.withCore c
        { k.counted with wait := .amo f.d.toNat n (k.ar f.a.toNat) }).sends (.req m)) ∧
      m.kind = .atomic ∧ m.src = c.val ∧ m.op = op ∧ m.line = sp.dpa / 256 ∧ m.off = sp.dpa % 64 ∧ m.narrow = n ∧
      m.operand = k.sr f.b.toNat ∧ m.cmp = k.sr f.c.toNat) ∧
  ∀ (s : State) (m : RspMsg) (reg : Nat) (n : Bool) (da : Word64), let k := s.dev.core m.dst; 
    m.kind = .atomRsp → isCore m.dst = true → s.dev.partHeld m.dst = false → k.wait = .amo reg n da → m.info.poison = false →
    exec (.atomrsp m) s = .next ((s.withDev (s.dev.taken (.rsp m))).withCore m.dst
      { ({ k with wait := .none } : Core).setS reg (if n then BitVec.ofNat 64 (m.old.toNat % 2 ^ 32) else m.old) with pc := k.pc + 8 })

/-- GSUB whose checks pass stands among the core's outstanding GSUBs, its descriptor admitted, and the core goes on. -/
def Obligations.GsubStarts : Prop :=
  ∀ (s : State) (c : CoreId) (f : Fields) (ck : Checked) (d1 : Dev), let k := s.dev.core c
    let o := (k.sr f.a.toNat).toNat; let out := (k.sr f.b.toNat).toNat; let rc := (k.sr f.c.toNat).toNat
    let d := s.dev.setCore c k.counted
    let w := gsubWords (bytesWords 8 (k.scratchBytes o 64)) (c.val / 68)
    f.legalR 0 32 32 32 false [] 0 = true → s.issues c [f.a.toNat, f.b.toNat, f.c.toNat] [] → k.gsubs = [] →
    o + 64 ≤ k.scratchSize → rc + 32 ≤ k.scratchSize → out + d.gsubLen w k.ctx ≤ k.scratchSize →
    gsubCheck w k.ctx d = .ok (.ok ck, d1) → k.cls ≠ 2 → (d1.core c).gsubs = [] → d1.run { queue := gsubQueue c, index := 0 } = none →
    ∃ t, exec (.gsub c f) s = .next t ∧
      (t.dev.core c).gsubs = [{ index := 0, output := out, len := d.gsubLen w k.ctx, record := rc }] ∧
      (t.dev.core c).pc = (d1.core c).pc + 8 ∧ ∃ r, t.dev.run { queue := gsubQueue c, index := 0 } = some r ∧ r.w = w

/-! ### Margin managers (02_self_timing_and_margins.md R48-R74; 17_boundary.md R494, R499) -/

/-- A canary round outside emergencies and replans records every powered group's margins and the quarter's wave rate; it starts a
replan exactly when a plan exists and a margin is below the alert level or a figure read at the plan's settings has moved too
far from it (the settings are the model's condition, notes/assumptions 142). A first canary failure begins the quarter's margin
emergency: the latch, four tap steps more, the issue gate at 1/16, a 20 mV higher request, the alert and the fatal report; a
group 7 empties the side buffers of the quarter's slices, groups 8 and 9 send host reads that their controllers serve poisoned
and take the read-backs that failed. Another failure of the same group only sets its latch (the model's choice,
notes/assumptions 145). -/
def Obligations.Canaries : Prop :=
  (∀ (s : State) (q : QuarterId) (ms : List Nat) (rate : Nat), let d := s.dev; let x := d.qr q
    d.refStopped = false → d.quarterInReset q = false → d.gatedNow = false → d.pwr.state = 0 → x.emGroups = [] → x.wait = .none →
    (x.planned = true → x.planMargin ≠ []) →
    ∃ y : Quarter, (∀ k, k < 64 → Map.get 0 y.margin k = ms.getD k 0) ∧
      y = { x with margin := y.margin, waveRate := rate, readVolt := x.vmeas, readTemp := x.junctionMax } ∧
      let same := fun g => x.tapOf g = Map.get 31 x.planTap g
      let cause := x.planned = true ∧ ((∃ k, k < 64 ∧ ms.getD k 0 < x.sett.alert) ∨
        x.vreq = x.planVreq ∧ (((∀ g, g < 16 → same g) ∧ x.drifted rate x.planWave = true) ∨
          ∃ g, g < 16 ∧ same g ∧ x.drifted (y.groupMargin g) (Map.get 0 x.planMargin g) = true))
      (cause → exec (.canaryReadRound q ms rate) s = .next (s.withDev ((d.setQ q { y with trigger := true }).replan q))) ∧
      (¬cause → exec (.canaryReadRound q ms rate) s = .next (s.withDev (d.setQ q { y with trigger := false })))) ∧
  (∀ (s : State) (q : QuarterId) (g : Fin 16) (i : Fin 4) (reads : Nat) (bad : List Nat), let d := s.dev; let x := d.qr q
    let latched := Map.put x.latch (4 * g + i) true
    d.quarterInReset q = false → d.gated g = false →
    (x.emGroups = [] → x.wait = .none →
      let e := ((((d.setQ q { x with
            latch := latched, tap := Map.put x.tap g (min (x.tapOf g + 4) 31), gateDiv := 16, emGroups := [g.val]
            emGood := 0, emRestored := false, again := false }).vreqTo q (min 850 (x.vreq + 20))).marginAlert q 1).fault
          (mkFault (0x3E8 + q) .fatal 0x04 (g + 65536 * min 65535 reads)))
      (g.val ≠ 8 → g.val ≠ 9 → exec (.canaryFail q g i [] reads bad) s = .next (s.withDev (if g.val = 7 then e.emptySides q else e))) ∧
      (g.val = 8 ∨ g.val = 9 → exec (.canaryFail q g i [] reads bad) s = .next (s.withDev
        (bad.foldl (fun f sector => f.readBackBad q g sector) (e.suspectReads q g))))) ∧
    (g.val ∈ x.emGroups → x.emRestored = false →
      exec (.canaryFail q g i [] reads bad) s = .next (s.withDev (d.setQ q { x with latch := latched }))))

/-- Deadline of an emergency, the opening of its gate, and the interval of scheduled replans; with the reference clock lost
their time does not come. -/
def Obligations.EmergencyCourse : Prop :=
  (∀ (s : State) (q : QuarterId), s.dev.refStopped = true →
    exec (.marginDeadline q) s = .next s ∧ exec (.issueGateDouble q) s = .next s ∧ exec (.replanInterval q) s = .next s) ∧
  ∀ (s : State) (q : QuarterId), s.dev.refStopped = false → let d := s.dev; let x := d.qr q
    (x.emGroups ≠ [] → x.emRestored = false →
      exec (.marginDeadline q) s = .next (s.withDev (d.trigger { source := .margin, origin := .none, subject := 0x3E8 + q, info := 0 }))) ∧
    (x.emGroups = [] ∨ x.emRestored = true → exec (.marginDeadline q) s = .next s) ∧
    (x.emRestored = true → 2 < x.gateDiv →
      exec (.issueGateDouble q) s = .next (s.withDev ((d.setQ q { x with gateDiv := x.gateDiv / 2 }).admitWaiting))) ∧
    (x.emRestored = true → x.gateDiv = 2 →
      let e := (d.setQ q { x with gateDiv := 1, emGroups := [], emRestored := false, emGood := 0, latch := [] }).admitWaiting
      exec (.issueGateDouble q) s = .next (s.withDev
        (if d.gatedNow then e.walkStep q (if d.pwr.exiting then x.planVreq else 600) else e.replan q))) ∧
    (d.quarterInReset q = false → x.emGroups = [] → d.gatedNow = false → d.pwr.state = 0 → x.wait = .none →
      exec (.replanInterval q) s = .next (s.withDev (d.setQ q { x with
        noChange := false, schedDue := false, stage := [], wait := .taps, down := false, retried := false, again := false, sett := d.planSet q
        progress := { state := 1, position := 0, total := 16, queue := 0xFFFF, tag := 0, start := d.stamp } })))

/-- A supply step that has settled within 10 mV ends the wait, and a power state's walk takes its next 5 mV; one that has not is
asked for again. The repeat resends every quarter's request; the limiter halves, doubles or keeps the admission window by the
average draw. Ageing, the reference clock and the throttle pin; a sensor sample. -/
def Obligations.SupplyAgeingClock : Prop :=
  ((∀ (s : State) (q : QuarterId) (mv goal : Nat), s.dev.refStopped = false → let d := s.dev; let x := d.qr q
    x.wait = .walk goal → x.noChange = false → x.emGroups = [] → x.vreq ≤ mv + 10 → mv ≤ x.vreq + 10 →
    (x.vreq = goal → exec (.voltStepSettle q mv) s = .next (s.withDev (d.setQ q { x with vmeas := mv, wait := .none }))) ∧
    (x.vreq + 5 ≤ goal → exec (.voltStepSettle q mv) s = .next (s.withDev
      ((d.setQ q { x with vmeas := mv, wait := .walk goal, retried := false }).vreqTo q (x.vreq + 5)))) ∧
    (goal + 5 ≤ x.vreq → exec (.voltStepSettle q mv) s = .next (s.withDev
      ((d.setQ q { x with vmeas := mv, wait := .walk goal, retried := false }).vreqTo q (x.vreq - 5))))) ∧
  (∀ (s : State) (q : QuarterId) (mv : Nat), s.dev.refStopped = false → let d := s.dev; let x := d.qr q
    x.wait = .up ∨ x.wait = .down →
    (x.vreq ≤ mv + 10 → mv ≤ x.vreq + 10 →
      exec (.voltStepSettle q mv) s = .next (s.withDev (d.setQ q { x with vmeas := mv, wait := .taps, stage := [], retried := false }))) ∧
    (mv + 10 < x.vreq ∨ x.vreq + 10 < mv → x.retried = false →
      exec (.voltStepSettle q mv) s = .next (s.withDev ((d.setQ q { x with vmeas := mv, retried := true }).vreqFrame q)))) ∧
  (∀ s : State, s.dev.refStopped = false → s.dev.pins.vreqDriven = true →
    exec .vreqRepeat s = .next (s.withDev { s.dev with
      pins := { s.dev.pins with vreqWord := 63 }
      out := (([3, 2, 1, 0] : List Nat).map fun q =>
        let level : BitVec 6 := BitVec.ofNat 6 (((s.dev.qr q).vreq - 600) / 5)
        Out.vreq (BitVec.ofNat 6 (56 + q)) level (~~~level)) ++ s.dev.out })) ∧
  ∀ (s : State) (avg : Nat), s.dev.refStopped = false → let d := s.dev; let lim := 10 * d.powerLimit; let w := d.mg.limiter
    ∃ r, (98 * lim ≤ 100 * avg → r = max d.admitWindowMin (w / 2)) ∧ (100 * avg < 95 * lim → r = min 16384 (2 * w)) ∧
      (100 * avg < 98 * lim → 95 * lim ≤ 100 * avg → r = w) ∧
      exec (.powerLimiterWindow avg) s = .next (s.withDev
        ({ d with mg := { d.mg with powerAvg := avg, powerPeak := max d.mg.powerPeak avg, limiter := r } } : Dev).admitWaiting)) ∧
  ((∀ (s : State) (q : QuarterId), let d := s.dev; let x := d.qr q
    (d.refStopped = false → 900 ≤ x.ageing → exec (.ageingBeyondRating q) s = .next (s.withDev ((d.marginAlert q 4).lifeLog 8 q (BitVec.ofNat 64 x.ageing)))) ∧
    (x.ageing < 900 → exec (.ageingBeyondRating q) s = .next s) ∧
    (x.refLost = false → ∃ e, e = (d.setQ q { x with refLost := true }).fault (mkFault (0x3E8 + q) .critical 0x11 0) ∧
      exec (.refclkLost q) s = .next (s.withDev { e with mg := { e.mg with synced := false } })) ∧
    exec (.refclkReturn q) s = .next (s.withDev (d.setQ q { x with refLost := false }))) ∧
  (∀ s : State, exec .throttleNAssert s = .next (s.withDev { s.dev with pins := { s.dev.pins with throttle := true } })) ∧
  (∀ s : State, s.dev.pins.throttle = true → (∀ p ∈ s.dev.cores, p.2.tileQ = []) →
    ∃ e : Dev, exec .throttleNRelease s = .next (s.withDev e.admitWaiting) ∧ e.pins = { s.dev.pins with throttle := false } ∧
      (∀ q, q < 4 → e.qr q = { s.dev.qr q with restart := [] }) ∧ e.cores = s.dev.cores ∧ e.cp = s.dev.cp) ∧
  ∀ (s : State) (m : Sensors), m.stackT = [] → m.dieT = [] → m.quarters.length = 4 →
    ∃ t, exec (.sensorSample m) s = .next t ∧ t.dev.mg = { s.dev.mg with vbk := m.vbk } ∧
      ∀ q r, q < 4 → m.quarters[q]? = some r → let (sram, io, core, cur, tmax, tmean) := r
        t.dev.qr q = { s.dev.qr q with
          vddSram := sram, vddIo := io, vmeas := core, vcoreCur := cur, junctionMax := tmax, junctionMean := tmean })

/-! ### Tables (03_tables_and_lookups.md R75-R103) -/

/-- The maintenance descriptors of a table: a definition that its form and its segments allow makes the table, one that they
do not ends with the status of Table 3.2; a retired table goes once no other descriptor for it is in execution; SKETCH_DECAY
halves every counter of the table; the devices that take part in its steps are replaced; an entry of CARAFE_REFRESH counts by its outcome and the list ends with OK; a guest entry
is attached, and detached once it holds no live row. The record's status stands in the ended run. -/
def Obligations.TableMaintenance : Prop :=
  (∀ (d : Dev) (id : DescId) (r : Run) (st : Nat), d.run id = some r → r.stage = .running →
    (d.endRun id st).run id = some { r with stage := .ended, status := st }) ∧
  ∀ (s : State) (id : DescId) (r : Run) (h : List HostAnswer), let e := s.dev.begun id; let ac := r.segsBy mgmtAgent r.ctx h
    (s.serving id r tyMaint (some 1) → ∀ bs m d2, readDa ac (qWord r.w 2) 0 64 e = .ok (.ok (bs, false, m), d2) →
      let w := bytesWords 8 bs
      (e.tableForm w r.ctx false ≠ stOk → exec (.tableDefine id h) s = .next (s.withDev (d2.endRun id (e.tableForm w r.ctx false)))) ∧
      (e.tableForm w r.ctx false = stOk →
        (∀ k ∈ tableSegs w, (e.seg (tbCtx w) k).valid = true ∧ (e.seg (tbCtx w) k).read = true ∧
          (tbOpt w ≠ 0 → (e.seg (tbCtx w) k).update = true)) → tbShards w = 1 → tbSketch w = false →
        exec (.tableDefine id h) s = .next (s.withDev
          ((d2.setTable (tbId w) (some (mkTable w (if tbEpoch w then 1 else 0) none))).endRun id stOk)))) ∧
    (s.serving id r tyMaint (some 2) → let t := qBits r.w 2 52 12
      (e.tableInExec t = 1 → exec (.tableRetire id) s = .next (s.withDev ((e.dropTable t).endRun id stOk))) ∧
      (e.tableInExec t ≠ 1 → exec (.tableRetire id) s = .next (s.withDev e))) ∧
    (s.serving id r tyMaint (some 3) → ∀ x, e.table (qBits r.w 3 52 12) = some x → let n := qBits r.w 3 0 32
      (n ≤ r.pos → exec (.carafeRefresh id 1 h) s = .next (s.withDev (e.endRun id stOk))) ∧
      (r.pos < n → ∀ bs d2 d3 k, let q0 := leAt bs 0 8; let q1 := leAt bs 8 8
        e.reads ac (qWord r.w 2) (16 * r.pos) 16 bs d2 →
        carafeOp (r.segsBy mgmtAgent (tbCtx x.w) h) (qBits r.w 3 52 12) x.w (q0.testBit 63) (field q0 0 40) (field q1 0 43) d2 =
          .ok (.ok k, d3) →
        let e1 := (d3.updRun id fun y => y.addCount k 1).setPos id (r.pos + 1)
        exec (.carafeRefresh id 1 h) s = .next (s.withDev (if r.pos + 1 = n then e1.endRun id stOk else e1)))) ∧
    (s.serving id r tyMaint (some 4) → let t := qBits r.w 2 52 12
      ∃ e1 : Dev, exec (.sketchDecay id) s = .next (s.withDev (e1.endRun id stOk)) ∧
        e1 = { e with tb := { e.tb with sketch := e1.tb.sketch } } ∧
        ∀ i, Map.get 0 e1.tb.sketch i = if i / 65536 = t then Map.get 0 e.tb.sketch i / 2 else Map.get 0 e.tb.sketch i) ∧
    (s.serving id r tyMaint (some 5) → ∀ bs m d2 x y os d4, let t := qBits r.w 3 52 12; let n := qBits r.w 3 0 9
      readDa ac (qWord r.w 2) 0 (2 * n) e = .ok (.ok (bs, false, m), d2) →
      let d3 := (d2.updTable t fun z =>
        { z with peers := ((List.range n).map fun i => leAt bs (2 * i) 2).foldl (fun l k => insertNew k l) [] }).endRun id stOk
      e.table t = some x → d3.table t = some y → owners (fun j => e.liveAcc mgmtAgent (tbCtx x.w) j h) y.w d3.devId d3 = .ok (.ok os, d4) →
      let mark : StepBuf → StepBuf := fun b => if b.table = t ∧ (os ++ y.peers).all b.ends.contains then { b with ready := true } else b
      exec (.determPeers id h) s = .next (s.withDev
        (({ d4 with tb := { d4.tb with steps := d4.tb.steps.map mark } } : Dev).stepRun t))) ∧
    (s.serving id r tyMaint (some 6) → ∀ x f n d2 ns, let t := qBits r.w 3 52 12; let k := qBits r.w 3 0 16; let da := qWord r.w 2
      e.table t = some x → k < tbShards x.w → tbDirect x.w = false → tbShards x.w ≠ 1 → e.tb.guests.length < 1024 →
      (∀ g ∈ e.tb.guests, g.table = t → g.entry ≠ k) →
      shardSpan (fun j => e.liveAcc mgmtAgent (tbCtx x.w) j []) x.w k e = .ok (.ok (f, n), d2) →
      e.xlates (tbCtx x.w) [(da, 8 * n, .read), (da, 8 * n, .update)] .none = .ok ns → (e.seg (tbCtx x.w) (daSeg da)).target = 0 →
      let g : Guest := { table := t, entry := k, da := da, seg := e.seg (tbCtx x.w) (daSeg da), gen := e.gen (tbCtx x.w) (daSeg da) }
      exec (.guestAttach id) s = .next (s.withDev
        (({ d2 with tb := { d2.tb with guests := d2.tb.guests ++ [g] } } : Dev).endRun id stOk))) ∧
    (s.serving id r tyMaint (some 7) → ∀ x g f n d2 d3 (live : Bool), let t := qBits r.w 3 52 12; let k := qBits r.w 3 0 16
      e.table t = some x → (e.tb.guests.find? fun y => y.table = t && y.entry = k) = some g →
      let tac : SegBy := fun j => e.liveAcc mgmtAgent (tbCtx x.w) j []
      shardSpan tac x.w k e = .ok (.ok (f, n), d2) →
      let a0 := tac (daSeg g.da)
      let a : SegAcc := { sg := g.seg, acc := { a0.acc with gen := g.gen, rt := g.seg.region } }
      liveGuest a g.da 0 n d2 = .ok (.ok live, d3) →
      (live = true → exec (.guestDetach id) s = .next (s.withDev (d3.endRun id stTableBusy))) ∧
      (live = false → exec (.guestDetach id) s = .next (s.withDev
        (({ d3 with tb := { d3.tb with
            guests := d3.tb.guests.filter fun y => !(y.table = t && y.entry = k) } } : Dev).endRun id stOk))))

/-- SHARD_LOAD_FLUSH adds each row count a Grinder holds to the shard counter of its table and empties the Grinder's counts; the
other Grinders' stand. The probes write the counters, the sketch estimates or the table's record at their destination and end
with OK, the bytes counted. -/
def Obligations.TableProbesAndLoads : Prop :=
  (∀ (s : State) (g : GrinderId), ∃ d : Dev, exec (.shardLoadFlush g) s = .next (s.withDev d) ∧
    d = { s.dev with tb := { s.dev.tb with load := d.tb.load, localLoad := d.tb.localLoad } } ∧
    (∀ p, p ∈ d.tb.localLoad ↔ p ∈ s.dev.tb.localLoad ∧ p.1 / 2 ^ 28 ≠ g.val) ∧
    ∀ i, Map.get 0 d.tb.load i = Map.get 0 s.dev.tb.load i +
      ((s.dev.tb.localLoad.filter fun p => decide (p.1 / 2 ^ 28 = g.val ∧ p.1 % 2 ^ 28 = i)).map fun p => BitVec.ofNat 64 p.2).sum) ∧
  (∀ (s : State) (id : DescId) (r : Run) (x : Table) (h : List HostAnswer) (d2 : Dev), let t := qBits r.w 4 52 12
    let e := s.dev.begun id
    let ac := r.segsBy mgmtAgent r.ctx
    let put := fun h (bs : List Byte) d1 d2 =>
      engWriteBytes (ac h (daSeg (qWord r.w 2))) (daOff (qWord r.w 2)) bs false 0 0 d1 = .ok (none, d2)
    let wrote := fun n => ((d2.updRun id fun y => y.setCount 0 n).setPos id n).endRun id stOk
    e.table t = some x → d2.regq = [] → d2.run id = e.run id →
    (s.serving id r tyProbe (some 1) → let e1 := (List.range 64).foldl (fun (y : Dev) g => y.flushLoad g) e
      let bs := wordBytes ((List.range (tbShards x.w)).map fun k => Map.get 0 e1.tb.load (65536 * t + k))
      put [] bs e1 d2 → exec (.shardLoad id) s = .next (s.withDev (wrote bs.length))) ∧
    (s.serving id r tyProbe (some 2) → ∀ ib d1, let n := qBits r.w 4 0 32
      e.reads (ac h) (qWord r.w 3) 0 (8 * n) ib d1 → d1.run id = e.run id →
      let bs := wordBytes ((bytesWords n ib).map fun i => BitVec.ofNat 64 (e.sketchEst t x.w i.toNat))
      put h bs d1 d2 → exec (.sketchRead id h) s = .next (s.withDev (wrote bs.length))) ∧
    (s.serving id r tyProbe (some 3) → let bs := wordBytes (e.tableRecord t x)
      put h bs e d2 → exec (.tableRead id h) s = .next (s.withDev (wrote bs.length))))

/-! ### Epochs, updates and migration (03 R104-R111; 04_updates_and_migration.md R117-R150) -/

/-- EPOCH_OPEN sets the update epoch when no epoch descriptor of the table runs; EPOCH_ADVANCE, once the updates of the lookup epoch
are done and a fourth live epoch is not in the way, sets the next lookup epoch, ends the descriptor with it and lets held row
requests go on; EPOCH_WAIT_LIMIT answers a held request with EPOCH_INVALID. An UPDATE reads its next index and values, resolves
the row and holds the update by its position until the row is done; it ends with OK once every index is read, every update is
done and it closes no step. An incomplete DETERM step whose peers stay away is sorted and applied at its limit. -/
def Obligations.EpochsAndUpdates : Prop :=
  ((∀ (s : State) (id : DescId) (r : Run) (x : Table), let t := qBits r.w 1 52 12
    (s.dev.cp.runs.map fun y => y.id).Nodup → s.dev.run id = some r → r.stage = .admitted → descType r.w = tyEpoch →
    (∀ y ∈ s.dev.cp.runs, descType y.w = tyEpoch → descTable y.w = some t → y = r) → descTable r.w = some t →
    s.dev.table t = some x →
    exec (.epochOpen id) s = .next (s.withDev
      ((s.dev.begun id).setTable t (some { x with updEp := if x.updEp = 65535 then 1 else x.updEp + 1 })))) ∧
  (∀ (s : State) (t : TableId) (x : Table) (r : Run), let d := s.dev; let e := if x.lookEp = 65535 then 1 else x.lookEp + 1
    d.table t = some x → (d.cp.runs.map fun y => y.id).Nodup →
    (d.cp.runs.find? fun y => descType y.w = tyEpoch && descTable y.w = some t.val && y.stage = .running) = some r →
    d.updatesOpen t x.lookEp = false → x.live.length < 4 →
    ∃ (u : State) (y : Table) (z : Run), exec (.epochAdvance t) s = .next u ∧ u.pending = s.pending ∧
      u.dev.table t = some y ∧ y.w = x.w ∧ y.lookEp = e ∧ e ∈ y.live ∧ (∀ k ∈ y.live, k = e ∨ k ∈ x.live ∧ d.epochBound t k = true) ∧
      u.dev.run r.id = some z ∧ z.stage = .ended ∧ z.status = stOk ∧ z.count 1 = e ∧
      u.dev.tr.inbox = d.tr.inbox ++ d.tr.held.filter (fun m => tmBits m.words 1 36 12 = t.val) ∧
      u.dev.tr.held = d.tr.held.filter (fun m => tmBits m.words 1 36 12 ≠ t.val)) ∧
  ∀ (s : State) (m : TMsg), s.dev.refStopped = false → m ∈ s.dev.tr.held → exec (.epochWaitLimit m) s = .next (s.withDev
    (({ s.dev with tr := { s.dev.tr with held := eraseFirst m s.dev.tr.held } } : Dev).rowAnswer m.words stEpoch))) ∧
  ((∀ (s : State) (id : DescId) (r : Run) (h : List HostAnswer), let e := s.dev.begun id
    (s.dev.cp.runs.map fun y => y.id).Nodup → s.serving id r tyUpdate none → r.prog ≠ 0 ∨ qBit r.w 0 56 = false → r.upds = [] → r.count ucRead = upCount r.w →
    r.count ucFail = 0 → upStepEnd r.w = false → r.count ucPoison = 0 →
    exec (.update id h) s = .next (s.withDev ((e.setPos id (upCount r.w)).endRun id stOk))) ∧
  (∀ (d : Dev) (id : DescId) (r : Run) (t : Table) (h : List HostAnswer) (ib vb : List Byte) (d2 d3 d4 : Dev) (e : RowEnt)
    (at_ : Option Word64) (k : Nat),
    let p := r.count ucRead; let ac := r.segsBy 0x200 r.ctx h; let i := leNat ib
    let vs := valueRow (upVfmt r.w) (tbDim t.w) vb; let g := updGrinder (upScope r.w) (upTable r.w) i
    let tac := r.segsBy (0x200 + g) (tbCtx t.w) h; let wd := if upIdx32 r.w then 4 else 8
    d.run id = some r → r.live = true → r.count ucFail = 0 → p + 1 < upCount r.w → d.table (upTable r.w) = some t →
    d.reads ac (qWord r.w 1) (wd * p) wd ib d2 → isPad (upIdx32 r.w) i = false →
    d2.reads ac (qWord r.w 2) (valueStep r.w t.w * p) (valueBytes r.w t.w) vb d3 → valueBad (upMode r.w) vs = false →
    d.partHeld (0x200 + g) = false → uncounted (resolveRow tac t.w d.devId i false) d3 = .ok ((k, .ent e at_), d4) → d4.run id = some r → tbMerge t.w = false →
    (d.engine (updateIndex id h)).run id = some
      { (r.setCount ucRead (p + 1)) with upds := r.upds ++ [
        { pos := p, row := i, values := vs, line := d.rowLine tac t.w i e at_, dev := none, fwded := false, stage := 1, unit := g }] }) ∧
  ∀ (s : State) (t : TableId) (step : Nat) (x : Table) (b : StepBuf), s.dev.refStopped = false → let d := s.dev
    d.table t = some x → (d.tb.steps.find? fun y => y.table = t.val && y.step = step) = some b → b.ready = false → b.upds ≠ [] →
    (∀ y ∈ d.tb.steps, y.table = t.val → y.busy = false) →
    ∃ d1 : Dev, exec (.determStepLimit t step) s = .next (s.withDev (d1.stepRun t)) ∧
      d1 = { d.setStep t step (some { b with ready := true, busy := true, upds := b.upds.foldr insertStep [] }) with
        tb := { d1.tb with incomplete := d.tb.incomplete + 1 } } ∧
      d1.tb.steps = (d.tb.steps.filter fun y => !(y.table = t.val && y.step = step)) ++
        [{ b with ready := true, busy := true, upds := b.upds.foldr insertStep [] }])

/-- A GATHER serves its bags in turn: the bag's indices are resolved, its rows fetched and pooled, the result written at the
bag's place and the position moved on; after the last bag it ends, with OK where no poison was met. -/
def Obligations.GatherServesBags : Prop :=
  ∀ (s : State) (id : DescId) (h : List HostAnswer) (r : Run) (t : Table), let d := s.dev; let tb := t.w; let b := r.pos
    let g := r.grinder (r.count rcSetting) b
    let ac := r.segsBy (0x200 + g) r.ctx h; let tac := r.segsBy (0x200 + g) (tbCtx tb) h
    d.run id = some r → r.stage = .running → descType r.w = tyGather → id.queue < 16384 → d.table (gaTable r.w) = some t → d.regq = [] →
    (gaBags r.w ≤ b → r.count gcPoison = 0 →
      exec (.gather id 1 h) s = .next (s.withDev (d.endRun id stOk))) ∧
    ∀ (o0 o1 : Nat) (d1 d2 d3 d4 d5 : Dev) (xs : List (Nat × IdxRes)) (acc : BagAcc) (bs : List Byte) (sat : Bool),
      b < gaBags r.w → gaPool r.w ≠ 0 → d.partHeld (0x200 + g) = false → bagOffset r ac b d = .ok (.ok (o0, false), d1) →
      bagOffset r ac (b + 1) d1 = .ok (.ok (o1, false), d2) → o0 ≤ o1 → o1 ≤ r.count gcX →
      resolveBag r ac tac tb d.devId o0 (o1 - o0) d2 = .ok (.ok xs, d3) → missingRows r xs = [] →
      bagRows r ac tac (gaTable r.w) tb g xs { rows := [], poison := false, carafe := 0, remote := 0, pre := 0, skipped := 0 } d3 =
        .ok (.ok acc, d4) →
      poolBag r.w (tbDim tb) acc.rows = (bs, sat) → outWrite r ac (b * outStep r.w tb) bs acc.poison d4 = .ok (none, d5) →
      d5.regq = [] →
      let e := d5.updRun id fun x => (((((x.addCount gcCarafe acc.carafe).addCount gcRemote acc.remote).addCount gcPre acc.pre).addCount
        gcSkipped acc.skipped).addCount gcPoison (if acc.poison then 1 else 0)).addCount gcSat (if sat = true ∧ acc.poison = false then 1 else 0)
      let y := ({ e with tb := { e.tb with skipped := e.tb.skipped + BitVec.ofNat 64 acc.skipped } } : Dev).setPos id (b + 1)
      exec (.gather id 1 h) s = .next (s.withDev (if b + 1 = gaBags r.w then y.gatherEnd id else y))

/-- MIGRATE, WAITING_CREMA_RESUME: with space in Crema for the row, its slot is copied, in the target's width class, and the
move waits for its commit; without, the move waits and the wait is counted. MIGRATION_COMMIT takes the row's lock where the
pools are not revoked, writes the row-map entry anew and counts the row. -/
def Obligations.MigrationCommands : Prop :=
  ∀ (s : State) (id : DescId) (h : List HostAnswer) (r : Run) (t : Table) (m : Migr), let d := s.dev; let tb := t.w
    let units := preUnits (32 * (m.slotsz + 1)); let old := RowEnt.ofWord m.old
    d.run id = some r → r.live = true → m.desc = id → d.table m.table = some t →
    (m.step = 0 → d.updLocked m.table m.row = false → (d.tb.migr.find? fun x => x.desc = id && x.step = 0) = some m →
      let again := descType r.w = tyMigrate ∧ r.prog ≠ 0 ∧ qBits r.w 2 52 12 = m.table ∧ qBits r.w 2 0 32 = r.count mcRead
      (d.migrRoom units = true → m.dev = d.devId → ∀ bs (p : Bool) info d2 d4,
        let d3 := if r.prog = 0 then d2 else d2.setProg r.prog { d2.prog r.prog with state := 1 }
        let moved := fun h => let ac := r.segsBy 0x200 (tbCtx tb) h
          engReadBytes (slotAcc ac tb old) (32 * old.slot) old.bytes d = .ok (.ok (bs, p, info), d2) ∧
          let new := convertSlot tb old.wclass m.wclass (32 * (m.slotsz + 1)) bs
          engWriteUnits (ac (if m.pool = 0 then tbDramSeg tb else tbResSeg tb)) p (info.map fun i => i.epoch) m.wclass
            (new.length / 64 + 2) (32 * m.slot) new d3 = .ok (none, d4)
        let e := s.withDev (d4.updMigr m.table m.row fun y => { y with units := units, changed := false, step := 2 })
        (again → moved h → exec (.migrate id h) s = .next e) ∧ (moved [] → exec (.waitingCremaResume id) s = .next e)) ∧
      (d.migrRoom units = false → m.units = 0 →
        exec (.waitingCremaResume id) s = .next s ∧
        (again → (d.prog r.prog).state ≠ 2 → ∃ e : Dev, exec (.migrate id h) s = .next (s.withDev
            { e with tb := { e.tb with cremaWaits := d.tb.cremaWaits + 1 } }) ∧
          e = d.setProg r.prog { d.prog r.prog with state := 2 }))) ∧
    (m.step = 2 → m.changed = false → d.openMigr m.table m.row = some m → d.updLocked m.table m.row = false →
      m.dev = d.devId → ∀ (tt : TableId) da d2 d3, tt.val = m.table → let ac := r.segsBy 0x200 (tbCtx tb) h
        let new : RowEnt :=
          { valid := true, fwd := false, carafe := false, wclass := m.wclass, slotsz := m.slotsz, pool := m.pool, slot := m.slot }
        let d0 := d.updMigr m.table m.row fun y => { y with locked := true }
        migrRevoked ac tb d.devId m d = .ok (none, d) → rowDa ac tb m.row d0 = .ok (some da, d2) →
        engWriteBytes (d0.guestAcc ac tb m.row da) (daOff da) (leBytes 8 new.word.toNat) false 0 0 d2 = .ok (none, d3) →
        exec (.migrationCommit tt m.row h) s = .next (s.withDev (d3.committed m.table m.row)))

/-! ### Kernels (05 R154, R161-R180) -/

/-- A kernel whose team no set of enabled cores can hold ends with CORES_UNAVAIL; the first in order that fits takes its
cores, gives them the kernel's registers, code and preloaded scratch, and puts them in their quarters' start order; a window
starts the next of them, each while its own launch's LaunchStaggerCores allows, and then restarts as many tile units as are
left; a core taken out of service is recorded with its quarter and placed no longer. -/
def Obligations.KernelCommands : Prop :=
  (∀ (s : State) (id : DescId) (r : Run) (h : List HostAnswer), let d := s.dev
    d.run id = some r → r.live = true → descType r.w = tyKernel → r.team = none →
    (d.fits r.w r.mask = true → exec (.kernel id h) s = .next (s.withDev (d.updRun id fun y => y.setCount 20 1))) ∧
    (d.fits r.w r.mask = false → exec (.kernel id h) s = .next (s.withDev (d.endRun id stCoresUnavail)))) ∧
  (∀ (s : State) (id : DescId) (r : Run) (h : List HostAnswer) (cs : List Nat) (pre : List Byte) (d2 : Dev), let d := s.dev
    d.kernelOrder.head? = some r → r.id = id → r.count 20 ≠ 0 → d.pickCores r = some cs → qWord r.w 3 = 0 →
    d.reads (r.segsBy mgmtAgent r.ctx h) (qWord r.w 1) (hdrPreOff r.header) (hdrPreSize r.header) pre d2 →
    let y := ((List.range cs.length).zip cs).foldl (fun (e : Dev) p =>
      (e.prepCore r r.seq p.1 p.2 pre).updQ (quarterOfCore p.2) fun q => { q with stagger := q.stagger ++ [p.2] }) d2
    let z := y.updRun id fun u => { u with stage := .running, team := some r.seq, waited := satBits 32 (y.now - u.fetched).toNat }
    exec (.teamStart id h) s = .next (s.withDev { z with
      cmap := { z.cmap with launched := z.cmap.launched + 1 }
      teams := Map.put z.teams r.seq
        { desc := id, cores := cs, ctx := r.ctx, barrier := 0, dump := qWord r.w 4, stop := 0 } })) ∧
  (∀ (s : State) (q : QuarterId), s.dev.refStopped = false → let d := s.dev; let x := d.qr q
    ∃ (e : Dev) (n m : Nat), exec (.launchStaggerWindow q) s = .next (s.withDev e) ∧
      n ≤ x.stagger.length ∧ m ≤ x.restart.length ∧ (n < x.stagger.length → m = 0) ∧
      (∀ i c, x.stagger[i]? = some c → (i < n → i < d.staggerOf c) ∧ (i = n → d.staggerOf c ≤ n)) ∧
      (n = x.stagger.length → ∀ i c, x.restart[i]? = some c → (i < m → n + i < d.staggerOf c) ∧ (i = m → d.staggerOf c ≤ n + m)) ∧
      e.qr q = { x with stagger := x.stagger.drop n, restart := x.restart.drop m } ∧
      ∀ c, e.core c = if c ∈ x.stagger.take n ∧ (d.core c).status = .reserved then { d.core c with status := .running } else d.core c) ∧
  ∀ (s : State) (w : Word16), let d := s.dev; let c := w.toNat
    (c < 272 → c ∉ d.cmap.retired → c ∉ d.cmap.failed → exec (.coreRetire w) s = .next (s.withDev
      (({ d with cmap := { d.cmap with retired := insertNew c d.cmap.retired } } : Dev).nvRecord (nvRepair (c / 68))).dropUnfit)) ∧
    (272 ≤ c ∨ c ∈ d.cmap.retired ∨ c ∈ d.cmap.failed → exec (.coreRetire w) s = .next s)

/-- A core that TEAM_START prepares holds zero in every register but s0 (its rank), s1 (the team's size), s2 (its logical number), s3
(ARG0), a0 (ARGS_DA), a1 (BARRIER_DA) and p0 (all ones), and stands at its image's entry point; a launch window sets it running with
just these. -/
def Obligations.LaunchRegisters : Prop :=
  (∀ (d : Dev) (r : Run) (team rank c : Nat) (pre : List Byte), let k := (d.prepCore r team rank c pre).core c
    k.status = .reserved ∧ k.pc = hdrEntry r.header ∧ k.codeSize = hdrCodeSize r.header ∧ k.exact = hdrExact r.header ∧
      k.wide = hdrWide r.header ∧ k.ctx = r.ctx ∧ k.team = some team ∧ k.rank = rank ∧
      k.sr 0 = BitVec.ofNat 64 rank ∧ k.sr 1 = BitVec.ofNat 64 (kTeam r.w) ∧ k.sr 2 = BitVec.ofNat 64 (d.logical c) ∧
      k.sr 3 = qWord r.w 6 ∧ k.ar 0 = qWord r.w 2 ∧ k.ar 1 = qWord r.w 3 ∧ (∀ n, 3 < n → k.sr n = 0) ∧ (∀ n, 1 < n → k.ar n = 0) ∧
      k.pr 0 = BitVec.allOnes 64 ∧ (∀ n, n ≠ 0 → k.pr n = 0) ∧ (∀ n, k.vr n = 0) ∧ (∀ n i, k.tileRow n i = 0) ∧
      ∀ n i j, k.accAt n i j = 0 ∧ k.accXAt n i j = .zero) ∧
  ∀ (s : State) (q : QuarterId) (c : Nat), s.dev.refStopped = false → let d := s.dev
    c ∈ (d.qr q).stagger.take (d.staggerFit (d.qr q).stagger 0) → (d.core c).status = .reserved →
    ∃ e : Dev, exec (.launchStaggerWindow q) s = .next (s.withDev e) ∧ e.core c = { d.core c with status := .running }

/-! ### Stores leaving a core, answers at a core (05 R158-R160; 08 R250-R268; 10 R307-R314) -/

/-- STORE_BUFFER_DRAIN takes the head of the store buffer: into the L1 where its sector is in E or M, as a message to the
home where it streams, into the register window where it is a DEVICE store with nothing before it; a NORMAL store through a
revoked segment changes no memory and is reported; an empty buffer stands. -/
def Obligations.StoreBufferDrains : Prop :=
  (∀ (s : State) (c : CoreId), (s.dev.core c).sb = [] → exec (.storeBufferDrain c) s = .next s) ∧
  (∀ (s : State) (c : CoreId) (e : StoreEntry) (rest : List StoreEntry), let d := s.dev; let k := d.core c; let n := l1No c
    k.sb = e :: rest → d.partHeld c = false → k.status ≠ .stopped →
    (e.rt = .stream → ∃ m, let d1 := d.streamEnd c
      exec (.storeBufferDrain c) s = .next (((s.withDev d1).withCore c { d1.core c with
        writes := k.writes ++ [{ sector := e.sector, da := e.da, mover := false, done := false, kept := false }]
        sb := rest }).sends (.req m)) ∧
      m.kind = (if e.mask = BitVec.allOnes 64 then .wrFull else .wrPart) ∧ m.src = c.val ∧ m.line = e.sector / 4 ∧
      m.smask = secMask (e.sector % 4) ∧ m.pay = [{ sec := e.sector % 4, data := e.data, info := .zero }]) ∧
    (e.rt = .device → d.writesSettled c = true → e.out = false → isReg (64 * e.sector) = true →
      d.regSecHeld (64 * e.sector - regDpa) = false →
      exec (.storeBufferDrain c) s = .next (s.withDev (((d.streamEnd c).writeRegSector e.sector e.data e.mask).popStore c))) ∧
    (e.rt = .normal → e.out = false → k.isRevoked e.da = true → k.miss = none →
      exec (.storeBufferDrain c) s = .next (s.withDev ((d.noteFail c e.da).popStore c))) ∧
    (e.rt = .normal → e.out = false → k.isRevoked e.da = false → d.serves n = true → k.pfHas (e.sector / 4) = false → k.miss = none → (d.cache n).streaming = false →
      let x := d.cacheSec n (e.sector / 4) (e.sector % 4)
      (x.st = .E ∨ x.st = .M) → d.waySec n (e.sector / 4) (e.sector % 4) = x → x.err = 0 →
      exec (.storeBufferDrain c) s = .next (s.withDev (d.performStore c e)))) ∧
  ∀ (d : Dev) (c : CoreId) (e : StoreEntry), let n := l1No c; let x := d.cacheSec n (e.sector / 4) (e.sector % 4)
    x.st ≠ .I → (d.core c).status ≠ .stopped → let y := (d.performStore c e).cacheSec n (e.sector / 4) (e.sector % 4)
    y.st = .M ∧ ∀ i, i < 64 → Sector.byte y.data i = if e.mask.getLsbD i then Sector.byte e.data i else Sector.byte x.data i

/-- DATA that a load asked for, with no copy kept, gives the load its bytes under those of the store buffer; poison raises exception
0x0B; DATA of a copy nobody waits for is given back to the home. GRANT makes the held sector exclusive and is acknowledged. CMP
ends the write it answers: a NORMAL store leaves the buffer, a stream write is settled. ERR raises the load's exception, or
drops the store and keeps its address for the next WAITM. -/
def Obligations.DataAndAnswersAtCore : Prop :=
  (∀ (s : State) (m : RspMsg), let d := s.dev.taken (.rsp m); let c := m.dst; let k := s.dev.core c; let sec := 4 * m.line + m.sec
    m.kind = .data → isCore c = true → d.partHeld c = false → m.origin = .load → s.dev.homesQuiet →
    (∀ reg size sext off da, k.miss = some sec → k.wait = .load reg size sext off da → m.st = .I → off + size ≤ 64 →
      (m.info.poison = false → exec (.data m) s = .next ((s.withDev d).withCore c
        { k with miss := none, wait := .none, pc := k.pc + 8, s := Map.put k.s reg (loadValue (k.overlay sec m.data) off size sext) })) ∧
      (m.info.poison = true → exec (.data m) s = .next ((s.withDev d).withDev
        ((d.setCore c { k with miss := none, wait := .none }).raise c 0x0B da)))) ∧
    (k.miss ≠ some sec → m.st = .I → exec (.data m) s = .next (s.withDev d)) ∧
    (k.miss ≠ some sec → m.st = .E → ∃ (e : Dev) (q : ReqMsg) (a : AnsMsg), exec (.data m) s = .next (s.withDev e) ∧
      q.kind = .evictClean ∧ q.src = c ∧ q.line = m.line ∧ q.smask = secMask m.sec ∧ a.kind = .compAck ∧ a.txid = m.txid ∧
      e.net = ((d.updCore c fun y => { y with held := Map.put y.held sec none }).reread c sec).net ++ [.req q, .ans a])) ∧
  (∀ (s : State) (m : RspMsg), let d := s.dev.taken (.rsp m); let c := m.dst; let k := s.dev.core c; let sec := 4 * m.line + m.sec
    isCore c = true → d.partHeld c = false → s.dev.homesQuiet →
    (m.kind = .grant → let x := d.cacheSec (l1No c) m.line m.sec
      x.st ≠ .I → exec (.grant m) s = .next (s.withDev
        (((d.cacheSet (l1No c) m.line m.sec { x with st := .E }).setCore c
          { k with held := Map.put k.held sec (some 0), miss := if k.miss = some sec then none else k.miss }).compAck c m))) ∧
    (m.kind = .cmp → m.origin = .store → ∀ w, k.writeFor sec false = some w →
      let d1 := (d.setCore c { k with writes := markDone w k.writes }).dropSettled c
      (∀ e, k.headOut w = some e → e.rt = .normal → exec (.cmp m) s = .next (s.withDev ((d1.detect c e).popStore c))) ∧
      (k.headOut w = none → k.status ≠ .stopped → exec (.cmp m) s = .next (s.withDev d1))) ∧
    (m.kind = .err → m.origin = .load → k.wait ≠ .none → exec (.err m) s = .next (s.withDev
      ((d.setCore c { k with wait := .none, miss := if k.miss = some sec then none else k.miss }).raise c
        (if m.status = .revoked then 0x0A else if m.status = .tagMismatch then 0x05 else 0x0B) k.wait.da))) ∧
    (m.kind = .err → m.origin = .store → ∀ w e, k.writeFor sec false = some w → k.headOut w = some e → k.status ≠ .stopped →
      exec (.err m) s = .next ((s.withDev d).withCore c
        { k with writes := eraseFirst w k.writes, failDa := some (k.failDa.getD w.da), sb := k.sb.drop 1 })))

/-! ### Homes (08_coherence.md R253-R275) -/

/-- A request for a sector another core holds in E makes its home ask that core: to forward it, or, for a write or an atomic, to
give it up, with its data where the write is not of the whole sector. The line is busy from then on. An eviction is served as
its home accepts it: the owner's dirty sector becomes the home copy, the directory's sector goes to I, and the core is answered. -/
def Obligations.HomeRequests : Prop :=
  (∀ (s : State) (q : ReqMsg) (sec o : Nat), let d := s.dev; let h := d.homeOf (lineDpa q.line); let d0 := d.taken (.req q)
    d.starts q sec → d.ownedBy q.line sec o → q.src ≠ o →
    (∀ p ∈ ([(.rdShared, .rdshared, .fwdShared, true), (.rdOwn, .rdown, .fwdOwned, true), (.claim, .claim, .fwdOwned, true),
        (.rdCurrent, .rdcurrent, .fwdCurrent, false)] : List (ReqKind × (ReqMsg → Instr) × SnpKind × Bool)),
      let (kind, c, snp, keeps) := p
      q.kind = kind → ∃ (e : Dev) (n : SnpMsg), exec (c q) s = .next (s.withDev e) ∧ n.kind = snp ∧ n.core = o ∧ n.line = q.line ∧
        n.sec = sec ∧ n.req = q.src ∧ e.net = d0.net ++ [.snp n] ∧ e.dir = d.dir ∧
        e.txn h 0 = some { req := q, stage := .recall, await := [.fwd o sec], post := if keeps then [.comp sec] else []
                           got := [], fwded := [sec], desc := none, suspect := false }) ∧
    ∀ p ∈ ([(.wrFull, .wrfull, false), (.wrPart, .wrpart, true), (.atomic, .atomic, true)] : List (ReqKind × (ReqMsg → Instr) × Bool)),
      let (kind, c, ret) := p
      q.kind = kind → isHost (lineDpa q.line) = false → ∃ (e : Dev) (n : SnpMsg), exec (c q) s = .next (s.withDev e) ∧ n.kind = .inv ∧
        n.core = o ∧ n.line = q.line ∧ n.sec = sec ∧ n.ret = ret ∧ e.net = d0.net ++ [.snp n] ∧
        let t : Txn := { req := q, stage := .recall, await := [.ack o sec], post := [], got := [], fwded := [], desc := none, suspect := false }
        e.txn h 0 = some t ∧ e.dir = ((d.setTxn h 0 (some t)).updSector q.line sec fun y => { y with ds := .I, own := 0x3FF }).dir) ∧
  (∀ (s : State) (q : ReqMsg) (sec : Nat), let d := s.dev; let a : AnsMsg :=
      { kind := .ack, src := mgmtAgent, toCore := some q.src, txid := 0, line := q.line, sec := sec, st := .I, data := 0, info := .zero }
    d.starts q sec → d.ownedBy q.line sec q.src →
    (q.kind = .evictDirty → ∃ d1 : Dev, (d.taken (.req q)).sameBut d1 ∧ exec (.evictdirty q) s = .next (s.withDev
      (((d1.homeStore q.line sec (q.payOf sec).data (q.payOf sec).info true).updSector q.line sec fun y =>
        { y with ds := .I, own := 0x3FF }).send (.ans a)))) ∧
    (q.kind = .evictClean → ∃ d1 : Dev, (d.taken (.req q)).sameBut d1 ∧ exec (.evictclean q) s = .next (s.withDev
      ((d1.updSector q.line sec fun y => { y with ds := .I, own := 0x3FF }).send (.ans a)))))

/-- What a snooped L1 answers (Table 8.8): SNPINV ends the copy, with the data of a dirty one where asked; a forward sends the data to
the requester and tells the home what the owner keeps; a sector not held is missed; a held sector's snoop waits. -/
def Obligations.SnoopsAnswered : Prop :=
  ∀ (s : State) (m : SnpMsg) (x : CSector), let d := s.dev; let n := l1No m.core; let k := d.core m.core; let sector := 4 * m.line + m.sec
    d.snpInOrder m = true → m.core < 0x110 → d.partHeld m.core = false → m.sec < 4 → k.sb = [] → k.evict = [] → m.ctx = 0 →
    d.cacheSec n m.line m.sec = x →
    (Map.get none k.held sector ≠ none → m.kind = .inv →
      exec (.snpinv m) s = .next ((s.withDev (d.taken (.snp m))).withCore m.core { k with waitSnp := k.waitSnp ++ [m] })) ∧
    (Map.get none k.held sector = none → k.wait = .none →
      (m.kind = .inv → x.st ≠ .I → ∃ (e : Dev) (a : AnsMsg), exec (.snpinv m) s = .next (s.withDev e) ∧
        e.net = (d.taken (.snp m)).net ++ [.ans a] ∧ e.caches = (d.cacheDrop n m.line m.sec).caches ∧ a.src = m.core ∧ a.line = m.line ∧
        a.sec = m.sec ∧ a.txid = m.txid ∧
        (m.ret = true ∧ (x.st = .O ∨ x.st = .M) → a.kind = .ackData ∧ a.data = x.data) ∧
        (m.ret = false ∨ x.st = .S ∨ x.st = .E → a.kind = .ack)) ∧
      ∀ p ∈ ([(.fwdShared, .fwdshared, fun _ => .S, fun st => if st = .E then .S else .O),
          (.fwdOwned, .fwdowned, fun st => if st = .E then .E else .M, fun _ => .I), (.fwdCurrent, .fwdcurrent, fun _ => .I, id)] :
          List (SnpKind × (SnpMsg → Instr) × (MState → MState) × (MState → MState))),
        let (kind, c, gives, keeps) := p
        m.kind = kind →
        (x.st = .I ∨ x.st = .S → ∃ a : AnsMsg, exec (c m) s = .next ((s.withDev (d.taken (.snp m))).sends (.ans a)) ∧
          a.kind = .fwdMiss ∧ a.src = m.core ∧ a.line = m.line ∧ a.sec = m.sec) ∧
        (x.st = .E ∨ x.st = .O ∨ x.st = .M → ∃ (e : Dev) (r : RspMsg) (a : AnsMsg), exec (c m) s = .next (s.withDev e) ∧
          e.net = (d.taken (.snp m)).net ++ [.rsp r, .ans a] ∧ e.caches = (if keeps x.st = .I then d.cacheDrop n m.line m.sec else d.cacheSet n m.line m.sec { x with st := keeps x.st }).caches ∧
          r.kind = .data ∧ r.dst = m.req ∧ r.st = gives x.st ∧ r.data = x.data ∧ r.sec = m.sec ∧
          a.kind = .fwdDone ∧ a.st = keeps x.st ∧ a.src = m.core))

/-- An answer that a line's transaction waits for, with more to come, is taken out of what it awaits, and its effect done: an ACK or
COMPACK has none, dirty data goes to the home copy, a forward done sets the directory as Table 8.6 gives, a missed forward leaves
the sector to the home copy; one that no transaction waits for is dropped. The last answer lets the line go on: COMPACK frees
it, a missed forward reads the home copy's data from memory, an invalidated owner lets a write go on to memory. An ACK to a
core ends its eviction. -/
def Obligations.HomeAnswers : Prop :=
  (∀ (s : State) (m : AnsMsg), let d := s.dev; let d0 := d.taken (.ans m)
    d.homesQuiet → m.toCore = none → d.lineTxn m.line = none → d.dataOwed m.line m.sec = false →
    ∀ p ∈ ([(.ack, .ack), (.ackData, .ackdata), (.fwdDone, .fwddone), (.fwdMiss, .fwdmiss), (.compAck, .compack)] :
      List (AnsKind × (AnsMsg → Instr))), m.kind = p.1 → exec (p.2 m) s = .next (s.withDev d0)) ∧
  (∀ (s : State) (m : AnsMsg) (t : Txn), let d := s.dev; let h := d.homeOf (lineDpa m.line); let q := t.req; let d0 := d.taken (.ans m)
    d.homeIdle h [(0, some t)] → q.line = m.line → m.toCore = none →
    (m.kind = .ack → t.waitsOn (.ack m.src m.sec) →
      exec (.ack m) s = .next (s.withDev (d0.setTxn h 0 (some (t.got1 (.ack m.src m.sec)))))) ∧
    (m.kind = .ackData → t.waitsOn (.ack m.src m.sec) → isTier (lineDpa m.line) = true →
      (d.waySec (d.sliceNo m.line) m.line m.sec).st = .I → q.kind ≠ .atomic → q.kind ≠ .snpInv → q.kind ≠ .snpData →
      ∃ e : Dev, exec (.ackdata m) s = .next (s.withDev e) ∧ e.net = d0.net ∧ e.dir = d.dir ∧
        e.mem = Mem.writeBytes d.mem (64 * (4 * m.line + m.sec)) (Sector.bytes m.data) ∧
        e.txn h 0 = some { t.got1 (.ack m.src m.sec) with got := { sec := m.sec, data := m.data, info := m.info } :: t.got }) ∧
    (m.kind = .fwdDone → t.waitsOn (.fwd m.src m.sec) → (q.kind = .rdOwn ∨ q.kind = .claim) → q.src ≠ hostAgent → m.info.poison = false →
      d.dataOwed m.line m.sec = false → ∃ e : Dev, exec (.fwddone m) s = .next (s.withDev e) ∧ e.net = d0.net ∧
        e.dir = (d.updSector m.line m.sec fun y => { y with ds := .E, own := q.src }).dir ∧ e.txn h 0 = some (t.got1 (.fwd m.src m.sec))) ∧
    (m.kind = .fwdMiss → t.waitsOn (.fwd m.src m.sec) → d.partHeld m.src = false →
      ∃ e : Dev, exec (.fwdmiss m) s = .next (s.withDev e) ∧ e.net = d0.net ∧ e.dir = (d.ownerGone m.line m.sec m.src).dir ∧
        e.coh.fwdMiss = d.coh.fwdMiss + 1 ∧
        e.txn h 0 = some { t.got1 (.fwd m.src m.sec) with fwded := t.fwded.filter (· ≠ m.sec) }) ∧
    (m.kind = .compAck → t.waitsOn (.comp m.sec) →
      exec (.compack m) s = .next (s.withDev (d0.setTxn h 0 (some (t.got1 (.comp m.sec))))))) ∧
  (∀ (s : State) (m : AnsMsg) (t : Txn), let d := s.dev; let h := d.homeOf (lineDpa m.line); let q := t.req; let d0 := d.taken (.ans m)
    d.homeIdle h [(0, some t)] → q.line = m.line → m.sec < 4 → q.smask = secMask m.sec → isCore q.src = true → m.toCore = none →
    isTier (lineDpa m.line) = true → t.got = [] → t.desc = none →
    (m.kind = .fwdDone → t.stage = .recall → q.kind = .rdOwn → t.await = [.fwd m.src m.sec] → t.post = [.comp m.sec] → t.fwded = [m.sec] →
      m.info.poison = false → d.dataOwed m.line m.sec = false →
      ∃ e : Dev, exec (.fwddone m) s = .next (s.withDev e) ∧ e.net = d0.net ∧
        e.dir = (d.updSector m.line m.sec fun y => { y with ds := .E, own := q.src }).dir ∧
        e.txn h 0 = some { t with stage := .close, await := [.comp m.sec], post := [] }) ∧
    (m.kind = .fwdMiss → t.stage = .recall → q.kind = .rdCurrent → t.await = [.fwd m.src m.sec] → t.post = [] → t.fwded = [m.sec] →
      d.partHeld m.src = false → (d.cacheSec (d.sliceNo m.line) m.line m.sec).st = .I →
      ∃ (e : Dev) (w : MemMsg), exec (.fwdmiss m) s = .next (s.withDev e) ∧ e.net = d0.net ++ [.mem w] ∧ w.kind = .rd ∧ w.line = m.line ∧
        w.sec = m.sec ∧ e.txn h 0 = some { t with stage := .fetch, await := [.mem m.sec], fwded := [] }) ∧
    (m.kind = .compAck → t.stage = .close → t.await = [.comp m.sec] → t.post = [] →
      ∃ e : Dev, exec (.compack m) s = .next (s.withDev e) ∧ e.txn h 0 = none ∧
        e = (({ d0 with homes := e.homes } : Dev).setEntry (d0.dirEntry m.line))) ∧
    (t.stage = .recall → q.kind = .wrFull → t.await = [.ack m.src m.sec] → t.post = [] → t.fwded = [] →
      (d.waySec (d.sliceNo m.line) m.line m.sec).st = .I →
      (m.kind = .ack → ∃ (e : Dev) (w : MemMsg), exec (.ack m) s = .next (s.withDev e) ∧ e.net = d0.net ++ [.mem w] ∧ w.kind = .wr ∧
        w.line = m.line ∧ w.sec = m.sec ∧ w.data = (q.payOf m.sec).data ∧ e.mem = d.mem ∧
        e.txn h 0 = some { t with stage := .fetch, await := [.cmp m.sec] }) ∧
      (m.kind = .ackData → ∃ (e : Dev) (w : MemMsg), exec (.ackdata m) s = .next (s.withDev e) ∧ e.net = d0.net ++ [.mem w] ∧ w.kind = .wr ∧
        w.data = (q.payOf m.sec).data ∧ e.mem = Mem.writeBytes d.mem (64 * (4 * m.line + m.sec)) (Sector.bytes m.data)))) ∧
  ∀ (s : State) (m : AnsMsg) (c : Nat) (x : CSector) (rest : List (Nat × CSector)), let d := s.dev
    d.homesQuiet → m.kind = .ack → m.toCore = some c → (d.core c).evict = (4 * m.line + m.sec, x) :: rest →
    exec (.ack m) s = .next ((s.withDev (d.taken (.ans m))).withCore c { d.core c with evict := rest })

/-- Controllers: MEMRD answers the sector and its metadata; MEMWR writes the bytes of its mask, without another poison or stamp; an
atomic writes its word and answers the old one; a request that fails the check of R220 there touches nothing. At the home, MEMDATA reaches the requester of an RDCURRENT and MEMCMP completes
a write, and the line is free. -/
def Obligations.MemoryTraffic : Prop :=
  (∀ (s : State) (m : MemMsg), let d := s.dev.taken (.mem m); let sector := 4 * m.line + m.sec
    Map.get 0 s.dev.symErr sector = 0 →
    (∀ er, s.dev.checkMem m = some er → ∃ e : Dev, e.mem = s.dev.mem ∧
      (m.kind = .rd → exec (.memrd m) s = .next ((s.withDev e).sends (.mem { m with kind := .data, refused := some er }))) ∧
      (m.kind = .wr → exec (.memwr m) s = .next ((s.withDev e).sends (.mem { m with kind := .cmp, refused := some er })))) ∧
    (m.kind = .rd → s.dev.checkMem m = none → exec (.memrd m) s = .next ((s.withDev d).sends (.mem { m with
      kind := .data, data := s.dev.secData sector, info := s.dev.secInfo sector }))) ∧
    (m.kind = .wr → m.req = none → ∃ e : Dev, exec (.memwr m) s = .next ((s.withDev e).sends (.mem { m with kind := .cmp })) ∧
      e.mem = Mem.writeBytes s.dev.mem (64 * sector) (Sector.bytes (if m.info.poison then 0 else m.data)) ∧ e.secInfo sector =
        { s.dev.secInfo sector with epoch := 0, wclass := 0, poison := m.info.poison } ∧ e.tier.memWrites = s.dev.tier.memWrites + 1) ∧
    ∀ q, m.kind = .rmw → m.req = some q → s.dev.partHeld (s.dev.updateUnitOf (lineDpa m.line)) = false → s.dev.checkMem m = none →
      q.upd = none → q.off < 64 → q.off % (if q.narrow then 4 else 8) = 0 →
      let x := s.dev.secData sector
      ∃ e : Dev, exec (.memrmw m) s = .next ((s.withDev e).sends (.mem { m with
          kind := .cmp, old := (atomicSector q x).1, info := s.dev.secInfo sector })) ∧
        e.mem = Mem.writeBytes s.dev.mem (64 * sector) (Sector.bytes (atomicSector q x).2)) ∧
  ∀ (s : State) (m : MemMsg) (t : Txn), let d := s.dev; let h := d.homeOf (lineDpa m.line); let q := t.req; let d0 := d.taken (.mem m)
    d.homeIdle h [(0, some t)] → q.line = m.line → m.sec < 4 → q.smask = secMask m.sec → isCore q.src = true → t.stage = .fetch →
    t.post = [] → t.fwded = [] → t.got = [] → q.upd = none →
    (m.kind = .data → q.kind = .rdCurrent → t.await = [.mem m.sec] → m.refused = none → d.allocates (d.coreDesc q.src) q = false →
      (d.cacheSec (d.sliceNo m.line) m.line m.sec).st = .I →
      ∃ (e : Dev) (r : RspMsg), exec (.memdata m) s = .next (s.withDev e) ∧ e.net = d0.net ++ [.rsp r] ∧ e.txn h 0 = none ∧
        r.kind = .data ∧ r.dst = q.src ∧ r.st = .I ∧ r.data = m.data ∧ r.info = m.info ∧ r.sec = m.sec) ∧
    (m.kind = .cmp → m.refused = none → (q.kind = .wrFull ∨ q.kind = .wrPart) → t.await = [.cmp m.sec] →
      ∃ (e : Dev) (r : RspMsg), exec (.memcmp m) s = .next (s.withDev e) ∧ e.net = d0.net ++ [.rsp r] ∧ e.txn h 0 = none ∧
        r.kind = .cmp ∧ r.dst = q.src ∧ r.sec = m.sec)

/-- A hold ends when its time has passed and nothing the holder may still do on the line is left: the sectors are free and the
waiting snoops answered. A request whose age has reached HomeAgeThreshold goes before every other request of its line; a
younger one stays. UPDROW applies a row's update at its home. -/
def Obligations.HoldsStarvedRows : Prop :=
  (∀ (s : State) (c line : Nat), let d := s.dev; let k := d.core c
    c < 0x110 → d.homesQuiet → k.wantsLine line = false → (∀ m ∈ k.waitSnp, m.line ≠ line) →
    ∃ hm, (∀ i, i < 4 → Map.get none hm (4 * line + i) = none) ∧ (∀ i, i / 4 ≠ line → Map.get none hm i = Map.get none k.held i) ∧
      exec (.holdEnd c line) s = .next (s.withCore c { k with held := hm })) ∧
  (∀ (s : State) (c line : Nat), let k := s.dev.core c
    c < 0x110 → s.dev.homesQuiet → k.wantsLine line = true → (∀ i, i < 4 → Map.get none k.held (4 * line + i) = none) →
    0 < s.dev.keptSetting (s.dev.coreDesc c) rcHold 0x206002 24 →
    exec (.holdEnd c line) s = .next s) ∧
  (∀ (s : State) (m : ReqMsg) (rest : List WaitReq), let d := s.dev; let h := d.homeOf (lineDpa m.line)
    (d.home h).queue = rest ++ [{ req := m, starved := false }] → ({ req := m, starved := false } : WaitReq) ∉ rest →
    (∀ w ∈ rest, w.req.line = m.line ∧ w.starved = false) →
    (d.od 0x206001 16 ≤ d.reqAge m → ∃ d1 : Dev, exec (.requestStarved m) s = .next (s.withDev (d1.settle h).pumpHomes) ∧
      (d1.home h).queue = { req := m, starved := true } :: rest ∧ (d1.home h).starve = true ∧ d1.coh.starved = d.coh.starved + 1) ∧
    (d.reqAge m < d.od 0x206001 16 → exec (.requestStarved m) s = .next (s.withDev d.pumpHomes))) ∧
  ∀ (s : State) (m : ReqMsg) (u : RowUpdate) (t : Table) (e : RowEnt) (at_ : Option Word64) (k : Nat) (d2 d3 d4 d5 : Dev), let d := s.dev
    let home := d.homeOf (lineDpa m.line); let w : RowUpdate := { u with waited := u.waited || d.contended m u }
    let b := (d.taken (.req m)).enqueue { m with upd := some w }
    let ac := b.updAcc w t.w home; let a := slotAcc ac t.w e
    m.kind = .updRow → d.homeIdle home [] → d.reqInOrder m = true →
    m.upd = some u → u.granule = none → d.table u.table = some t → b.rowLocked u.table u.row = false →
    uncounted (resolveRow ac t.w d.devId u.row u.fwded) b = .ok ((k, .ent e at_), d2) → engLine a.acc m.line d2 = .ok ((), d3) →
    migrSees ac t.w w e at_ ((d3.tookRow { m with upd := some w }).trainPred w w.waited) = .ok (none, d4) → e.carafe = false →
    placeUpd t a.acc.rt (decide (1 < (slotLines a e).length)) w (b.placeOfUpd w) = .home → applyHome a t w e d4 = .ok (none, d5) →
    exec (.updrow m) s = .next (s.withDev ((d5.updEnd w stOk 0).settle home).retrySuspects)

/-! ### The host's requests (08 R269-R273; 13_host_link.md R385-R397) -/

/-- Requests of the host for a sector of an idle line: reads answer the slice's data with the state the host may keep, which the
directory notes; MemInv grants, or with S notes a shared copy, without data; a write leaves its bytes in the home copy; MemClnEvct ends the host's copy;
BIConflict is acknowledged; MemSpecRd brings the sector into the slice's side buffer. -/
def Obligations.HostRequests : Prop :=
  (∀ (s : State) (m : HostReq) (dpa : Nat) (x : CSector), let d := s.dev; let line := dpa / 256; let sec := dpa / 64 % 4; let n := d.sliceNo line
    d.hostMay m.hpa dpa → d.waySec n line sec = x → x.st ≠ .I → x.err = 0 →
    (∀ p ∈ ([(.memRd, .I, .I, none), (.memRd, .S, .S, some 1), (.memRd, .A, .A, some 2), (.memRdData, .I, .I, none),
        (.memRdData, .S, .S, some 1), (.memRdData, .A, .S, some 1), (.memRdFwd, .I, .I, none), (.memRdFwd, .S, .I, none), (.memRdFwd, .A, .I, none)] : List ((HostReq → Instr) × MetaValue × MetaValue × Option Nat)),
      let (c, asks, gets, hs) := p
      m.mval = asks → ∃ e : Dev, exec (c m) s = .next (s.withDev e) ∧ e.out = .memData m.tag gets x.data x.info.poison :: d.out ∧
        e.net = d.net ∧ e.dir = match hs with
          | none => (d.setEntry (d.dirEntry line)).dir
          | some v => (d.updSector line sec fun y => { y with hs := v, own := if v = 2 then 0x3FF else y.own }).dir) ∧
    (m.mval = .I → exec (.memInv m) s = .next (s.withDev (d.emit (.memCmp m.tag .I)))) ∧
    (m.mval = .S → ∃ e : Dev, exec (.memInv m) s = .next (s.withDev e) ∧ e.out = .memCmp m.tag .S :: d.out ∧ e.net = d.net ∧
      e.dir = (d.updSector line sec fun y => { y with hs := 1 }).dir) ∧
    (m.mval = .A → ∃ e : Dev, exec (.memInv m) s = .next (s.withDev e) ∧ e.out = .memCmp m.tag .A :: d.out ∧ e.net = d.net ∧
      e.dir = (d.updSector line sec fun y => { y with ds := .I, own := 0x3FF, hs := 2 }).dir) ∧
    (∃ e : Dev, exec (.memClnEvct m) s = .next (s.withDev e) ∧ e.out = .memCmp m.tag m.mval :: d.out ∧ e.net = d.net ∧
      e.dir = (d.updSector line sec fun y => { y with hs := 0 }).dir) ∧
    (m.mval = .I → ((d.dirEntry line).sector sec).hs = 0 →
      (∃ e : Dev, exec (.memWr m) s = .next (s.withDev e) ∧ e.out = .memCmp m.tag .I :: d.out ∧ e.net = d.net ∧
        (e.cacheSec n line sec).st = .M ∧ (e.cacheSec n line sec).data = if m.poison then 0 else m.data) ∧
      ∃ e : Dev, exec (.memWrPtl m) s = .next (s.withDev e) ∧ e.out = .memCmp m.tag .I :: d.out ∧ e.net = d.net ∧
        (e.cacheSec n line sec).st = .M ∧ (e.cacheSec n line sec).data = (mergeWrite x.data x.info m.data m.bmask m.poison).1)) ∧
  (∀ (s : State) (m : HostReq) (dpa : Nat), let d := s.dev; let line := dpa / 256; let sec := dpa / 64 % 4; let n := d.sliceNo line
    d.hl.state = 2 → d.hostToDpa m.hpa = some dpa → d.ownedRegion dpa = false → d.lineBusy line = false → (d.sliceSec line sec).st = .I →
    (d.cache n).pfEn = true → d.tierReady dpa = true → Map.get 0 d.symErr (dpa / 64) = 0 →
    exec (.memSpecRd m) s = .next (s.withDev
      (d.sideFill n 32 line sec { st := .E, data := d.secData (dpa / 64), info := d.secInfo (dpa / 64), err := 0 }))) ∧
  ∀ (s : State) (m : HostReq), (∀ dpa, s.dev.hostToDpa m.hpa = some dpa →
      exec (.biconflict m) s = .next (s.withDev (s.dev.emit (.biConflictAck (dpa / 256))))) ∧
    (s.dev.hl.state ≠ 2 → s.dev.homesQuiet → ∀ c ∈ ([.memRd, .memRdData, .memRdFwd, .memInv, .memClnEvct, .memWr, .memWrPtl, .memSpecRd] : List (HostReq → Instr)),
      exec (c m) s = .next s)

/-- The host's snoops of a host line held by its slice: dirty data goes back with RspIFwdM, RspSFwdM or RspVFwdV, and the grant ends or
becomes shared. Its answers: BIRspI ends the host's copy, GO completes the write or read that asked for it, GO-Err refuses
the request. -/
def Obligations.HostAnswersAndSnoops : Prop :=
  (∀ (s : State) (hpa : Nat) (x : CSector), let d := s.dev; let dpa := hostDpa + hpa; let line := dpa / 256; let sec := dpa / 64 % 4
    let n := d.sliceNo line
    d.hl.state = 2 → hpa < 2 ^ 52 → isHost (lineDpa line) = true → isTier (secDpa line sec) = false → d.homeIdle (d.homeOf dpa) [] →
    d.homeOf dpa = d.homeOf (lineDpa line) → (∀ k, d.dirWay line = some k → (d.dirAt k).err = 0) →
    ((d.dirEntry line).sector sec).ds = .I → d.cacheSec n line sec = x →
    (∀ p ∈ ([(.snpInv, 0), (.snpData, 3), (.snpCur, 5)] : List ((Nat → Instr) × Nat)), x.st = .M →
      ∃ e : Dev, exec (p.1 hpa) s = .next (s.withDev e) ∧ e.out = .snpRsp p.2 line sec x.data x.info.poison :: d.out ∧ e.net = d.net) ∧
    (x.st = .I → ∃ e : Dev, exec (.snpInv hpa) s = .next (s.withDev e) ∧ e.net = d.net ∧
      e.out = .snpRsp (if ((d.dirEntry line).sector sec).hs ≠ 0 then 1 else 2) line sec 0 false :: d.out ∧
      e.dir = (d.updSector line sec fun y => { y with ds := .I, own := 0x3FF, hs := 0 }).dir) ∧
    ∀ p ∈ ([(.snpData, 4, some 1), (.snpCur, 6, none)] : List ((Nat → Instr) × Nat × Option Nat)), x.st = .I →
      ∃ e : Dev, exec (p.1 hpa) s = .next (s.withDev e) ∧ e.out = .snpRsp p.2.1 line sec 0 false :: d.out ∧ e.net = d.net ∧
        e.dir = match p.2.2 with
          | none => (d.setEntry (d.dirEntry line)).dir
          | some v => (d.updSector line sec fun y => { y with hs := v }).dir) ∧
  ∀ (s : State) (line : Nat) (sec : Fin 4) (t : Txn), let d := s.dev; let h := d.homeOf (lineDpa line); let q := t.req
    let hpa := secDpa line sec - hostDpa
    d.homeIdle h [(0, some t)] → q.line = line → q.smask = secMask sec → t.desc = none → t.post = [] → t.fwded = [] → t.got = [] →
    (t.stage = .close → t.await = [.bi sec] → ∃ e : Dev, exec (.birsp line sec .i) s = .next (s.withDev e) ∧ e.txn h 0 = none ∧
      e.net = d.net ∧ e.dir = (({ d with homes := e.homes } : Dev).updSector line sec fun y => { y with hs := 0 }).dir) ∧
    (∀ g x p, isHost (lineDpa line) = true → isCore q.src = true → t.await = [.go sec] →
      (t.stage = .fetch → q.kind = .wrFull → q.pay ≠ [] → ∃ (e : Dev) (r : RspMsg), exec (.go line sec g x p) s = .next (s.withDev e) ∧
        e.txn h 0 = none ∧ e.net = d.net ++ [.rsp r] ∧ r.kind = .cmp ∧ r.dst = q.src ∧
        ∀ i, i < 64 → Map.get 0 e.hostMem (hpa + i) = Sector.byte (q.payOf sec).data i) ∧
      (t.stage = .recall → q.kind = .rdCurrent → (d.cacheSec (d.sliceNo line) line sec).st = .I →
        ∃ (e : Dev) (r : RspMsg), exec (.go line sec g x p) s = .next (s.withDev e) ∧ e.txn h 0 = none ∧
          e.net = d.net ++ [.rsp r] ∧ r.kind = .data ∧ r.dst = q.src ∧ r.st = .I ∧ r.data = x ∧ r.info.poison = p ∧
          e.hostMem = (d.putHost hpa (Sector.bytes x)).hostMem)) ∧
    (isCore q.src = true → t.stage = .recall → t.await = [.go sec] → q.kind = .rdCurrent →
      ∃ (e : Dev) (r : RspMsg), exec (.goErr line sec) s = .next (s.withDev e) ∧ e.txn h 0 = none ∧ e.net = d.net ++ [.rsp r] ∧
        r.kind = .err ∧ r.dst = q.src ∧ r.status = .hostError)

/-! ### Caches (09_caches.md R281-R305) -/

/-- Register and dictionary commands of the caches: ENABLE is refused before the first INVALIDATE_ALL; clearing ENABLE flushes; a
command is refused while the cache is busy, INVALIDATE_ALL also while it is enabled. -/
def Obligations.CacheCommands : Prop :=
  (∀ (s : State) (src : RegSource) (n : Nat), let d := s.dev; let k := d.cache n
    RegSource.writer src = true → cacheExists n = true → d.cacheHeld n = false →
    (k.invDone = true → k.op = none → exec (.cacheEnable src n) s = .next (s.withDev (d.setCache n { k with enable := true }))) ∧
    (k.invDone = false → exec (.cacheEnable src n) s = .next (s.withDev (d.setCache n { k with enRefused := true }))) ∧
    (k.enable = true → k.busy = false → exec (.cacheDisable src n) s = .next (s.withDev
      (d.setCache n { k with op := some { code := 8, off := true, cmd := false }, busy := true }))) ∧
    ∀ p ∈ ([(.pcmdInvalidateAll, 6), (.pcmdWritebackAll, 7), (.pcmdFlushAll, 8)] : List ((RegSource → Nat → Instr) × Nat)),
      (k.busy = false → (p.2 = 6 → k.enable = false) → exec (p.1 src n) s = .next (s.withDev
        (d.setCache n { k with op := some { code := p.2, off := false, cmd := false }, busy := true }))) ∧
      (k.busy = true ∨ (p.2 = 6 ∧ k.enable = true) →
        exec (p.1 src n) s = .next (s.withDev (d.setCache n { k with pcRefused := true })))) ∧
  (∀ s : State, (∀ n ∈ namedCaches 0, (s.dev.cache n).invDone = true ∧ (s.dev.cache n).op = none) →
    ∃ e : Dev, exec (.cacheEnableWrite 3) s = .next (s.withDev e) ∧ e = { s.dev with caches := e.caches } ∧
      ∀ n ∈ namedCaches 0, e.cache n = { s.dev.cache n with enable := true }) ∧
  (∀ (s : State) (code : Nat), let d := s.dev
    6 ≤ code → code ≤ 8 → (∀ n, n < 64 → (d.cache n).busy = false ∧ (d.cache n).enable = false) →
    ∃ e : Dev, exec (.cacheCommand (BitVec.ofNat 8 (16 + code))) s = .next (s.withDev e) ∧ (e.prog 0x50).state = 1 ∧
      (e.prog 0x50).position = 0 ∧
      (∀ n, n < 64 → e.cache n = { d.cache n with op := some { code := code, off := false, cmd := true }, busy := true }) ∧
      ∀ n, 64 ≤ n → e.cache n = d.cache n) ∧
  ∀ (s : State) (n w : Nat), let k := s.dev.cache n
    cacheExists n = true → w < 16 → (k.disabled ||| k.disabledW).getLsbD w = true →
    exec (.cacheWayRestore (BitVec.ofNat 16 (16 * n + w))) s = .next (s.withDev
      ((s.dev.setCache n { k with restore := insertNew w k.restore }).nvRecord (nvRepair (quarterOfCache n))))

/-- The CACHE_RANGE in turn: a line visited advances its position by 256 and counts what was skipped or not loaded; UNLOCK makes the ways
ordinary; an _ALL operation walks the caches it names; when the walk is done and what it wrote has been accepted, the
descriptor ends and the caches are idle again. -/
def Obligations.CacheRanges : Prop :=
  ∀ (s : State) (id : DescId) (r : Run) (h : List HostAnswer), let d := s.dev
    d.rangeHead = some r → r.id = id → d.run id = some r → r.stage = .running →
    (∀ p ∈ ([(.cacheRangeWriteback, 0), (.cacheRangeFlush, 1), (.cacheRangeInvalidate, 2), (.cacheRangePrefetch, 3), (.preloadLock, 4)] :
        List ((DescId → Nat → List HostAnswer → Instr) × Nat)), ∀ (k m : Nat) (d2 : Dev) (inRange : Nat → Bool),
      let a := r.acc (homeSource 0) r.ctx (daSeg (qWord r.w 2)) h
      let line := a.sector ((daOff (qWord r.w 2) + r.pos) / 64) / 4
      (∀ l, inRange l = match a.sg.offsetOf (lineDpa l) with
        | some o => decide (daOff (qWord r.w 2) ≤ o ∧ o < daOff (qWord r.w 2) + (qWord r.w 3).toNat)
        | none => false) →
      crOp r.w = p.2 → r.pos < (qWord r.w 3).toNat →
      rangeLine r { a.acc with src := homeSource (d.homeOf (lineDpa line)) } line inRange d = .ok (.done k m, d2) →
      ∃ e : Dev, e = (d2.updRun id fun x => (x.addCount 0 k).addCount 1 m).setPos id (r.pos + 256) ∧
        exec (p.1 id 1 h) s = .next (s.withDev (e.rangeEntry id (d.homeOf (lineDpa line))))) ∧
    (crOp r.w = 5 → ∀ n, ∃ e : Dev, exec (.unlock id n h) s = .next (s.withDev e) ∧ e = { d with caches := e.caches } ∧
      ∀ i, i < 64 → e.cache i = { d.cache i with locked := (d.cache i).locked &&& ~~~(waysOf (crWays r.w)) }) ∧
    (∀ p ∈ ([(.cacheRangeInvalidateAll, 6), (.cacheRangeWritebackAll, 7), (.cacheRangeFlushAll, 8)] :
        List ((DescId → Nat → List HostAnswer → Instr) × Nat)), ∀ c : Nat, crOp r.w = p.2 →
      ((namedCaches (crCaches r.w)).filter fun n => (d.cache n).op.isSome && !d.walkBlocked n) = [c] →
      let e := (d.walkCache c p.2).updCache c fun k => { k with op := none }
      e.run id = some r → exec (p.1 id 1 h) s = .next (s.withDev (e.setPos id (r.pos + r.count (crBytes c))))) ∧
    (crOp r.w ≤ 3 → (qWord r.w 3).toNat ≤ r.pos → d.owes id true = false → d.ownOps = [] → r.count 0 = 0 → r.count 1 = 0 →
      let e := ((d.setPos id (qWord r.w 3).toNat).endRun id stOk).rangeOver r true
      exec .percolatorWalkEnd s = .next (s.withDev e)) ∧
    (∀ (e : Dev) (hm : Nat), e.run id = some r → (e.rangeEntry id hm).coh.perc =
      if r.count (crEntries hm) < 77856 then e.coh.perc + 1 else e.coh.perc) ∧
    ∀ (e : Dev) n, (e.cache n).offAfter = false → (e.opDone n { code := 1, off := false, cmd := false }).cache n =
      { e.cache n with op := none, busy := false }

/-! ### Segments and their revocation (11_segments.md R327-R340) -/

/-- A segment is defined by its attribute word, checked whole; a valid one changes only by a longer limit. REVOKE waits for the holders
of the next generation, then the generation rises, every copy takes it, every agent answers a marker, and the segment is
free for the context. -/
def Obligations.SegmentCommands : Prop :=
  (∀ (s : State) (src : RegSource) (c : CtxId) (g : SegNo) (v : Word64), let d := s.dev; let r := d.seg c g
    RegSource.writer src = true → d.rst.held.contains .cp = false →
    (r.valid = true → exec (.segValidate src c g v) s = .next (s.withDev (d.segRefuse c g r 7))) ∧
    (let n := r.withAttr (v ||| 0x8000000000000000); let m : SegRec := { n with valid := true, homeq := n.homeQuarter }
      r.valid = false → d.segErr c n = none → d.revoking c g = false →
      exec (.segValidate src c g v) s = .next (s.withDev ((d.setSeg c g m).segKeep c g m)) ∧
        ((d.setSeg c g m).segKeep c g m).seg c g = m) ∧
    (∀ e, r.valid = false → d.segErr c (r.withAttr (v ||| 0x8000000000000000)) = some e → exec (.segValidate src c g v) s = .next (s.withDev
      (d.segRefuse c g (r.withAttr (v ||| 0x8000000000000000)) e))) ∧
    let n : SegRec := { r with limit := v.toNat % 2 ^ 48 }
    (r.valid = false → exec (.segLimitWrite src c g v) s = .next (s.withDev (d.setSeg c g n))) ∧
    (r.valid = true → r.limit < n.limit → d.segErr c n = none →
      exec (.segLimitWrite src c g v) s = .next (s.withDev ((d.setSeg c g n).segKeep c g n))) ∧
    (r.valid = true → n.limit ≤ r.limit → exec (.segLimitWrite src c g v) s = .next (s.withDev (d.segRefuse c g r 7)))) ∧
  (∀ (s : State) (id : DescId) (r : Run) (v : Revoke), let d := s.dev
    d.run id = some r → (d.segs.revokes.find? fun x => x.desc = id) = some v → r.live = true → v.step = 1 →
    d.holders v.ctx v.seg ((d.gen v.ctx v.seg + 1) % 16) = 0 → r.count 5 = 0 → ∃ e : Dev, exec (.revoke id) s = .next (s.withDev e) ∧
      e.run id = some ({ r with stage := .running }.setCount 0 0) ∧
      (e.segs.revokes.find? fun x => x.desc = id) = some { v with step := 2 }) ∧
  ∀ (s : State) (c : CtxId) (g : SegNo) (v : Revoke), let d := s.dev
    d.revokeOf c g = some v → (d.segs.revokes.map fun x => x.desc).Nodup →
    (v.step = 2 → d.holders c g ((d.gen c g + 1) % 16) = 0 → ∃ e : Dev, exec (.generationBump c g) s = .next (s.withDev e) ∧
      e.gen c g = (d.gen c g + 1) % 16 ∧ e.revokeOf c g = some { v with step := 3, copies := List.range 140 } ∧
      e.seg c g = d.seg c g) ∧
    (∀ k, v.step = 3 → k ∈ v.copies → k < 140 → ∃ e : Dev, exec (.generationCopyAck c g k) s = .next (s.withDev e) ∧
      e.copyGen k c g = d.gen c g ∧
      ((∃ j ∈ v.copies, j ≠ k) → e.revokeOf c g = some { v with copies := v.copies.filter (· ≠ k), markers := [] }) ∧
      ((∀ j ∈ v.copies, j = k) → e.revokeOf c g = some { v with copies := [], step := 4, markers := taggedAgents } ∧
        ∀ n, (d.core n).ctx = c.val → (d.core n).team ≠ none → Map.get 0 (d.core n).gens g = (d.gen c g + 15) % 16 →
          (d.core n) ≠ .reset → Map.get false (e.core n).revoked g = true)) ∧
    (∀ a, v.step = 4 → a ∈ v.markers → d.outstanding a c g = false →
      ((∃ j ∈ v.markers, j ≠ a) → exec (.drainMarkerAnswer c g a) s = .next (s.withDev
        (d.updRevoke v.desc fun x => { x with markers := v.markers.filter (· ≠ a) }))) ∧
      ((∀ j ∈ v.markers, j = a) → exec (.drainMarkerAnswer c g a) s = .next (s.withDev (d.revokeDone { v with markers := [] }))))

/-! ### Queues, descriptors, the Demitasse mailbox (12_queues_and_mailbox.md R343-R378) -/

/-- A doorbell is accepted when its queue belongs to its context, is enabled and not halted, and its tail lies within the ring; one beyond
the ring halts the queue with cause DOORBELL_RANGE (3); one for a queue of another context, a disabled or a halted queue is ignored
and counted, and changes nothing else. -/
def Obligations.Doorbells : Prop :=
  ∀ (s : State) (src : RegSource) (c : CtxId) (q : QueueId) (v : Word64), let d := s.dev; let x := d.queue q; let tail := v.toNat % 2 ^ 32
    d.rst.held.contains .cp = false →
    (x.ctx = c.val → x.enable = true → x.halted = false → (tail + 2 ^ 32 - x.head) % 2 ^ 32 ≤ x.entries →
      exec (.qdoorbell src c q v 8) s = .next (s.withDev (d.setQueue q { x with tail := tail }))) ∧
    (x.ctx = c.val → x.enable = true → x.halted = false → x.entries < (tail + 2 ^ 32 - x.head) % 2 ^ 32 →
      exec (.qdoorbell src c q v 8) s = .next (s.withDev ((d.setQueue q { x with halted := true, cause := 3 }).msixRaise x.vec))) ∧
    (x.ctx ≠ c.val ∨ x.enable = false ∨ x.halted = true →
      exec (.qdoorbell src c q v 8) s = .next (s.withDev { d with cp := { d.cp with ignored := d.cp.ignored + 1 } }))

/-- FENCE ends once nothing of its queue is unsettled; a descriptor's own time limit ends it with TIMEOUT, also one that has ended
and whose record still waits, and none while the reference is lost; interim and final records are written where the queue's ring
says, the final one moving the queue's DONE and raising its vector where asked. COPY moves the span up to the next boundary of
its destination and counts it, also by the class of its engine; it ends with OK when all of its length is written. -/
def Obligations.CopiesAndEnds : Prop :=
  (∀ (s : State) (id : DescId) (r : Run), let d := s.dev
    d.run id = some r → r.team = none → id.queue < 16384 → let q := d.queue id.queue
    (r.live = true → descType r.w = tyFence → ((d.begun id).queueUnsettled id = false →
        exec (.fence id) s = .next (s.withDev ((d.begun id).endRun id stOk))) ∧
      ((d.begun id).queueUnsettled id = true → exec (.fence id) s = .next (s.withDev (d.begun id)))) ∧
    (r.live = true → d.refStopped = false → r.takesTimeout = true → d.timeoutOf r ≠ 0 → descType r.w ≠ tyMigrate →
      exec (.descriptorTimeout id) s = .next (s.withDev ((d.endRun id stTimeout).admitWaiting))) ∧
    (d.recordWaits r = true → d.refStopped = false → r.prog = 0 → r.takesTimeout = true → d.timeoutOf r ≠ 0 →
      exec (.descriptorTimeout id) s = .next (s.withDev (d.updRun id fun x => { x with status := stTimeout }))) ∧
    (d.timeoutOf r = 0 ∨ r.takesTimeout = false ∨ d.refStopped = true → exec (.descriptorTimeout id) s = .next s) ∧
    (∀ a d2, r.live = true → qBit r.w 0 57 = true → descType r.w ≠ tyKernel → recordWrite q r stInProgress d = .ok (a, d2) →
      exec (.interimRecord id) s = .next (s.withDev d2)) ∧
    (∀ d2, r.stage = .ended → r.undefDue = false → d.recordReady r = true → recordWrite q r (d.finalStatus r) d = .ok (none, d2) → d2.run id = some r → isHost q.cmpl = false →
      exec (.completionRecord id) s = .next (s.withDev (d2.finishRecord id true))) ∧
    (descType r.w ≠ tyMigrate → descType r.w ≠ tyGather → r.status ≠ stTimeout → qBit r.w 0 58 = true → q.irqEn = true → r.count rcFinal = 0 →
      d.finishRecord id true = (((((d.setQueue id.queue { q with done := (q.done + 1) % 2 ^ 32 }).msixRaise q.vec).dropRun id).dropMigr id).admitWaiting))) ∧
  (∀ (s : State) (id : DescId) (r : Run) (h : List HostAnswer), let d := s.dev.begun id; let off := r.count ccIssued
    let dst := daOff (qWord r.w 2) + off; let n := Nat.min (coLen r.w - off) (64 - dst % 64)
    s.dev.run id = some r → r.stage = .running → descType r.w = tyCopy → r.count ccFail = 0 → off < coLen r.w →
    s.dev.partHeld (r.count ccEngine) = false →
    (r.copyAcc true h).sg.target ≠ 3 → (r.copyAcc false h).sg.target ≠ 3 →
    ∀ bs m d2 d3 d4, (coFill r.w = false → engReadBytes (r.copyAcc true h) (daOff (qWord r.w 1) + off) n d = .ok (.ok (bs, false, m), d2)) →
      (coFill r.w = true → bs = fillBytes (qWord r.w 5) dst n ∧ d2 = d) → d2.overlapFree r off bs = (bs, d3) →
      engWriteBytes (r.copyAcc false h) dst bs false 0 0 d3 = .ok (none, d4) → d4.regq = [] →
      exec (.copy id 1 h) s = .next (s.withDev
        (((d4.countHost (r.count ccEngine) n).updRun
          id fun y => (y.setCount ccIssued (off + n)).setCount ccPoison (y.count ccPoison)).settleCopy id)))

/-- Queue registers: a configuration that passes its checks opens the queue with its counters at 0; clearing ENABLE closes it. A
fetched descriptor enters execution or the waiting line as its checks say. A message for a core goes into its slot of the core's
scratch when the slot's first word is 0; a wait beyond the limit and a target that cannot take it refuse it; the reply is
written for the host and the mailbox is free again. -/
def Obligations.QueuesAndMailboxes : Prop :=
  ((∀ (s : State) (src : RegSource) (q : QueueId) (v : Word64), let d := s.dev; let x := d.queue q
    RegSource.writer src = true → d.rst.held.contains .cp = false → x.enable = false →
    (let y := x.withCfg (v ||| 0x8000000000000000);
      (d.queueErr y = 0 → exec (.qdbEnable src q v) s = .next (s.withDev (d.setQueue q { y with
        enable := true, head := 0, tail := 0, done := 0, refused := 0, late := 0, halted := false, cause := 0, cfgErr := 0 }))) ∧
      (d.queueErr y ≠ 0 → exec (.qdbEnable src q v) s = .next (s.withDev (d.setQueue q { y with cfgErr := d.queueErr y })))) ∧
    exec (.qdbDisable src q v) s = .next (s.withDev (d.setQueue q (x.withCfg (v &&& 0x7FFFFFFFFFFFFFFF))))) ∧
  (∀ (s : State) (src : RegSource) (q : QueueId) (v : Word64), let d := s.dev; let x := d.queue q
    let y := x.withCfg (v &&& 0x7FFFFFFFFFFFFFFF)
    RegSource.writer src = true → d.rst.held.contains .cp = false → x.enable = true →
    (({ y with irqEn := x.irqEn } : Queue) = x → exec (.qdbDisable src q v) s = .next (s.withDev
      ((d.setQueue q { y with enable := false }).abortHead q))) ∧
    (({ y with irqEn := x.irqEn } : Queue) ≠ x → exec (.qdbDisable src q v) s = .next (s.withDev (d.setQueue q { x with cfgErr := 4 })))) ∧
  ∀ (s : State) (q : QueueId) (h : List HostAnswer) (data : Sector) (m : SectorMeta) (d1 d2 : Dev), let d := s.dev; let x := d.queue q
    let w := bytesWords 8 (Sector.bytes data); let id : DescId := { queue := q, index := x.head }
    let e := d2.updQueue q fun y => { y with head := (y.head + 1) % 2 ^ 32 }
    d.mayFetch q = true → engRead (ctrlAcc h none) ((x.ring + 64 * (x.head % x.entries)) / 64) d = .ok (.ok (data, m), d1) → m.poison = false →
    (∀ c, checkDesc w x.ctx h d1 = .ok (.ok c, d2) →
      exec (.descriptorFetch q h) s = .next (s.withDev (e.enterRun (mkRun id w x.ctx x.cls e.now c) none))) ∧
    ∀ st, checkDesc w x.ctx h d1 = .ok (.error st, d2) → ∃ r : Run, r.id = id ∧ r.w = w ∧ r.stage = .ended ∧ r.status = st ∧ r.admCode = 3 ∧
      exec (.descriptorFetch q h) s = .next (s.withDev ((e.countRefusal st).addRun r))) ∧
  (∀ (s : State) (m : MailboxId), let d := s.dev; let x := d.mailbox m
    (x.pending = true → x.answer = none → x.kind = false → ∀ c, d.mailboxCore x = some c →
      ((d.core c).scratchNat (256 * x.slot) 8 = 0 → ∃ e : Dev, exec (.mailboxDelivery m) s = .next (s.withDev
          { e with cp := { e.cp with messages := d.cp.messages + 1 } }) ∧
        e = (d.setCore c ((d.core c).putScratch (256 * x.slot) x.copy)).setMailbox m { x with pending := false }) ∧
      ((d.core c).scratchNat (256 * x.slot) 8 ≠ 0 → exec (.mailboxDelivery m) s = .next s ∧
        (d.refStopped = false → exec (.mbxWaitLimit m) s = .next (s.withDev
          (d.setMailbox m { x with refEv := true, pending := false, answer := some (stTimeout, []), answerSeq := x.lastSeq }))))) ∧
    (x.pending = true → x.kind = false → d.mailboxCore x = none →
      (x.answer = none → exec (.mailboxDelivery m) s = .next (s.withDev
        (d.setMailbox m { x with refEv := true, pending := false, answer := some (stRefusedBusy, []), answerSeq := x.lastSeq }))) ∧
      (d.refStopped = false → exec (.mbxWaitLimit m) s = .next (s.withDev
        (d.setMailbox m { x with refEv := true, pending := false, answer := some (stTimeout, []), answerSeq := x.lastSeq })))) ∧
    ∀ st ws a d2, x.answer = some (st, ws) →
      engWrite (ctrlAcc [] none) ((hostDpa + x.reply) / 64)
        (Sector.ofBytes (wordBytes (packBits [(48, 16, x.answerSeq), (40, 8, st)] :: (ws ++ List.replicate (7 - ws.length) 0))))
        (BitVec.allOnes 64) false 0 0 d = .ok (a, d2) →
      exec (.mailboxReply m) s = .next (s.withDev (d2.setMailbox m { d2.mailbox m with answer := none, pending := x.pending && !x.kind })))

/-! ### The host link (13_host_link.md R384-R402), power states the host writes -/

/-- The host link: training ends in L0 or fails for good, recovery, loss, IDE, decoders, flushes for a power failure, the bias of pages,
the reset and the power states it asks for. -/
def Obligations.HostLinkCommands : Prop :=
  (∀ (s : State) (w r c b : Nat), let d := s.dev; let x := d.hl
    d.rst.held.contains .hl = false →
    (x.state ≠ 2 → exec (.hostLinkUp false w r c b) s = .next (s.withDev
      (({ d with hl := { x with state := 4 } } : Dev).fault (mkFault 0x3F0 .fatal 0x31 0)))) ∧
    (x.state ≠ 2 → x.state ≠ 3 → d.od 0x20A004 16 ≤ w → d.od 0x20A005 64 ≤ r → exec (.hostLinkUp true w r c b) s = .next (s.withDev
      { d with hl := { x with state := 2, width := d.od 0x20A004 16, rate := d.od 0x20A005 64, decs := [], cacheId := c, biId := b, ide := 0, ioIde := [] }
               msix := [], msixPend := [] })) ∧
    (x.state = 2 → x.width = w → x.rate = r → exec (.linkRecovery w r) s = .next (s.withDev
      { d with hl := { x with state := 3, retrains := x.retrains + 1 } }))) ∧
  (∀ s : State, let d := s.dev; let x := d.hl
    (x.state = 2 ∨ x.state = 3 → exec .dlDown s = .next (s.withDev (d.hostLoss .hostloss 1))) ∧
    (x.state = 2 → d.refStopped = false → d.hostOwesAny = true → exec .hostAnswerLimit s = .next (s.withDev
      (({ d with hl := { x with expiries := x.expiries + 1 } } : Dev).hostLoss .hostloss 2))) ∧
    (∀ n, 1 ≤ n → n ≤ 2 → exec (.ideFailure n) s = .next (s.withDev
        (({ d with hl := { x with ioIde := Map.put x.ioIde n 2 } } : Dev).fault (mkFault 0x3F0 .fatal 0x33 n))) ∧
      exec (.ideKeyRefresh n) s = .next (s.withDev { d with hl := { x with ioIde := Map.put x.ioIde n 1 } })) ∧
    (x.state = 2 → ∃ e : Dev, exec (.ideFailure 0) s = .next (s.withDev e) ∧ e.hl.ide = 2 ∧ e.hl.state = 0 ∧ e.hl.losses = x.losses + 1) ∧
    exec (.ideKeyRefresh 0) s = .next (s.withDev { d with hl := { x with ide := 1 } }) ∧
    exec .cxlReset s = .next (s.withDev (d.trigger { source := .warm, origin := .none, subject := 0x3F0, info := 0 })) ∧
    (x.state = 2 → d.dirtyL1 = [] → d.dirtySlices = [] →
      exec .gpfPhase1 s = .next (s.withDev { d with hl := { x with gpf := 1 } })) ∧
    (x.gpf = 1 → d.dirtyL1 = [] → d.dirtySlices = [] →
      ∃ e : Dev, exec .gpfPhase2 s = .next (s.withDev e) ∧ e.hl = { x with gpf := 2 } ∧ e.mem = d.mem) ∧
    (x.gpf = 0 → exec .gpfPhase2 s = .next s)) ∧
  (∀ (s : State) (n : Fin 2) (base size ways : Nat) (bi : Bool), let d := s.dev
    let ok := size = (if n = 0 then 0x6000000000 else 0x180000000000) ∧ base % 0x10000000 = 0 ∧ ways = 1 ∧ bi = true ∧
      (d.od 0x20A002 0 = 0 ∨ d.hl.ide = 1)
    ∃ x : Decoder, exec (.decoderCommit n base size ways bi) s = .next (s.withDev
        { d with hl := { d.hl with decs := Map.put d.hl.decs n x } }) ∧ x.base = base ∧
      (ok → x.committed = true ∧ x.notCommitted = false) ∧ (¬ok → x.committed = false ∧ x.notCommitted = true)) ∧
  (∀ (s : State) (src : RegSource) (v : Word64), let d := s.dev; let x := d.hl; let n := v.toNat % 2 ^ 24
    RegSource.writer src = true → d.regHeld 0x201008 = false →
    (x.busy = true ∨ n = 0 →
      exec (.biasCmdDevice src v) s = .next (s.withDev { d with hl := { x with target := true, count := n, refused := true } }) ∧
      exec (.biasCmdShared src v) s = .next (s.withDev { d with hl := { x with target := false, count := n, refused := true } })) ∧
    (x.busy = false → 0 < n → (∀ i, i < n → d.biasPage (x.page + i) = true) →
      (∃ e : Dev, exec (.biasCmdShared src v) s = .next (s.withDev (e.msixRaise 0)) ∧ (∀ i, i < n → e.biasOf (x.page + i) = 1) ∧
        e.hl.done = n ∧ e.hl.busy = false) ∧
      (n = 1 → d.hostLines x.page = [] → d.pageAsks x.page = false → x.heldReqs = [] →
        ∃ e : Dev, exec (.biasCmdDevice src v) s = .next (s.withDev (e.msixRaise 0)) ∧ e.biasOf x.page = 0 ∧ e.hl.done = 1 ∧
          e.hl.busy = false ∧ e.hl.toDevice = x.toDevice + 1))) ∧
  ∀ s : State, let d := s.dev
    (d.pwr.state = 2 → d.pwr.busy = false → exec .d3hotWrite s = .next (s.withDev { d with pwr := { d.pwr with d3hot := true } })) ∧
    (d.pwr.state = 0 → d.pwr.busy = false → exec .d0Write s = .next (s.withDev { d with pwr := { d.pwr with d3hot := false } }))

/-! ### Taruc links (14_taruc_fabric.md R403-R414, R429) -/

/-- A flit in order whose CRC is good is taken and its acknowledgement and credit used; one with a wrong CRC is counted and asked for
again once; NAK and the retry time replay from the flit named; a link trains, answers probes and comes up on its 256th echo;
enabling, retraining and injected CRC errors as commanded. -/
def Obligations.LinkCommands : Prop :=
  (∀ (s : State) (n : LinkId) (hdr crc : Word64) (ws : List Word64), let d := s.dev; let l := d.lnk n
    l.state = 2 → ws.length = 31 →
    (crc ≠ flitBits hdr ws → exec (.flitReceive n hdr ws crc) s = .next (s.withDev
      ((d.setLnk n { l with crcErrors := l.crcErrors + 1, crcEv := true, lock := if l.lock < 256 then 0 else l.lock }).nakFor n))) ∧
    (crc = flitBits hdr ws → qBits [hdr] 0 38 2 = 1 → qBits [hdr] 0 52 12 = l.rxSeq → exec (.flitReceive n hdr ws crc) s = .next (s.withDev
      ((d.setLnk n { l with rxSeq := (l.rxSeq + 1) % 4096, nakSent := false }).flitHeader n hdr))) ∧
    (crc = flitBits hdr ws → qBits [hdr] 0 38 2 = 0 → qBits [hdr] 0 52 12 ≠ l.rxSeq →
      exec (.flitReceive n hdr ws crc) s = .next (s.withDev (d.nakFor n)))) ∧
  (∀ (s : State) (n : LinkId), let d := s.dev; let l := d.lnk n
    (l.nakSent = true → d.nakFor n = d) ∧
    (∀ f q, l.state = 2 → (l.retry.dropWhile fun y => y.fseq ≠ f % 4096) = q → q ≠ [] → l.replayed < 8 → exec (.nak n f) s = .next (s.withDev
      (q.foldl (fun (e : Dev) y => e.flitOut n y false)
        (d.setLnk n { l with replayed := l.replayed + 1, replays := l.replays + BitVec.ofNat 64 q.length })))) ∧
    (∀ y ys, l.state = 2 → d.refStopped = false → l.retry = y :: ys → l.replayed < 8 → y.fseq < 4096 → exec (.retryTimeout n) s = .next (s.withDev
      ((y :: ys).foldl (fun (e : Dev) f => e.flitOut n f false)
        (d.setLnk n { l with replayed := l.replayed + 1, replays := l.replays + BitVec.ofNat 64 (ys.length + 1) })))) ∧
    (∀ y ys, l.state = 2 → d.refStopped = false → l.retry = y :: ys → 8 ≤ l.replayed → y.fseq < 4096 →
      exec (.retryTimeout n) s = .next (s.withDev (d.setLnk n { l with state := 3, retrains := l.retrains + 1, replayed := 0 }))) ∧
    (l.state = 3 → d.refStopped = false → exec (.linkRetrainLimit n) s = .next (s.withDev
      (((d.setLnk n { l.fresh with state := 0, downEv := true, credit := [], owed := [] }).reroute n l.outq).fault (mkFault (0x240 + n) .alert 0x40 0)))) ∧
    (l.state ≠ 3 → exec (.linkRetrainLimit n) s = .next s) ∧
    (l.enable = true → l.state = 0 → d.rst.held.contains .tl = false →
      exec (.linkUpAttempt n) s = .next (s.withDev (d.setLnk n { l.fresh with state := 1 }))) ∧
    (∀ m x y, d.rst.held.contains .tl = false →
      (l.state = 3 → exec (.tarucPhyTrained n m x y) s = .next (s.withDev
        (l.retry.foldl (fun (e : Dev) f => e.flitOut n f false) (d.setLnk n { l with state := if l.depth = 0 then 1 else 2, retrainEv := true })))) ∧
      (l.state = 1 → exec (.tarucPhyTrained n m x y) s = .next (s.withDev ((List.range 256).foldl (fun (e : Dev) _ => e.idle n)
        (d.setLnk n { l.fresh with medium := m, loss := x, fixedLat := y, owed := [] })))) ∧
      (l.state ≠ 1 → l.state ≠ 3 → exec (.tarucPhyTrained n m x y) s = .next s)) ∧
    (l.state = 2 → exec (.retrain n) s = .next (s.withDev (d.setLnk n { l with state := 3, retrains := l.retrains + 1, replayed := 0 }))) ∧
    (l.state ≠ 2 → exec (.retrain n) s = .next s) ∧
    exec (.injectCrc n) s = .next (s.withDev (d.setLnk n { l with injectCrc := true })) ∧
    (l.state = 0 → ∃ e : Dev, exec (.linkEnable n true) s = .next (s.withDev e) ∧ e.tr = (d.setLnk n { l with enable := true }).tr) ∧
    (l.state = 2 → ∃ e : Dev, e.tr = d.tr ∧
      exec (.linkEnable n false) s = .next (s.withDev (((e.linkDown n).updLnk n fun x => { x with enable := false }).nvRecord 8))) ∧
    (l.outq = [] → (d.linkDown n).lnk n = { l.fresh with state := 0, downEv := true, credit := [], owed := [] })) ∧
  ∀ (s : State) (n : LinkId) (ws : List Word64), let d := s.dev; let l := d.lnk n
    ({ link := n, words := ws } : TMsg) ∉ d.tr.inbox → l.state = 1 →
    (tmSrc ws = d.od 0x400001 0 → exec (.capx n ws) s = .next (s.withDev
      ((d.setLnk n { l.fresh with state := 4, dupEv := true, dev := tmSrc ws }).fault (mkFault (0x240 + n) .fatal 0x41 (tmSrc ws))))) ∧
    (tmSrc ws ≠ d.od 0x400001 0 → tmBits ws 2 56 8 / 16 ≠ 1 → exec (.capx n ws) s = .next (s.withDev
      ((d.setLnk n { l.fresh with state := 4 }).fault (mkFault (0x240 + n) .alert 0x42 (tmBits ws 2 56 8))))) ∧
    (tmSrc ws ≠ d.od 0x400001 0 → tmBits ws 2 56 8 / 16 = 1 → exec (.capx n ws) s = .next (s.withDev ((d.setLnk n { l with
      capxOk := true, dev := tmSrc ws, plink := tmBits ws 2 48 6, caps := (ws.drop 2).take 4 }).sendProbe n))) ∧
    exec (.lenprobe n ws) s = .next (s.withDev (d.linkSend n (ctrlMsg mtLenecho (d.od 0x400001 0) 0 [qWord ws 2]))) ∧
    (l.capxOk = true → let d1 := d.setLnk n { l with
        echoes := l.echoes + 1, rttSum := l.rttSum + (d.phyClocks (n / 9) - (qWord ws 2).toNat - tmBody ws) }
      (l.echoes < 255 → exec (.lenecho n ws) s = .next (s.withDev (d1.sendProbe n))) ∧
      (l.echoes = 255 → exec (.lenecho n ws) s = .next (s.withDev (d1.linkReady n)))) ∧
    (l.capxOk = false → exec (.lenecho n ws) s = .next s)

/-! ### Taruc messages (14 R413-R427) -/

/-- Messages of peers served here: LOOKUP answers the row, UPDATE sends it to its home, STEPEND, MIGCOPY, MIGCOMMIT, MIGABORT, BKRD,
BKWR and PING are answered, each once it is done: a BKWR of host memory once the host has answered. Answers of peers: each goes
to the transaction of its TXID and closes it; one without is counted as late; a REDIRECT sends the request on; after the time
limit the transaction ends with PEER_ERROR. -/
def Obligations.PeerMessages : Prop :=
  ((∀ (s : State) (m : TMsg), let d := s.dev; let e := d.tookMsg m
    exec (.ping m) s = .next (s.withDev (e.sendMsg (mkMsg mtPong (tmSrc m.words) d.devId (tmTxid m.words) (tmBody m.words) (m.words.drop 2)))) ∧
    exec (.pong m) s = .next (s.withDev { e with tr := { e.tr with pings := e.tr.pings - 1 } })) ∧
  ∀ (s : State) (m : TMsg), let d := s.dev; let w := m.words; let t := tmBits w 1 36 12
    let src := ingressAgent (msgQuarter m)
    d.partHeld src = false → d.lowPower = false →
    (d.table t = none → exec (.lookup m) s = .next (s.withDev ((d.tookMsg m).rowAnswer w stMismatch)) ∧
      exec (.tarucUpdate m) s = .next (s.withDev ((d.tookMsg m).ackMsg w stMismatch)) ∧
      exec (.stepend m) s = .next (s.withDev ((d.tookMsg m).ackMsg w stMismatch)) ∧
      exec (.migcopy m) s = .next (s.withDev ((d.tookMsg m).ackMsg w stMismatch)) ∧
      exec (.migcommit m) s = .next (s.withDev ((d.tookMsg m).ackMsg w stMismatch)) ∧
      exec (.migabort m) s = .next (s.withDev (d.tookMsg m))) ∧
    (∀ x, d.table t = some x → let tb := x.w; let ac : SegBy := fun k => d.liveAcc src (tbCtx tb) k []
      (∀ e at_ k wc img (car pre : Bool) d2 d3, let row := tmBits w 3 0 40
        tmBits w 2 32 32 = (defsum tb).toNat → row < tbRows tb → x.epochAt (tmBits w 1 20 16) = .live →
        resolveRow ac tb d.devId row (qBit w 1 19) d = .ok ((k, .ent e at_), d2) →
        serveRow ac t tb row e (if tbEpoch tb then some (tmBits w 1 20 16) else none) false d2 = .ok (.row wc img car pre, d3) →
        exec (.lookup m) s = .next (s.withDev ((d3.tookMsg m).sendMsg (mkMsg mtLookrsp (tmSrc w) d3.devId (tmTxid w)
          (wc * 2 ^ 38 + (if pre then 1 else 0) * 2 ^ 37 + (if qBit w 1 19 then 1 else 0) * 2 ^ 36 + img.length) (padWords img))))) ∧
      (∀ e at_ k d2, let u := d.msgUpdate x m
        tmBits w 2 32 32 = (defsum tb).toNat → uncounted (resolveRow ac tb d.devId u.row u.fwded) d = .ok ((k, .ent e at_), d2) →
        qBit w 3 63 = false → exec (.tarucUpdate m) s = .next (s.withDev
          ((d2.tookMsg m).send (.req (d.updMsg tb (d.rowLine ac tb u.row e at_) u))))) ∧
      (tbDeterm tb = true → tbShards tb = 1 → ∀ y, let e := (d.tookMsg m).stepEnds t (tmBits w 2 0 32) (tmSrc w)
        e.table t = some y → y.w = tb → y.peers = x.peers → ∃ e1 : Dev,
          e1 = { e with tb := { e.tb with steps := e.tb.steps.map fun (b : StepBuf) =>
            if b.table = t && ([e.devId] ++ y.peers).all b.ends.contains then { b with ready := true } else b } } ∧
          exec (.stepend m) s = .next (s.withDev ((e1.stepRun t).ackMsg w stOk))) ∧
      (∀ da old d2 d3 d4, let row := tmBits w 3 0 40
        let e : RowEnt := { valid := false, fwd := true, carafe := false, wclass := tmBits w 1 34 2, slotsz := tmBits w 1 27 6
                            pool := tmBits w 1 33 1, slot := tmBits w 2 0 43 }
        let a := slotAcc ac tb e
        row < tbRows tb → (tbWmask tb).testBit e.wclass = true → guestWord ac tb row d = .ok (some (da, old), d2) →
        old.valid = false → a.sg.valid = true → 32 * e.slot + e.bytes - 1 ≤ a.sg.limit →
        engWriteBytes a (32 * e.slot) (bodyBytes (w.drop 4) e.bytes) false 0 e.wclass d2 = .ok (none, d3) →
        engWriteBytes (d.guestAcc ac tb row da) (daOff da) (leBytes 8 e.word.toNat) false 0 0 d3 = .ok (none, d4) →
        let d5 : Dev := if tbFirst tb ≤ row ∧ row < tbFirst tb + tbCount tb then d4
          else { d4 with tb := { d4.tb with guestFrom := Map.put d4.tb.guestFrom (2 ^ 40 * tbId tb + row) (some (tmSrc w)) } }
        exec (.migcopy m) s = .next (s.withDev ((d5.tookMsg m).ackMsg w stOk))) ∧
      ∀ da e d2 d3 (commit : Bool), let row := tmBits w 2 0 40
        guestWord ac tb row d = .ok (some (da, e), d2) → e.pendingGuest = true →
        engWriteBytes (d.guestAcc ac tb row da) (daOff da)
          (leBytes 8 (if commit then (RowEnt.word { e with valid := true, fwd := false }).toNat else 0)) false 0 0 d2 = .ok (none, d3) →
        (commit = true → exec (.migcommit m) s = .next (s.withDev (((d3.wakeGuests t row).tookMsg m).ackMsg w stOk))) ∧
        (commit = false → exec (.migabort m) s = .next (s.withDev ((d3.wakeGuests t row).tookMsg m)))) ∧
    (∀ a off bs ps d2, let n := tmBits w 1 0 9
      0 < n → n ≤ 256 → d.peerSeg m n .read = .ok (a, off) → bulkRead a off 4 n d = .ok (.ok (bs, ps), d2) →
      exec (.bkrd m) s = .next (s.withDev ((d2.tookMsg m).sendMsg (mkMsg mtBkdata (tmSrc w) d2.devId (tmTxid w)
        (stOk * 2 ^ 40 + poisonBits ps * 2 ^ 9 + bs.length) (padWords bs))))) ∧
    ∀ a off d2, let n := tmBits w 1 0 9; let id := peerWrite w
      d.peerSeg m n .write = .ok (a, off) →
      bulkWrite { a with acc := { a.acc with desc := some id } } (tmBits w 1 9 4) off 0 4 (bodyBytes (w.drop 3) n) d = .ok (none, d2) →
      (d2.owes id false = false → exec (.bkwr m) s = .next (s.withDev ((d2.tookMsg m).ackMsg w stOk))) ∧
      (d2.owes id false = true → exec (.bkwr m) s = .next (s.withDev (let e := d2.tookMsg m
        { e with tr := { e.tr with acks := e.tr.acks ++ [{ id := id, words := w, status := stOk }] } })))) ∧
  (∀ (s : State) (m : TMsg), let d := s.dev; let w := m.words; let i := tmTxid w; let e := d.tookMsg m
    (e.tx i = none → d.homesQuiet → ∀ c ∈ ([.lookrsp, .tarucAck, .tarucErr, .redirect] : List (TMsg → Instr)),
      exec (c m) s = .next (s.withDev { e with tr := { e.tr with late := e.tr.late + 1 } })) ∧
    ∀ t, e.tx i = some t → d.tx i = some t →
      (∀ id pos, t.use = .row id pos → exec (.lookrsp m) s = .next (s.withDev ((e.closeTx i).rowReply id pos
        { status := tmBits w 1 40 8, wclass := tmBits w 1 38 2, pre := qBit w 1 37, image := bodyBytes (w.drop 2) (tmBits w 1 0 12) }))) ∧
      exec (.tarucAck m) s = .next (s.withDev (e.txEnd i t (tmBits w 1 40 8) false).pumpHomes) ∧
      exec (.tarucErr m) s = .next (s.withDev (e.txEnd i t (tmBits w 1 40 8) true).pumpHomes) ∧
      (tmType t.words = mtLookup → let dev := tmBits w 1 32 16
        let v := mkMsg mtLookup dev (tmSrc t.words) i (tmBody t.words / 2 ^ 20 * 2 ^ 20 + 2 ^ 19) (t.words.drop 2)
        exec (.redirect m) s = .next (s.withDev
          (({ e with tr := { e.tr with txs := Map.put e.tr.txs i (some { t with words := v }) } } : Dev).sendMsg v))) ∧
      (tmBits w 1 40 8 = stOk → ∀ c o da, t.use = .fill c o da → exec (.bkdata m) s = .next (s.withDev
        ((e.closeTx i).fillPiece c o da (bodyBytes (w.drop 2) (tmBits w 1 0 9)) (decide (tmBits w 1 9 4 ≠ 0))))) ∧
      (d.refStopped = false → exec (.peerAnswerLimit i) s = .next (s.withDev (d.txEnd i t stPeerError true).pumpHomes)))

/-! ### Management: frames, field network, keys, calendar, NV records (15_object_dictionary.md R431-R459) -/

/-- READ answers one entry per object asked for, with the object's value or why not; WRITE answers one per entry written, the later
ones as not tried after one that fails; an entry to be kept waits while no NV record can be written, until its limit; DISCOVER
is answered from the identity objects; a frame too long or malformed, of a locked role, with a tag that is not its role's, or
with a number not above the last, is answered so. The field network: link up asks for the address, which is used unless another
has it; a datagram of the port, from and to link-local addresses with hop limit 255, is a frame while fewer than four wait, and
is dropped otherwise; solicitations of the address and echoes are answered. DOE requests are answered while the host link is up. -/
def Obligations.FramesAndFieldNetwork : Prop :=
  ((∀ (s : State) (f : Frame) (rest : List Frame), let d := s.dev; let h := headOf f.bytes
    d.mg.frames = f :: rest → d.rst.held.contains .mg = false →
    (f.via.limit < f.bytes.length → ∀ c ∈ ([.read, .write, .discover] : List Instr),
      exec c s = .next (s.withDev (d.respond f.via h fsTooLong none 0 []).popFrame)) ∧
    (f.bytes.length ≤ f.via.limit → frameEntries h f.bytes = none → ∀ c ∈ ([.read, .write, .discover] : List Instr),
      exec c s = .next (s.withDev (d.respond f.via h fsMalformed none 0 []).popFrame)) ∧
    ∀ es, f.bytes.length ≤ f.via.limit → frameEntries h f.bytes = some es →
      (h.op = 1 → h.tagged = false → d.mg.frameOk = false → let e : Dev := { d with mg := { d.mg with frameOk := true, frameKey := 0 } }
        let (n, ws) := e.readEntries h.role (f.via.limit - 24) es
        exec .read s = .next (s.withDev (e.respond f.via h 0 none n ws).popFrame)) ∧
      (∀ (c : Instr) (o : Nat), (c, o) ∈ [(Instr.read, 1), (.write, 2)] → h.op = o → h.tagged = true → d.mg.frameOk = false →
        let k := d.roleKey h.role
        let good := k ≠ 0 ∧ f.bytes.drop (f.bytes.length - 16) = frameTag k (f.bytes.take (f.bytes.length - 16))
        (Map.get false d.mg.locked h.role = true → exec c s = .next (s.withDev (d.respond f.via h fsLocked none 0 []).popFrame)) ∧
        (Map.get false d.mg.locked h.role = false → ¬good →
          exec c s = .next (s.withDev ((d.authFail h.role).respond f.via h fsAuth none 0 []).popFrame)) ∧
        (Map.get false d.mg.locked h.role = false → good → h.seq ≤ Map.get 0 d.mg.lastSeq h.role →
          exec c s = .next (s.withDev (d.respond f.via h fsStale (some k) 0 []).popFrame))) ∧
      (h.op = 2 → d.mg.frameOk = true → h.tagged = true → ∀ e, d.writeEntries f.via h.role d.mg.frameKey h.seq (es.drop d.mg.frameAt) = (e, true) →
        exec .write s = .next (s.withDev (e.respondWrite f.via h (some d.mg.frameKey) e.mg.frameRsp).popFrame)) ∧
      (h.op = 2 → d.mg.frameOk = true → ∀ e, d.writeEntries f.via h.role d.mg.frameKey h.seq (es.drop d.mg.frameAt) = (e, false) →
        exec .write s = .next (s.withDev e)) ∧
      (h.op = 3 → exec .discover s = .next (s.withDev
        ({ d with mg := { d.mg with discover := d.mg.discover ++ [(f.via, h.id)] } } : Dev).popFrame)) ∧
      (∀ e later, d.refStopped = false → h.op = 2 → d.mg.frameOk = true → d.pins.bkGood = false → es.drop d.mg.frameAt = e :: later → h.tagged = true →
        d.writeEntry f.via h.role d.mg.frameKey h.seq e = none →
        let d1 := later.foldl (fun (y : Dev) x => y.pushEntry x esNotTried) (d.pushEntry e esPersist)
        exec .persistWaitLimit s = .next (s.withDev (d1.respondWrite f.via h (some d.mg.frameKey) d1.mg.frameRsp).popFrame))) ∧
  (∀ (d : Dev) (role room : Nat) (e : Entry), (objAt e.ix e.sub = none → e.ix < 0xF000 ∨ role = 3 → d.readEntry role room e = [entryWord e.ix e.sub 0 esNoObject e.off 0]) ∧
    ∀ o, objAt e.ix e.sub = some o → o.acc ≠ .wo → d.mayRead role e.ix = true → o.ty ≠ .str → o.ty ≠ .blob → e.off = 0 → e.len = 0 →
      let v := d.odBytes o e.ix e.sub
      d.readEntry role room e = entryWord e.ix e.sub o.ty.code 0 0 v.length :: frameWords v) ∧
  (∀ (s : State) (via : Transport) (id : Nat) (rest : List (Transport × Nat)), let d := s.dev
    d.mg.discover = (via, id) :: rest → let e : Dev := { d with mg := { d.mg with discover := rest } }
    exec .discoverAnswer s = .next (s.withDev (e.respond via
      { ver := 1, op := 3, role := 0, tagged := false, rsv := 0, count := 0, len := 16, id := id, seq := 0 } 0 none 12
      (((List.range 11).map (fun i => (0x1000, i + 1)) ++ [(0x4000, 1)]).flatMap fun (p : Nat × Nat) =>
        d.readEntry 3 4096 { ix := p.1, sub := p.2, ty := 0, off := 0, len := 0, val := [] })))) ∧
  ∀ (s : State) (v : Word64), let d := s.dev; let n := v.toNat % 2 ^ 13
    d.rst.held.contains .cp = false →
    (d.mg.winBusy = true ∨ n < 16 ∨ 4096 < n → exec (.dictWinGo .host v) s = .next (s.withDev { d with mg := { d.mg with winRefused := true } })) ∧
    (d.mg.winBusy = false → 16 ≤ n → n ≤ 4096 → exec (.dictWinGo .host v) s = .next (s.withDev { d with mg := { d.mg with
      winBusy := true, frames := d.mg.frames ++ [{ via := .window, bytes := (List.range n).map fun i => Map.get 0 d.mg.reqBuf i }] } }))) ∧
  (∀ s : State, let d := s.dev
    (d.rst.held.contains .mg = false → d.mg.fnState = 0 → d.od 0x180001 1 ≠ 0 → exec .fnLinkUp s = .next (s.withDev
      (({ d with mg := { d.mg with fnLink := true, fnState := 1, fnPort := d.od 0x180007 47056 } } : Dev).emit .dadProbe))) ∧
    (d.mg.fnState ≠ 0 → exec .fnLinkUp s = .next (s.withDev { d with mg := { d.mg with fnLink := true } })) ∧
    exec .fnLinkDown s = .next (s.withDev { d with mg := { d.mg with fnState := 0, fnLink := false } }) ∧
    (∀ b, d.mg.fnState = 1 → exec (.duplicateAddressDetection b) s = .next (s.withDev
      { d with mg := { d.mg with fnState := if b then 3 else 2 } })) ∧
    (∀ src dst port dport hop bs, let good := dport = d.mg.fnPort ∧ src.extractLsb' 118 10 = 0x3FA ∧ (dst = linkLocal ∨ dst = allNodes) ∧
        hop = 255 ∧ (d.mg.frames.filter fun f => f.via.isField).length < 4
      (d.mg.fnState = 2 → good → exec (.fnDatagram src dst port dport hop bs) s = .next (s.withDev { d with mg := { d.mg with
        fnRecv := d.mg.fnRecv + 1, frames := d.mg.frames ++ [{ via := .field src port, bytes := bs }] } })) ∧
      (d.mg.fnState = 2 → ¬good → exec (.fnDatagram src dst port dport hop bs) s = .next (s.withDev
        { d with mg := { d.mg with fnDrop := d.mg.fnDrop + 1 } })) ∧
      (d.mg.fnState = 0 → exec (.fnDatagram src dst port dport hop bs) s = .next s)) ∧
    (d.mg.fnState = 2 ∨ d.mg.fnState = 3 → exec (.neighbourSolicitation linkLocal) s = .next (s.withDev (d.emit (.neighbour linkLocal)))) ∧
    (∀ src bs, d.mg.fnState = 2 → exec (.icmpv6Echo src bs) s = .next (s.withDev (d.emit (.echo src bs)))) ∧
    ∀ p bs, d.hl.state = 2 → exec (.doeRequest p bs) s = .next (s.withDev (d.emit (.doe (Config.doeAnswer p bs)))))

/-- Keys are written by those who may, unwrapped with the writer's key but for the first; a lockout ends; the calendar is set, advances one
second at a time and is kept every hour; NV compaction and the wish for defaults are recorded; a record of a persisted value goes to two stores, one of a quarter's
repair map to its own. Nothing else changes. -/
def Obligations.KeysCalendarRecords : Prop :=
  ∀ s : State, let d := s.dev
    (∀ r : Fin 4, d.refStopped = false → exec (.lockoutEnd r) s = .next (s.withDev { d with mg := { d.mg with locked := Map.put d.mg.locked r.val false } })) ∧
    (∀ (w r : Fin 4) (seq : Word64) (v : BitVec 256) (via : Bool), d.pins.bkGood = true → d.rst.nvPulse = false →
      (w = 0 → r = 2 → via = true → d.mg.keyInit = false → exec (.roleKeyWrite w seq r v via) s = .next (s.withDev
        (({ d with mg := { d.mg with roleKeys := Map.put d.mg.roleKeys 2 v, keyInit := true } } : Dev).nvRecord 8))) ∧
      (w = 3 → r ≠ 0 → exec (.roleKeyWrite w seq r v via) s = .next (s.withDev (({ d with mg := { d.mg with
        roleKeys := Map.put d.mg.roleKeys r.val (v ^^^ keyWrap (d.roleKey 3) seq)
        keyInit := d.mg.keyInit || r = 2 } } : Dev).nvRecord 8))) ∧
      (r = 0 ∨ w = 1 ∨ (w = 2 ∧ r = 3) ∨ (w = 0 ∧ r ≠ 2) → exec (.roleKeyWrite w seq r v via) s = .next s)) ∧
    (∀ v : Word64, d.rst.held.contains .mg = false → ∃ m : Mgmt, exec (.calendarWrite v) s = .next (s.withDev { d with mg := m }) ∧ m.seconds.toNat = v.toNat % 2 ^ 63 ∧
      m.fraction = 0 ∧ m.synced = true ∧ m.powered = d.mg.powered ∧ (d.mg.firstCal.getLsbD 63 = false → m.firstCal = d.mg.firstCal)) ∧
    (d.rst.held.contains .mg = false → d.refStopped = false → ∃ qs, exec .calendarAdvance s = .next (s.withDev { d with
        quarters := qs, mg := { d.mg with seconds := d.mg.seconds + 1, fraction := 0, powered := d.mg.powered + 1 } })) ∧
    (d.rst.held.contains .mg = true ∨ d.refStopped = true → exec .calendarAdvance s = .next s) ∧
    (d.refStopped = false → exec .calendarPersist s = .next (s.withDev
      (({ d with mg := { d.mg with nvSeconds := d.mg.seconds, nvPowered := d.mg.powered } } : Dev).nvRecord 3))) ∧
    (d.rst.held.contains .mg = false → ∃ m : Mgmt, exec .nvCompact s = .next (s.withDev { d with mg := m }) ∧ m.nvUsed = [] ∧ m.nvCompactions = d.mg.nvCompactions + 1 ∧
      m.compactProgress.state = 4 ∧ m.compactProgress.position = m.compactProgress.total) ∧
    (d.rst.held.contains .mg = false → exec .restoreDefaults s = .next (s.withDev (({ d with mg := { d.mg with restoreDefaults := true } } : Dev).nvRecord 7))) ∧
    (d.pins.bkGood = false ∨ d.rst.nvPulse = true → ∀ k, d.nvRecord k = { d with rst := { d.rst with nvWaiting := d.rst.nvWaiting ++ [k] } }) ∧
    (d.pins.bkGood = true → d.rst.nvPulse = false → ∀ k, (d.nvRecord k).rst = { d.rst with nvPulse := true } ∧
      (d.nvRecord k).mg.nvRecords = d.mg.nvRecords + if k < 16 then 2 else 1)

/-! ### Faults (16_faults_and_reset.md R461-R470) -/

/-! ### Resets (16 R471-R485; 17 R500, R502) -/

/-- A fault goes into the log of its quarter's collector, raises its event, counts by kind, and drives the pins; a source that still
holds one overruns; the commands that clear, mask and inject. What asks for a reset waits its turn: the five heartbeats and
their expiry, WARM_RESET with its key, ISOLATE of a part not already isolated, a part that does not stop in time, CRIT; the pins
of the supplies and of PERST. -/
def Obligations.FaultsAndResetTriggers : Prop :=
  ((∀ (s : State) (m : FaultMsg), let d := s.dev; let q := quarterOfSource m.source
    d.sourceHeld m.source = false → d.rst.held.contains .mg = false → d.flt.distributed = false →
    ((d.slot m.source).msg = none → ∃ (e : Dev) (x : FaultEntry), exec (.faultRaise m) s = .next (s.withDev e) ∧
      x.msg = m ∧ x.stamp = d.stamp ∧ (e.coll q).log = (x :: (d.coll q).log).take 256 ∧ (e.coll q).logCount = (d.coll q).logCount + 1 ∧
      (m.sev = .alert → (e.coll q).alertEv = true) ∧ (m.sev = .fatal → (e.coll q).fatalEv = true) ∧
      (m.sev = .critical → (e.coll q).critEv = true) ∧ (m.sev ≠ .alert → e.flt.pinFault = true) ∧
      Map.get 0 e.flt.kindCount m.kind = Map.get 0 d.flt.kindCount m.kind + 1 ∧ e.cores = d.cores ∧ e.mem = d.mem) ∧
    (∀ y, (d.slot m.source).msg = some y → exec (.faultRaise m) s = .next (s.withDev
      { d with flt := { d.flt with coll := Map.put d.flt.coll q { d.coll q with overrun := true } } }))) ∧
  (∀ (s : State) (src : RegSource) (code : Nat) (v : Word64) (b : Bool), let d := s.dev
    (d.refStopped = false → exec .faultPulseEnd s = .next (s.withDev ({ d with flt := { d.flt with pulse := false } } : Dev).refreshPins)) ∧
    exec (.faultPinDrive b) s = .next (s.withDev
      ({ d with mg := { d.mg with vals := Map.put d.mg.vals 0x801100 (if b then 1 else 0) } } : Dev).refreshPins) ∧
    (innerWriter src = true → exec (.fltSrcClear src code) s = .next (s.withDev
      ({ d with flt := { d.flt with slots := Map.put d.flt.slots code { d.slot code with msg := none } } } : Dev).refreshPins)) ∧
    (innerWriter src = false → exec (.fltSrcClear src code) s = .next s ∧ exec (.faultInject src v) s = .next s) ∧
    (innerWriter src = true → v.getLsbD 63 = false → exec (.faultInject src v) s = .next (s.withDev
      { d with flt := { d.flt with inject := v &&& 0xFFFF000000000000 } })) ∧
    (innerWriter src = true → v.getLsbD 63 = true → (v.toNat / 2 ^ 58 % 4 = 0 ∨ 4 ≤ v.toNat / 2 ^ 60 % 8) →
      exec (.faultInject src v) s = .next (s.withDev
        { d with flt := { d.flt with coll := Map.put d.flt.coll 0 { d.coll 0 with refused := true } } })) ∧
    (d.pins.driven = true → d.refreshPins.pins = { d.pins with
      faultN := !(d.flt.pulse || Map.get 0 d.mg.vals 0x801100 = 1), alertN := !(d.evSet .alert || d.slotHas .alert)
      mgmtIrqN := !(d.evSet .fatal || d.evSet .critical || d.slotHas .fatal || d.slotHas .critical) })) ∧
  ∀ (s : State) (v : Byte), ∃ d : Dev, exec (.faultClear v) s = .next (s.withDev d.refreshPins) ∧ d = { s.dev with flt := d.flt } ∧
    (∀ q, q < 4 → let x := s.dev.coll q
      d.coll q = { x with
        overrun := x.overrun && !v.getLsbD 2, critEv := x.critEv && !v.getLsbD 3, fatalEv := x.fatalEv && !v.getLsbD 3
        alertEv := x.alertEv && !v.getLsbD 3 }) ∧
    d.flt.pinFault = (s.dev.flt.pinFault && !v.getLsbD 0) ∧ d.flt.pinMargin = (s.dev.flt.pinMargin && !v.getLsbD 1)) ∧
  (∀ s : State, let d := s.dev
    (∀ k : Fin 5, exec (.watchdogHeartbeat k) s = .next (s.withDev { d with rst := { d.rst with
      heartbeats := if (insertNew k.val d.rst.heartbeats).length = 5 then [] else insertNew k.val d.rst.heartbeats } })) ∧
    (d.refStopped = false →
      exec .watchdogExpiry s = .next (s.withDev (d.trigger { source := .wdog, origin := .none, subject := 0x3F1, info := 0 }))) ∧
    exec (.warmReset 0xA55A) s = .next (s.withDev (d.trigger { source := .warm, origin := .none, subject := 0x3F1, info := 0 })) ∧
    (∀ v, v ≠ 0xA55A → exec (.warmReset v) s = .next s) ∧
    (∀ v : Word16, canIsolate v.toNat = true → v.toNat ∉ d.rst.isolated →
      exec (.isolateAgent v) s = .next (s.withDev (d.trigger { source := .isolate, origin := .none, subject := v.toNat, info := 0 }))) ∧
    (∀ v : Word16, canIsolate v.toNat = false ∨ v.toNat ∈ d.rst.isolated → exec (.isolateAgent v) s = .next s) ∧
    (∀ a b, d.refStopped = false → canIsolate a = true → a ∉ d.rst.isolated → ∃ e : Dev, exec (.stopTimeout a b) s = .next (s.withDev e) ∧
      e.rst.isolated = d.rst.isolated ++ [a] ∧
      e.rst.waiting = d.rst.waiting ++ [{ source := .isolate, origin := .none, subject := a, info := 0 }]) ∧
    (∀ (p : CritOrigin × Nat) (src info : Nat), p ∈ [(CritOrigin.directory, 0x20), (.homeState, 0x21), (.segment, 0x22), (.resetCtrl, 0x23)] →
      exec (.crit p.1 src info) s = .next (s.withDev
        ((d.fault (mkFault src .critical p.2 info)).trigger { source := .crit, origin := p.1, subject := src, info := info }))) ∧
    (d.pins.bkGood = true → exec .bkGoodFall s = .next (s.withDev
      (({ d with pins := { d.pins with bkGood := false } } : Dev).fault (mkFault 0x3F1 .alert 0x13 0)))) ∧
    (d.rst.nvWaiting = [] → exec .bkGoodRise s = .next (s.withDev { d with pins := { d.pins with bkGood := true } }) ∧
      exec .nvPulseEnd s = .next (s.withDev { d with rst := { d.rst with nvPulse := false } })) ∧
    (∀ k ks, d.rst.nvWaiting = k :: ks → d.pins.bkGood = true → exec .nvPulseEnd s = .next (s.withDev
      (({ d with rst := { d.rst with nvPulse := false, nvWaiting := ks } } : Dev).nvRecord k))) ∧
    (d.pins.perst = false → d.rst.startStep ≠ 0 → exec .perstRelayN s = .next (s.withDev
      (({ d with pins := { d.pins with perst := true } } : Dev).hostLoss .perst 4))) ∧
    (d.rst.seq = none → d.rst.held.contains .hl = true → 6 ≤ d.rst.startStep → exec .perstRelayNRelease s = .next (s.withDev { d with
      pins := { d.pins with perst := false }, rst := { d.rst with held := d.rst.held.filter (· ≠ .hl) }, hl := { d.hl with state := 1 } })))

/-- The course of a reset: a trigger taken becomes a sequence of its domains, counted, with the parts it reaches stopped; a whole one
starts the block again at once, with what survives it; stores past their limit are discarded; the caches are emptied and,
once what they gave up has reached its homes, the domains held; the release ends the sequence. Reset leaves no core running and no descriptor in a part it reached. -/
def Obligations.ResetCourse : Prop :=
  (∀ (s : State) (t : Trigger) (rest : List Trigger), let d := s.dev; let d0 : Dev := { d with rst := { d.rst with waiting := rest } }
    d.rst.waiting = t :: rest → d.rst.nvPulse = false →
    (d.rst.startStep = 0 → exec .resetSequence s = .next (s.withDev d0)) ∧
    (t.source = .wdog ∨ t.source = .cold → d.rst.startStep ≠ 0 → exec .resetSequence s = .next (s.withDev (d0.wholeTrigger t))) ∧
    (t.source ∈ [.warm, .isolate, .margin, .perst, .hostloss] → d.lowPower = false → d.rst.startStep = 11 → d.rst.seq = none →
      ∃ e : Dev, exec .resetSequence s = .next (s.withDev (e.stopAll t.seq)) ∧ e.rst.seq = some t.seq ∧ e.rst.waiting = rest ∧
        e.rst.count = d.rst.count + 1 ∧ e.rst.cause = t.source ∧ e.rst.subject = t.subject)) ∧
  (∀ s : State, s.dev.rst.waiting = [] → exec .resetSequence s = .next s) ∧
  (∀ (s : State) (q : ResetSeq), let d := s.dev
    d.rst.seq = some q →
    (q.step = 3 → d.refStopped = false → q.hostLost = false → (∀ p ∈ d.cores, p.2.sb = []) → ∃ e : Dev, exec .storeDrainLimit s = .next (s.withDev e) ∧
      e.rst.seq = some { q with step := 5 } ∧ ∀ c, q.core c = true → (e.core c).writes = [] ∨ e.core c = .reset) ∧
    (q.step ≠ 3 → exec .storeDrainLimit s = .next s) ∧
    (q.step = 5 → q.hitsCp = false → d.recordsDone q = true → q.inCh = false →
      let d2 := d.emptyFirst q; let q6 := { q with step := 6 }; let d3 : Dev := { d2 with rst := { d2.rst with seq := some q6 } }
      (d3.l1sBusy q6 = true → exec .directoriesEmpty s = .next (s.withDev d3)) ∧
      (d3.l1sBusy q6 = false → exec .directoriesEmpty s = .next (s.withDev (d3.hold q6)))) ∧
    (q.step = 7 → exec .resetRelease s = .next (s.withDev (d.releaseSeq q)) ∧ (q.all = false → q.quarters = [] → q.hitsCp = false →
      (d.releaseSeq q).rst.seq = none ∧ (d.releaseSeq q).rst.held = d.rst.held.filter fun x =>
        !q.domains.contains x || (x = .hl && d.pins.perst)))) ∧
  (∀ s : State, let d := s.dev
    (d.rst.seq = none → d.rst.startStep = 11 → exec .resetRelease s = .next s) ∧
    (d.rst.seq = none → d.rst.startStep = 6 → d.tier.hdm0 = true →
      ∃ e : Dev, e = d.releaseCp ∧ exec .resetRelease s = .next (s.withDev { e with rst := { e.rst with startStep := 11 } })) ∧
    (d.rst.startStep ≠ 0 → d.pins.bkGood = true → exec .supplyFail s = .next (s.withDev (d.wholeReset true))) ∧
    (d.rst.startStep = 0 → exec .supplyFail s = .next s) ∧
    (d.rst.startStep ≠ 0 → exec .coldStart s = .next s) ∧
    (d.rst.startStep = 0 → d.pins.perst = false → ∃ e : Dev, exec .coldStart s = .next (s.withDev e) ∧ e.rst.startStep = 1 ∧
      e.rst.count = (if d.rst.bkValid = true ∧ d.rst.nvCount < d.rst.count then d.rst.count else d.rst.nvCount) + 1 ∧
      e.rst.bkLost = !d.rst.bkValid ∧ e.rst.cause = .cold ∧ e.mg.coldStarts = d.mg.coldStarts + 1)) ∧
  ∀ (d : Dev) (cold : Bool), let e := d.wholeReset cold
    e.rst.held = allDomains ∧ e.rst.seq = none ∧ e.rst.startStep = (if cold then 0 else 1) ∧ e.homes = [] ∧ e.dir = [] ∧ e.net = [] ∧
      e.teams = [] ∧ e.cp = Dev.reset.cp ∧ e.tb = Dev.reset.tb ∧ (∀ c, (e.core c).status = .idle) ∧
      (∀ n, (e.cache n).enable = false ∧ (e.cache n).ways = []) ∧ (∀ k, isRes k = false → Mem.read e.mem k = 0) ∧
      (Memory.wf d.mem = true → ∀ k, isRes k = true → Mem.read e.mem k = Mem.read d.mem k)

/-! ### Memory tiers (07_memory_tiers.md R222-R246) -/

/-- A tier becomes ready once: DRAM with zero contents, the resistive tier with its contents (what the code corrects or loses
apart) or, when they are not to be retained, zero; a stack or die that did not answer is reported failed, the others present; a
region swap in progress goes on from its journal. TIER_TAG, in its turn, gives every sector of the
next granule zero contents and the new tag, and ends with OK at the end of its range. -/
def Obligations.TierReadiness : Prop :=
  (∀ (s : State) (absent : List Nat), let d := s.dev
    (d.rst.held.contains .mem = true → exec (.hdm0Ready absent) s = .next s ∧ exec (.hdm1Ready absent) s = .next s) ∧
    (d.rst.held.contains .mem = false → d.tier.hdm0 = false → ∃ e : Dev, exec (.hdm0Ready absent) s = .next (s.withDev e) ∧
      e.tier.hdm0 = true ∧ e.tier.scrubPos = 0 ∧ (e.prog 0x40).state = 4 ∧
      (∀ a, isDram a = true → Mem.read e.mem a = 0) ∧ (s.memOk → ∀ a, 0x6000000000 ≤ a → Mem.read e.mem a = Mem.read d.mem a) ∧
      (∀ x, e.secInfo x = if x < dramSectors then .zero else d.secInfo x) ∧
      ∀ k, k < 8 → (e.stack k).present = !absent.contains k ∧ (e.stack k).failed = absent.contains k) ∧
    (d.rst.held.contains .mem = false → d.tier.hdm1 = false → ∃ e : Dev, exec (.hdm1Ready absent) s = .next (s.withDev e) ∧
      e.tier.hdm1 = true ∧ e.tier.retained = d.retain ∧ e.tier.initStep = 7 ∧ (e.prog 0x41).state = 4 ∧
      (d.retain = true → d.symErr = [] → e.mem = d.mem ∧ e.info = d.info) ∧
      (d.retain = false → s.memOk → ∀ a, Mem.read e.mem a = if isRes a then 0 else Mem.read d.mem a) ∧
      (d.retain = false ∨ d.symErr = [] → ∀ k, k < 64 → (e.die k).present = !absent.contains k ∧
        (e.die k).failed = absent.contains k ∧ (e.die k).swap = (d.die k).swap))) ∧
  (∀ (s : State) (id : DescId) (n : Nat) (r : Run), let d := s.dev
    d.tagHead = some r →
    (r.id ≠ id → exec (.tierTag id n) s = .next s) ∧
    (r.id = id → d.tierReady (ttDpa r.w) = false → exec (.tierTag id n) s = .next (s.withDev (d.endRun id stTier))) ∧
    (r.id = id → d.tierReady (ttDpa r.w) = true → r.stage ≠ .admitted → exec (.tierTag id n) s = .next (s.withDev (d.tagLoop id n)) ∧
      d.tagLoop id 0 = d ∧ d.tagLoop id (n + 1) = (d.engine (tagStep id)).tagLoop id n)) ∧
  (∀ (a : Acc) (tag line : Nat) (d e : Dev), Memory.wf d.mem = true → tagGranule a tag line d = .ok ((), e) →
    ∀ k, k < 4 → e.secData (4 * line + k) = 0 ∧ e.secInfo (4 * line + k) = { SectorMeta.zero with tag := tag }) ∧
  ∀ (d : Dev) (id : DescId) (r : Run), d.run id = some r → r.count ttClear ≠ 0 → d.owes id true = false → ttLen r.w / 256 ≤ r.pos →
    d.engine (tagStep id) = d.endRun id stOk

/-- Upkeep of the tiers. A group is refreshed when its interval has ended, or when it has not been refreshed yet, unless its
stack refreshes itself. A scrubbed sector without error is left as it is, one of
one or two symbols is corrected and counted, and the scrub's place moves on; the retention sweep passes a block without
error; a block of the write queue is stored with its wear, a demand or sweep write counts towards the region's gap, and the gap moves
when it is due; the region worn most changes places with the least worn once it is due, a pair of blocks a step; a late sweep that
has an interval is reported and gets 20 %; life is recorded. -/
def Obligations.TierUpkeep : Prop :=
  (∀ (s : State) (st : StackId) (g : Nat), let d := s.dev
    ((d.stack st.val).selfRefresh = true → exec (.refresh st g) s = .next s) ∧
    (Map.get 0 (d.stack st.val).refreshed g ≠ 0 →
      (d.now - Map.get 0 (d.stack st.val).refreshAt g).toNat < d.refreshInterval st.val g → exec (.refresh st g) s = .next s) ∧
    ((d.stack st.val).selfRefresh = false → (Map.get 0 (d.stack st.val).refreshed g = 0 ∨
        d.refreshInterval st.val g ≤ (d.now - Map.get 0 (d.stack st.val).refreshAt g).toNat) →
      exec (.refresh st g) s = .next (s.withDev (d.setStack st.val { d.stack st.val with
        refreshed := Map.put (d.stack st.val).refreshed g (Map.get 0 (d.stack st.val).refreshed g + 1)
        refreshAt := Map.put (d.stack st.val).refreshAt g d.now })))) ∧
  (∀ (s : State) (errs : List Nat), let d := s.dev; let a := d.tier.scrubPos; let bad := d.badSymbols a errs
    d.tier.hdm0 = true → a + 1 < dramSectors →
    ∃ e : Dev, exec (.dramScrub a errs) s = .next (s.withDev e) ∧ e.tier.scrubPos = a + 1 ∧ (e.prog 0x42).position = a + 1 ∧
      (bad.length ≤ 2 → e.mem = d.mem ∧ e.info = d.info ∧
        e.tier.corrected = d.tier.corrected + (if bad = [] then 0 else 1) ∧ (bad ≠ [] → Map.get 0 e.symErr a = 0) ∧
        (bad = [] → e.symErr = d.symErr ∧ e.tier.drams = d.tier.drams))) ∧
  (∀ (s : State) (a : Nat) (errs : List Nat), a ≠ s.dev.tier.scrubPos → exec (.dramScrub a errs) s = .next s) ∧
  (∀ (s : State) (k : DieId) (block : Nat), let d := s.dev; let x := d.die k.val
    isRes (lineDpa block) = true → d.controllerOf (lineDpa block) = 8 + k.val → d.tier.hdm1 = true →
    (∀ j, j < 4 → Map.get 0 d.symErr (4 * block + j) = 0) → x.temp ≤ 950 →
    (block ∈ x.swept → exec (.retentionSweep k block [] []) s = .next s) ∧
    (block ∉ x.swept → x.swept.length + 1 ≠ dieBlocks → ∃ p : Progress, exec (.retentionSweep k block [] []) s = .next (s.withDev
      ((d.updDie k.val fun y => { y with swept := y.swept ++ [block] }).setProg 0x43 p)))) ∧
  (∀ (s : State) (k : DieId) (n block : Nat) (counts : Bool) (rest : List (Nat × Bool)), let d := s.dev
    let p := (d.blockPlace k.val block).1; let x := d.die k.val; let g := x.gap p
    let d1 : Dev := ({ d with wq := Map.put d.wq k.val rest } : Dev).updDie k.val fun y => y.wear p 1
    Map.get [] d.wq k.val = (block, counts) :: rest → n ≤ 3 →
    (counts = false → exec (.blockWrite k n) s = .next (s.withDev d1)) ∧
    (counts = true → g.since + 1 < d.gapWrites → exec (.blockWrite k n) s = .next (s.withDev
      (d1.updDie k.val fun y => { y with gaps := Map.put y.gaps p { g with since := g.since + 1 } }))) ∧
    (counts = true → d.gapWrites ≤ g.since + 1 → d.symErr = [] → ∃ (e : Dev) (moved : Nat), exec (.blockWrite k n) s = .next (s.withDev e) ∧
      e = { d with wq := Map.put d.wq k.val (insertNew (moved, false) rest), tier := e.tier } ∧
      (e.die k.val).writes = Map.put x.writes p (Map.get 0 x.writes p + 1) ∧ (e.die k.val).gap p = g.move ∧
      (e.die k.val).blockWrites = x.blockWrites + 1)) ∧
  (∀ (s : State) (k : DieId) (n : Nat), Map.get [] s.dev.wq k.val = [] → exec (.blockWrite k n) s = .next s) ∧
  (∀ (s : State) (k : DieId), let d := s.dev; let x := d.die k.val
    (x.swap = none → d.swapDue k.val = false → exec (.wearSwap k) s = .next s) ∧
    (x.swap = none → d.swapDue k.val = true → ∃ e : Dev, exec (.wearSwap k) s = .next (s.withDev e) ∧
      e.die k.val = { x with swap := some (x.hottest, x.coldest, 0) } ∧ (e.prog 0x44).state = 1 ∧ e.mem = d.mem) ∧
    (∀ hot cold n, x.swap = some (hot, cold, n) → x.logicalOf hot ≠ x.logicalOf cold → d.symErr = [] →
      ∃ e : Dev, exec (.wearSwap k) s = .next (s.withDev e) ∧ e.mem = d.mem ∧ (e.prog 0x44).position = 2 * (n + 1) ∧
      (d.lineAt k.val (x.logicalOf hot) n, false) ∈ Map.get [] e.wq k.val ∧ (d.lineAt k.val (x.logicalOf cold) n, false) ∈ Map.get [] e.wq k.val ∧
      (n + 1 ≠ regionBlocks → e.die k.val = { x with swap := some (hot, cold, n + 1) } ∧ (e.prog 0x44).state = 1) ∧
      (n + 1 = regionBlocks → (e.die k.val).swap = none ∧ (e.die k.val).phys (x.logicalOf hot) = cold ∧
        (e.die k.val).phys (x.logicalOf cold) = hot ∧ (e.prog 0x44).state = 4 ∧
        ∀ r, r ≠ x.logicalOf hot → r ≠ x.logicalOf cold → (e.die k.val).phys r = x.phys r)) ∧
    (d.sweepInterval k.val = none → exec (.sweepLate k) s = .next s) ∧
    ((d.sweepInterval k.val).isSome = true → d.tier.sweepLate = true → exec (.sweepLate k) s = .next (s.withDev
      (({ d.updDie k.val fun y => { y with sweepShare := 20 } with tier :=
        { (d.updDie k.val fun y => { y with sweepShare := 20 }).tier with sweepLate := true } } : Dev).fault (mkFault (dieSource k.val) .alert 0x50 k.val)))) ∧
    ((d.sweepInterval k.val).isSome = true → d.tier.sweepLate = false → ∃ e : Dev, exec (.sweepLate k) s = .next (s.withDev e) ∧ e.tier.sweepLate = true ∧
      e.die k.val = { x with sweepShare := 20 } ∧ e.mem = d.mem)) ∧
  ∀ s : State, let d := s.dev; ∃ e : Dev, exec .lifePersist s = .next (s.withDev e) ∧ e.tier.lifeSaved = d.regionCounts ∧
    (∃ now : Map Nat, e.tier.lifeHist = (d.mg.seconds.toNat, now) :: d.tier.lifeHist.take 30 ∧
      ∀ k, k < 64 → Map.get 0 now k = (d.die k).maxWrites) ∧
    e.tier.dies = d.tier.dies ∧ e.mem = d.mem

/-! ### Power (18_bring_up_and_power_states.md R507-R516) -/

/-- The course of a power state: a request in a lower state goes on from it; once the caches are flushed each entry
step goes one state down, to its target; STANDBY is shown once every quarter has walked to 600 mV, OFF_READY once the write
queues have drained and the records are written; an ACTIVE request, a wake, or D0 starts the exit, whose last step is ACTIVE, and
no exit step begins while a quarter walks or calibrates. The host cannot write the register. -/
def Obligations.PowerStates : Prop :=
  (∀ s : State,
    exec (.pwrActive .host) s = .next s ∧ exec (.pwrStandby .host) s = .next s ∧ exec (.pwrDormant .host) s = .next s ∧
      exec (.pwrOffReady .host) s = .next s) ∧
  (∀ (s : State) (src : RegSource) (p : (RegSource → Instr) × Nat), let d := s.dev
    p ∈ [(Instr.pwrStandby, 1), (.pwrDormant, 2), (.pwrOffReady, 3)] → src = .management ∨ src = .context0 →
    (d.powerCause p.2 = 0 → d.pwr.state ≠ 0 → d.pwr.state ≤ p.2 → ∃ e : Dev, exec (p.1 src) s = .next (s.withDev e) ∧
      e = { d with pwr := e.pwr } ∧ e.pwr.busy = true ∧ e.pwr.target = p.2 ∧ e.pwr.step = d.pwr.state + 2)) ∧
  (∀ (s : State) (src : RegSource), let d := s.dev; src = .management ∨ src = .context0 →
    (d.pwr.busy = false → d.pwr.state ≠ 0 → ∃ e : Dev, exec (.pwrActive src) s = .next (s.withDev e) ∧ e = { d with pwr := e.pwr } ∧
      e.pwr.busy = true ∧ e.pwr.exiting = true ∧ e.pwr.step = 1 ∧ e.pwr.target = 0 ∧ e.pwr.wakeEv = true ∧ e.pwr.wakeSrc = 0) ∧
    (d.pwr.busy = false → d.pwr.state = 0 → exec (.pwrActive src) s = .next s)) ∧
  (∀ s : State, let d := s.dev; let p := d.pwr
    (p.busy = false ∨ p.exiting = true → exec .powerEntryStep s = .next s) ∧
    (p.busy = false ∨ p.exiting = false → exec .powerExitStep s = .next s) ∧
    (p.busy = true → p.exiting = false →
      (p.step = 2 → (∃ n ∈ namedCaches 0, (d.cache n).busy = true) → exec .powerEntryStep s = .next s) ∧
      (p.wake = none → p.step = 2 → (∀ n ∈ namedCaches 0, (d.cache n).busy = false) → ∃ e : Dev,
        exec .powerEntryStep s = .next (s.withDev e) ∧ e.pwr.state = p.state ∧ e.pwr.step = 3 ∧ e.dir = [] ∧
        (∀ n, (e.cache n).ways = [] ∨ e.cache n = d.cache n) ∧ e.mem = d.mem ∧
        ∀ q, q < 4 → (d.qr q).emGroups = [] → (d.qr q).noChange = false → (d.qr q).vreq ≠ 600 → (e.qr q).wait = .walk 600) ∧
      (p.step = 3 → d.walking = true → exec .powerEntryStep s = .next s) ∧
      (p.wake = none → p.step = 3 → d.walking = false → 2 ≤ p.target → ∃ e : Dev, exec .powerEntryStep s = .next (s.withDev e) ∧ e.pwr.state = 2 ∧
        e.pwr.step = 4 ∧ (∀ k, k < 8 → (e.stack k).selfRefresh = true) ∧ e.mem = d.mem) ∧
      (p.wake = none → p.step = 4 → p.target = 3 → d.writesDrained = false → exec .powerEntryStep s = .next s) ∧
      (p.wake = none → p.step = 4 → p.target = 3 → d.writesDrained = true → exec .powerEntryStep s = .next (s.withDev
        { d.enterOff with pwr := { d.enterOff.pwr with step := 5 } })) ∧
      (p.wake = none → p.step = 3 → d.walking = false → p.target < 2 →
        exec .powerEntryStep s = .next (s.withDev { d with pwr := { p with state := Nat.max 1 p.state, busy := false } })) ∧
      (p.wake = none → p.step = 4 → p.target ≠ 3 →
        exec .powerEntryStep s = .next (s.withDev { d with pwr := { p with busy := false } })) ∧
      (p.wake = none → p.step = 5 → d.rst.nvPulse = false → d.rst.nvWaiting = [] → exec .powerEntryStep s = .next (s.withDev
        { d with pwr := { p with state := 3, busy := false }, pins := { d.pins with ready := true } })) ∧
      (∀ k, p.wake = some k → p.step = 3 → d.walking = false → ∃ e : Dev, exec .powerEntryStep s = .next (s.withDev e) ∧ e = { d with pwr := e.pwr } ∧
        e.pwr.exiting = true ∧ e.pwr.busy = true ∧ e.pwr.step = 2 ∧ e.pwr.wakeEv = true ∧ e.pwr.wakeSrc = k)) ∧
    (d.walking = true ∨ d.calibrating = true → exec .powerExitStep s = .next s) ∧
    (p.busy = true → p.exiting = true → d.walking = false → d.calibrating = false →
      (p.step = 4 → ∃ e : Dev, exec .powerExitStep s = .next (s.withDev e) ∧ e.pwr.step = 5 ∧
        ∀ n ∈ p.enabled, (e.cache n).enable = true ∧ (e.cache n).ways = []) ∧
      (p.step = 1 → p.state < 2 → exec .powerExitStep s = .next (s.withDev { d with pwr := { p with step := 2 } })) ∧
      (p.step = 3 → ∃ e : Dev, exec .powerExitStep s = .next (s.withDev e) ∧ e.pwr.step = 4 ∧
        ∀ q, q < 4 → e.qr q = if (d.qr q).emGroups.isEmpty then
          { d.qr q with tap := [], latch := [], stage := [], wait := .calib, sett := d.planSet q } else d.qr q) ∧
      (p.step = 5 → p.gated = [] → ∃ e : Dev, exec .powerExitStep s = .next (s.withDev e) ∧ e.pwr.state = 0 ∧ e.pwr.busy = false ∧
        e.pwr.exiting = false ∧ e.mem = d.mem ∧ e.cores = d.cores))) ∧
  ∀ s : State, let d := s.dev
    (d.pwr.busy = false → 2 ≤ d.pwr.state → exec .d3hotWrite s = .next (s.withDev { d with pwr := { d.pwr with d3hot := true } })) ∧
    (d.pwr.state = 0 → d.pwr.busy = false → exec .d0Write s = .next (s.withDev { d with pwr := { d.pwr with d3hot := false } }))

/-- A request for a state below ACTIVE starts the entry only when every condition of Table 18.5 holds as it arrives: the queues drained and
off, every mailbox off, every page DEVICE, both tiers ready, no transition in progress and another state asked for. Otherwise REFUSED is set, the
first failing cause stands in REFUSE_CAUSE, and nothing else changes. -/
def Obligations.LowPowerRequests : Prop :=
  ∀ (s : State) (src : RegSource) (p : (RegSource → Instr) × Nat), let d := s.dev
    p ∈ [(Instr.pwrStandby, 1), (.pwrDormant, 2), (.pwrOffReady, 3)] → src = .management ∨ src = .context0 →
    let cause : Nat := if d.drained = false then 1 else if ∃ m ∈ d.cp.mbx, m.2.enable = true then 2 else if d.allDevice = false then 3
      else if d.tier.hdm0 = false ∨ d.tier.hdm1 = false then 4 else if d.pwr.busy = true ∨ d.pwr.state = p.2 then 5 else 0
    (cause ≠ 0 → exec (p.1 src) s = .next (s.withDev { d with pwr := { d.pwr with refused := true, refuseCause := cause } })) ∧
    (cause = 0 → d.pwr.state = 0 → ∃ e : Dev, exec (p.1 src) s = .next (s.withDev e.flushEvery) ∧ e = { d with pwr := e.pwr } ∧
      e.pwr.busy = true ∧ e.pwr.exiting = false ∧ e.pwr.target = p.2 ∧ e.pwr.state = 0 ∧ e.pwr.step = 2 ∧ e.pwr.refuseCause = 0 ∧
      e.pwr.enabled = (namedCaches 0).filter fun n => (d.cache n).enable)

/-! ### Registers (00 R11, R12; 12 R343, R344; 14 R429; 16 R485; 18 R515) -/

/-- A register write acts as the command of its register: nothing for a size other than 4 and 8 bytes, an odd alignment, or a source that
does not reach the register; doorbells, mailboxes, windows, bias, fault, power and link registers by their own rules. -/
def Obligations.RegisterWrites : Prop :=
  ∀ (s : State) (v : Word64), let d := s.dev
    (∀ src a n, (n ≠ 4 ∧ n ≠ 8) ∨ a % n ≠ 0 → exec (.registerWrite src a n v) s = .next s) ∧
    (∀ src a n, src ≠ .host → bar2 ≤ a → exec (.registerWrite src a n v) s = .next s) ∧
    (∀ src a, a < bar2 → RegSource.writer src = false → (a / 8 * 8 < 0x2000000 ∨ 0x3000000 ≤ a / 8 * 8) →
      exec (.registerWrite src a 8 v) s = .next s) ∧
    (∀ src q, q < 4096 → d.rst.held.contains .cp = false → exec (.registerWrite src (0x2000000 + 4096 * q) 8 v) s =
      .next (s.withDev (d.doorbell q (v.toNat / 2 ^ 36 % 2 ^ 14) (v.toNat % 2 ^ 32)))) ∧
    (d.rst.held.contains .cp = false → exec (.registerWrite .host (bar2 + 8) 8 v) s = exec (.dictWinGo .host v) s) ∧
    (∀ a, 0x600000 ≤ a → a < 0x800000 → exec (.registerWrite .host a 8 v) s = .next s) ∧
    (∀ src, src = .management ∨ src = .context0 →
      (v.toNat % 4 = 0 → exec (.registerWrite src 0x703000 8 v) s = exec (.pwrActive src) s) ∧
      (v.toNat % 4 = 1 → exec (.registerWrite src 0x703000 8 v) s = exec (.pwrStandby src) s) ∧
      (v.toNat % 4 = 2 → exec (.registerWrite src 0x703000 8 v) s = exec (.pwrDormant src) s) ∧
      (v.toNat % 4 = 3 → exec (.registerWrite src 0x703000 8 v) s = exec (.pwrOffReady src) s) ∧
      exec (.registerWrite src 0x701000 8 v) s = exec (.faultInject src v) s ∧
      (∀ n : LinkId, d.rst.held.contains .tl = true → exec (.registerWrite src (0x600000 + 64 * n.val) 8 v) s = .next s) ∧
      ∀ n : LinkId, d.rst.held.contains .tl = false → exec (.registerWrite src (0x600000 + 64 * n.val) 8 v) s = .next (s.withDev
        (let d1 := (d.linkEnable n.val (v.getLsbD 0)).nvRecord 8
         let d2 := if v.getLsbD 1 then d1.forceRetrain n.val else d1
         if v.getLsbD 2 then d2.updLnk n.val fun l => { l with injectCrc := true } else d2))) ∧
    (∀ src i, RegSource.writer src = true → d.regHeld (8 * i) = true → 0x200000 ≤ 8 * i → 8 * i < 0x300000 →
      exec (.registerWrite src (8 * i) 8 v) s = .next s) ∧
    (∀ src, RegSource.writer src = true → d.rst.held.contains .mem = false →
      exec (.registerWrite src 0x40 8 v) s = .next (s.withDev (d.writeTierStatus v)))

/-! ### The whole block -/

/-- One step runs the command at the front of the queue on the state with the queue's rest; with nothing waiting, one reference count
passes (the model's choice, notes/assumptions 8 and 153): the four counters together, the calendar's fraction and the first
steps of tier initialisation move, nothing else; none of them before power or while a reference clock is lost. -/
def Obligations.StepTakesFront : Prop :=
  (∀ (s : State) (c : Instr) (rest : List Instr), step { s with pending := c :: rest } = exec c { s with pending := rest }) ∧
  ∀ s : State, s.pending = [] → ∃ d : Dev, step s = .next { s with dev := d } ∧
    d = { s.dev with
      quarters := d.quarters, mg := { s.dev.mg with fraction := d.mg.fraction }, tier := { s.dev.tier with initStep := d.tier.initStep } } ∧
    (s.dev.rst.startStep = 0 ∨ s.dev.refStopped = true → d = s.dev) ∧
    (s.dev.rst.startStep ≠ 0 → s.dev.refStopped = false → ∀ q, q < 4 → d.qr q = { s.dev.qr q with refCount := (s.dev.qr q).refCount + 1 })

/-- The block while COLD holds it, as Table 16.5, Table 18.1 and the register tables leave it: every domain held, no core running, no queue,
segment or table, no cache holding anything, the directories empty, the outputs not driven. -/
def Obligations.ResetValues : Prop :=
  let d := State.reset.dev
  State.reset.pending = [] ∧ d.rst.held = allDomains ∧ d.rst.startStep = 0 ∧ d.rst.seq = none ∧ d.rst.waiting = [] ∧ d.rst.isolated = [] ∧
    (∀ c, (d.core c).status = .idle ∧ (d.core c).sb = [] ∧ (d.core c).movQ = [] ∧ (d.core c).team = none) ∧
    (∀ n, (d.cache n).enable = false ∧ (d.cache n).busy = false ∧ (d.cache n).ways = [] ∧ (d.cache n).locked = 0) ∧
    (∀ n, n < 256 → (d.cache n).lfsr = 0xACE1 ^^^ BitVec.ofNat 16 n) ∧
    (∀ q, (d.qr q).vreq = 750 ∧ (d.qr q).refCount = 0 ∧ (d.qr q).planned = false) ∧
    d.cp.queues = [] ∧ d.cp.runs = [] ∧ d.cp.mbx = [] ∧ d.cp.ready = false ∧ d.cp.progs = [] ∧ (∀ c k, (d.seg c k).valid = false) ∧
    (∀ t, d.table t = none) ∧ d.tb.guests = [] ∧ d.tb.steps = [] ∧ d.dir = [] ∧ d.homes = [] ∧ d.net = [] ∧ d.teams = [] ∧
    d.hl.state = 0 ∧ d.hl.gpf = 0 ∧ (∀ n, (d.lnk n).state = 0 ∧ (d.lnk n).enable = true) ∧ d.pins.driven = false ∧
    d.pwr.state = 0 ∧ d.pwr.busy = false ∧ d.tier.hdm0 = false ∧ d.tier.hdm1 = false ∧ d.mg.synced = false ∧ d.mg.frames = [] ∧
    d.flt.slots = [] ∧ d.flt.inject = 0

/-- Every waiting command of the reset state is well-formed, and its tier memory is in canonical form; each of its bytes reads
zero (the model's choice, notes/assumptions 7). -/
def Obligations.InvariantsAtReset : Prop :=
  State.reset.queueOk ∧ State.reset.memOk ∧ ∀ a, Mem.read State.reset.dev.mem a = 0

/-- A step takes exactly the front command off the queue: it always goes on, and what waits stays in order and well-formed. -/
def Obligations.QueueKept : Prop :=
  ∀ s : State, s.queueOk → ∃ t : State, step s = .next t ∧ t.queueOk ∧ t.pending = s.pending.tail

/-- Every step keeps tier memory in its canonical form. -/
def Obligations.MemoryFormKept : Prop := ∀ s t : State, s.memOk → step s = .next t → t.memOk

/-- A sector written into the cells reads back whole, with what is kept beside it, and no other byte changes. -/
def Obligations.MemoryReadsWrites : Prop :=
  ∀ (d : Dev) (k : Nat) (x : Sector) (i : SectorMeta), Memory.wf d.mem = true →
    Memory.wf (d.putSec k x i).mem = true ∧ (d.putSec k x i).secData k = x ∧ (d.putSec k x i).secInfo k = i ∧
    (∀ a, a / 64 ≠ k → Mem.read (d.putSec k x i).mem a = Mem.read d.mem a) ∧
    ∀ j, j ≠ k → (d.putSec k x i).secData j = d.secData j ∧ (d.putSec k x i).secInfo j = d.secInfo j
end

