-- ==== Sys2Proof/Laws/Map.lean ====
section
/-! SUPPORT. Laws of the indexed families and of tier memory: a read after a write, the canonical form of memory kept by
every memory operation. -/

namespace Sys2Proof.Machine

/-! ### Indexed families -/

@[simp] theorem Map.get_put_same {α : Type} (d : α) (m : Map α) (k : Nat) (v : α) : Map.get d (Map.put m k v) k = v := by
  induction m with
  | nil => simp [Map.put, Map.get]
  | cons p rest ih =>
    obtain ⟨i, w⟩ := p
    simp only [Map.put]
    split
    · simp [Map.get]
    · split
      · simp [Map.get]
      · rename_i h1 h2; simp [Map.get, h1, h2, ih]

theorem Map.get_put_other {α : Type} (d : α) (m : Map α) (k j : Nat) (v : α) (h : j ≠ k) :
    Map.get d (Map.put m k v) j = Map.get d m j := by
  have hk : k ≠ j := fun e => h e.symm
  induction m with
  | nil => simp [Map.put, Map.get, hk]
  | cons p rest ih =>
    obtain ⟨i, w⟩ := p
    simp only [Map.put]
    split
    · rename_i h1; subst h1; simp [Map.get, hk]
    · split
      · rename_i h1 h2
        simp only [Map.get, hk, if_false]
        split
        · rename_i h3
          rw [if_neg (by omega), if_pos (by omega)]
        · rfl
      · simp only [Map.get, ih]

theorem Map.put_put {α : Type} (m : Map α) (k : Nat) (v w : α) : Map.put (Map.put m k v) k w = Map.put m k w := by
  induction m with
  | nil => simp [Map.put]
  | cons p rest ih =>
    obtain ⟨i, x⟩ := p
    simp only [Map.put]
    split
    · simp [Map.put]
    · split
      · simp [Map.put]
      · rename_i h1 h2; simp [Map.put, h1, h2, ih]

/-! ### Tier memory -/

theorem Mem.wfFrom_mono {lo hi : Nat} {m : List Host.Cell} (h : lo ≤ hi) (w : Mem.wfFrom hi m = true) : Mem.wfFrom lo m = true := by
  cases m with
  | nil => rfl
  | cons p rest =>
    obtain ⟨i, v⟩ := p
    simp only [Mem.wfFrom, Bool.and_eq_true, decide_eq_true_eq] at w ⊢
    exact ⟨⟨Nat.le_trans h w.1.1, w.1.2⟩, w.2⟩

theorem Mem.write_wfFrom (m : List Host.Cell) (lo k : Nat) (v : Byte) (h : lo ≤ k) (w : Mem.wfFrom lo m = true) :
    Mem.wfFrom lo (Mem.write m k v) = true := by
  induction m generalizing lo with
  | nil =>
    simp only [Mem.write]
    split
    · rfl
    · rename_i hv; simp only [Mem.wfFrom, Bool.and_eq_true, decide_eq_true_eq]; exact ⟨⟨h, hv⟩, trivial⟩
  | cons p rest ih =>
    obtain ⟨i, x⟩ := p
    simp only [Mem.wfFrom, Bool.and_eq_true, decide_eq_true_eq] at w
    obtain ⟨⟨h1, h2⟩, h3⟩ := w
    simp only [Mem.write]
    split
    · rename_i e; subst e
      split
      · exact Mem.wfFrom_mono (by omega) h3
      · rename_i hv; simp only [Mem.wfFrom, Bool.and_eq_true, decide_eq_true_eq]; exact ⟨⟨h, hv⟩, h3⟩
    · split
      · rename_i hlt
        split
        · simp only [Mem.wfFrom, Bool.and_eq_true, decide_eq_true_eq]; exact ⟨⟨h1, h2⟩, h3⟩
        · rename_i hv
          have h4 : k + 1 ≤ i := hlt
          simp only [Mem.wfFrom, Bool.and_eq_true, decide_eq_true_eq]; exact ⟨⟨h, hv⟩, ⟨h4, h2⟩, h3⟩
      · rename_i hne hge
        simp only [Mem.wfFrom, Bool.and_eq_true, decide_eq_true_eq]
        exact ⟨⟨h1, h2⟩, ih (i + 1) (by omega) h3⟩

/-- A byte write keeps the canonical form. -/
theorem Mem.write_wf (m : List Host.Cell) (k : Nat) (v : Byte) (w : Memory.wf m = true) : Memory.wf (Mem.write m k v) = true :=
  Mem.write_wfFrom m 0 k v (Nat.zero_le _) w

theorem Mem.writeBytes_wf (bs : List Byte) (m : List Host.Cell) (k : Nat) (w : Memory.wf m = true) :
    Memory.wf (Mem.writeBytes m k bs) = true := by
  induction bs generalizing m k with
  | nil => exact w
  | cons b bs ih => exact ih _ _ (Mem.write_wf m k b w)

theorem Mem.writeMasked_wf (n : Nat) (m : List Host.Cell) (base : Nat) (x : Sector) (mask : Word64) (w : Memory.wf m = true) :
    Memory.wf (Mem.writeMasked m base x mask n) = true := by
  induction n with
  | zero => exact w
  | succ n ih =>
    simp only [Mem.writeMasked]
    split
    · exact Mem.write_wf _ _ _ ih
    · exact ih

/-- Below every listed address memory reads as zero. -/
theorem Mem.read_below {m : List Host.Cell} {lo k : Nat} (w : Mem.wfFrom lo m = true) (h : k < lo) : Mem.read m k = 0 := by
  cases m with
  | nil => rfl
  | cons p rest =>
    obtain ⟨i, v⟩ := p
    simp only [Mem.wfFrom, Bool.and_eq_true, decide_eq_true_eq] at w
    simp only [Mem.read]
    rw [if_neg (by omega), if_pos (by omega)]

/-- A read after a write of the same address gives the byte written. -/
theorem Mem.read_write_same (m : List Host.Cell) (lo k : Nat) (v : Byte) (w : Mem.wfFrom lo m = true) :
    Mem.read (Mem.write m k v) k = v := by
  induction m generalizing lo with
  | nil =>
    simp only [Mem.write]
    split
    · rename_i h; simp [Mem.read, h]
    · simp [Mem.read]
  | cons p rest ih =>
    obtain ⟨i, x⟩ := p
    simp only [Mem.wfFrom, Bool.and_eq_true, decide_eq_true_eq] at w
    simp only [Mem.write]
    split
    · rename_i e; subst e
      split
      · rename_i h; rw [h]; exact Mem.read_below w.2 (Nat.lt_succ_self _)
      · simp [Mem.read]
    · split
      · rename_i hne hlt
        split
        · rename_i h; simp [Mem.read, hne, hlt, h]
        · simp [Mem.read]
      · rename_i hne hge; simp only [Mem.read, hne, hge, if_false]; exact ih _ w.2

/-- A write leaves every other address as it reads. -/
theorem Mem.read_write_other (m : List Host.Cell) (lo k j : Nat) (v : Byte) (w : Mem.wfFrom lo m = true) (h : j ≠ k) :
    Mem.read (Mem.write m k v) j = Mem.read m j := by
  have hk : k ≠ j := fun e => h e.symm
  induction m generalizing lo with
  | nil =>
    simp only [Mem.write]
    split
    · rfl
    · simp [Mem.read, hk]
  | cons p rest ih =>
    obtain ⟨i, x⟩ := p
    simp only [Mem.wfFrom, Bool.and_eq_true, decide_eq_true_eq] at w
    simp only [Mem.write]
    split
    · rename_i e; subst e
      split
      · simp only [Mem.read, hk, if_false]
        split
        · exact Mem.read_below w.2 (by omega)
        · rfl
      · simp [Mem.read, hk]
    · split
      · rename_i hne hlt
        split
        · rfl
        · simp only [Mem.read, hk, if_false]
          split
          · rw [if_neg (by omega), if_pos (by omega)]
          · rfl
      · simp only [Mem.read]
        rw [ih _ w.2]

end Sys2Proof.Machine
end

