-- ==== Sys2Proof/Laws/State.lean ====
section
/-! SUPPORT. What each update of the block leaves alone, field by field; and what the core just written reads as. -/

namespace Sys2Proof.Machine

@[simp] theorem State.goes_eq (s : State) (d : Dev) : s.goes d = .next { s with dev := d } := rfl
@[simp] theorem Dev.core_setCore (d : Dev) (c : Nat) (x : Core) : (d.setCore c x).core c = x := by simp [Dev.core, Dev.setCore]
@[simp] theorem Dev.core_updCore (d : Dev) (c : Nat) (f : Core → Core) : (d.updCore c f).core c = f (d.core c) := by simp [Dev.updCore]
theorem Dev.core_setCore_other (d : Dev) (c j : Nat) (x : Core) (h : j ≠ c) : (d.setCore c x).core j = d.core j := by
  simp [Dev.core, Dev.setCore, Map.get_put_other _ _ _ _ _ h]
theorem Dev.setCore_setCore (d : Dev) (c : Nat) (x y : Core) : (d.setCore c x).setCore c y = d.setCore c y := by
  simp [Dev.setCore, Map.put_put]
@[simp] theorem Dev.qr_setQ (d : Dev) (q : Nat) (x : Quarter) : (d.setQ q x).qr q = x := by simp [Dev.qr, Dev.setQ]
@[simp] theorem Dev.qr_updQ (d : Dev) (q : Nat) (f : Quarter → Quarter) : (d.updQ q f).qr q = f (d.qr q) := by simp [Dev.updQ]
@[simp] theorem Dev.home_updHome (d : Dev) (h : Nat) (f : Home → Home) : (d.updHome h f).home h = f (d.home h) := by
  simp [Dev.home, Dev.updHome, Dev.setHome]
@[simp] theorem Dev.cache_updCache (d : Dev) (n : Nat) (f : Cache → Cache) : (d.updCache n f).cache n = f (d.cache n) := by
  simp [Dev.cache, Dev.updCache, Dev.setCache]

@[simp] theorem Dev.setCore_fresh (d : Dev) (c : Nat) (x : Core) : (d.setCore c x).fresh = d.fresh := rfl
@[simp] theorem Dev.setCore_out (d : Dev) (c : Nat) (x : Core) : (d.setCore c x).out = d.out := rfl
@[simp] theorem Dev.setCore_net (d : Dev) (c : Nat) (x : Core) : (d.setCore c x).net = d.net := rfl
@[simp] theorem Dev.setCore_quarters (d : Dev) (c : Nat) (x : Core) : (d.setCore c x).quarters = d.quarters := rfl
@[simp] theorem Dev.setCore_flt (d : Dev) (c : Nat) (x : Core) : (d.setCore c x).flt = d.flt := rfl
@[simp] theorem Dev.setCore_rst (d : Dev) (c : Nat) (x : Core) : (d.setCore c x).rst = d.rst := rfl
@[simp] theorem Dev.setCore_pins (d : Dev) (c : Nat) (x : Core) : (d.setCore c x).pins = d.pins := rfl
@[simp] theorem Dev.setCore_pwr (d : Dev) (c : Nat) (x : Core) : (d.setCore c x).pwr = d.pwr := rfl
@[simp] theorem Dev.setCore_mg (d : Dev) (c : Nat) (x : Core) : (d.setCore c x).mg = d.mg := rfl
@[simp] theorem Dev.setCore_segs (d : Dev) (c : Nat) (x : Core) : (d.setCore c x).segs = d.segs := rfl
@[simp] theorem Dev.setCore_homes (d : Dev) (c : Nat) (x : Core) : (d.setCore c x).homes = d.homes := rfl
@[simp] theorem Dev.setCore_dir (d : Dev) (c : Nat) (x : Core) : (d.setCore c x).dir = d.dir := rfl
@[simp] theorem Dev.setCore_caches (d : Dev) (c : Nat) (x : Core) : (d.setCore c x).caches = d.caches := rfl
@[simp] theorem Dev.setCore_coh (d : Dev) (c : Nat) (x : Core) : (d.setCore c x).coh = d.coh := rfl
@[simp] theorem Dev.setCore_teams (d : Dev) (c : Nat) (x : Core) : (d.setCore c x).teams = d.teams := rfl
@[simp] theorem Dev.setCore_cmap (d : Dev) (c : Nat) (x : Core) : (d.setCore c x).cmap = d.cmap := rfl
@[simp] theorem Dev.setCore_mem (d : Dev) (c : Nat) (x : Core) : (d.setCore c x).mem = d.mem := rfl
@[simp] theorem Dev.setCore_info (d : Dev) (c : Nat) (x : Core) : (d.setCore c x).info = d.info := rfl
@[simp] theorem Dev.setCore_symErr (d : Dev) (c : Nat) (x : Core) : (d.setCore c x).symErr = d.symErr := rfl
@[simp] theorem Dev.setCore_hostMem (d : Dev) (c : Nat) (x : Core) : (d.setCore c x).hostMem = d.hostMem := rfl
@[simp] theorem Dev.setCore_ilvDram (d : Dev) (c : Nat) (x : Core) : (d.setCore c x).ilvDram = d.ilvDram := rfl
@[simp] theorem Dev.setCore_ilvRes (d : Dev) (c : Nat) (x : Core) : (d.setCore c x).ilvRes = d.ilvRes := rfl
@[simp] theorem Dev.setCore_msix (d : Dev) (c : Nat) (x : Core) : (d.setCore c x).msix = d.msix := rfl
@[simp] theorem Dev.setCore_msixPend (d : Dev) (c : Nat) (x : Core) : (d.setCore c x).msixPend = d.msixPend := rfl
@[simp] theorem Dev.setCore_tier (d : Dev) (c : Nat) (x : Core) : (d.setCore c x).tier = d.tier := rfl
@[simp] theorem Dev.setCore_wq (d : Dev) (c : Nat) (x : Core) : (d.setCore c x).wq = d.wq := rfl
@[simp] theorem Dev.setCore_cp (d : Dev) (c : Nat) (x : Core) : (d.setCore c x).cp = d.cp := rfl
@[simp] theorem Dev.setCore_tb (d : Dev) (c : Nat) (x : Core) : (d.setCore c x).tb = d.tb := rfl
@[simp] theorem Dev.setCore_hl (d : Dev) (c : Nat) (x : Core) : (d.setCore c x).hl = d.hl := rfl
@[simp] theorem Dev.setCore_tr (d : Dev) (c : Nat) (x : Core) : (d.setCore c x).tr = d.tr := rfl
@[simp] theorem Dev.setCore_regq (d : Dev) (c : Nat) (x : Core) : (d.setCore c x).regq = d.regq := rfl
@[simp] theorem Dev.updCore_fresh (d : Dev) (c : Nat) (f : Core → Core) : (d.updCore c f).fresh = d.fresh := rfl
@[simp] theorem Dev.updCore_out (d : Dev) (c : Nat) (f : Core → Core) : (d.updCore c f).out = d.out := rfl
@[simp] theorem Dev.updCore_net (d : Dev) (c : Nat) (f : Core → Core) : (d.updCore c f).net = d.net := rfl
@[simp] theorem Dev.updCore_quarters (d : Dev) (c : Nat) (f : Core → Core) : (d.updCore c f).quarters = d.quarters := rfl
@[simp] theorem Dev.updCore_flt (d : Dev) (c : Nat) (f : Core → Core) : (d.updCore c f).flt = d.flt := rfl
@[simp] theorem Dev.updCore_rst (d : Dev) (c : Nat) (f : Core → Core) : (d.updCore c f).rst = d.rst := rfl
@[simp] theorem Dev.updCore_pins (d : Dev) (c : Nat) (f : Core → Core) : (d.updCore c f).pins = d.pins := rfl
@[simp] theorem Dev.updCore_pwr (d : Dev) (c : Nat) (f : Core → Core) : (d.updCore c f).pwr = d.pwr := rfl
@[simp] theorem Dev.updCore_mg (d : Dev) (c : Nat) (f : Core → Core) : (d.updCore c f).mg = d.mg := rfl
@[simp] theorem Dev.updCore_segs (d : Dev) (c : Nat) (f : Core → Core) : (d.updCore c f).segs = d.segs := rfl
@[simp] theorem Dev.updCore_homes (d : Dev) (c : Nat) (f : Core → Core) : (d.updCore c f).homes = d.homes := rfl
@[simp] theorem Dev.updCore_dir (d : Dev) (c : Nat) (f : Core → Core) : (d.updCore c f).dir = d.dir := rfl
@[simp] theorem Dev.updCore_caches (d : Dev) (c : Nat) (f : Core → Core) : (d.updCore c f).caches = d.caches := rfl
@[simp] theorem Dev.updCore_coh (d : Dev) (c : Nat) (f : Core → Core) : (d.updCore c f).coh = d.coh := rfl
@[simp] theorem Dev.updCore_teams (d : Dev) (c : Nat) (f : Core → Core) : (d.updCore c f).teams = d.teams := rfl
@[simp] theorem Dev.updCore_cmap (d : Dev) (c : Nat) (f : Core → Core) : (d.updCore c f).cmap = d.cmap := rfl
@[simp] theorem Dev.updCore_mem (d : Dev) (c : Nat) (f : Core → Core) : (d.updCore c f).mem = d.mem := rfl
@[simp] theorem Dev.updCore_info (d : Dev) (c : Nat) (f : Core → Core) : (d.updCore c f).info = d.info := rfl
@[simp] theorem Dev.updCore_symErr (d : Dev) (c : Nat) (f : Core → Core) : (d.updCore c f).symErr = d.symErr := rfl
@[simp] theorem Dev.updCore_hostMem (d : Dev) (c : Nat) (f : Core → Core) : (d.updCore c f).hostMem = d.hostMem := rfl
@[simp] theorem Dev.updCore_ilvDram (d : Dev) (c : Nat) (f : Core → Core) : (d.updCore c f).ilvDram = d.ilvDram := rfl
@[simp] theorem Dev.updCore_ilvRes (d : Dev) (c : Nat) (f : Core → Core) : (d.updCore c f).ilvRes = d.ilvRes := rfl
@[simp] theorem Dev.updCore_msix (d : Dev) (c : Nat) (f : Core → Core) : (d.updCore c f).msix = d.msix := rfl
@[simp] theorem Dev.updCore_msixPend (d : Dev) (c : Nat) (f : Core → Core) : (d.updCore c f).msixPend = d.msixPend := rfl
@[simp] theorem Dev.updCore_tier (d : Dev) (c : Nat) (f : Core → Core) : (d.updCore c f).tier = d.tier := rfl
@[simp] theorem Dev.updCore_wq (d : Dev) (c : Nat) (f : Core → Core) : (d.updCore c f).wq = d.wq := rfl
@[simp] theorem Dev.updCore_cp (d : Dev) (c : Nat) (f : Core → Core) : (d.updCore c f).cp = d.cp := rfl
@[simp] theorem Dev.updCore_tb (d : Dev) (c : Nat) (f : Core → Core) : (d.updCore c f).tb = d.tb := rfl
@[simp] theorem Dev.updCore_hl (d : Dev) (c : Nat) (f : Core → Core) : (d.updCore c f).hl = d.hl := rfl
@[simp] theorem Dev.updCore_tr (d : Dev) (c : Nat) (f : Core → Core) : (d.updCore c f).tr = d.tr := rfl
@[simp] theorem Dev.updCore_regq (d : Dev) (c : Nat) (f : Core → Core) : (d.updCore c f).regq = d.regq := rfl
@[simp] theorem Dev.setQ_fresh (d : Dev) (q : Nat) (x : Quarter) : (d.setQ q x).fresh = d.fresh := rfl
@[simp] theorem Dev.setQ_out (d : Dev) (q : Nat) (x : Quarter) : (d.setQ q x).out = d.out := rfl
@[simp] theorem Dev.setQ_net (d : Dev) (q : Nat) (x : Quarter) : (d.setQ q x).net = d.net := rfl
@[simp] theorem Dev.setQ_flt (d : Dev) (q : Nat) (x : Quarter) : (d.setQ q x).flt = d.flt := rfl
@[simp] theorem Dev.setQ_rst (d : Dev) (q : Nat) (x : Quarter) : (d.setQ q x).rst = d.rst := rfl
@[simp] theorem Dev.setQ_pins (d : Dev) (q : Nat) (x : Quarter) : (d.setQ q x).pins = d.pins := rfl
@[simp] theorem Dev.setQ_pwr (d : Dev) (q : Nat) (x : Quarter) : (d.setQ q x).pwr = d.pwr := rfl
@[simp] theorem Dev.setQ_mg (d : Dev) (q : Nat) (x : Quarter) : (d.setQ q x).mg = d.mg := rfl
@[simp] theorem Dev.setQ_segs (d : Dev) (q : Nat) (x : Quarter) : (d.setQ q x).segs = d.segs := rfl
@[simp] theorem Dev.setQ_homes (d : Dev) (q : Nat) (x : Quarter) : (d.setQ q x).homes = d.homes := rfl
@[simp] theorem Dev.setQ_dir (d : Dev) (q : Nat) (x : Quarter) : (d.setQ q x).dir = d.dir := rfl
@[simp] theorem Dev.setQ_caches (d : Dev) (q : Nat) (x : Quarter) : (d.setQ q x).caches = d.caches := rfl
@[simp] theorem Dev.setQ_coh (d : Dev) (q : Nat) (x : Quarter) : (d.setQ q x).coh = d.coh := rfl
@[simp] theorem Dev.setQ_cores (d : Dev) (q : Nat) (x : Quarter) : (d.setQ q x).cores = d.cores := rfl
@[simp] theorem Dev.setQ_teams (d : Dev) (q : Nat) (x : Quarter) : (d.setQ q x).teams = d.teams := rfl
@[simp] theorem Dev.setQ_cmap (d : Dev) (q : Nat) (x : Quarter) : (d.setQ q x).cmap = d.cmap := rfl
@[simp] theorem Dev.setQ_mem (d : Dev) (q : Nat) (x : Quarter) : (d.setQ q x).mem = d.mem := rfl
@[simp] theorem Dev.setQ_info (d : Dev) (q : Nat) (x : Quarter) : (d.setQ q x).info = d.info := rfl
@[simp] theorem Dev.setQ_symErr (d : Dev) (q : Nat) (x : Quarter) : (d.setQ q x).symErr = d.symErr := rfl
@[simp] theorem Dev.setQ_hostMem (d : Dev) (q : Nat) (x : Quarter) : (d.setQ q x).hostMem = d.hostMem := rfl
@[simp] theorem Dev.setQ_ilvDram (d : Dev) (q : Nat) (x : Quarter) : (d.setQ q x).ilvDram = d.ilvDram := rfl
@[simp] theorem Dev.setQ_ilvRes (d : Dev) (q : Nat) (x : Quarter) : (d.setQ q x).ilvRes = d.ilvRes := rfl
@[simp] theorem Dev.setQ_msix (d : Dev) (q : Nat) (x : Quarter) : (d.setQ q x).msix = d.msix := rfl
@[simp] theorem Dev.setQ_msixPend (d : Dev) (q : Nat) (x : Quarter) : (d.setQ q x).msixPend = d.msixPend := rfl
@[simp] theorem Dev.setQ_tier (d : Dev) (q : Nat) (x : Quarter) : (d.setQ q x).tier = d.tier := rfl
@[simp] theorem Dev.setQ_wq (d : Dev) (q : Nat) (x : Quarter) : (d.setQ q x).wq = d.wq := rfl
@[simp] theorem Dev.setQ_cp (d : Dev) (q : Nat) (x : Quarter) : (d.setQ q x).cp = d.cp := rfl
@[simp] theorem Dev.setQ_tb (d : Dev) (q : Nat) (x : Quarter) : (d.setQ q x).tb = d.tb := rfl
@[simp] theorem Dev.setQ_hl (d : Dev) (q : Nat) (x : Quarter) : (d.setQ q x).hl = d.hl := rfl
@[simp] theorem Dev.setQ_tr (d : Dev) (q : Nat) (x : Quarter) : (d.setQ q x).tr = d.tr := rfl
@[simp] theorem Dev.setQ_regq (d : Dev) (q : Nat) (x : Quarter) : (d.setQ q x).regq = d.regq := rfl
@[simp] theorem Dev.updQ_fresh (d : Dev) (q : Nat) (f : Quarter → Quarter) : (d.updQ q f).fresh = d.fresh := rfl
@[simp] theorem Dev.updQ_out (d : Dev) (q : Nat) (f : Quarter → Quarter) : (d.updQ q f).out = d.out := rfl
@[simp] theorem Dev.updQ_net (d : Dev) (q : Nat) (f : Quarter → Quarter) : (d.updQ q f).net = d.net := rfl
@[simp] theorem Dev.updQ_flt (d : Dev) (q : Nat) (f : Quarter → Quarter) : (d.updQ q f).flt = d.flt := rfl
@[simp] theorem Dev.updQ_rst (d : Dev) (q : Nat) (f : Quarter → Quarter) : (d.updQ q f).rst = d.rst := rfl
@[simp] theorem Dev.updQ_pins (d : Dev) (q : Nat) (f : Quarter → Quarter) : (d.updQ q f).pins = d.pins := rfl
@[simp] theorem Dev.updQ_pwr (d : Dev) (q : Nat) (f : Quarter → Quarter) : (d.updQ q f).pwr = d.pwr := rfl
@[simp] theorem Dev.updQ_mg (d : Dev) (q : Nat) (f : Quarter → Quarter) : (d.updQ q f).mg = d.mg := rfl
@[simp] theorem Dev.updQ_segs (d : Dev) (q : Nat) (f : Quarter → Quarter) : (d.updQ q f).segs = d.segs := rfl
@[simp] theorem Dev.updQ_homes (d : Dev) (q : Nat) (f : Quarter → Quarter) : (d.updQ q f).homes = d.homes := rfl
@[simp] theorem Dev.updQ_dir (d : Dev) (q : Nat) (f : Quarter → Quarter) : (d.updQ q f).dir = d.dir := rfl
@[simp] theorem Dev.updQ_caches (d : Dev) (q : Nat) (f : Quarter → Quarter) : (d.updQ q f).caches = d.caches := rfl
@[simp] theorem Dev.updQ_coh (d : Dev) (q : Nat) (f : Quarter → Quarter) : (d.updQ q f).coh = d.coh := rfl
@[simp] theorem Dev.updQ_cores (d : Dev) (q : Nat) (f : Quarter → Quarter) : (d.updQ q f).cores = d.cores := rfl
@[simp] theorem Dev.updQ_teams (d : Dev) (q : Nat) (f : Quarter → Quarter) : (d.updQ q f).teams = d.teams := rfl
@[simp] theorem Dev.updQ_cmap (d : Dev) (q : Nat) (f : Quarter → Quarter) : (d.updQ q f).cmap = d.cmap := rfl
@[simp] theorem Dev.updQ_mem (d : Dev) (q : Nat) (f : Quarter → Quarter) : (d.updQ q f).mem = d.mem := rfl
@[simp] theorem Dev.updQ_info (d : Dev) (q : Nat) (f : Quarter → Quarter) : (d.updQ q f).info = d.info := rfl
@[simp] theorem Dev.updQ_symErr (d : Dev) (q : Nat) (f : Quarter → Quarter) : (d.updQ q f).symErr = d.symErr := rfl
@[simp] theorem Dev.updQ_hostMem (d : Dev) (q : Nat) (f : Quarter → Quarter) : (d.updQ q f).hostMem = d.hostMem := rfl
@[simp] theorem Dev.updQ_ilvDram (d : Dev) (q : Nat) (f : Quarter → Quarter) : (d.updQ q f).ilvDram = d.ilvDram := rfl
@[simp] theorem Dev.updQ_ilvRes (d : Dev) (q : Nat) (f : Quarter → Quarter) : (d.updQ q f).ilvRes = d.ilvRes := rfl
@[simp] theorem Dev.updQ_msix (d : Dev) (q : Nat) (f : Quarter → Quarter) : (d.updQ q f).msix = d.msix := rfl
@[simp] theorem Dev.updQ_msixPend (d : Dev) (q : Nat) (f : Quarter → Quarter) : (d.updQ q f).msixPend = d.msixPend := rfl
@[simp] theorem Dev.updQ_tier (d : Dev) (q : Nat) (f : Quarter → Quarter) : (d.updQ q f).tier = d.tier := rfl
@[simp] theorem Dev.updQ_wq (d : Dev) (q : Nat) (f : Quarter → Quarter) : (d.updQ q f).wq = d.wq := rfl
@[simp] theorem Dev.updQ_cp (d : Dev) (q : Nat) (f : Quarter → Quarter) : (d.updQ q f).cp = d.cp := rfl
@[simp] theorem Dev.updQ_tb (d : Dev) (q : Nat) (f : Quarter → Quarter) : (d.updQ q f).tb = d.tb := rfl
@[simp] theorem Dev.updQ_hl (d : Dev) (q : Nat) (f : Quarter → Quarter) : (d.updQ q f).hl = d.hl := rfl
@[simp] theorem Dev.updQ_tr (d : Dev) (q : Nat) (f : Quarter → Quarter) : (d.updQ q f).tr = d.tr := rfl
@[simp] theorem Dev.updQ_regq (d : Dev) (q : Nat) (f : Quarter → Quarter) : (d.updQ q f).regq = d.regq := rfl
@[simp] theorem Dev.setHome_fresh (d : Dev) (h : Nat) (x : Home) : (d.setHome h x).fresh = d.fresh := rfl
@[simp] theorem Dev.setHome_out (d : Dev) (h : Nat) (x : Home) : (d.setHome h x).out = d.out := rfl
@[simp] theorem Dev.setHome_net (d : Dev) (h : Nat) (x : Home) : (d.setHome h x).net = d.net := rfl
@[simp] theorem Dev.setHome_quarters (d : Dev) (h : Nat) (x : Home) : (d.setHome h x).quarters = d.quarters := rfl
@[simp] theorem Dev.setHome_flt (d : Dev) (h : Nat) (x : Home) : (d.setHome h x).flt = d.flt := rfl
@[simp] theorem Dev.setHome_rst (d : Dev) (h : Nat) (x : Home) : (d.setHome h x).rst = d.rst := rfl
@[simp] theorem Dev.setHome_pins (d : Dev) (h : Nat) (x : Home) : (d.setHome h x).pins = d.pins := rfl
@[simp] theorem Dev.setHome_pwr (d : Dev) (h : Nat) (x : Home) : (d.setHome h x).pwr = d.pwr := rfl
@[simp] theorem Dev.setHome_mg (d : Dev) (h : Nat) (x : Home) : (d.setHome h x).mg = d.mg := rfl
@[simp] theorem Dev.setHome_segs (d : Dev) (h : Nat) (x : Home) : (d.setHome h x).segs = d.segs := rfl
@[simp] theorem Dev.setHome_dir (d : Dev) (h : Nat) (x : Home) : (d.setHome h x).dir = d.dir := rfl
@[simp] theorem Dev.setHome_caches (d : Dev) (h : Nat) (x : Home) : (d.setHome h x).caches = d.caches := rfl
@[simp] theorem Dev.setHome_coh (d : Dev) (h : Nat) (x : Home) : (d.setHome h x).coh = d.coh := rfl
@[simp] theorem Dev.setHome_cores (d : Dev) (h : Nat) (x : Home) : (d.setHome h x).cores = d.cores := rfl
@[simp] theorem Dev.setHome_teams (d : Dev) (h : Nat) (x : Home) : (d.setHome h x).teams = d.teams := rfl
@[simp] theorem Dev.setHome_cmap (d : Dev) (h : Nat) (x : Home) : (d.setHome h x).cmap = d.cmap := rfl
@[simp] theorem Dev.setHome_mem (d : Dev) (h : Nat) (x : Home) : (d.setHome h x).mem = d.mem := rfl
@[simp] theorem Dev.setHome_info (d : Dev) (h : Nat) (x : Home) : (d.setHome h x).info = d.info := rfl
@[simp] theorem Dev.setHome_symErr (d : Dev) (h : Nat) (x : Home) : (d.setHome h x).symErr = d.symErr := rfl
@[simp] theorem Dev.setHome_hostMem (d : Dev) (h : Nat) (x : Home) : (d.setHome h x).hostMem = d.hostMem := rfl
@[simp] theorem Dev.setHome_ilvDram (d : Dev) (h : Nat) (x : Home) : (d.setHome h x).ilvDram = d.ilvDram := rfl
@[simp] theorem Dev.setHome_ilvRes (d : Dev) (h : Nat) (x : Home) : (d.setHome h x).ilvRes = d.ilvRes := rfl
@[simp] theorem Dev.setHome_msix (d : Dev) (h : Nat) (x : Home) : (d.setHome h x).msix = d.msix := rfl
@[simp] theorem Dev.setHome_msixPend (d : Dev) (h : Nat) (x : Home) : (d.setHome h x).msixPend = d.msixPend := rfl
@[simp] theorem Dev.setHome_tier (d : Dev) (h : Nat) (x : Home) : (d.setHome h x).tier = d.tier := rfl
@[simp] theorem Dev.setHome_wq (d : Dev) (h : Nat) (x : Home) : (d.setHome h x).wq = d.wq := rfl
@[simp] theorem Dev.setHome_cp (d : Dev) (h : Nat) (x : Home) : (d.setHome h x).cp = d.cp := rfl
@[simp] theorem Dev.setHome_tb (d : Dev) (h : Nat) (x : Home) : (d.setHome h x).tb = d.tb := rfl
@[simp] theorem Dev.setHome_hl (d : Dev) (h : Nat) (x : Home) : (d.setHome h x).hl = d.hl := rfl
@[simp] theorem Dev.setHome_tr (d : Dev) (h : Nat) (x : Home) : (d.setHome h x).tr = d.tr := rfl
@[simp] theorem Dev.setHome_regq (d : Dev) (h : Nat) (x : Home) : (d.setHome h x).regq = d.regq := rfl
@[simp] theorem Dev.updHome_fresh (d : Dev) (h : Nat) (f : Home → Home) : (d.updHome h f).fresh = d.fresh := rfl
@[simp] theorem Dev.updHome_out (d : Dev) (h : Nat) (f : Home → Home) : (d.updHome h f).out = d.out := rfl
@[simp] theorem Dev.updHome_net (d : Dev) (h : Nat) (f : Home → Home) : (d.updHome h f).net = d.net := rfl
@[simp] theorem Dev.updHome_quarters (d : Dev) (h : Nat) (f : Home → Home) : (d.updHome h f).quarters = d.quarters := rfl
@[simp] theorem Dev.updHome_flt (d : Dev) (h : Nat) (f : Home → Home) : (d.updHome h f).flt = d.flt := rfl
@[simp] theorem Dev.updHome_rst (d : Dev) (h : Nat) (f : Home → Home) : (d.updHome h f).rst = d.rst := rfl
@[simp] theorem Dev.updHome_pins (d : Dev) (h : Nat) (f : Home → Home) : (d.updHome h f).pins = d.pins := rfl
@[simp] theorem Dev.updHome_pwr (d : Dev) (h : Nat) (f : Home → Home) : (d.updHome h f).pwr = d.pwr := rfl
@[simp] theorem Dev.updHome_mg (d : Dev) (h : Nat) (f : Home → Home) : (d.updHome h f).mg = d.mg := rfl
@[simp] theorem Dev.updHome_segs (d : Dev) (h : Nat) (f : Home → Home) : (d.updHome h f).segs = d.segs := rfl
@[simp] theorem Dev.updHome_dir (d : Dev) (h : Nat) (f : Home → Home) : (d.updHome h f).dir = d.dir := rfl
@[simp] theorem Dev.updHome_caches (d : Dev) (h : Nat) (f : Home → Home) : (d.updHome h f).caches = d.caches := rfl
@[simp] theorem Dev.updHome_coh (d : Dev) (h : Nat) (f : Home → Home) : (d.updHome h f).coh = d.coh := rfl
@[simp] theorem Dev.updHome_cores (d : Dev) (h : Nat) (f : Home → Home) : (d.updHome h f).cores = d.cores := rfl
@[simp] theorem Dev.updHome_teams (d : Dev) (h : Nat) (f : Home → Home) : (d.updHome h f).teams = d.teams := rfl
@[simp] theorem Dev.updHome_cmap (d : Dev) (h : Nat) (f : Home → Home) : (d.updHome h f).cmap = d.cmap := rfl
@[simp] theorem Dev.updHome_mem (d : Dev) (h : Nat) (f : Home → Home) : (d.updHome h f).mem = d.mem := rfl
@[simp] theorem Dev.updHome_info (d : Dev) (h : Nat) (f : Home → Home) : (d.updHome h f).info = d.info := rfl
@[simp] theorem Dev.updHome_symErr (d : Dev) (h : Nat) (f : Home → Home) : (d.updHome h f).symErr = d.symErr := rfl
@[simp] theorem Dev.updHome_hostMem (d : Dev) (h : Nat) (f : Home → Home) : (d.updHome h f).hostMem = d.hostMem := rfl
@[simp] theorem Dev.updHome_ilvDram (d : Dev) (h : Nat) (f : Home → Home) : (d.updHome h f).ilvDram = d.ilvDram := rfl
@[simp] theorem Dev.updHome_ilvRes (d : Dev) (h : Nat) (f : Home → Home) : (d.updHome h f).ilvRes = d.ilvRes := rfl
@[simp] theorem Dev.updHome_msix (d : Dev) (h : Nat) (f : Home → Home) : (d.updHome h f).msix = d.msix := rfl
@[simp] theorem Dev.updHome_msixPend (d : Dev) (h : Nat) (f : Home → Home) : (d.updHome h f).msixPend = d.msixPend := rfl
@[simp] theorem Dev.updHome_tier (d : Dev) (h : Nat) (f : Home → Home) : (d.updHome h f).tier = d.tier := rfl
@[simp] theorem Dev.updHome_wq (d : Dev) (h : Nat) (f : Home → Home) : (d.updHome h f).wq = d.wq := rfl
@[simp] theorem Dev.updHome_cp (d : Dev) (h : Nat) (f : Home → Home) : (d.updHome h f).cp = d.cp := rfl
@[simp] theorem Dev.updHome_tb (d : Dev) (h : Nat) (f : Home → Home) : (d.updHome h f).tb = d.tb := rfl
@[simp] theorem Dev.updHome_hl (d : Dev) (h : Nat) (f : Home → Home) : (d.updHome h f).hl = d.hl := rfl
@[simp] theorem Dev.updHome_tr (d : Dev) (h : Nat) (f : Home → Home) : (d.updHome h f).tr = d.tr := rfl
@[simp] theorem Dev.updHome_regq (d : Dev) (h : Nat) (f : Home → Home) : (d.updHome h f).regq = d.regq := rfl
@[simp] theorem Dev.setCache_fresh (d : Dev) (n : Nat) (x : Cache) : (d.setCache n x).fresh = d.fresh := rfl
@[simp] theorem Dev.setCache_out (d : Dev) (n : Nat) (x : Cache) : (d.setCache n x).out = d.out := rfl
@[simp] theorem Dev.setCache_net (d : Dev) (n : Nat) (x : Cache) : (d.setCache n x).net = d.net := rfl
@[simp] theorem Dev.setCache_quarters (d : Dev) (n : Nat) (x : Cache) : (d.setCache n x).quarters = d.quarters := rfl
@[simp] theorem Dev.setCache_flt (d : Dev) (n : Nat) (x : Cache) : (d.setCache n x).flt = d.flt := rfl
@[simp] theorem Dev.setCache_rst (d : Dev) (n : Nat) (x : Cache) : (d.setCache n x).rst = d.rst := rfl
@[simp] theorem Dev.setCache_pins (d : Dev) (n : Nat) (x : Cache) : (d.setCache n x).pins = d.pins := rfl
@[simp] theorem Dev.setCache_pwr (d : Dev) (n : Nat) (x : Cache) : (d.setCache n x).pwr = d.pwr := rfl
@[simp] theorem Dev.setCache_mg (d : Dev) (n : Nat) (x : Cache) : (d.setCache n x).mg = d.mg := rfl
@[simp] theorem Dev.setCache_segs (d : Dev) (n : Nat) (x : Cache) : (d.setCache n x).segs = d.segs := rfl
@[simp] theorem Dev.setCache_homes (d : Dev) (n : Nat) (x : Cache) : (d.setCache n x).homes = d.homes := rfl
@[simp] theorem Dev.setCache_dir (d : Dev) (n : Nat) (x : Cache) : (d.setCache n x).dir = d.dir := rfl
@[simp] theorem Dev.setCache_coh (d : Dev) (n : Nat) (x : Cache) : (d.setCache n x).coh = d.coh := rfl
@[simp] theorem Dev.setCache_cores (d : Dev) (n : Nat) (x : Cache) : (d.setCache n x).cores = d.cores := rfl
@[simp] theorem Dev.setCache_teams (d : Dev) (n : Nat) (x : Cache) : (d.setCache n x).teams = d.teams := rfl
@[simp] theorem Dev.setCache_cmap (d : Dev) (n : Nat) (x : Cache) : (d.setCache n x).cmap = d.cmap := rfl
@[simp] theorem Dev.setCache_mem (d : Dev) (n : Nat) (x : Cache) : (d.setCache n x).mem = d.mem := rfl
@[simp] theorem Dev.setCache_info (d : Dev) (n : Nat) (x : Cache) : (d.setCache n x).info = d.info := rfl
@[simp] theorem Dev.setCache_symErr (d : Dev) (n : Nat) (x : Cache) : (d.setCache n x).symErr = d.symErr := rfl
@[simp] theorem Dev.setCache_hostMem (d : Dev) (n : Nat) (x : Cache) : (d.setCache n x).hostMem = d.hostMem := rfl
@[simp] theorem Dev.setCache_ilvDram (d : Dev) (n : Nat) (x : Cache) : (d.setCache n x).ilvDram = d.ilvDram := rfl
@[simp] theorem Dev.setCache_ilvRes (d : Dev) (n : Nat) (x : Cache) : (d.setCache n x).ilvRes = d.ilvRes := rfl
@[simp] theorem Dev.setCache_msix (d : Dev) (n : Nat) (x : Cache) : (d.setCache n x).msix = d.msix := rfl
@[simp] theorem Dev.setCache_msixPend (d : Dev) (n : Nat) (x : Cache) : (d.setCache n x).msixPend = d.msixPend := rfl
@[simp] theorem Dev.setCache_tier (d : Dev) (n : Nat) (x : Cache) : (d.setCache n x).tier = d.tier := rfl
@[simp] theorem Dev.setCache_wq (d : Dev) (n : Nat) (x : Cache) : (d.setCache n x).wq = d.wq := rfl
@[simp] theorem Dev.setCache_cp (d : Dev) (n : Nat) (x : Cache) : (d.setCache n x).cp = d.cp := rfl
@[simp] theorem Dev.setCache_tb (d : Dev) (n : Nat) (x : Cache) : (d.setCache n x).tb = d.tb := rfl
@[simp] theorem Dev.setCache_hl (d : Dev) (n : Nat) (x : Cache) : (d.setCache n x).hl = d.hl := rfl
@[simp] theorem Dev.setCache_tr (d : Dev) (n : Nat) (x : Cache) : (d.setCache n x).tr = d.tr := rfl
@[simp] theorem Dev.setCache_regq (d : Dev) (n : Nat) (x : Cache) : (d.setCache n x).regq = d.regq := rfl
@[simp] theorem Dev.updCache_fresh (d : Dev) (n : Nat) (f : Cache → Cache) : (d.updCache n f).fresh = d.fresh := rfl
@[simp] theorem Dev.updCache_out (d : Dev) (n : Nat) (f : Cache → Cache) : (d.updCache n f).out = d.out := rfl
@[simp] theorem Dev.updCache_net (d : Dev) (n : Nat) (f : Cache → Cache) : (d.updCache n f).net = d.net := rfl
@[simp] theorem Dev.updCache_quarters (d : Dev) (n : Nat) (f : Cache → Cache) : (d.updCache n f).quarters = d.quarters := rfl
@[simp] theorem Dev.updCache_flt (d : Dev) (n : Nat) (f : Cache → Cache) : (d.updCache n f).flt = d.flt := rfl
@[simp] theorem Dev.updCache_rst (d : Dev) (n : Nat) (f : Cache → Cache) : (d.updCache n f).rst = d.rst := rfl
@[simp] theorem Dev.updCache_pins (d : Dev) (n : Nat) (f : Cache → Cache) : (d.updCache n f).pins = d.pins := rfl
@[simp] theorem Dev.updCache_pwr (d : Dev) (n : Nat) (f : Cache → Cache) : (d.updCache n f).pwr = d.pwr := rfl
@[simp] theorem Dev.updCache_mg (d : Dev) (n : Nat) (f : Cache → Cache) : (d.updCache n f).mg = d.mg := rfl
@[simp] theorem Dev.updCache_segs (d : Dev) (n : Nat) (f : Cache → Cache) : (d.updCache n f).segs = d.segs := rfl
@[simp] theorem Dev.updCache_homes (d : Dev) (n : Nat) (f : Cache → Cache) : (d.updCache n f).homes = d.homes := rfl
@[simp] theorem Dev.updCache_dir (d : Dev) (n : Nat) (f : Cache → Cache) : (d.updCache n f).dir = d.dir := rfl
@[simp] theorem Dev.updCache_coh (d : Dev) (n : Nat) (f : Cache → Cache) : (d.updCache n f).coh = d.coh := rfl
@[simp] theorem Dev.updCache_cores (d : Dev) (n : Nat) (f : Cache → Cache) : (d.updCache n f).cores = d.cores := rfl
@[simp] theorem Dev.updCache_teams (d : Dev) (n : Nat) (f : Cache → Cache) : (d.updCache n f).teams = d.teams := rfl
@[simp] theorem Dev.updCache_cmap (d : Dev) (n : Nat) (f : Cache → Cache) : (d.updCache n f).cmap = d.cmap := rfl
@[simp] theorem Dev.updCache_mem (d : Dev) (n : Nat) (f : Cache → Cache) : (d.updCache n f).mem = d.mem := rfl
@[simp] theorem Dev.updCache_info (d : Dev) (n : Nat) (f : Cache → Cache) : (d.updCache n f).info = d.info := rfl
@[simp] theorem Dev.updCache_symErr (d : Dev) (n : Nat) (f : Cache → Cache) : (d.updCache n f).symErr = d.symErr := rfl
@[simp] theorem Dev.updCache_hostMem (d : Dev) (n : Nat) (f : Cache → Cache) : (d.updCache n f).hostMem = d.hostMem := rfl
@[simp] theorem Dev.updCache_ilvDram (d : Dev) (n : Nat) (f : Cache → Cache) : (d.updCache n f).ilvDram = d.ilvDram := rfl
@[simp] theorem Dev.updCache_ilvRes (d : Dev) (n : Nat) (f : Cache → Cache) : (d.updCache n f).ilvRes = d.ilvRes := rfl
@[simp] theorem Dev.updCache_msix (d : Dev) (n : Nat) (f : Cache → Cache) : (d.updCache n f).msix = d.msix := rfl
@[simp] theorem Dev.updCache_msixPend (d : Dev) (n : Nat) (f : Cache → Cache) : (d.updCache n f).msixPend = d.msixPend := rfl
@[simp] theorem Dev.updCache_tier (d : Dev) (n : Nat) (f : Cache → Cache) : (d.updCache n f).tier = d.tier := rfl
@[simp] theorem Dev.updCache_wq (d : Dev) (n : Nat) (f : Cache → Cache) : (d.updCache n f).wq = d.wq := rfl
@[simp] theorem Dev.updCache_cp (d : Dev) (n : Nat) (f : Cache → Cache) : (d.updCache n f).cp = d.cp := rfl
@[simp] theorem Dev.updCache_tb (d : Dev) (n : Nat) (f : Cache → Cache) : (d.updCache n f).tb = d.tb := rfl
@[simp] theorem Dev.updCache_hl (d : Dev) (n : Nat) (f : Cache → Cache) : (d.updCache n f).hl = d.hl := rfl
@[simp] theorem Dev.updCache_tr (d : Dev) (n : Nat) (f : Cache → Cache) : (d.updCache n f).tr = d.tr := rfl
@[simp] theorem Dev.updCache_regq (d : Dev) (n : Nat) (f : Cache → Cache) : (d.updCache n f).regq = d.regq := rfl
@[simp] theorem Dev.send_fresh (d : Dev) (m : Msg) : (d.send m).fresh = d.fresh := rfl
@[simp] theorem Dev.send_out (d : Dev) (m : Msg) : (d.send m).out = d.out := rfl
@[simp] theorem Dev.send_quarters (d : Dev) (m : Msg) : (d.send m).quarters = d.quarters := rfl
@[simp] theorem Dev.send_flt (d : Dev) (m : Msg) : (d.send m).flt = d.flt := rfl
@[simp] theorem Dev.send_rst (d : Dev) (m : Msg) : (d.send m).rst = d.rst := rfl
@[simp] theorem Dev.send_pins (d : Dev) (m : Msg) : (d.send m).pins = d.pins := rfl
@[simp] theorem Dev.send_pwr (d : Dev) (m : Msg) : (d.send m).pwr = d.pwr := rfl
@[simp] theorem Dev.send_mg (d : Dev) (m : Msg) : (d.send m).mg = d.mg := rfl
@[simp] theorem Dev.send_segs (d : Dev) (m : Msg) : (d.send m).segs = d.segs := rfl
@[simp] theorem Dev.send_homes (d : Dev) (m : Msg) : (d.send m).homes = d.homes := rfl
@[simp] theorem Dev.send_dir (d : Dev) (m : Msg) : (d.send m).dir = d.dir := rfl
@[simp] theorem Dev.send_caches (d : Dev) (m : Msg) : (d.send m).caches = d.caches := rfl
@[simp] theorem Dev.send_coh (d : Dev) (m : Msg) : (d.send m).coh = d.coh := rfl
@[simp] theorem Dev.send_cores (d : Dev) (m : Msg) : (d.send m).cores = d.cores := rfl
@[simp] theorem Dev.send_teams (d : Dev) (m : Msg) : (d.send m).teams = d.teams := rfl
@[simp] theorem Dev.send_cmap (d : Dev) (m : Msg) : (d.send m).cmap = d.cmap := rfl
@[simp] theorem Dev.send_mem (d : Dev) (m : Msg) : (d.send m).mem = d.mem := rfl
@[simp] theorem Dev.send_info (d : Dev) (m : Msg) : (d.send m).info = d.info := rfl
@[simp] theorem Dev.send_symErr (d : Dev) (m : Msg) : (d.send m).symErr = d.symErr := rfl
@[simp] theorem Dev.send_hostMem (d : Dev) (m : Msg) : (d.send m).hostMem = d.hostMem := rfl
@[simp] theorem Dev.send_ilvDram (d : Dev) (m : Msg) : (d.send m).ilvDram = d.ilvDram := rfl
@[simp] theorem Dev.send_ilvRes (d : Dev) (m : Msg) : (d.send m).ilvRes = d.ilvRes := rfl
@[simp] theorem Dev.send_msix (d : Dev) (m : Msg) : (d.send m).msix = d.msix := rfl
@[simp] theorem Dev.send_msixPend (d : Dev) (m : Msg) : (d.send m).msixPend = d.msixPend := rfl
@[simp] theorem Dev.send_tier (d : Dev) (m : Msg) : (d.send m).tier = d.tier := rfl
@[simp] theorem Dev.send_wq (d : Dev) (m : Msg) : (d.send m).wq = d.wq := rfl
@[simp] theorem Dev.send_cp (d : Dev) (m : Msg) : (d.send m).cp = d.cp := rfl
@[simp] theorem Dev.send_tb (d : Dev) (m : Msg) : (d.send m).tb = d.tb := rfl
@[simp] theorem Dev.send_hl (d : Dev) (m : Msg) : (d.send m).hl = d.hl := rfl
@[simp] theorem Dev.send_tr (d : Dev) (m : Msg) : (d.send m).tr = d.tr := rfl
@[simp] theorem Dev.send_regq (d : Dev) (m : Msg) : (d.send m).regq = d.regq := rfl
@[simp] theorem Dev.taken_fresh (d : Dev) (m : Msg) : (d.taken m).fresh = d.fresh := rfl
@[simp] theorem Dev.taken_out (d : Dev) (m : Msg) : (d.taken m).out = d.out := rfl
@[simp] theorem Dev.taken_quarters (d : Dev) (m : Msg) : (d.taken m).quarters = d.quarters := rfl
@[simp] theorem Dev.taken_flt (d : Dev) (m : Msg) : (d.taken m).flt = d.flt := rfl
@[simp] theorem Dev.taken_rst (d : Dev) (m : Msg) : (d.taken m).rst = d.rst := rfl
@[simp] theorem Dev.taken_pins (d : Dev) (m : Msg) : (d.taken m).pins = d.pins := rfl
@[simp] theorem Dev.taken_pwr (d : Dev) (m : Msg) : (d.taken m).pwr = d.pwr := rfl
@[simp] theorem Dev.taken_mg (d : Dev) (m : Msg) : (d.taken m).mg = d.mg := rfl
@[simp] theorem Dev.taken_segs (d : Dev) (m : Msg) : (d.taken m).segs = d.segs := rfl
@[simp] theorem Dev.taken_homes (d : Dev) (m : Msg) : (d.taken m).homes = d.homes := rfl
@[simp] theorem Dev.taken_dir (d : Dev) (m : Msg) : (d.taken m).dir = d.dir := rfl
@[simp] theorem Dev.taken_caches (d : Dev) (m : Msg) : (d.taken m).caches = d.caches := rfl
@[simp] theorem Dev.taken_coh (d : Dev) (m : Msg) : (d.taken m).coh = d.coh := rfl
@[simp] theorem Dev.taken_cores (d : Dev) (m : Msg) : (d.taken m).cores = d.cores := rfl
@[simp] theorem Dev.taken_teams (d : Dev) (m : Msg) : (d.taken m).teams = d.teams := rfl
@[simp] theorem Dev.taken_cmap (d : Dev) (m : Msg) : (d.taken m).cmap = d.cmap := rfl
@[simp] theorem Dev.taken_mem (d : Dev) (m : Msg) : (d.taken m).mem = d.mem := rfl
@[simp] theorem Dev.taken_info (d : Dev) (m : Msg) : (d.taken m).info = d.info := rfl
@[simp] theorem Dev.taken_symErr (d : Dev) (m : Msg) : (d.taken m).symErr = d.symErr := rfl
@[simp] theorem Dev.taken_hostMem (d : Dev) (m : Msg) : (d.taken m).hostMem = d.hostMem := rfl
@[simp] theorem Dev.taken_ilvDram (d : Dev) (m : Msg) : (d.taken m).ilvDram = d.ilvDram := rfl
@[simp] theorem Dev.taken_ilvRes (d : Dev) (m : Msg) : (d.taken m).ilvRes = d.ilvRes := rfl
@[simp] theorem Dev.taken_msix (d : Dev) (m : Msg) : (d.taken m).msix = d.msix := rfl
@[simp] theorem Dev.taken_msixPend (d : Dev) (m : Msg) : (d.taken m).msixPend = d.msixPend := rfl
@[simp] theorem Dev.taken_tier (d : Dev) (m : Msg) : (d.taken m).tier = d.tier := rfl
@[simp] theorem Dev.taken_wq (d : Dev) (m : Msg) : (d.taken m).wq = d.wq := rfl
@[simp] theorem Dev.taken_cp (d : Dev) (m : Msg) : (d.taken m).cp = d.cp := rfl
@[simp] theorem Dev.taken_tb (d : Dev) (m : Msg) : (d.taken m).tb = d.tb := rfl
@[simp] theorem Dev.taken_hl (d : Dev) (m : Msg) : (d.taken m).hl = d.hl := rfl
@[simp] theorem Dev.taken_tr (d : Dev) (m : Msg) : (d.taken m).tr = d.tr := rfl
@[simp] theorem Dev.taken_regq (d : Dev) (m : Msg) : (d.taken m).regq = d.regq := rfl
@[simp] theorem Dev.emit_fresh (d : Dev) (o : Out) : (d.emit o).fresh = d.fresh := rfl
@[simp] theorem Dev.emit_net (d : Dev) (o : Out) : (d.emit o).net = d.net := rfl
@[simp] theorem Dev.emit_quarters (d : Dev) (o : Out) : (d.emit o).quarters = d.quarters := rfl
@[simp] theorem Dev.emit_flt (d : Dev) (o : Out) : (d.emit o).flt = d.flt := rfl
@[simp] theorem Dev.emit_rst (d : Dev) (o : Out) : (d.emit o).rst = d.rst := rfl
@[simp] theorem Dev.emit_pins (d : Dev) (o : Out) : (d.emit o).pins = d.pins := rfl
@[simp] theorem Dev.emit_pwr (d : Dev) (o : Out) : (d.emit o).pwr = d.pwr := rfl
@[simp] theorem Dev.emit_mg (d : Dev) (o : Out) : (d.emit o).mg = d.mg := rfl
@[simp] theorem Dev.emit_segs (d : Dev) (o : Out) : (d.emit o).segs = d.segs := rfl
@[simp] theorem Dev.emit_homes (d : Dev) (o : Out) : (d.emit o).homes = d.homes := rfl
@[simp] theorem Dev.emit_dir (d : Dev) (o : Out) : (d.emit o).dir = d.dir := rfl
@[simp] theorem Dev.emit_caches (d : Dev) (o : Out) : (d.emit o).caches = d.caches := rfl
@[simp] theorem Dev.emit_coh (d : Dev) (o : Out) : (d.emit o).coh = d.coh := rfl
@[simp] theorem Dev.emit_cores (d : Dev) (o : Out) : (d.emit o).cores = d.cores := rfl
@[simp] theorem Dev.emit_teams (d : Dev) (o : Out) : (d.emit o).teams = d.teams := rfl
@[simp] theorem Dev.emit_cmap (d : Dev) (o : Out) : (d.emit o).cmap = d.cmap := rfl
@[simp] theorem Dev.emit_mem (d : Dev) (o : Out) : (d.emit o).mem = d.mem := rfl
@[simp] theorem Dev.emit_info (d : Dev) (o : Out) : (d.emit o).info = d.info := rfl
@[simp] theorem Dev.emit_symErr (d : Dev) (o : Out) : (d.emit o).symErr = d.symErr := rfl
@[simp] theorem Dev.emit_hostMem (d : Dev) (o : Out) : (d.emit o).hostMem = d.hostMem := rfl
@[simp] theorem Dev.emit_ilvDram (d : Dev) (o : Out) : (d.emit o).ilvDram = d.ilvDram := rfl
@[simp] theorem Dev.emit_ilvRes (d : Dev) (o : Out) : (d.emit o).ilvRes = d.ilvRes := rfl
@[simp] theorem Dev.emit_msix (d : Dev) (o : Out) : (d.emit o).msix = d.msix := rfl
@[simp] theorem Dev.emit_msixPend (d : Dev) (o : Out) : (d.emit o).msixPend = d.msixPend := rfl
@[simp] theorem Dev.emit_tier (d : Dev) (o : Out) : (d.emit o).tier = d.tier := rfl
@[simp] theorem Dev.emit_wq (d : Dev) (o : Out) : (d.emit o).wq = d.wq := rfl
@[simp] theorem Dev.emit_cp (d : Dev) (o : Out) : (d.emit o).cp = d.cp := rfl
@[simp] theorem Dev.emit_tb (d : Dev) (o : Out) : (d.emit o).tb = d.tb := rfl
@[simp] theorem Dev.emit_hl (d : Dev) (o : Out) : (d.emit o).hl = d.hl := rfl
@[simp] theorem Dev.emit_tr (d : Dev) (o : Out) : (d.emit o).tr = d.tr := rfl
@[simp] theorem Dev.emit_regq (d : Dev) (o : Out) : (d.emit o).regq = d.regq := rfl
@[simp] theorem Dev.putSec_fresh (d : Dev) (n : Nat) (x : Sector) (i : SectorMeta) : (d.putSec n x i).fresh = d.fresh := by unfold Dev.putSec; rfl
@[simp] theorem Dev.putSec_out (d : Dev) (n : Nat) (x : Sector) (i : SectorMeta) : (d.putSec n x i).out = d.out := by unfold Dev.putSec; rfl
@[simp] theorem Dev.putSec_net (d : Dev) (n : Nat) (x : Sector) (i : SectorMeta) : (d.putSec n x i).net = d.net := by unfold Dev.putSec; rfl
@[simp] theorem Dev.putSec_quarters (d : Dev) (n : Nat) (x : Sector) (i : SectorMeta) : (d.putSec n x i).quarters = d.quarters := by unfold Dev.putSec; rfl
@[simp] theorem Dev.putSec_flt (d : Dev) (n : Nat) (x : Sector) (i : SectorMeta) : (d.putSec n x i).flt = d.flt := by unfold Dev.putSec; rfl
@[simp] theorem Dev.putSec_rst (d : Dev) (n : Nat) (x : Sector) (i : SectorMeta) : (d.putSec n x i).rst = d.rst := by unfold Dev.putSec; rfl
@[simp] theorem Dev.putSec_pins (d : Dev) (n : Nat) (x : Sector) (i : SectorMeta) : (d.putSec n x i).pins = d.pins := by unfold Dev.putSec; rfl
@[simp] theorem Dev.putSec_pwr (d : Dev) (n : Nat) (x : Sector) (i : SectorMeta) : (d.putSec n x i).pwr = d.pwr := by unfold Dev.putSec; rfl
@[simp] theorem Dev.putSec_mg (d : Dev) (n : Nat) (x : Sector) (i : SectorMeta) : (d.putSec n x i).mg = d.mg := by unfold Dev.putSec; rfl
@[simp] theorem Dev.putSec_segs (d : Dev) (n : Nat) (x : Sector) (i : SectorMeta) : (d.putSec n x i).segs = d.segs := by unfold Dev.putSec; rfl
@[simp] theorem Dev.putSec_homes (d : Dev) (n : Nat) (x : Sector) (i : SectorMeta) : (d.putSec n x i).homes = d.homes := by unfold Dev.putSec; rfl
@[simp] theorem Dev.putSec_dir (d : Dev) (n : Nat) (x : Sector) (i : SectorMeta) : (d.putSec n x i).dir = d.dir := by unfold Dev.putSec; rfl
@[simp] theorem Dev.putSec_caches (d : Dev) (n : Nat) (x : Sector) (i : SectorMeta) : (d.putSec n x i).caches = d.caches := by unfold Dev.putSec; rfl
@[simp] theorem Dev.putSec_coh (d : Dev) (n : Nat) (x : Sector) (i : SectorMeta) : (d.putSec n x i).coh = d.coh := by unfold Dev.putSec; rfl
@[simp] theorem Dev.putSec_cores (d : Dev) (n : Nat) (x : Sector) (i : SectorMeta) : (d.putSec n x i).cores = d.cores := by unfold Dev.putSec; rfl
@[simp] theorem Dev.putSec_teams (d : Dev) (n : Nat) (x : Sector) (i : SectorMeta) : (d.putSec n x i).teams = d.teams := by unfold Dev.putSec; rfl
@[simp] theorem Dev.putSec_cmap (d : Dev) (n : Nat) (x : Sector) (i : SectorMeta) : (d.putSec n x i).cmap = d.cmap := by unfold Dev.putSec; rfl
@[simp] theorem Dev.putSec_hostMem (d : Dev) (n : Nat) (x : Sector) (i : SectorMeta) : (d.putSec n x i).hostMem = d.hostMem := by unfold Dev.putSec; rfl
@[simp] theorem Dev.putSec_ilvDram (d : Dev) (n : Nat) (x : Sector) (i : SectorMeta) : (d.putSec n x i).ilvDram = d.ilvDram := by unfold Dev.putSec; rfl
@[simp] theorem Dev.putSec_ilvRes (d : Dev) (n : Nat) (x : Sector) (i : SectorMeta) : (d.putSec n x i).ilvRes = d.ilvRes := by unfold Dev.putSec; rfl
@[simp] theorem Dev.putSec_msix (d : Dev) (n : Nat) (x : Sector) (i : SectorMeta) : (d.putSec n x i).msix = d.msix := by unfold Dev.putSec; rfl
@[simp] theorem Dev.putSec_msixPend (d : Dev) (n : Nat) (x : Sector) (i : SectorMeta) : (d.putSec n x i).msixPend = d.msixPend := by unfold Dev.putSec; rfl
@[simp] theorem Dev.putSec_tier (d : Dev) (n : Nat) (x : Sector) (i : SectorMeta) : (d.putSec n x i).tier = d.tier := by unfold Dev.putSec; rfl
@[simp] theorem Dev.putSec_wq (d : Dev) (n : Nat) (x : Sector) (i : SectorMeta) : (d.putSec n x i).wq = d.wq := by unfold Dev.putSec; rfl
@[simp] theorem Dev.putSec_cp (d : Dev) (n : Nat) (x : Sector) (i : SectorMeta) : (d.putSec n x i).cp = d.cp := by unfold Dev.putSec; rfl
@[simp] theorem Dev.putSec_tb (d : Dev) (n : Nat) (x : Sector) (i : SectorMeta) : (d.putSec n x i).tb = d.tb := by unfold Dev.putSec; rfl
@[simp] theorem Dev.putSec_hl (d : Dev) (n : Nat) (x : Sector) (i : SectorMeta) : (d.putSec n x i).hl = d.hl := by unfold Dev.putSec; rfl
@[simp] theorem Dev.putSec_tr (d : Dev) (n : Nat) (x : Sector) (i : SectorMeta) : (d.putSec n x i).tr = d.tr := by unfold Dev.putSec; rfl
@[simp] theorem Dev.putSec_regq (d : Dev) (n : Nat) (x : Sector) (i : SectorMeta) : (d.putSec n x i).regq = d.regq := by unfold Dev.putSec; rfl
@[simp] theorem Dev.addRun_fresh (d : Dev) (r : Run) : (d.addRun r).fresh = d.fresh := rfl
@[simp] theorem Dev.addRun_out (d : Dev) (r : Run) : (d.addRun r).out = d.out := rfl
@[simp] theorem Dev.addRun_net (d : Dev) (r : Run) : (d.addRun r).net = d.net := rfl
@[simp] theorem Dev.addRun_quarters (d : Dev) (r : Run) : (d.addRun r).quarters = d.quarters := rfl
@[simp] theorem Dev.addRun_flt (d : Dev) (r : Run) : (d.addRun r).flt = d.flt := rfl
@[simp] theorem Dev.addRun_rst (d : Dev) (r : Run) : (d.addRun r).rst = d.rst := rfl
@[simp] theorem Dev.addRun_pins (d : Dev) (r : Run) : (d.addRun r).pins = d.pins := rfl
@[simp] theorem Dev.addRun_pwr (d : Dev) (r : Run) : (d.addRun r).pwr = d.pwr := rfl
@[simp] theorem Dev.addRun_mg (d : Dev) (r : Run) : (d.addRun r).mg = d.mg := rfl
@[simp] theorem Dev.addRun_segs (d : Dev) (r : Run) : (d.addRun r).segs = d.segs := rfl
@[simp] theorem Dev.addRun_homes (d : Dev) (r : Run) : (d.addRun r).homes = d.homes := rfl
@[simp] theorem Dev.addRun_dir (d : Dev) (r : Run) : (d.addRun r).dir = d.dir := rfl
@[simp] theorem Dev.addRun_caches (d : Dev) (r : Run) : (d.addRun r).caches = d.caches := rfl
@[simp] theorem Dev.addRun_coh (d : Dev) (r : Run) : (d.addRun r).coh = d.coh := rfl
@[simp] theorem Dev.addRun_cores (d : Dev) (r : Run) : (d.addRun r).cores = d.cores := rfl
@[simp] theorem Dev.addRun_teams (d : Dev) (r : Run) : (d.addRun r).teams = d.teams := rfl
@[simp] theorem Dev.addRun_cmap (d : Dev) (r : Run) : (d.addRun r).cmap = d.cmap := rfl
@[simp] theorem Dev.addRun_mem (d : Dev) (r : Run) : (d.addRun r).mem = d.mem := rfl
@[simp] theorem Dev.addRun_info (d : Dev) (r : Run) : (d.addRun r).info = d.info := rfl
@[simp] theorem Dev.addRun_symErr (d : Dev) (r : Run) : (d.addRun r).symErr = d.symErr := rfl
@[simp] theorem Dev.addRun_hostMem (d : Dev) (r : Run) : (d.addRun r).hostMem = d.hostMem := rfl
@[simp] theorem Dev.addRun_ilvDram (d : Dev) (r : Run) : (d.addRun r).ilvDram = d.ilvDram := rfl
@[simp] theorem Dev.addRun_ilvRes (d : Dev) (r : Run) : (d.addRun r).ilvRes = d.ilvRes := rfl
@[simp] theorem Dev.addRun_msix (d : Dev) (r : Run) : (d.addRun r).msix = d.msix := rfl
@[simp] theorem Dev.addRun_msixPend (d : Dev) (r : Run) : (d.addRun r).msixPend = d.msixPend := rfl
@[simp] theorem Dev.addRun_tier (d : Dev) (r : Run) : (d.addRun r).tier = d.tier := rfl
@[simp] theorem Dev.addRun_wq (d : Dev) (r : Run) : (d.addRun r).wq = d.wq := rfl
@[simp] theorem Dev.addRun_tb (d : Dev) (r : Run) : (d.addRun r).tb = d.tb := rfl
@[simp] theorem Dev.addRun_hl (d : Dev) (r : Run) : (d.addRun r).hl = d.hl := rfl
@[simp] theorem Dev.addRun_tr (d : Dev) (r : Run) : (d.addRun r).tr = d.tr := rfl
@[simp] theorem Dev.addRun_regq (d : Dev) (r : Run) : (d.addRun r).regq = d.regq := rfl
@[simp] theorem Dev.dropRun_fresh (d : Dev) (i : DescId) : (d.dropRun i).fresh = d.fresh := rfl
@[simp] theorem Dev.dropRun_out (d : Dev) (i : DescId) : (d.dropRun i).out = d.out := rfl
@[simp] theorem Dev.dropRun_net (d : Dev) (i : DescId) : (d.dropRun i).net = d.net := rfl
@[simp] theorem Dev.dropRun_quarters (d : Dev) (i : DescId) : (d.dropRun i).quarters = d.quarters := rfl
@[simp] theorem Dev.dropRun_flt (d : Dev) (i : DescId) : (d.dropRun i).flt = d.flt := rfl
@[simp] theorem Dev.dropRun_rst (d : Dev) (i : DescId) : (d.dropRun i).rst = d.rst := rfl
@[simp] theorem Dev.dropRun_pins (d : Dev) (i : DescId) : (d.dropRun i).pins = d.pins := rfl
@[simp] theorem Dev.dropRun_pwr (d : Dev) (i : DescId) : (d.dropRun i).pwr = d.pwr := rfl
@[simp] theorem Dev.dropRun_mg (d : Dev) (i : DescId) : (d.dropRun i).mg = d.mg := rfl
@[simp] theorem Dev.dropRun_segs (d : Dev) (i : DescId) : (d.dropRun i).segs = d.segs := rfl
@[simp] theorem Dev.dropRun_homes (d : Dev) (i : DescId) : (d.dropRun i).homes = d.homes := rfl
@[simp] theorem Dev.dropRun_dir (d : Dev) (i : DescId) : (d.dropRun i).dir = d.dir := rfl
@[simp] theorem Dev.dropRun_caches (d : Dev) (i : DescId) : (d.dropRun i).caches = d.caches := rfl
@[simp] theorem Dev.dropRun_coh (d : Dev) (i : DescId) : (d.dropRun i).coh = d.coh := rfl
@[simp] theorem Dev.dropRun_cores (d : Dev) (i : DescId) : (d.dropRun i).cores = d.cores := rfl
@[simp] theorem Dev.dropRun_teams (d : Dev) (i : DescId) : (d.dropRun i).teams = d.teams := rfl
@[simp] theorem Dev.dropRun_cmap (d : Dev) (i : DescId) : (d.dropRun i).cmap = d.cmap := rfl
@[simp] theorem Dev.dropRun_mem (d : Dev) (i : DescId) : (d.dropRun i).mem = d.mem := rfl
@[simp] theorem Dev.dropRun_info (d : Dev) (i : DescId) : (d.dropRun i).info = d.info := rfl
@[simp] theorem Dev.dropRun_symErr (d : Dev) (i : DescId) : (d.dropRun i).symErr = d.symErr := rfl
@[simp] theorem Dev.dropRun_hostMem (d : Dev) (i : DescId) : (d.dropRun i).hostMem = d.hostMem := rfl
@[simp] theorem Dev.dropRun_ilvDram (d : Dev) (i : DescId) : (d.dropRun i).ilvDram = d.ilvDram := rfl
@[simp] theorem Dev.dropRun_ilvRes (d : Dev) (i : DescId) : (d.dropRun i).ilvRes = d.ilvRes := rfl
@[simp] theorem Dev.dropRun_msix (d : Dev) (i : DescId) : (d.dropRun i).msix = d.msix := rfl
@[simp] theorem Dev.dropRun_msixPend (d : Dev) (i : DescId) : (d.dropRun i).msixPend = d.msixPend := rfl
@[simp] theorem Dev.dropRun_tier (d : Dev) (i : DescId) : (d.dropRun i).tier = d.tier := rfl
@[simp] theorem Dev.dropRun_wq (d : Dev) (i : DescId) : (d.dropRun i).wq = d.wq := rfl
@[simp] theorem Dev.dropRun_tb (d : Dev) (i : DescId) : (d.dropRun i).tb = d.tb := rfl
@[simp] theorem Dev.dropRun_hl (d : Dev) (i : DescId) : (d.dropRun i).hl = d.hl := rfl
@[simp] theorem Dev.dropRun_tr (d : Dev) (i : DescId) : (d.dropRun i).tr = d.tr := rfl
@[simp] theorem Dev.dropRun_regq (d : Dev) (i : DescId) : (d.dropRun i).regq = d.regq := rfl
@[simp] theorem Dev.updRun_fresh (d : Dev) (i : DescId) (f : Run → Run) : (d.updRun i f).fresh = d.fresh := rfl
@[simp] theorem Dev.updRun_out (d : Dev) (i : DescId) (f : Run → Run) : (d.updRun i f).out = d.out := rfl
@[simp] theorem Dev.updRun_net (d : Dev) (i : DescId) (f : Run → Run) : (d.updRun i f).net = d.net := rfl
@[simp] theorem Dev.updRun_quarters (d : Dev) (i : DescId) (f : Run → Run) : (d.updRun i f).quarters = d.quarters := rfl
@[simp] theorem Dev.updRun_flt (d : Dev) (i : DescId) (f : Run → Run) : (d.updRun i f).flt = d.flt := rfl
@[simp] theorem Dev.updRun_rst (d : Dev) (i : DescId) (f : Run → Run) : (d.updRun i f).rst = d.rst := rfl
@[simp] theorem Dev.updRun_pins (d : Dev) (i : DescId) (f : Run → Run) : (d.updRun i f).pins = d.pins := rfl
@[simp] theorem Dev.updRun_pwr (d : Dev) (i : DescId) (f : Run → Run) : (d.updRun i f).pwr = d.pwr := rfl
@[simp] theorem Dev.updRun_mg (d : Dev) (i : DescId) (f : Run → Run) : (d.updRun i f).mg = d.mg := rfl
@[simp] theorem Dev.updRun_segs (d : Dev) (i : DescId) (f : Run → Run) : (d.updRun i f).segs = d.segs := rfl
@[simp] theorem Dev.updRun_homes (d : Dev) (i : DescId) (f : Run → Run) : (d.updRun i f).homes = d.homes := rfl
@[simp] theorem Dev.updRun_dir (d : Dev) (i : DescId) (f : Run → Run) : (d.updRun i f).dir = d.dir := rfl
@[simp] theorem Dev.updRun_caches (d : Dev) (i : DescId) (f : Run → Run) : (d.updRun i f).caches = d.caches := rfl
@[simp] theorem Dev.updRun_coh (d : Dev) (i : DescId) (f : Run → Run) : (d.updRun i f).coh = d.coh := rfl
@[simp] theorem Dev.updRun_cores (d : Dev) (i : DescId) (f : Run → Run) : (d.updRun i f).cores = d.cores := rfl
@[simp] theorem Dev.updRun_teams (d : Dev) (i : DescId) (f : Run → Run) : (d.updRun i f).teams = d.teams := rfl
@[simp] theorem Dev.updRun_cmap (d : Dev) (i : DescId) (f : Run → Run) : (d.updRun i f).cmap = d.cmap := rfl
@[simp] theorem Dev.updRun_mem (d : Dev) (i : DescId) (f : Run → Run) : (d.updRun i f).mem = d.mem := rfl
@[simp] theorem Dev.updRun_info (d : Dev) (i : DescId) (f : Run → Run) : (d.updRun i f).info = d.info := rfl
@[simp] theorem Dev.updRun_symErr (d : Dev) (i : DescId) (f : Run → Run) : (d.updRun i f).symErr = d.symErr := rfl
@[simp] theorem Dev.updRun_hostMem (d : Dev) (i : DescId) (f : Run → Run) : (d.updRun i f).hostMem = d.hostMem := rfl
@[simp] theorem Dev.updRun_ilvDram (d : Dev) (i : DescId) (f : Run → Run) : (d.updRun i f).ilvDram = d.ilvDram := rfl
@[simp] theorem Dev.updRun_ilvRes (d : Dev) (i : DescId) (f : Run → Run) : (d.updRun i f).ilvRes = d.ilvRes := rfl
@[simp] theorem Dev.updRun_msix (d : Dev) (i : DescId) (f : Run → Run) : (d.updRun i f).msix = d.msix := rfl
@[simp] theorem Dev.updRun_msixPend (d : Dev) (i : DescId) (f : Run → Run) : (d.updRun i f).msixPend = d.msixPend := rfl
@[simp] theorem Dev.updRun_tier (d : Dev) (i : DescId) (f : Run → Run) : (d.updRun i f).tier = d.tier := rfl
@[simp] theorem Dev.updRun_wq (d : Dev) (i : DescId) (f : Run → Run) : (d.updRun i f).wq = d.wq := rfl
@[simp] theorem Dev.updRun_tb (d : Dev) (i : DescId) (f : Run → Run) : (d.updRun i f).tb = d.tb := rfl
@[simp] theorem Dev.updRun_hl (d : Dev) (i : DescId) (f : Run → Run) : (d.updRun i f).hl = d.hl := rfl
@[simp] theorem Dev.updRun_tr (d : Dev) (i : DescId) (f : Run → Run) : (d.updRun i f).tr = d.tr := rfl
@[simp] theorem Dev.updRun_regq (d : Dev) (i : DescId) (f : Run → Run) : (d.updRun i f).regq = d.regq := rfl

end Sys2Proof.Machine
end

