-- ==== Sys2Proof/Laws/Issue.lean ====
section
/-! SUPPORT. What issue can do: nothing, an exception, a stall, or the instruction's effect. -/

namespace Sys2Proof.Machine

/-- Issue at a core that issues runs the effect, with the issue counted. -/
theorem Dev.issue_ready {s : State} {c : CoreId} {legal : Bool} {ss vw : List Nat} (hl : legal = true) (h : s.issues c ss vw)
    (run : Dev → Core → Dev) :
    s.dev.issue c legal ss vw run = run (s.dev.setCore c (s.dev.core c).counted) (s.dev.core c).counted := by
  subst hl
  obtain ⟨h1, h2, h3, h4, h5⟩ := h
  simp [Dev.issue, h1, h2, h4, h5, Nat.not_le.mpr h3, Dev.setCore, Core.counted]

/-- An instruction on the core's registers alone retires with its effect. -/
theorem State.issueReg_retires {s : State} {c : CoreId} {legal : Bool} {ss vw : List Nat} {g : Core → Core} {k : Core}
    (hl : legal = true) (h : s.issues c ss vw) (hk : (g (s.dev.core c).counted).next = k.retired (s.dev.core c)) :
    s.goes (s.dev.issueReg c legal ss vw g) = .next (s.retires c k) := by
  simp only [Dev.issueReg, Dev.issue_ready hl h, hk, Dev.setCore_setCore, State.goes_eq, State.retires]

/-- A core that does not run, or waits for data, takes no instruction. -/
theorem Dev.issue_idle {d : Dev} {c : Nat} {legal : Bool} {ss vw : List Nat} {run : Dev → Core → Dev}
    (h : (d.core c).status ≠ .running ∨ (d.core c).wait ≠ .none) : d.issue c legal ss vw run = d := by
  unfold Dev.issue
  exact if_pos (by simpa using h)

/-- Beyond its code a core raises FETCH. -/
theorem Dev.issue_fetch {d : Dev} {c : Nat} {legal : Bool} {ss vw : List Nat} {run : Dev → Core → Dev}
    (h1 : (d.core c).status = .running) (h2 : (d.core c).wait = .none) (h3 : (d.core c).codeSize ≤ (d.core c).pc) :
    d.issue c legal ss vw run = d.raise c 0x02 0 := by
  simp [Dev.issue, h1, h2, h3]

/-- A form that is refused raises ILLEGAL. -/
theorem Dev.issue_illegal {d : Dev} {c : Nat} {ss vw : List Nat} {run : Dev → Core → Dev}
    (h1 : (d.core c).status = .running) (h2 : (d.core c).wait = .none) (h3 : (d.core c).pc < (d.core c).codeSize) :
    d.issue c false ss vw run = d.raise c 0x01 0 := by
  simp [Dev.issue, h1, h2, Nat.not_le.mpr h3]

end Sys2Proof.Machine
end

