-- ==== Sys2Proof/Laws/Frame.lean ====
section
/-! SUPPORT. Frames: what issue, an exception and a scratch write leave alone. -/

namespace Sys2Proof.Machine

/-- A fold keeps what each of its steps keeps. -/
theorem foldl_keeps {α β γ : Type} (g : α → γ) {f : α → β → α} (l : List β) (a : α) (h : ∀ a b, g (f a b) = g a) :
    g (l.foldl f a) = g a := by
  induction l generalizing a with
  | nil => rfl
  | cons b l ih => rw [List.foldl_cons, ih, h]

/-- A scratch write changes scratch alone. -/
theorem Core.putScratch_frame (k : Core) (o : Nat) (bs : List Byte) :
    ({ k.putScratch o bs with scratch := [] } : Core) = { k with scratch := [] } := by
  induction bs generalizing k o with
  | nil => rfl
  | cons b bs ih => exact ih _ _

/-- A scratch byte after a write. -/
theorem Core.scratchByte_putScratch (k : Core) (o a : Nat) (bs : List Byte) :
    (k.putScratch o bs).scratchByte a = if o ≤ a ∧ a < o + bs.length then bs.getD (a - o) 0 else k.scratchByte a := by
  induction bs generalizing k o with
  | nil => simp [Core.putScratch]
  | cons b bs ih =>
    simp only [Core.putScratch, ih, List.length_cons]
    by_cases h : a = o
    · subst h
      rw [if_neg (by omega), if_pos (by omega)]
      simp [Core.scratchByte]
    · have hb : Core.scratchByte { k with scratch := Map.put k.scratch o b } a = k.scratchByte a :=
        Map.get_put_other _ _ _ _ _ h
      rw [hb]
      by_cases h2 : o ≤ a ∧ a < o + (bs.length + 1)
      · rw [if_pos (by omega), if_pos h2]
        obtain ⟨m, hm⟩ : ∃ m, a - o = m + 1 := ⟨a - o - 1, by omega⟩
        rw [hm, show a - (o + 1) = m by omega]; rfl
      · rw [if_neg (by omega), if_neg h2]

theorem Dev.scratchFree_besides (d : Dev) (c o n : Nat) : (d.scratchFree c o n).besides = d.besides := by
  induction n generalizing d o with
  | zero => rfl
  | succ n ih => simp only [Dev.scratchFree, Dev.freeWord]; rw [ih]; rfl

/-- Retiring epochs changes a table's epochs and the pre-images alone. -/
theorem Dev.retireEpochs_besides (d : Dev) (t : Nat) : (d.retireEpochs t).besides = d.besides := by
  unfold Dev.retireEpochs
  split <;> rfl

theorem Dev.retireEpochs_core (d : Dev) (t j : Nat) : (d.retireEpochs t).core j = d.core j := by
  unfold Dev.retireEpochs
  split <;> rfl

/-- A halt keeps what scratch, the core, the runs and retiring epochs leave alone. -/
theorem Dev.haltCore_keeps {γ : Type} (g : Dev → γ) (d : Dev) (c : Nat) (own : Bool)
    (hs : ∀ e o n, g (Dev.scratchFree e c o n) = g e) (hr : ∀ e t, g (Dev.retireEpochs e t) = g e)
    (hc : ∀ (e : Dev) k rs, g { e.setCore c k with cp := { e.cp with runs := rs } } = g e) : g (d.haltCore c own) = g d := by
  unfold Dev.haltCore
  refine (foldl_keeps g _ _ hr).trans ((hc _ _ _).trans ?_)
  exact foldl_keeps g _ d fun e x => hs e x.1 x.2

theorem Dev.haltCore_besides (d : Dev) (c : Nat) (own : Bool) : (d.haltCore c own).besides = d.besides :=
  Dev.haltCore_keeps Dev.besides d c own (fun e o n => Dev.scratchFree_besides e c o n) Dev.retireEpochs_besides fun _ _ _ => rfl

theorem Dev.teamStop_besides (d : Dev) (t st : Nat) : (d.teamStop t st).besides = d.besides := by
  unfold Dev.teamStop
  split
  · rfl
  · rename_i tm _
    exact foldl_keeps Dev.besides tm.cores d (f := fun e c =>
      if (e.core c).team = some t && ((e.core c).status = .running || (e.core c).status = .reserved) then e.haltCore c false else e)
      fun e c => by
        split
        · exact Dev.haltCore_besides e c false
        · rfl

/-- An exception changes cores and teams alone. -/
theorem Dev.raise_besides (d : Dev) (c code : Nat) (da : Word64) : (d.raise c code da).besides = d.besides := by
  unfold Dev.raise
  dsimp only
  split
  · exact Dev.haltCore_besides _ _ _
  · rename_i t _
    generalize hd : (d.setCore c _).haltCore c true = e
    have he : e.besides = d.besides := by rw [← hd]; exact Dev.haltCore_besides _ _ _
    rw [← he, ← Dev.teamStop_besides e t stKernelFault]
    generalize e.teamStop t stKernelFault = x
    split <;> (split <;> rfl)

/-- Issue changes cores and teams alone when the effect does. -/
theorem Dev.issue_besides {d : Dev} {c : Nat} {legal : Bool} {ss vw : List Nat} {run : Dev → Core → Dev}
    (h : ∀ e k, (run e k).besides = e.besides) : (d.issue c legal ss vw run).besides = d.besides := by
  unfold Dev.issue
  dsimp only
  split
  · rfl
  split
  · exact Dev.raise_besides _ _ _ _
  split
  · exact Dev.raise_besides _ _ _ _
  split
  · rfl
  · rw [h]; rfl

/-- Scratch that becomes undefined is the core's own. -/
theorem Dev.scratchFree_other (d : Dev) (c o n j : Nat) (h : j ≠ c) : (d.scratchFree c o n).core j = d.core j := by
  induction n generalizing d o with
  | zero => rfl
  | succ n ih =>
    simp only [Dev.scratchFree, Dev.freeWord]; rw [ih]
    exact Dev.core_setCore_other _ _ _ _ h

/-- A halt changes no other core. -/
theorem Dev.haltCore_other (d : Dev) (c j : Nat) (own : Bool) (h : j ≠ c) : (d.haltCore c own).core j = d.core j :=
  Dev.haltCore_keeps (fun e => e.core j) d c own (fun e o n => Dev.scratchFree_other e c o n j h)
    (fun e t => Dev.retireEpochs_core e t j) fun _ _ _ => Dev.core_setCore_other _ _ _ _ h

end Sys2Proof.Machine
end

