-- ==== Sys2Proof/Laws/Homes.lean ====
section
/-! SUPPORT. What the homes do after a message when nothing waits at them (R260, R267, R239): nothing. A command that ends with
Dev.pumpHomes is then its own effect alone. -/

namespace Sys2Proof.Machine

/-- No request of the host waits for room. -/
theorem pumpHost_quiet (d : Dev) (h : ∀ m, Msg.req m ∈ d.net → m.src ≠ hostAgent) : d.pumpHost = d := by
  have key : ∀ (l : List Msg) (e : Dev), (∀ m, Msg.req m ∈ l → m.src ≠ hostAgent) →
      l.foldl (fun (e : Dev) x => match x with
        | .req m => if m.src = hostAgent && !e.homeFull m.line then
            ((e.taken (.req m)).enqueue m).settle (e.homeOf (lineDpa m.line)) else e
        | _ => e) e = e := by
    intro l
    induction l with
    | nil => intro e _; rfl
    | cons x xs ih =>
      intro e hx
      have hxs : ∀ m, Msg.req m ∈ xs → m.src ≠ hostAgent := fun m hm => hx m (List.mem_cons_of_mem _ hm)
      cases x with
      | req m =>
        have : m.src ≠ hostAgent := hx m (List.mem_cons_self ..)
        simpa [this] using ih e hxs
      | _ => exact ih e hxs
  exact key d.net d h

/-- A quiet block is as it was. -/
theorem pumpHomes_quiet (d : Dev) (h : d.homesQuiet) : d.pumpHomes = d := by
  obtain ⟨hr, hn, hs⟩ := h
  simp [Dev.pumpHomes, pumpHost_quiet d hn, hr, Dev.pumpRows, Dev.retrySuspects, hs]

/-! ### Commands that a reference count brings (R72) -/

theorem State.timed_running (s : State) (d : Dev) (h : s.dev.refStopped = false) : s.timed d = .next { s with dev := d } := by
  simp [State.timed, State.goes, h]

theorem State.timed_stopped (s : State) (d : Dev) (h : s.dev.refStopped = true) : s.timed d = .next s := by
  simp [State.timed, State.goes, h]

end Sys2Proof.Machine
end

