-- ==== Sys2Proof/Tests/Slice0.lean ====
section
/-! SUPPORT. Tests: well-formedness refuses what it should, results the spec states for fixed operands, and for every statement a
state and operands that meet its hypotheses. -/

open Sys2Proof Sys2Proof.Machine

namespace Sys2Proof.Tests

set_option Elab.async false

/-! ### States -/

/-- A block past its start, with both tiers ready and the host link up. -/
def dev0 : Dev := { Dev.reset with
  rst := { Resets.reset with held := [], startStep := 11 }
  pins := { Pins.reset with driven := true, bkGood := true, ready := false }
  tier := { Tier.reset with hdm0 := true, hdm1 := true }
  hl := { HLink.reset with state := 2 } }

/-- A segment over the first GiB of DRAM with every right. -/
def seg0 : SegRec := { SegRec.reset with
  limit := 2 ^ 30 - 1, valid := true, read := true, write := true, exec := true, atomic := true, update := true }

/-- A running core with code and that segment. -/
def core0 : Core := { Core.reset with status := .running, codeSize := 4096, segs := [(0, seg0)] }

/-- The block with core 0 in a state. -/
def at0 (k : Core) : State := { pending := [], dev := dev0.setCore 0 k }
def st0 : State := at0 core0

def fld (d a b c : BitVec 6) : Fields := { p := 0, d := d, a := a, b := b, c := c, fmt := 0, mod := 0, imm := false }
def fldF (fmt : BitVec 4) (d a b c : BitVec 6) : Fields := { fld d a b c with fmt := fmt }

theorem issues_of {s : State} {c : CoreId} {ss vw : List Nat}
    (h : decide ((s.dev.core c).status = .running ∧ (s.dev.core c).wait = .none ∧ (s.dev.core c).pc < (s.dev.core c).codeSize ∧
      (s.dev.core c).stallS ss = false ∧ (s.dev.core c).stallV vw = false) = true) : s.issues c ss vw := by
  have := of_decide_eq_true h
  exact this

theorem ok_of {ε α : Type} (x : Except ε α) (h : x.isOk = true) : ∃ a, x = .ok a := by
  cases x with
  | ok a => exact ⟨a, rfl⟩
  | error e => cases h

/-! ### Witnesses: cores -/

theorem wit_ScalarInteger : Fields.legalAlu (fld 31 31 31 0) = true ∧ Fields.legalAlu { fld 31 31 0 0 with imm := true, mod := 0x80000 } = true ∧
    Fields.legalUnary (fld 31 0 0 0) = true ∧ (fld 31 0 0 0).legalL 32 = true ∧ (fld 15 15 31 0).legalR 16 16 32 0 false [] 0 = true ∧
    (fld 15 15 63 63).legalI 16 16 false = true ∧ (fld 15 31 0 0).legalR 16 32 0 0 false [] 0 = true ∧
    (fld 31 15 0 0).legalR 32 16 0 0 false [] 0 = true ∧ (fld 15 31 0 0).legalRI false 16 32 = true ∧ st0.issues 0 [31, 15] [] :=
  ⟨by decide, by decide, by decide, by decide, by decide, by decide, by decide, by decide, by decide, issues_of (by decide)⟩

theorem wit_ScalarFloatAndPredicates : (fld 31 31 31 0).legalR 32 32 32 0 false [] 0 = true ∧
    (fld 0 31 0 0).legalR 32 32 0 0 false [] 0 = true ∧ { fld 0 31 0 0 with mod := 1 }.legalR 32 32 0 0 false [] 1 = true ∧
    (fld 0 0 31 31).legalR 32 32 32 32 false [] 0 = true ∧ (fld 7 7 7 0).legalR 8 8 8 0 false [] 0 = true ∧
    (fld 0 7 0 0).legalR 8 8 0 0 false [] 0 = true ∧ (fld 0 31 0 0).legalR 8 32 0 0 false [] 0 = true ∧
    (fld 31 0 0 0).legalR 32 8 0 0 false [] 0 = true ∧ st0.issues 0 [31] [] :=
  ⟨by decide, by decide, by decide, by decide, by decide, by decide, by decide, by decide, issues_of (by decide)⟩

theorem wit_LaneWrites : Fields.w (fldF 0 0 0 0 0) ∈ [1, 4, 8, 16, 32, 64] := by decide

theorem wit_VectorArithmetic : (fldF 14 31 31 31 0).legalR 32 32 32 0 true intFmts 1 = true ∧
    (fldF 14 31 31 0 0).legalR 32 32 0 0 true intFmts 0 = true ∧ (fldF 0 31 31 31 0).legalR 32 32 32 0 true fpFmts 1 = true ∧
    (fldF 2 31 31 0 0).legalR 32 32 0 0 true fpFmts 0 = true ∧ (fldF 1 31 31 31 31).legalR 32 32 32 32 true fpFmts 1 = true ∧
    st0.issues 0 [31] [31] :=
  ⟨by decide, by decide, by decide, by decide, by decide, issues_of (by decide)⟩

theorem wit_VectorDataAndCompare : (fldF 14 7 31 31 0).legalR 8 32 32 0 true intFmts 1 = true ∧
    (fldF 0 7 31 31 0).legalR 8 32 32 0 true fpFmts 1 = true ∧ (fldF 0 31 31 0 0).legalR 32 32 0 0 true laneFmts 0 = true ∧
    (fldF 14 31 31 31 0).legalR 32 32 32 0 true laneFmts 0 = true ∧
    ({ fldF 0 31 31 0 0 with mod := 0x301 }.legalR 32 32 0 0 true cvtFmts 0x33F = true ∧ cvtOk 1 0 1 = true ∧ fmtWidth 1 ≤ Fields.w (fldF 0 0 0 0 0)) ∧
    (cvtOk 0 1 1 = true ∧ Fields.w (fldF 1 0 0 0 0) < fmtWidth 0) ∧
    ({ fldF 5 0 30 0 31 with mod := 0x100 }.legalR 32 32 0 32 true [5, 6, 8] 0xFF00 = true ∧ (1 + 1) * 32 * Fields.w (fldF 5 0 0 0 0) ≤ 512) ∧
    { fldF 8 30 0 31 0 with mod := 0x300 }.legalR 32 32 32 0 true [5, 6, 8] 0xFF00 = true ∧ st0.issues 0 [31] [31, 30, 0] :=
  ⟨by decide, by decide, by decide, by decide, by decide, by decide, by decide, by decide, issues_of (by decide)⟩

def team0 : Team := { desc := { queue := 0, index := 0 }, cores := [0, 1], ctx := 0, barrier := 0x40, dump := 0, stop := 0 }
def stTeam : State := { pending := [], dev := { (dev0.setCore 0 { core0 with team := some 5 }).setCore 1 { core0 with team := some 5 } with
  teams := [(5, team0)] } }

theorem wit_DrainWaitAndEnd : (fld 0 0 0 0).legalR 0 0 0 0 false [] 0 = true ∧ (fld 0 31 0 0).legalR 0 32 0 0 false [] 0 = true ∧
    stTeam.issues 0 [31] [] ∧ (stTeam.dev.core 0).sb = [] ∧ stTeam.dev.writesSettled 0 = true ∧ (stTeam.dev.core 0).movQ = [] ∧
    (stTeam.dev.core 0).failDa = none ∧ (stTeam.dev.core 0).movPoison = none ∧ (stTeam.dev.core 0).team = some 5 ∧
    stTeam.dev.team 5 = some team0 ∧ 1 ∈ team0.cores ∧ (stTeam.dev.core 1).finished = false :=
  ⟨by decide, by decide, issues_of (by decide), rfl, rfl, rfl, rfl, rfl, rfl, rfl, by decide, rfl⟩

theorem wit_ControlTransfers : (fld 0 63 63 63).legalL 0 = true ∧ (fld 31 0 0 0).legalL 32 = true ∧ (fld 0 31 63 0).legalI 0 32 false = true ∧
    (fld 0 7 63 0).legalI 0 8 false = true ∧ (fld 31 0 0 0).legalR 32 0 0 0 false [] 0 = true ∧ ((fld 0 0 0 0).legalRI false 0 0 && (fld 0 0 0 0).mod = 0) = true ∧
    stTeam.issues 0 [31] [] ∧ ((stTeam.dev.core 0).sr 31).toNat + 8 ≤ (stTeam.dev.core 0).scratchSize ∧ team0.barrier ≠ 0 ∧
    ((stTeam.dev.core 0).segOf team0.barrier).translate team0.barrier 8 .atomic = .ok 0x40 ∧ isDram 0x40 = true ∧
    ((stTeam.dev.core 0).segOf team0.barrier).target ≠ 3 ∧ ((stTeam.dev.core 0).segOf team0.barrier).typeAt 0x40 = .normal ∧
    (stTeam.dev.core 0).isRevoked team0.barrier = false ∧ (stTeam.dev.core 0).movQ.any (·.dump) = false :=
  ⟨by decide, by decide, by decide, by decide, by decide, by decide, issues_of (by decide), by decide, by decide, rfl, rfl, by decide, by decide, rfl, rfl⟩

theorem wit_ExceptionIsPrecise : (stTeam.dev.core 0).team = some 5 ∧ stTeam.dev.team 5 = some team0 ∧ 1 ∈ team0.cores ∧
    (stTeam.dev.core 1).team = some 5 ∧ (stTeam.dev.core 1).status = .running ∧ (2 : Nat) ≠ 0 ∧ (stTeam.dev.core 2).team ≠ (stTeam.dev.core 0).team :=
  ⟨rfl, rfl, by decide, rfl, rfl, by decide, by decide⟩

theorem wit_RegisterInstructions : (dev0.core 0).status ≠ .running ∧ core0.status = .running ∧ core0.wait = .none ∧
    ({ core0 with pc := 4096 } : Core).codeSize ≤ ({ core0 with pc := 4096 } : Core).pc ∧ core0.team = none :=
  ⟨by decide, rfl, rfl, by decide, rfl⟩


/-! ### Witnesses: memory of a core and its units -/

/-- Line 0, sector 1 in E in the L1 of core 0. -/
def line1 : CLine := { line := 0, sec := [(1, { st := .E, data := 7, info := .zero, err := 0 })] }
def l1On (ways : Map CLine) : Map Cache := [(256, { Cache.reset 0 true with enable := true, pfEn := false, invDone := true, ways := ways })]
def coreBuf : Core := { core0 with sb := [{ sector := 1, mask := BitVec.allOnes 64, data := 5, rt := .normal, da := 0x40, seg := 0, gen := 0,
                                            sent := false, out := false }] }
def stHit : State := { pending := [], dev := { dev0.setCore 0 core0 with caches := l1On [(0, line1)] } }
def stMiss : State := { pending := [], dev := { dev0.setCore 0 core0 with caches := l1On [] } }
def ld40 : Fields := { fld 31 0 0 0 with mod := 0x40 }
def spot40 : Spot := { da := 0x40, dpa := 0x40, rt := .normal }

theorem wit_Loads : ld40.legalI 32 16 false = true ∧ ld40.legalI 32 16 true = true ∧ core0.ar 0 + wordInt ld40.imm36 = 0x40 ∧
    core0.access 0x40 8 .read = .ok spot40 ∧ core0.access 0x40 64 .read = .ok spot40 ∧
    core0.isRevoked 0x40 = false ∧ (core0.sb.any fun e => e.rt = .device) = false ∧
    -- the bytes buffered
    ((at0 coreBuf).issues 0 [31] [31] ∧ coreBuf.access 0x40 8 .read = .ok spot40 ∧ (coreBuf.sb.any fun e => e.rt = .device) = false ∧
      byteMask 0 8 &&& ~~~(coreBuf.buffered 1) = 0 ∧ coreBuf.buffered 1 = BitVec.allOnes 64) ∧
    -- a hit
    (stHit.issues 0 [31] [31] ∧ byteMask 0 8 &&& ~~~(core0.buffered 1) ≠ 0 ∧ stHit.dev.serves 256 = true ∧ core0.pfHas 0 = false ∧
      core0.miss = none ∧ (stHit.dev.waySec 256 0 1).st ≠ .I ∧ (stHit.dev.cacheSec 256 0 1).st ≠ .I ∧
      (stHit.dev.cacheSec 256 0 1).err = 0 ∧ (stHit.dev.cacheSec 256 0 1).info.poison = false) ∧
    -- a miss
    (stMiss.issues 0 [31] [] ∧ stMiss.dev.serves 256 = true ∧ (stMiss.dev.cacheSec 256 0 1).st = .I ∧ stMiss.dev.l1Full 0 0 = false ∧
      (stMiss.dev.cache 256).pfEn = false) :=
  ⟨by decide, by decide, by decide, by decide, by decide, rfl, rfl,
    ⟨issues_of (by decide), by decide, rfl, by decide, by decide⟩,
    ⟨issues_of (by decide), by decide, by decide, rfl, rfl, by decide, by decide, by decide, by decide⟩,
    ⟨issues_of (by decide), by decide, by decide, by decide, rfl⟩⟩

theorem wit_StoresAndScratch : ld40.legalI 32 16 false = true ∧ (fld 0 0 0 0).legalI 32 32 true = true ∧ st0.issues 0 [31, 0] [31, 0] ∧
    core0.access 0x40 8 .write = .ok spot40 ∧ core0.access 0x40 64 .write = .ok spot40 ∧
    (core0.storeIn spot40 (byteMask 0 8) 0).sb.length ≤ 16 ∧ (core0.sr 0 + wordInt (fld 0 0 0 0).imm36).toNat + 64 ≤ core0.scratchSize ∧
    -- the last sector of scratch
    (({ core0 with s := [(1, 491456)] } : Core).sr 1).toNat + 64 ≤ core0.scratchSize :=
  ⟨by decide, by decide, issues_of (by decide), by decide, by decide, by decide, by decide, by decide⟩

theorem wit_AccessExceptions : ld40.legalI 32 16 false = true ∧ st0.issues 0 [31] [] ∧ core0.access 0x41 8 .read = .error 0x03 ∧
    core0.access 0x40000000 8 .read = .error 0x04 ∧ core0.access 0x3FFFFFF8 8 .write = .ok { spot40 with da := 0x3FFFFFF8, dpa := 0x3FFFFFF8 } ∧
    ({ core0 with segs := [(0, { seg0 with write := false })] } : Core).access 0x40 8 .write = .error 0x05 ∧
    ({ core0 with segs := [(0, { seg0 with target := 3 })] } : Core).access 0x40 8 .read = .error 0x06 :=
  ⟨by decide, issues_of (by decide), by decide, by decide, by decide, by decide, by decide⟩

def queued (op : UnitOp) : Queued := { op := op, f := fld 1 0 0 0, x := 0, y := 64, z := 0 }

theorem wit_TileUnit : Fields.legalTile (fldF 3 3 15 15 0) false = true ∧ Fields.legalTile (fldF 11 3 15 15 0) true = true ∧ st0.issues 0 [1, 2, 31] [] ∧
    core0.tileFree (some 3) ∧ core0.tileFree none ∧ core0.exact = false ∧ ({ core0 with exact := true } : Core).tileFree (some 1) ∧
    (fld 15 31 0 0).legalR 16 32 0 0 false [] 0 = true ∧ (fld 3 0 0 0).legalR 4 0 0 0 false [] 0 = true ∧
    (fldF 14 0 3 31 31).legalR 0 4 32 32 false [0, 1, 2, 3, 4, 5, 6, 7, 8, 9, 10, 11, 12, 13, 14] 0x10 = true ∧
    (fld 3 31 31 0).legalR 4 32 32 0 false [] 0 = true ∧ (fld 0 3 31 0).legalR 0 4 32 0 false [] 0 = true ∧
    (fld 3 31 0 0).legalR 4 32 0 0 false [] 0 = true ∧ { fld 0 0 0 0 with mod := 0x1FF }.legalRI false 0 0 = true ∧
    core0.rowsExc 0 64 (accRowBytes 0) (accScaleBytes 0) = none ∧ core0.rowsExc 0 256 256 0 = none ∧ 0 + 65536 ≤ core0.scratchSize ∧
    ((core0.tileQ ++ core0.topQ).any fun x => !x.accUse.isEmpty) = false ∧
    ({ core0 with tileQ := [queued .acczero] } : Core).tileQ = queued .acczero :: [] ∧ (st0.dev.qr 0).restart.contains 0 = false ∧
    (∀ e, e < 4096 → Exact.imageL (BitVec.ofNat 128 (({ core0 with accL := 0 } : Core).scratchNat (0 + 16 * e) 16)) =
      ({ core0 with accL := 0 } : Core).accL) ∧ accRowBytes 3 ≤ (queued .accst).y.toNat :=
  ⟨by decide, by decide, issues_of (by decide), ⟨by decide, by intro n h; cases h; exact ⟨by intro; contradiction, rfl⟩⟩, ⟨by decide, by intro n h; cases h⟩,
    rfl, ⟨by decide, by intro n h; cases h; exact ⟨by decide, rfl⟩⟩, by decide, by decide, by decide, by decide, by decide, by decide, by decide,
    by decide, by decide, by decide, rfl, rfl, rfl, by intro e _; simp [core0, Core.reset, Core.scratchNat, Core.scratchBytes, Core.scratchByte, Map.get, leNat]; decide, by decide⟩

theorem wit_TopkUnit : { fld 0 31 31 0 with mod := 5 }.legalR 0 32 32 0 false [] 7 = true ∧ (5 : Nat) / 2 % 4 ≠ 3 ∧ st0.issues 0 [1, 2, 3, 31] [] ∧
    core0.topFree ∧ (fld 0 3 31 31).legalR 0 4 32 32 false [] 0 = true ∧ (core0.tileQ.any fun x => x.accWrite.contains 3) = false ∧
    (fld 0 31 31 31).legalR 0 32 32 32 false [] 0 = true ∧ (fld 31 31 31 0).legalR 32 32 32 0 false [] 0 = true ∧
    0 + 16 * core0.tkKAhead ≤ core0.scratchSize ∧ (1 : Nat) ≤ (1024 : Word64).toNat ∧ (1024 : Word64).toNat * (1 : Word64).toNat ≤ 1024 ∧
    ({ core0 with topQ := [queued .tkpush] } : Core).topQ = queued .tkpush :: [] ∧ (queued .tkpush).x.toNat < 64 ∧
    (queued .tkpushs).z.toNat < core0.tkL ∧ ({ queued .tkout with y := 0 } : Queued).y.toNat < core0.tkL ∧
    ({ Core.reset with topQ := [queued .tkpush] } : Core).status ≠ .running :=
  ⟨by decide, by decide, issues_of (by decide), (by decide : (0 : Nat) < 2), by decide, rfl, by decide, by decide, by decide, by decide, by decide, rfl, by decide, by decide, by decide, by decide⟩

def coreMov : Core := { core0 with s := [(1, 491456), (2, 64)], a := [(0, 0x3FFFFFC0)] }

theorem wit_MoverTransfers : (fld 0 0 1 2).legalR 0 16 32 32 false [] 0 = true ∧ (at0 coreMov).issues 0 [1, 2] [] ∧ coreMov.sr 2 = 64 ∧
    (coreMov.ar 0).toNat % 64 = 0 ∧ (coreMov.sr 1).toNat + 64 ≤ coreMov.scratchSize ∧ coreMov.movQ = [] ∧ coreMov.isRevoked (coreMov.ar 0) = false ∧
    (coreMov.segOf (coreMov.ar 0)).target ≤ 2 ∧ (coreMov.segOf (coreMov.ar 0)).dpa (daOff (coreMov.ar 0)) = 0x3FFFFFC0 ∧
    (coreMov.segOf (coreMov.ar 0)).translate (coreMov.ar 0) 64 .read = .ok 0x3FFFFFC0 ∧
    (coreMov.segOf (coreMov.ar 0)).translate (coreMov.ar 0) 64 .write = .ok 0x3FFFFFC0 :=
  ⟨by decide, issues_of (by decide), by decide, by decide, by decide, rfl, rfl, by decide, by decide, by rfl, by rfl⟩

def rspAt (kind : RspKind) : RspMsg :=
  { kind := kind, dst := 0, line := 0, sec := 1, txid := 0, st := .E, data := 9, info := .zero, old := 3, status := .tagMismatch, origin := .load }

theorem wit_AtomicsComplete : { fld 31 0 31 31 with mod := 0x12 }.legalR 32 16 32 32 false [] 0x1F = true ∧
    amoOp { fld 31 0 31 31 with mod := 0x12 } = some .cas ∧ { fld 31 0 31 0 with mod := 0x19 }.legalR 32 16 32 32 false [] 0x1F = true ∧
    amoOp { fld 31 0 31 0 with mod := 0x19 } = some .umax ∧ (fld 31 0 31 0).c = 0 ∧ st0.issues 0 [31, 0] [] ∧ st0.issues 0 [31] [] ∧ core0.access (core0.ar 0) 4 .atomic = .ok { da := 0, dpa := 0, rt := .normal } ∧
    core0.access (core0.ar 0) 8 .atomic = .ok { da := 0, dpa := 0, rt := .normal } ∧ core0.sb = [] ∧ core0.failDa = none ∧ isReg 0 = false ∧
    core0.isRevoked (core0.ar 0) = false ∧
    ((at0 { core0 with wait := .amo 1 true 0 }).dev.core 0).wait = .amo 1 true 0 ∧ isCore 0 = true ∧ (at0 core0).dev.partHeld 0 = false :=
  ⟨by decide, by decide, by decide, by decide, rfl, issues_of (by decide), issues_of (by decide), by decide, by decide, rfl, rfl, rfl, rfl, rfl,
    rfl, rfl⟩


/-! ### A table, descriptors -/

/-- A DIRECT table 3 of context 1: 1,024 rows of 16 BF16 elements in DRAM. -/
def tableW : List Word64 :=
  [packBits [(52, 12, 3), (40, 12, 1), (31, 1, 1), (26, 4, 1), (16, 10, 15)], 1024, 0, 1024, 0, 0, 0, 0]
def table3 : Table := mkTable tableW 0 none
def devT : Dev := { dev0 with
  segs := { Segs.reset with recs := [(0, seg0), (8, seg0)] }
  tb := { Tables.reset with store := [(3, some table3)] } }
/-- A GATHER of one bag without an index. -/
def gatherW : List Word64 := [packBits [(60, 4, tyGather)], 0x1000, 0, 0, 0x2000, packBits [(52, 12, 3), (49, 3, 1)], 1, 0]
def coreG : Core := { (core0.putScratch 0 (wordBytes gatherW)) with ctx := 1, s := [(1, 64), (2, 491488)] }
def stG : State := { pending := [], dev := devT.setCore 0 coreG }

theorem wit_GsubStarts : (fld 0 0 1 2).legalR 0 32 32 32 false [] 0 = true ∧ stG.issues 0 [0, 1, 2] [] ∧ coreG.gsubs = [] ∧
    0 + 64 ≤ coreG.scratchSize ∧ 491488 + 32 ≤ coreG.scratchSize ∧
    (let d := stG.dev.setCore 0 coreG.counted; let w := gsubWords (bytesWords 8 (coreG.scratchBytes 0 64)) 0
     64 + d.gsubLen w 1 ≤ coreG.scratchSize ∧
      (match gsubCheck w 1 d with
        | .ok (.ok _, d1) => decide ((d1.core 0).gsubs = [] ∧ d1.run { queue := gsubQueue 0, index := 0 } = none)
        | _ => false) = true) ∧ coreG.cls ≠ 2 :=
  ⟨by decide, issues_of (by decide), rfl, by decide, by decide, by decide +kernel, by decide⟩

/-! ### Witnesses: margins -/

def qAt (x : Quarter) : Dev := dev0.setQ 0 x
def qEm : Quarter := { Quarter.reset with emGroups := [3] }

def qPlan : Quarter := { Quarter.reset with planned := true, planMargin := [(0, 1150)] }

theorem wit_Canaries : dev0.refStopped = false ∧ dev0.gatedNow = false ∧ dev0.quarterInReset 0 = false ∧ dev0.pwr.state = 0 ∧ (dev0.qr 0).emGroups = [] ∧ (dev0.qr 0).wait = .none ∧
    -- with a plan and a margin below the alert level, and without
    ((qAt qPlan).qr 0).planned = true ∧ ((qAt qPlan).qr 0).planMargin ≠ [] ∧ ((qAt qPlan).qr 0).wait = .none ∧
    (List.replicate 64 1079).getD 63 0 < ((qAt qPlan).qr 0).sett.alert ∧
    (dev0.qr 0).planned ≠ true ∧ dev0.gated 15 = false ∧ (3 : Nat) ∈ ((qAt qEm).qr 0).emGroups ∧ ((qAt qEm).qr 0).emRestored = false :=
  ⟨rfl, rfl, rfl, rfl, rfl, rfl, rfl, by decide, rfl, by decide, by decide, by decide, by decide, rfl⟩

theorem wit_EmergencyCourse : dev0.refStopped = false ∧ dev0.gatedNow = false ∧
    (dev0.setQ 3 { Quarter.reset with refLost := true }).refStopped = true ∧ ((qAt qEm).qr 0).emGroups ≠ [] ∧ ((qAt qEm).qr 0).emRestored = false ∧ (dev0.qr 0).emGroups = [] ∧
    (({ qEm with emRestored := true, gateDiv := 4 } : Quarter).emRestored = true ∧ 2 < ({ qEm with gateDiv := 4 } : Quarter).gateDiv) ∧
    ({ qEm with gateDiv := 2 } : Quarter).gateDiv = 2 ∧ dev0.quarterInReset 0 = false ∧ dev0.pwr.state = 0 ∧ (dev0.qr 0).wait = .none :=
  ⟨rfl, rfl, rfl, by decide, rfl, rfl, ⟨rfl, by decide⟩, rfl, rfl, rfl, rfl⟩

theorem wit_SupplyAgeingClock : dev0.refStopped = false ∧
    (let x := (qAt { Quarter.reset with wait := .walk 750 }).qr 0
     x.wait = .walk 750 ∧ x.noChange = false ∧ x.emGroups = [] ∧ x.vreq ≤ 740 + 10 ∧ 760 ≤ x.vreq + 10 ∧ x.vreq = 750 ∧ x.vreq + 5 ≤ 755 ∧
       745 + 5 ≤ x.vreq) ∧ ((qAt { Quarter.reset with wait := .up }).qr 0).wait = .up ∧ ((qAt { Quarter.reset with wait := .up }).qr 0).vreq ≤ 740 + 10 ∧
    739 + 10 < ((qAt { Quarter.reset with wait := .up }).qr 0).vreq ∧ ((qAt Quarter.reset).qr 0).vreq + 10 < 761 ∧
    ((qAt Quarter.reset).qr 0).retried = false ∧ ({ dev0.pins with vreqDriven := true } : Pins).vreqDriven = true ∧
    -- the limiter's bounds: 98 % and 95 % of 350 W in tenths
    98 * (10 * dev0.powerLimit) ≤ 100 * 3430 ∧ 100 * 3429 < 98 * (10 * dev0.powerLimit) ∧ 95 * (10 * dev0.powerLimit) ≤ 100 * 3325 ∧
    100 * 3324 < 95 * (10 * dev0.powerLimit) ∧ 900 ≤ ({ Quarter.reset with ageing := 900 } : Quarter).ageing ∧ (dev0.qr 0).ageing < 900 ∧
    (dev0.qr 0).refLost = false ∧ ({ dev0.pins with throttle := true } : Pins).throttle = true ∧ (∀ p ∈ dev0.cores, p.2.tileQ = []) ∧
    (let m : Sensors := { quarters := List.replicate 4 (1, 2, 3, 4, 5, 6), stackT := [], dieT := [], vbk := 3000 }
     m.stackT = [] ∧ m.dieT = [] ∧ m.quarters.length = 4 ∧ m.quarters[3]? = some (1, 2, 3, 4, 5, 6)) :=
  ⟨rfl, ⟨rfl, rfl, rfl, by decide, by decide, rfl, by decide, by decide⟩, rfl, by decide, by decide, by decide, rfl, rfl, by decide, by decide, by decide, by decide, by decide, by decide, rfl, rfl,
    (by intro p h; cases h), rfl, rfl, rfl, rfl⟩


/-! ### Witnesses: tables, updates, kernels -/

/-- What an engine's part answers where it goes on. -/
def okIs {ε α : Type} (x : Except Blocked (Except ε α × Dev)) (p : α → Dev → Bool) : Bool :=
  match x with
  | .ok (.ok a, d) => p a d
  | _ => false
/-- A write that goes through. -/
def wrIs (x : Except Blocked (Option ErrStatus × Dev)) (p : Dev → Bool) : Bool :=
  match x with
  | .ok (none, d) => p d
  | _ => false

def id0 : DescId := { queue := 0, index := 0 }
/-- A descriptor in execution, with the segments noted. -/
def runOf (w : List Word64) : Run :=
  { mkRun id0 w 1 0 0 { notes := { segs := [(8, seg0)], gens := [] }, param := [], epoch := 0, x := 0 } with stage := .running }
/-- A block that runs one descriptor. -/
def dRun (d : Dev) (r : Run) : Dev := { d with cp := { d.cp with runs := [r] } }
def sRun (d : Dev) (r : Run) : State := { pending := [], dev := dRun d r }
/-- A block whose memory holds a sector's words. -/
def dMem (d : Dev) (sector : Nat) (ws : List Word64) : Dev := d.putSec sector (Sector.ofBytes (wordBytes ws)) .zero
def maintW (op : Nat) (q2 q3 : Word64) : List Word64 := [packBits [(60, 4, tyMaint)], packBits [(56, 8, op)], q2, q3, 0, 0, 0, 0]
def tab3 (k n : Nat) : Word64 := packBits [(52, 12, 3), (0, k, n)]
/-- table3 with two shards, a row map and a Carafe. -/
def tableS : List Word64 :=
  [packBits [(52, 12, 3), (40, 12, 1), (33, 1, 1), (26, 4, 1), (16, 10, 15), (0, 16, 1)], 1024, 0, 1024, 0x10000, 0x20000, 0x30000,
    packBits [(53, 5, 10)]]
def devS : Dev := { dMem devT (0x20000 / 64) [0, 8 * 2 ^ 24] with tb := { Tables.reset with store := [(3, some (mkTable tableS 0 none))] } }
def guest0 : Guest := { table := 3, entry := 0, da := 0x40000, seg := seg0, gen := 0 }

theorem wit_TableMaintenance :
    -- a definition: refused by its form, and taken
    (let s := sRun (dMem devT 64 tableW) (runOf (maintW 1 0x1000 0))
     s.serving id0 (runOf (maintW 1 0x1000 0)) tyMaint (some 1) ∧
     okIs (readDa ((runOf (maintW 1 0x1000 0)).segsBy mgmtAgent 1 []) 0x1000 0 64 (s.dev.begun id0)) (fun x _ =>
       !x.2.1 && decide ((s.dev.begun id0).tableForm (bytesWords 8 x.1) 1 false = stTableBusy)) = true) ∧
    (let s := sRun (dMem { devT with tb := Tables.reset } 64 tableW) (runOf (maintW 1 0x1000 0))
     okIs (readDa ((runOf (maintW 1 0x1000 0)).segsBy mgmtAgent 1 []) 0x1000 0 64 (s.dev.begun id0)) (fun x _ =>
       let w := bytesWords 8 x.1
       !x.2.1 && decide ((s.dev.begun id0).tableForm w 1 false = stOk ∧
         (∀ k ∈ tableSegs w, ((s.dev.begun id0).seg (tbCtx w) k).valid = true ∧ ((s.dev.begun id0).seg (tbCtx w) k).read = true ∧
           tbOpt w = 0) ∧ tbShards w = 1 ∧ tbSketch w = false)) = true) ∧
    -- a retirement, of a table in no other descriptor's use and of one in use
    (let r := runOf (maintW 2 (tab3 0 0) 0)
     (sRun devT r).serving id0 r tyMaint (some 2) ∧ ((dRun devT r).begun id0).tableInExec 3 = 1 ∧
     ({ dRun devT r with cp := { devT.cp with runs := [r, { r with id := { id0 with index := 1 } }] } } : Dev).tableInExec 3 ≠ 1) ∧
    -- a Carafe list at its end, and before it
    (let r := runOf (maintW 3 0x1000 (tab3 32 0))
     (sRun devS r).serving id0 r tyMaint (some 3) ∧ qBits r.w 3 0 32 ≤ r.pos) ∧
    (let r := runOf (maintW 3 0x1000 (tab3 32 1)); let e := (dRun (dMem devS (0x10000 / 64) [2 ^ 63]) r).begun id0
     (sRun devS r).serving id0 r tyMaint (some 3) ∧ r.pos < qBits r.w 3 0 32 ∧ (e.table 3).isSome = true ∧
     okIs (readDa (r.segsBy mgmtAgent 1 []) 0x1000 0 16 e) (fun x d2 =>
       decide (field (leAt x.1 0 8) 40 23 = 0 ∧ field (leAt x.1 8 8) 43 21 = 0) &&
       okIs (carafeOp (r.segsBy mgmtAgent 1 []) 3 tableS false 0 0 d2) (fun k _ => k = ccInstalled)) = true) ∧
    (let r := runOf (maintW 4 (tab3 0 0) 0); (sRun devT r).serving id0 r tyMaint (some 4)) ∧
    -- the peers of a table
    (let r := runOf (maintW 5 0x1000 (tab3 9 1)); let e := (dRun devT r).begun id0
     (sRun devT r).serving id0 r tyMaint (some 5) ∧ e.table 3 = some table3 ∧
     okIs (readDa (r.segsBy mgmtAgent 1 []) 0x1000 0 2 e) (fun x d2 => let d3 := (d2.updTable 3 fun z => { z with peers := [0] }).endRun id0 stOk
       !x.2.1 && (d3.table 3).isSome && okIs (owners (fun j => e.liveAcc mgmtAgent 1 j []) table3.w d3.devId d3) (fun os _ => os = [e.devId])) = true) ∧
    -- a guest entry attached and detached
    (let r := runOf (maintW 6 0x40000 (tab3 16 0)); let e := (dRun devS r).begun id0
     (sRun devS r).serving id0 r tyMaint (some 6) ∧ 0 < tbShards tableS ∧ tbDirect tableS = false ∧ tbShards tableS ≠ 1 ∧
     e.tb.guests.length < 1024 ∧ (e.seg 1 0).target = 0 ∧
     okIs (shardSpan (fun j => e.liveAcc mgmtAgent 1 j []) tableS 0 e) (fun x _ =>
       decide (x = (0, 8)) && (e.xlates 1 [(0x40000, 8 * 8, .read), (0x40000, 8 * 8, .update)] .none).isOk) = true) ∧
    (let r := runOf (maintW 7 0 (tab3 16 0)); let e := (dRun { devS with tb := { devS.tb with guests := [guest0] } } r).begun id0
     (sRun devS r).serving id0 r tyMaint (some 7) ∧ (e.tb.guests.find? fun y => y.table = 3 && y.entry = 0) = some guest0 ∧
     okIs (shardSpan (fun j => e.liveAcc mgmtAgent 1 j []) tableS 0 e) (fun x d2 => decide (x = (0, 8)) &&
       okIs (liveGuest (e.liveAcc mgmtAgent 1 0 []) 0x40000 0 8 d2) (fun live _ => !live)) = true) :=
  ⟨⟨⟨rfl, rfl, rfl⟩, by decide +kernel⟩, by decide +kernel, ⟨⟨rfl, rfl, rfl⟩, by decide, by decide⟩, ⟨⟨rfl, rfl, rfl⟩, by decide⟩,
    ⟨⟨rfl, rfl, rfl⟩, by decide, by decide, by decide +kernel⟩, ⟨rfl, rfl, rfl⟩, ⟨⟨rfl, rfl, rfl⟩, rfl, by decide +kernel⟩,
    ⟨⟨rfl, rfl, rfl⟩, by decide, by decide, by decide, by decide, by decide, by decide +kernel⟩,
    ⟨⟨rfl, rfl, rfl⟩, by decide +kernel, by decide +kernel⟩⟩


def probeW (op : Nat) : List Word64 := [packBits [(60, 4, tyProbe)], packBits [(56, 8, op)], 0x2000, 0x1000, packBits [(52, 12, 3), (0, 32, 1)], 0, 0, 0]

theorem wit_TableProbesAndLoads :
    (let d := { devT with tb := { devT.tb with localLoad := [(5 * 2 ^ 28 + 3, 7)] } }
     d.tb.localLoad.filter (fun p => decide (p.1 / 2 ^ 28 = 5 ∧ p.1 % 2 ^ 28 = 3)) = [(5 * 2 ^ 28 + 3, 7)]) ∧
    (let r := runOf (probeW 1); let e := (dRun devT r).begun id0
     (sRun devT r).serving id0 r tyProbe (some 1) ∧ (e.table 3).isSome = true ∧
     wrIs (engWriteBytes (r.segsBy mgmtAgent 1 [] 0) 0x2000 (wordBytes [0]) false 0 0 ((List.range 64).foldl (fun (y : Dev) g => y.flushLoad g) e))
       (fun d2 => decide (d2.regq = [] ∧ d2.run id0 = e.run id0)) = true) ∧
    (let r := runOf (probeW 2); let e := (dRun devT r).begun id0
     (sRun devT r).serving id0 r tyProbe (some 2) ∧
     okIs (readDa (r.segsBy mgmtAgent 1 []) 0x1000 0 8 e) (fun x d1 => !x.2.1 && decide (d1.run id0 = e.run id0) &&
       wrIs (engWriteBytes (r.segsBy mgmtAgent 1 [] 0) 0x2000 (wordBytes [BitVec.ofNat 64 (e.sketchEst 3 table3.w (leNat x.1))]) false 0 0 d1)
         (fun d2 => decide (d2.regq = [] ∧ d2.run id0 = e.run id0))) = true) ∧
    (let r := runOf (probeW 3); let e := (dRun devT r).begun id0
     (sRun devT r).serving id0 r tyProbe (some 3) ∧
     wrIs (engWriteBytes (r.segsBy mgmtAgent 1 [] 0) 0x2000 (wordBytes (e.tableRecord 3 table3)) false 0 0 e)
       (fun d2 => decide (d2.regq = [] ∧ d2.run id0 = e.run id0)) = true) :=
  ⟨by decide, ⟨⟨rfl, rfl, rfl⟩, rfl, by decide +kernel⟩, ⟨⟨rfl, rfl, rfl⟩, by decide +kernel⟩, ⟨⟨rfl, rfl, rfl⟩, by decide +kernel⟩⟩

/-- A block whose sectors carry context 1's tag. -/
def tagged (d : Dev) (ks : List Nat) : Dev := { d with info := ks.foldl (fun m k => Map.put m k { SectorMeta.zero with tag := 1 }) d.info }
def epochW : List Word64 := [packBits [(60, 4, tyEpoch)], packBits [(52, 12, 3)], 0, 0, 0, 0, 0, 0]
/-- table3 with epochs, at its first. -/
def tableE : Table := mkTable ((tableW.headD 0 ||| packBits [(39, 1, 1)]) :: tableW.tail) 1 none
def devE : Dev := { devT with tb := { Tables.reset with store := [(3, some tableE)] } }
def heldRow : TMsg := { link := 1, words := [packBits [(56, 8, 1)], packBits [(36, 12, 3)], 0, 0, 0, 0] }
def updateW : List Word64 := [packBits [(60, 4, tyUpdate)], 0x1000, 0x2000, 0, packBits [(52, 12, 3)], 2, 0, 0]
def rowU : RowUpdate :=
  { table := 3, row := 0, mode := 0, vfmt := 0, values := [], param := [], stamp := 1, memory := false, granule := none, waited := false,
    fwded := false, unit := 0, orig := .desc id0 0 }
def stepU : StepUpd := { src := 0, seq := 0, line := 0, upd := rowU }
def stepB : StepBuf := { table := 3, step := 5, upds := [stepU], ends := [], ready := false, busy := false }

theorem wit_EpochsAndUpdates :
    (let r := { runOf epochW with stage := .admitted }; let d := dRun devE r
     (d.cp.runs.map fun y => y.id).Nodup ∧ d.run id0 = some r ∧ descType r.w = tyEpoch ∧
     (∀ y ∈ d.cp.runs, descType y.w = tyEpoch → descTable y.w = some 3 → y = r) ∧ descTable r.w = some 3 ∧ d.table 3 = some tableE) ∧
    (let r := runOf epochW; let d := dRun devE r
     (d.cp.runs.find? fun y => descType y.w = tyEpoch && descTable y.w = some 3 && y.stage = .running) = some r ∧
     d.updatesOpen 3 tableE.lookEp = false ∧ tableE.live.length < 4 ∧ ({ tableE with lookEp := 65535 } : Table).lookEp = 65535) ∧
    ({ devE.tr with held := [heldRow] } : Taruc).held = [heldRow] ∧ devE.refStopped = false ∧
    -- an UPDATE at its end, and at its first index
    (let r := { runOf updateW with cnt := [(ucRead, 2)] }
     (sRun devT r).serving id0 r tyUpdate none ∧ qBit r.w 0 56 = false ∧ r.upds = [] ∧ r.count ucRead = upCount r.w ∧ r.count ucFail = 0 ∧
     upStepEnd r.w = false ∧ r.count ucPoison = 0) ∧
    (let r := runOf updateW; let d := dRun (tagged devT [0x1000 / 64, 0x2000 / 64, 0]) r; let ac := r.segsBy 0x200 1 []; let t := table3
     d.run id0 = some r ∧ r.live = true ∧ r.count ucFail = 0 ∧ r.count ucRead + 1 < upCount r.w ∧ d.table (upTable r.w) = some t ∧
     tbMerge t.w = false ∧
     okIs (readDa ac 0x1000 0 8 d) (fun x d2 => !x.2.1 && !isPad false (leNat x.1) &&
       okIs (readDa ac 0x2000 0 (valueBytes r.w t.w) d2) (fun y d3 =>
         !y.2.1 && !valueBad (upMode r.w) (valueRow (upVfmt r.w) (tbDim t.w) y.1) &&
         !d.partHeld (0x200 + updGrinder (upScope r.w) (upTable r.w) (leNat x.1)) &&
         (match uncounted (resolveRow (r.segsBy (0x200 + updGrinder (upScope r.w) (upTable r.w) (leNat x.1)) 1 []) t.w d.devId (leNat x.1) false) d3 with
          | .ok ((_, .ent _ _), d4) => decide (d4.run id0 = some r)
          | _ => false))) = true) ∧
    (let d := { devE with tb := { devE.tb with steps := [stepB] } }
     (d.tb.steps.find? fun y => y.table = 3 && y.step = 5) = some stepB ∧ stepB.ready = false ∧ stepB.upds ≠ [] ∧
     ∀ y ∈ d.tb.steps, y.table = 3 → y.busy = false) :=
  ⟨⟨by decide, rfl, rfl, by intro y h _ _; exact List.mem_singleton.mp h, rfl, rfl⟩, ⟨rfl, by decide, by decide, rfl⟩, rfl, rfl,
    ⟨⟨rfl, rfl, rfl⟩, by decide, rfl, by decide, by decide, by decide, by decide⟩,
    ⟨rfl, rfl, by decide, by decide, rfl, by decide, by decide +kernel⟩, ⟨rfl, rfl, by decide, by intro y h _; cases h <;> trivial⟩⟩

/-- A GATHER of one bag with one index, pooled by sum. -/
def poolW : List Word64 := [packBits [(60, 4, tyGather)], 0x1000, 0x3000, 0, 0x2000, packBits [(52, 12, 3), (49, 3, 1)], 1, 0]
def poolRun : Run := { runOf poolW with cnt := [(gcX, 1), (rcSetting, 64)] }

theorem wit_GatherServesBags :
    (let d := dRun devT { poolRun with pos := 1 }
     d.run id0 = some { poolRun with pos := 1 } ∧ descType poolW = tyGather ∧ id0.queue < 16384 ∧ d.table (gaTable poolW) = some table3 ∧
     d.regq = [] ∧ gaBags poolW ≤ ({ poolRun with pos := 1 } : Run).pos ∧ poolRun.count gcPoison = 0) ∧
    (let r := poolRun; let d := dRun (tagged (dMem devT (0x3000 / 64) [2 ^ 32]) [0, 0x1000 / 64, 0x2000 / 64, 0x3000 / 64]) r; let g := r.grinder (r.count rcSetting) 0
     let ac := r.segsBy (0x200 + g) r.ctx []; let tb := table3.w
     d.run id0 = some r ∧ r.pos < gaBags r.w ∧ gaPool r.w ≠ 0 ∧ d.partHeld (0x200 + g) = false ∧
     okIs (bagOffset r ac 0 d) (fun o0 d1 => okIs (bagOffset r ac 1 d1) (fun o1 d2 =>
       !o0.2 && !o1.2 && decide (o0.1 ≤ o1.1 ∧ o1.1 ≤ r.count gcX) &&
       okIs (resolveBag r ac ac tb d.devId o0.1 (o1.1 - o0.1) d2) (fun xs d3 => decide (missingRows r xs = []) &&
         okIs (bagRows r ac ac 3 tb g xs { rows := [], poison := false, carafe := 0, remote := 0, pre := 0, skipped := 0 } d3)
           (fun acc d4 =>
             match outWrite r ac 0 (poolBag r.w (tbDim tb) acc.rows).1 acc.poison d4 with
             | .ok (none, d5) => decide (d5.regq = [])
             | _ => false)))) = true) :=
  ⟨⟨rfl, rfl, by decide, rfl, rfl, by decide, by decide⟩, ⟨rfl, by decide, by decide, rfl, by decide +kernel⟩⟩

/-- A table in row-map form, with two width classes. -/
def tableM : List Word64 := [packBits [(52, 12, 3), (40, 12, 1), (26, 4, 3), (16, 10, 15)], 1024, 0, 1024, 0x10000, 0, 0, 0]
def rowE : RowEnt := { valid := true, fwd := false, carafe := false, wclass := 0, slotsz := 0, pool := 0, slot := 0x8000 }
def devM : Dev := { tagged (dMem devT (0x10000 / 64) [rowE.word]) [0x10000 / 64, 0x4000, 0x4800] with
  tb := { Tables.reset with store := [(3, some (mkTable tableM 0 none))], cremaSize := 4096 } }
def migr (step : Nat) : Migr :=
  { desc := id0, table := 3, row := 0, old := rowE.word.toNat, dev := devM.devId, wclass := 1, pool := 0, slotsz := 0, slot := 0x9000, units := 0,
    changed := false, step := step, locked := false }
def migrW : List Word64 := [packBits [(60, 4, tyMigrate)], 0x1000, packBits [(52, 12, 3), (0, 32, 1)], 0, 0, 0, 0, 0]
def devMig (step : Nat) (crema : Nat) : Dev :=
  let d := dRun { devM with tb := { devM.tb with migr := [migr step], cremaSize := crema } } { runOf migrW with prog := 1, cnt := [(mcRead, 1)] }
  d.setProg 1 { d.prog 1 with state := 1 }

theorem wit_MigrationCommands :
    (let r := { runOf migrW with prog := 1, cnt := [(mcRead, 1)] }; let m := migr 0; let d := devMig 0 4096
     d.run id0 = some r ∧ r.live = true ∧ m.desc = id0 ∧ (d.table m.table).isSome = true ∧
     (d.tb.migr.find? fun x => x.desc = id0 && x.step = 0) = some m ∧
     (descType r.w = tyMigrate ∧ r.prog ≠ 0 ∧ qBits r.w 2 52 12 = m.table ∧ qBits r.w 2 0 32 = r.count mcRead) ∧
     d.updLocked m.table m.row = false ∧ d.migrRoom (preUnits 32) = true ∧ m.dev = d.devId ∧
     (let ac := r.segsBy 0x200 1 []
      okIs (engReadBytes (slotAcc ac tableM rowE) (32 * rowE.slot) rowE.bytes d) (fun x d2 =>
        wrIs (engWriteUnits (ac 0) x.2.1 (x.2.2.map fun i => i.epoch) 1 ((convertSlot tableM 0 1 32 x.1).length / 64 + 2) (32 * m.slot)
          (convertSlot tableM 0 1 32 x.1) (d2.setProg 1 { d2.prog 1 with state := 1 })) (fun _ => true)) = true) ∧
     -- no space
     (devMig 0 3072).migrRoom (preUnits 32) = false ∧ m.units = 0 ∧ ((devMig 0 3072).prog 1).state ≠ 2) ∧
    (let r := { runOf migrW with prog := 1, cnt := [(mcRead, 1)] }; let d := devMig 2 4096; let ac := r.segsBy 0x200 1 []
     let d0 := d.updMigr 3 0 fun y => { y with locked := true }
     (migr 2).changed = false ∧ d.openMigr 3 0 = some (migr 2) ∧ d.updLocked 3 0 = false ∧
     (match migrRevoked ac tableM d.devId (migr 2) d with
      | .ok (none, e) => decide (e = d)
      | _ => false) = true ∧
     (match rowDa ac tableM 0 d0 with
      | .ok (some da, d2) => wrIs (engWriteBytes (d0.guestAcc ac tableM 0 da) (daOff da) (leBytes 8 7) false 0 0 d2) (fun _ => true)
      | _ => false) = true) :=
  ⟨⟨rfl, rfl, rfl, rfl, rfl, ⟨rfl, by decide, by decide, by decide⟩, rfl, by decide, rfl, by decide +kernel, by decide, rfl, by decide⟩,
    ⟨rfl, rfl, rfl, by decide +kernel, by decide +kernel⟩⟩

def kernelW : List Word64 := [packBits [(60, 4, tyKernel)], 0x1000, 0x2000, 0, 0, packBits [(56, 8, 1)], 7, 0]
/-- A kernel of two cores, its parameter read. -/
def kernRun : Run := { runOf kernelW with stage := .admitted, cnt := [(20, 1)], seq := 9 }
def devK : Dev := dRun devT kernRun

theorem wit_KernelCommands :
    (devK.run id0 = some kernRun ∧ kernRun.live = true ∧ kernRun.team = none ∧ devK.fits kernelW [] = true ∧
      ({ devK with cmap := { devK.cmap with enabled := [3] } } : Dev).fits kernelW [] = false) ∧
    (devK.kernelOrder.head? = some kernRun ∧ kernRun.count 20 ≠ 0 ∧ (devK.pickCores kernRun).isSome = true ∧ qWord kernelW 3 = 0 ∧
      okIs (readDa (kernRun.segsBy mgmtAgent 1 []) (qWord kernelW 1) (hdrPreOff kernRun.header) (hdrPreSize kernRun.header) devK)
        (fun x _ => !x.2.1) = true) ∧
    (let d := (devK.setQ 0 { Quarter.reset with stagger := [0, 1] }).setCore 0 { Core.reset with status := .reserved }
     d.refStopped = false ∧ 0 ∈ (d.qr 0).stagger.take (d.staggerFit (d.qr 0).stagger 0) ∧ (d.core 0).status = .reserved) ∧
    (271 < 272 ∧ 271 ∉ devK.cmap.retired ∧ 271 ∉ devK.cmap.failed ∧ 271 ∈ ({ devK.cmap with retired := [271] } : CoreMap).retired) :=
  ⟨⟨rfl, rfl, rfl, by decide +kernel, by decide +kernel⟩, ⟨rfl, by decide, by decide +kernel, rfl, by decide +kernel⟩, ⟨rfl, by decide +kernel, rfl⟩,
    by decide⟩

theorem wit_LaunchRegisters :
    (let d := (devK.setQ 3 { Quarter.reset with stagger := [255] }).setCore 255 { Core.reset with status := .reserved }
     d.refStopped = false ∧ 255 ∈ (d.qr 3).stagger.take (d.staggerFit (d.qr 3).stagger 0) ∧ (d.core 255).status = .reserved) ∧ (3 : Nat) < 4 ∧
    (1 : Nat) < 2 := ⟨⟨rfl, by decide +kernel, rfl⟩, by decide, by decide⟩


/-! ### Witnesses: coherence -/

theorem quiet_of (d : Dev) (h : d.net = []) (r : d.rowsWaiting = 0) (t : d.tier.suspects = []) : d.homesQuiet :=
  ⟨r, (by rw [h]; intro m hm; cases hm), t⟩

def stB (e : StoreEntry) : State :=
  { pending := [], dev := { dev0.setCore 0 { core0 with sb := [e] } with caches := l1On [(0, line1)] } }
def sbE (rt : RType) (sector : Nat) : StoreEntry :=
  { sector := sector, mask := BitVec.allOnes 64, data := 5, rt := rt, da := BitVec.ofNat 64 (64 * sector), seg := 0, gen := 0, sent := false, out := false }

theorem wit_StoreBufferDrains : (st0.dev.core 0).sb = [] ∧ ((stB (sbE .stream 1)).dev.core 0).sb = [sbE .stream 1] ∧ dev0.partHeld 0 = false ∧
    core0.status ≠ .stopped ∧ (stB (sbE .device (regDpa / 64))).dev.writesSettled 0 = true ∧ dev0.regSecHeld 0 = false ∧ isReg (64 * (regDpa / 64)) = true ∧
    (let k : Core := { core0 with revoked := [(daSeg (sbE .normal 1).da, true)] }
     k.isRevoked (sbE .normal 1).da = true ∧ k.miss = none ∧ (sbE .normal 1).out = false) ∧
    (((stB (sbE .normal 1)).dev.core 0).isRevoked (sbE .normal 1).da = false ∧ (stB (sbE .normal 1)).dev.serves 256 = true ∧ ((stB (sbE .normal 1)).dev.core 0).pfHas 0 = false ∧
      ((stB (sbE .normal 1)).dev.core 0).miss = none ∧ ((stB (sbE .normal 1)).dev.cache 256).streaming = false ∧
      ((stB (sbE .normal 1)).dev.cacheSec 256 0 1).st = .E ∧
      (stB (sbE .normal 1)).dev.waySec 256 0 1 = (stB (sbE .normal 1)).dev.cacheSec 256 0 1 ∧ ((stB (sbE .normal 1)).dev.cacheSec 256 0 1).err = 0) :=
  ⟨rfl, rfl, rfl, by decide, rfl, by decide, by decide, ⟨by decide +kernel, rfl, rfl⟩, by decide +kernel, by decide +kernel, rfl, rfl, rfl, by decide +kernel, by decide +kernel, by decide +kernel⟩

/-- A core that waits for sector 1. -/
def coreLd : Core := { core0 with miss := some 1, wait := .load 31 8 true 56 0x78 }

theorem wit_DataAndAnswersAtCore :
    (let k := (at0 coreLd).dev.core 0; k.miss = some 1 ∧ k.wait = .load 31 8 true 56 0x78 ∧ 56 + 8 ≤ 64 ∧
      ({ rspAt .data with st := .I } : RspMsg).info.poison = false ∧ core0.miss ≠ some 1 ∧ (rspAt .data).st = .E ∧ isCore 0 = true ∧
      dev0.partHeld 0 = false ∧ (at0 coreLd).dev.homesQuiet ∧ core0.miss ≠ some 1) ∧
    (stHit.dev.cacheSec 256 0 1).st ≠ .I ∧
    (let w : OutWrite := { sector := 1, da := 0x40, mover := false, done := false, kept := true }
     let k : Core := { core0 with writes := [w], sb := [{ sbE .normal 1 with out := true }] }
     k.writeFor 1 false = some w ∧ k.headOut w = some { sbE .normal 1 with out := true } ∧
     ({ k with sb := [] } : Core).headOut w = none ∧ k.status ≠ .stopped) ∧
    coreLd.wait ≠ .none :=
  ⟨⟨rfl, rfl, by decide, rfl, by decide, rfl, rfl, rfl, quiet_of _ rfl rfl rfl, by decide⟩, by decide +kernel, ⟨rfl, rfl, rfl, by decide⟩,
    by decide⟩

/-- A request of core 0 for sector 1 of line 0. -/
def reqOf (kind : ReqKind) : ReqMsg :=
  { kind := kind, src := 0, line := 0, smask := secMask 1, bmask := 0, pay := [], ctx := 0, seg := 0, gen := 0, rt := .normal, issue := 0, origin := .load,
    op := .add, off := 0, narrow := false, operand := 0, cmp := 0, mval := .A, tag := 0, upd := none }
/-- A directory in which a core owns sector 1 of line 0. -/
def dirOf (ds : MState) (o : Nat) : Map DirEntry :=
  [(0, { v := true, line := 0, bcast := false, shr := [], sec := [(1, { ds := ds, own := o, hs := 0 })], err := 0 })]
def devO (o : Nat) : Dev := { dev0 with dir := dirOf .E o }

theorem starts_devO (o : Nat) (h : o = 0 ∨ o = 5) (kind : ReqKind) : (devO o).starts (reqOf kind) 1 := by
  rcases h with rfl | rfl <;>
  exact ⟨⟨rfl, rfl, rfl, rfl, rfl, rfl, rfl, quiet_of _ rfl rfl rfl⟩, by decide, rfl, rfl, rfl, rfl, by cases kind <;> decide,
    by intro k h; have : k = 0 := Option.some.inj (h.symm.trans (show (devO _).dirWay 0 = some 0 by decide))
       subst this; rfl⟩
theorem owned_devO : (devO 5).ownedBy 0 1 5 ∧ (devO 0).ownedBy 0 1 0 :=
  ⟨⟨⟨0, by decide⟩, rfl, rfl, rfl, rfl⟩, ⟨⟨0, by decide⟩, rfl, rfl, rfl, rfl⟩⟩

theorem wit_HomeRequests : (devO 5).starts (reqOf .rdOwn) 1 ∧ (devO 5).ownedBy 0 1 5 ∧ (reqOf .rdOwn).src ≠ 5 ∧
    isHost (lineDpa (reqOf .wrFull).line) = false ∧
    -- an eviction
    (devO 0).starts (reqOf .evictDirty) 1 ∧ (devO 0).ownedBy 0 1 (reqOf .evictDirty).src :=
  ⟨starts_devO 5 (.inr rfl) _, owned_devO.1, by decide, by decide, starts_devO 0 (.inl rfl) _, owned_devO.2⟩

def snpOf (kind : SnpKind) : SnpMsg := { kind := kind, core := 0, txid := 0, line := 0, sec := 1, ret := true, req := 3, ctx := 0, origin := .load }

theorem wit_SnoopsAnswered :
    (stHit.dev.snpInOrder (snpOf .inv) = true ∧ (snpOf .inv).core < 0x110 ∧ stHit.dev.partHeld 0 = false ∧ (stHit.dev.core 0).sb = [] ∧
      (stHit.dev.core 0).evict = [] ∧ Map.get none (stHit.dev.core 0).held 1 = none ∧ (stHit.dev.core 0).wait = .none ∧
      (stHit.dev.cacheSec 256 0 1).st = .E) ∧
    Map.get none ({ core0 with held := [(1, some 0)] } : Core).held 1 ≠ none ∧ (stMiss.dev.cacheSec 256 0 1).st = .I :=
  ⟨⟨rfl, by decide, rfl, rfl, rfl, rfl, rfl, by decide⟩, by decide, by decide⟩

def ansOf (kind : AnsKind) : AnsMsg := { kind := kind, src := 5, toCore := none, txid := 0, line := 0, sec := 1, st := .I, data := 9, info := .zero }
def txnOf (kind : ReqKind) (stage : Stage) (aw post : List Await) (fw : List Nat) : Txn :=
  { req := reqOf kind, stage := stage, await := aw, post := post, got := [], fwded := fw, desc := none, suspect := false }
def devTx (t : Txn) : Dev := { devO 5 with homes := [(0, { Home.reset 0 with txns := [(0, some t)] })] }

theorem idle_devTx (t : Txn) : (devTx t).homeIdle ((devTx t).homeOf (lineDpa 0)) [(0, some t)] := by
  rw [show (devTx t).homeOf (lineDpa 0) = 0 from (by decide : dev0.homeOf (lineDpa 0) = 0)]
  exact ⟨rfl, rfl, rfl, rfl, rfl, rfl, rfl, quiet_of _ rfl rfl rfl⟩

theorem wit_HomeAnswers :
    -- no transaction, and transactions that wait for more
    (dev0.homesQuiet ∧ dev0.lineTxn 0 = none ∧ dev0.dataOwed 0 1 = false) ∧
    (let t := txnOf .wrFull .recall [.ack 5 1, .ack 6 1] [] []
     t.waitsOn (.ack (ansOf .ack).src (ansOf .ack).sec) ∧ t.req.kind ≠ .atomic ∧ t.req.kind ≠ .snpInv ∧ t.req.kind ≠ .snpData) ∧
    (txnOf .claim .recall [.fwd 5 1, .fwd 6 2] [.comp 1] [1, 2]).waitsOn (.fwd (ansOf .fwdDone).src (ansOf .fwdDone).sec) ∧
    (txnOf .rdOwn .close [.comp 1, .comp 2] [] []).waitsOn (.comp (ansOf .compAck).sec) ∧
    (∀ t, (devTx t).homeIdle ((devTx t).homeOf (lineDpa 0)) [(0, some t)]) ∧ isCore (reqOf .rdOwn).src = true ∧ isTier (lineDpa 0) = true ∧
    (let t := txnOf .rdOwn .recall [.fwd 5 1] [.comp 1] [1]
     t.req.kind = .rdOwn ∧ t.await = [.fwd (ansOf .fwdDone).src (ansOf .fwdDone).sec] ∧ t.post = [.comp 1] ∧ (devTx t).dataOwed 0 1 = false) ∧
    (let t := txnOf .rdCurrent .recall [.fwd 5 1] [] [1]
     t.post = [] ∧ (devTx t).partHeld 5 = false ∧ ((devTx t).cacheSec ((devTx t).sliceNo 0) 0 1).st = .I) ∧
    (txnOf .rdOwn .close [.comp 1] [] []).await = [.comp (ansOf .compAck).sec] ∧
    (let t := txnOf .wrFull .recall [.ack 5 1] [] []
     t.await = [.ack 5 1] ∧ ((devTx t).cache ((devTx t).sliceNo 0)).side = [] ∧ ((devTx t).waySec ((devTx t).sliceNo 0) 0 1).st = .I ∧
     (devTx t).serves ((devTx t).sliceNo 0) = false) ∧
    ({ core0 with evict := [(1, { st := .M, data := 7, info := .zero, err := 0 })] } : Core).evict =
      (4 * 0 + 1, { st := .M, data := 7, info := .zero, err := 0 }) :: [] :=
  ⟨⟨quiet_of _ rfl rfl rfl, by decide, by decide⟩, ⟨⟨rfl, by decide, by decide⟩, by decide, by decide, by decide⟩,
    ⟨rfl, by decide, by decide⟩, ⟨rfl, by decide, by decide⟩, idle_devTx, rfl, by decide, ⟨rfl, rfl, rfl, rfl⟩, ⟨rfl, rfl, by decide⟩, rfl, ⟨rfl, by decide, by decide, by decide⟩, rfl⟩

def memOf (kind : MemKind) (q : Option ReqMsg) : MemMsg :=
  { kind := kind, txid := 0, line := 0, sec := 1, req := q, data := 9, info := .zero, old := 0, refused := none }

theorem wit_MemoryTraffic : Map.get 0 dev0.symErr 1 = 0 ∧
    -- the controller's check passes, and fails by the tag
    dev0.checkMem (memOf .rd (some (reqOf .rdCurrent))) = none ∧ dev0.checkMem (memOf .wr none) = none ∧
    dev0.checkMem (memOf .rd (some { reqOf .rdCurrent with ctx := 2 })) = some .tagMismatch ∧
    (memOf .rmw (some { reqOf .atomic with off := 56 })).req = some { reqOf .atomic with off := 56 } ∧
    dev0.partHeld (dev0.updateUnitOf (lineDpa 0)) = false ∧
    ({ reqOf .atomic with off := 56 } : ReqMsg).upd = none ∧ ({ reqOf .atomic with off := 56 } : ReqMsg).off < 64 ∧ 56 % 8 = 0 ∧
    (let t := txnOf .rdCurrent .fetch [.mem 1] [] []
     (devTx t).homeIdle ((devTx t).homeOf (lineDpa 0)) [(0, some t)] ∧ t.stage = .fetch ∧ t.await = [.mem 1] ∧
     (devTx t).allocates ((devTx t).coreDesc t.req.src) t.req = false ∧ ((devTx t).cacheSec ((devTx t).sliceNo 0) 0 1).st = .I) ∧
    (let t := txnOf .wrPart .fetch [.cmp 1] [] []; (devTx t).homeIdle ((devTx t).homeOf (lineDpa 0)) [(0, some t)] ∧ t.await = [.cmp 1]) :=
  ⟨rfl, rfl, rfl, by decide, rfl, rfl, rfl, by decide, rfl, ⟨idle_devTx _, rfl, rfl, by decide, by decide⟩, ⟨idle_devTx _, rfl⟩⟩

theorem wit_HoldsStarvedRows : dev0.homesQuiet ∧ core0.wantsLine 0 = false ∧ (∀ m ∈ core0.waitSnp, m.line ≠ 0) ∧ coreLd.wantsLine 0 = true ∧
    (∀ i, i < 4 → Map.get none coreLd.held (4 * 0 + i) = none) ∧
    0 < (at0 coreLd).dev.keptSetting ((at0 coreLd).dev.coreDesc 0) rcHold 0x206002 24 ∧
    (let w : WaitReq := { req := reqOf .rdOwn, starved := false }; let m := reqOf .claim
     let d : Dev := { dev0 with homes := [(0, { Home.reset 0 with queue := [w, { req := m, starved := false }] })] }
     (d.home (d.homeOf (lineDpa m.line))).queue = [w] ++ [{ req := m, starved := false }] ∧ ({ req := m, starved := false } : WaitReq) ∉ [w] ∧
     d.reqAge m < d.od 0x206001 16 ∧ d.od 0x206001 16 ≤ d.reqAge { m with issue := 65520 } ∧
     ∀ x ∈ [w], x.req.line = m.line ∧ x.starved = false) ∧
    -- a row of the table at its home
    (let u := rowU; let m := { reqOf .updRow with upd := some u }; let d := { dRun (tagged devT [0]) (runOf updateW) with net := [.req m] }
     let home := d.homeOf (lineDpa m.line); let w := { u with waited := u.waited || d.contended m u }
     let b := (d.taken (.req m)).enqueue { m with upd := some w }; let ac := b.updAcc w table3.w home
     d.homeIdle home [] ∧ d.reqInOrder m = true ∧ d.table u.table = some table3 ∧ b.rowLocked u.table u.row = false ∧
     (match uncounted (resolveRow ac table3.w d.devId u.row u.fwded) b with
      | .ok ((_, .ent e at_), d2) => (match engLine (slotAcc ac table3.w e).acc m.line d2 with
        | .ok (_, d3) => (match migrSees ac table3.w w e at_ ((d3.tookRow { m with upd := some w }).trainPred w w.waited) with
          | .ok (none, d4) => !e.carafe && decide (placeUpd table3 (slotAcc ac table3.w e).acc.rt
              (decide (1 < (slotLines (slotAcc ac table3.w e) e).length)) w (b.placeOfUpd w) = .home) &&
            wrIs (applyHome (slotAcc ac table3.w e) table3 w e d4) (fun _ => true)
          | _ => false)
        | _ => false)
      | _ => false) = true) :=
  ⟨quiet_of _ rfl rfl rfl, rfl, (by intro m h; cases h), by decide, (by intro i _; rfl), by decide,
    ⟨rfl, by decide, by decide, by decide, by intro x h; cases h <;> [exact ⟨rfl, rfl⟩; contradiction]⟩,
    ⟨⟨rfl, rfl, rfl, rfl, rfl, rfl, rfl, by decide, (by intro m h; cases List.mem_singleton.mp h; decide), rfl⟩, by decide, rfl, rfl, by decide +kernel⟩⟩


/-! ### Witnesses: the host, caches, queues -/

def hostReq (hpa : Nat) (v : MetaValue) : HostReq := { hpa := hpa, mval := v, tag := 1, data := 0, bmask := BitVec.allOnes 64, poison := false }
def sl1 (st : MState) : CSector := { st := st, data := 7, info := .zero, err := 0 }
/-- Sector 1 of line 0 in the slice of home 0, its directory entry without a holder, the first decoder at 0, pages SHARED. -/
def devH : Dev := { dev0 with
  hl := { dev0.hl with decs := [(0, { base := 0, committed := true, notCommitted := false })], biasDef := 1 }
  dir := dirOf .I 0x3FF
  caches := [(0, { Cache.reset 0 false with enable := true, invDone := true, ways := [(0, { line := 0, sec := [(1, sl1 .E)] })] })] }

theorem wit_HostRequests : devH.hostMay 0x40 0x40 ∧ (devH.waySec (devH.sliceNo 0) 0 1).st ≠ .I ∧ (devH.waySec (devH.sliceNo 0) 0 1).err = 0 ∧
    ((devH.dirEntry 0).sector 1).hs = 0 ∧
    -- MemSpecRd of a sector that the slice does not hold
    (devH.hostToDpa 0x80 = some 0x80 ∧ devH.ownedRegion 0x80 = false ∧ devH.lineBusy 0 = false ∧ (devH.sliceSec 0 2).st = .I ∧
      (devH.cache (devH.sliceNo 0)).pfEn = true ∧ devH.tierReady 0x80 = true ∧ Map.get 0 devH.symErr 2 = 0) ∧
    devH.hostToDpa 0 = some 0 ∧ HLink.reset.state ≠ 2 ∧ ({ dev0 with hl := HLink.reset } : Dev).homesQuiet :=
  ⟨⟨rfl, rfl, rfl, by decide, by decide, (by intro _; decide), by decide, ⟨rfl, rfl, rfl, rfl, rfl, rfl, rfl, quiet_of _ rfl rfl rfl⟩, by decide, rfl, by decide, by decide,
      ⟨0, by decide, rfl⟩, rfl⟩, by decide +kernel, by decide +kernel, by decide, ⟨by decide, by decide, by decide, by decide +kernel, by decide, by decide, by decide⟩,
    by decide, by decide, quiet_of _ rfl rfl rfl⟩

/-- The slice of the host line that holds HPA 0, with its sector 0. -/
def devHS (st : MState) : Dev := { dev0 with
  caches := [(0, { Cache.reset 0 false with enable := true, invDone := true, ways := [(0, { line := hostDpa / 256, sec := [(0, sl1 st)] })] })] }
def hostTx (kind : ReqKind) (stage : Stage) (aw : Await) : Txn :=
  { req := { reqOf kind with line := hostDpa / 256, smask := secMask 0 }, stage := stage, await := [aw], post := [], got := [], fwded := [], desc := none, suspect := false }
def devHT (t : Txn) : Dev := { dev0 with homes := [(0, { Home.reset 0 with txns := [(0, some t)] })] }

theorem idle_devHT (t : Txn) : (devHT t).homeIdle ((devHT t).homeOf (lineDpa (hostDpa / 256))) [(0, some t)] := by
  rw [show (devHT t).homeOf (lineDpa (hostDpa / 256)) = 0 from (by decide : dev0.homeOf (lineDpa (hostDpa / 256)) = 0)]
  exact ⟨rfl, rfl, rfl, rfl, rfl, rfl, rfl, quiet_of _ rfl rfl rfl⟩

theorem wit_HostAnswersAndSnoops :
    (let line := hostDpa / 256
     isHost (lineDpa line) = true ∧ isTier (secDpa line 0) = false ∧ dev0.homeOf hostDpa = dev0.homeOf (lineDpa line) ∧
     (devHS .M).homeIdle ((devHS .M).homeOf hostDpa) [] ∧ (devHS .M).dirWay line = none ∧ ((dev0.dirEntry line).sector 0).ds = .I ∧
     ((devHS .M).cacheSec ((devHS .M).sliceNo line) line 0).st = .M ∧ (dev0.cacheSec (dev0.sliceNo line) line 0).st = .I) ∧
    (∀ t, (devHT t).homeIdle ((devHT t).homeOf (lineDpa (hostDpa / 256))) [(0, some t)]) ∧
    (hostTx .rdCurrent .close (.bi 0)).await = [.bi 0] ∧ (hostTx .wrFull .fetch (.go 0)).req.kind = .wrFull ∧
    (hostTx .rdCurrent .recall (.go 0)).stage = .recall ∧ isCore (hostTx .rdCurrent .recall (.go 0)).req.src = true ∧
    (hostTx .rdCurrent .recall (.go 0)).req.smask = secMask 0 :=
  ⟨⟨by decide, by decide, by decide, ⟨rfl, rfl, rfl, rfl, rfl, rfl, rfl, quiet_of _ rfl rfl rfl⟩, by decide +kernel, by decide +kernel, by decide +kernel, by decide +kernel⟩,
    idle_devHT, rfl, rfl, rfl, rfl, rfl⟩

def onDone : Cache := { Cache.reset 0 false with invDone := true }

theorem wit_CacheCommands : RegSource.writer .host = true ∧ cacheExists 527 = true ∧ cacheExists 63 = true ∧ dev0.cacheHeld 63 = false ∧
    (dev0.cache 0).invDone = false ∧ (dev0.cache 0).busy = false ∧ (dev0.cache 0).enable = false ∧
    (onDone.invDone = true ∧ onDone.op = none) ∧ ({ onDone with enable := true } : Cache).enable = true ∧
    (let d := { dev0 with caches := (namedCaches 0).map fun n => (n, onDone) }
     ∀ n ∈ namedCaches 0, (d.cache n).invDone = true ∧ (d.cache n).op = none) ∧
    (∀ n, n < 64 → (dev0.cache n).busy = false ∧ (dev0.cache n).enable = false) ∧
    (({ onDone with disabled := 0x800 } : Cache).disabled ||| onDone.disabledW).getLsbD 11 = true :=
  ⟨rfl, rfl, rfl, rfl, rfl, rfl, rfl, ⟨rfl, rfl⟩, rfl, by decide +kernel, (by intro n _; exact ⟨rfl, rfl⟩), by decide⟩

/-- A CACHE_RANGE of one operation over 256 bytes at DA 0, over slices alone. -/
def rangeW (op : Nat) : List Word64 := [packBits [(60, 4, tyMaint)], packBits [(56, 8, 0x09)], 0, 256, packBits [(60, 4, op), (58, 2, 1)], 0, 0, 0]
def devR (op pos : Nat) : Dev := dRun (tagged { devT with caches := [(0, onDone)] } [0, 1, 2, 3]) { runOf (rangeW op) with pos := pos }

theorem wit_CacheRanges :
    (∀ op, op < 9 → (devR op 0).rangeHead = some { runOf (rangeW op) with pos := 0 } ∧ crOp (rangeW op) = op ∧
      (devR op 0).run id0 = some { runOf (rangeW op) with pos := 0 }) ∧
    (∀ op, op < 5 → (match rangeLine (runOf (rangeW op)) { ((runOf (rangeW op)).acc (homeSource 0) 1 0 []).acc with
        src := homeSource ((devR op 0).homeOf (lineDpa 0)) } 0 (fun l => decide (l = 0)) (devR op 0) with
      | .ok (.done _ _, _) => true
      | _ => false) = true) ∧
    (qWord (rangeW 0) 3).toNat ≤ 256 ∧ 0 < (qWord (rangeW 0) 3).toNat ∧
    -- an operation on all of a cache
    (let d := { devR 6 0 with caches := [(5, { onDone with op := some { code := 6, off := false, cmd := true }, busy := true })] }
     ((namedCaches (crCaches (rangeW 6))).filter fun n => (d.cache n).op.isSome && !d.walkBlocked n) = [5] ∧
     ((d.walkCache 5 6).updCache 5 fun k => { k with op := none }).run id0 = some { runOf (rangeW 6) with pos := 0 }) ∧
    -- the end of a walk
    ((devR 0 256).owes id0 true = false ∧ (devR 0 256).ownOps = [] ∧ (runOf (rangeW 0)).count 0 = 0) ∧ onDone.offAfter = false :=
  ⟨by decide, by decide +kernel, by decide, by decide, ⟨by decide +kernel, by decide +kernel⟩, ⟨rfl, by decide +kernel, rfl⟩, rfl⟩

def revokeW : List Word64 := [packBits [(60, 4, tyMaint)], packBits [(56, 8, 0x0A)], 0, 0, 0, 0, 0, 0]
def rev (step : Nat) (copies markers : List Nat) : Revoke :=
  { desc := id0, ctx := 1, seg := 0, step := step, waited := false, copies := copies, markers := markers, rejects := 0 }
def devV (v : Revoke) : Dev := dRun { devT with segs := { devT.segs with revokes := [v] } } (runOf revokeW)
/-- Attribute word of a DRAM segment at the base 0. -/
def attrV : Word64 := 0x8000000000000000

theorem wit_SegmentCommands :
    (dev0.rst.held.contains .cp = false ∧ (devT.seg 1 0).valid = true ∧ (devT.seg 1 1).valid = false ∧
      (let r : SegRec := { SegRec.reset with limit := 2 ^ 21 - 1 }
       dev0.segErr 1 (r.withAttr attrV) = none ∧ dev0.segErr 1 (SegRec.reset.withAttr attrV) = some 2) ∧
      dev0.revoking 1 1 = false ∧
      (let n : SegRec := { seg0 with limit := 2 ^ 31 - 1 }; seg0.limit < n.limit ∧ devT.segErr 1 n = none) ∧
      ({ seg0 with limit := seg0.limit } : SegRec).limit ≤ seg0.limit) ∧
    (let d := dRun { devT with segs := { devT.segs with revokes := [rev 1 [] []] } } { runOf revokeW with gens := [] }
     (d.segs.revokes.find? fun x => x.desc = id0) = some (rev 1 [] []) ∧ d.holders 1 0 ((d.gen 1 0 + 1) % 16) = 0 ∧
     (runOf revokeW).count 5 = 0 ∧ (runOf revokeW).live = true) ∧
    ((devV (rev 2 [] [])).revokeOf 1 0 = some (rev 2 [] []) ∧ ((devV (rev 2 [] [])).segs.revokes.map fun x => x.desc).Nodup ∧
      (devV (rev 2 [] [])).holders 1 0 (((devV (rev 2 [] [])).gen 1 0 + 1) % 16) = 0) ∧
    ((devV (rev 3 [0, 139] [])).revokeOf 1 0 = some (rev 3 [0, 139] []) ∧ 139 ∈ (rev 3 [0, 139] []).copies ∧
      (devV (rev 3 [139] [])).revokeOf 1 0 = some (rev 3 [139] [])) ∧
    ((devV (rev 4 [] [0, 0x33F])).revokeOf 1 0 = some (rev 4 [] [0, 0x33F]) ∧ (devV (rev 4 [] [0x33F])).outstanding 0x33F 1 0 = false) :=
  ⟨⟨rfl, rfl, rfl, by decide, rfl, by decide, by decide⟩, ⟨rfl, by decide, by decide, rfl⟩, ⟨by decide, by decide, by decide⟩,
    ⟨by decide, by decide, by decide⟩, ⟨by decide, by decide⟩⟩

def queue0 : Queue := { Queue.reset with ring := hostDpa, cmpl := hostDpa + 0x10000, vec := 1, ctx := 1, enable := true, tail := 1 }
def devQ : Dev := { devT with
  segs := { devT.segs with ctxs := [(1, { CtxCtrl.reset with valid := true })] }
  cp := { devT.cp with queues := [(0, queue0)], ready := true } }
def ringAns (w : List Word64) : List HostAnswer := [{ sector := hostDpa / 64, data := Sector.ofBytes (wordBytes w), poison := false }]
def copyW : List Word64 := [packBits [(60, 4, tyCopy)], 0x1000, 0x2000, 64, 0, 0, 0, 0]
def fenceW : List Word64 := [packBits [(60, 4, tyFence)], 0, 0, 0, 0, 0, 0, 0]

theorem wit_QueuesAndMailboxes :
    (dev0.rst.held.contains .cp = false ∧ (devT.queue 0).enable = false ∧ (devQ.queue 0).enable = true ∧
      dev0.queueErr { queue0 with enable := false } = 0 ∧ dev0.queueErr Queue.reset ≠ 0) ∧
    (devQ.mayFetch 0 = true ∧
      okIs (engRead (ctrlAcc (ringAns copyW) none) ((queue0.ring + 64 * (queue0.head % queue0.entries)) / 64) devQ) (fun x d1 =>
        !x.2.poison && decide (bytesWords 8 (Sector.bytes x.1) = copyW) &&
        okIs (checkDesc (bytesWords 8 (Sector.bytes x.1)) 1 [] d1) (fun _ _ => true)) = true ∧
      (match checkDesc (copyW.take 7 ++ [1]) 1 [] devQ with
        | .ok (.error st, _) => decide (st = stFormat)
        | _ => false) = true) ∧
    -- a message for core 0, with its slot free and with its slot taken; no such core; a reply
    (let x : Mailbox := { Mailbox.reset with enable := true, ctx := 1, pending := true, copy := wordBytes [1] }
     (devT.setCore 0 { core0 with ctx := 1 }).mailboxCore x = some 0 ∧ (core0.scratchNat 0 8) = 0 ∧
     (core0.putScratch 0 (wordBytes [1])).scratchNat 0 8 ≠ 0 ∧ devT.mailboxCore x = none ∧
     (match engWrite (ctrlAcc [] none) ((hostDpa + x.reply) / 64) 0 (BitVec.allOnes 64) false 0 0 devT with
       | .ok _ => true
       | _ => false) = true) :=
  ⟨⟨rfl, rfl, rfl, by decide, by decide⟩, ⟨by decide, by decide +kernel, by decide +kernel⟩, ⟨by decide, by decide, by decide, rfl, by decide +kernel⟩⟩

theorem wit_Doorbells : dev0.rst.held.contains .cp = false ∧ queue0.ctx = 1 ∧ queue0.enable = true ∧ queue0.halted = false ∧
    (queue0.entries + 2 ^ 32 - queue0.head) % 2 ^ 32 ≤ queue0.entries ∧ queue0.entries < (queue0.entries + 1 + 2 ^ 32 - queue0.head) % 2 ^ 32 ∧
    Queue.reset.ctx ≠ 1 ∧ ({ queue0 with halted := true } : Queue).halted = true := by decide

theorem wit_CopiesAndEnds :
    (let r := runOf fenceW; let d := dRun devQ r
     d.run id0 = some r ∧ r.team = none ∧ id0.queue < 16384 ∧ descType r.w = tyFence ∧ (d.begun id0).queueUnsettled id0 = false ∧
     ({ d with cp := { d.cp with runs := [r, { r with id := { queue := 0, index := 1 } }] } } : Dev).queueUnsettled id0 = true ∧
     r.takesTimeout = false) ∧
    (let r := runOf ((copyW.headD 0 ||| packBits [(57, 1, 1), (58, 1, 1), (32, 16, 5)]) :: copyW.tail); let d := dRun devQ r
     r.takesTimeout = true ∧ d.timeoutOf r = 5 ∧ qBit r.w 0 57 = true ∧ qBit r.w 0 58 = true ∧
     (match recordWrite queue0 r stInProgress d with
       | .ok _ => true
       | _ => false) = true ∧ isHost queue0.cmpl = true) ∧
    (let r := { runOf copyW with stage := .ended }; let d := dRun devQ r
     let q := { queue0 with cmpl := 0x8000 }
     d.recordReady r = true ∧ isHost q.cmpl = false ∧ (match recordWrite q r stOk d with
       | .ok (none, d2) => decide (d2.run id0 = some r)
       | _ => false) = true ∧ r.count rcFinal = 0 ∧ ({ q with irqEn := true } : Queue).irqEn = true) ∧
    -- a copy at its first bytes
    (let r := runOf copyW; let d := (dRun (tagged devT [0x1000 / 64, 0x2000 / 64]) r).begun id0
     descType r.w = tyCopy ∧ r.count ccFail = 0 ∧ r.count ccIssued < coLen r.w ∧ (r.copyAcc true []).sg.target ≠ 3 ∧ coFill r.w = false ∧
     okIs (engReadBytes (r.copyAcc true []) 0x1000 64 d) (fun x d2 => !x.2.1 && decide (d2.overlapFree r 0 x.1 = (x.1, d2)) &&
       wrIs (engWriteBytes (r.copyAcc false []) 0x2000 x.1 false 0 0 d2) (fun d4 => decide (d4.regq = []))) = true) :=
  ⟨⟨rfl, rfl, by decide, by decide, by decide, by decide, by decide⟩, ⟨by decide, by decide, by decide, by decide, by decide +kernel, by decide⟩,
    ⟨rfl, by decide, by decide +kernel, rfl, rfl⟩, ⟨by decide, rfl, by decide, by decide, by decide, by decide +kernel⟩⟩

theorem wit_TimeoutOfEnded :
    (let r := { runOf ((copyW.headD 0 ||| packBits [(32, 16, 5)]) :: copyW.tail) with stage := .ended, owed := 1 }; let d := dRun devQ r
     d.recordWaits r = true ∧ r.prog = 0 ∧ r.takesTimeout = true ∧ d.timeoutOf r ≠ 0) := by decide


/-! ### Witnesses: host link, Taruc, management -/

def devBi : Dev := { devH with hl := { devH.hl with biasDef := 0, page := 7 } }

theorem wit_HostLinkCommands :
    (dev0.rst.held.contains .hl = false ∧ HLink.reset.state ≠ 2 ∧ HLink.reset.state ≠ 3 ∧ dev0.od 0x20A004 16 ≤ 16 ∧ dev0.od 0x20A005 64 ≤ 64 ∧
      dev0.hl.state = 2 ∧ dev0.hl.width = dev0.hl.width) ∧
    ((devHT (hostTx .rdCurrent .recall (.go 0))).hl.state = 2 ∧ (devHT (hostTx .rdCurrent .recall (.go 0))).hostOwesAny = true) ∧
    dev0.refStopped = false ∧ (dev0.dirtyL1 = [] ∧ dev0.dirtySlices = [] ∧ ({ dev0.hl with gpf := 1 } : HLink).gpf = 1 ∧ dev0.hl.gpf = 0) ∧
    (0x6000000000 = (if (0 : Fin 2) = 0 then 0x6000000000 else 0x180000000000) ∧ 0x10000000 % 0x10000000 = 0 ∧ dev0.od 0x20A002 0 = 0) ∧
    (RegSource.writer .host = true ∧ devBi.regHeld 0x201008 = false ∧ devBi.hl.busy = false ∧ 0 < (1 : Word64).toNat % 2 ^ 24 ∧
      (∀ i, i < 1 → devBi.biasPage (devBi.hl.page + i) = true) ∧ devBi.hostLines devBi.hl.page = [] ∧ devBi.pageAsks devBi.hl.page = false ∧
      devBi.hl.heldReqs = []) ∧
    (({ Power.reset with state := 2 } : Power).busy = false ∧ dev0.pwr.state = 0 ∧ dev0.pwr.busy = false) :=
  ⟨⟨rfl, by decide, by decide, by decide, by decide, rfl, rfl⟩, ⟨rfl, by decide⟩, rfl, ⟨rfl, rfl, rfl, rfl⟩, ⟨rfl, rfl, by decide⟩,
    ⟨rfl, by decide +kernel, rfl, by decide, by decide, by decide, by decide, rfl⟩, ⟨rfl, rfl, rfl⟩⟩

def link2 : Link := { Link.reset with state := 2 }
def flit (n : Nat) : FlitRec := { fseq := n, kind := 1, fstart := 0, words := List.replicate 31 0 }
def idleWs : List Word64 := List.replicate 31 0
/-- A CAPX of device 9 with revision 1, a probe's echo. -/
def capxW (v : Nat) : List Word64 := [9, 0, packBits [(56, 8, v)], 0, 0, 0]

theorem not_ne (x : Word64) : ~~~x ≠ x := by
  intro h
  have := congrArg (fun y => y.getLsbD 0) h
  simp at this

theorem wit_LinkCommands : dev0.refStopped = false ∧
    (link2.state = 2 ∧ idleWs.length = 31 ∧ ~~~(flitBits 0 idleWs) ≠ flitBits 0 idleWs ∧
      (qBits [packBits [(38, 2, 1)]] 0 38 2 = 1 ∧ qBits [packBits [(38, 2, 1)]] 0 52 12 = link2.rxSeq) ∧
      (qBits [packBits [(52, 12, 5)]] 0 38 2 = 0 ∧ qBits [packBits [(52, 12, 5)]] 0 52 12 ≠ link2.rxSeq)) ∧
    (({ link2 with retry := [flit 3, flit 4] } : Link).retry.dropWhile (fun y => y.fseq ≠ 4 % 4096) = [flit 4] ∧ link2.replayed < 8 ∧
      (flit 3).fseq < 4096 ∧ 8 ≤ ({ link2 with replayed := 8 } : Link).replayed ∧ link2.nakSent = false ∧
      ({ link2 with nakSent := true } : Link).nakSent = true ∧ link2.outq = []) ∧
    (Link.reset.enable = true ∧ Link.reset.state = 0 ∧ dev0.rst.held.contains .tl = false) ∧
    (let l := { Link.reset with state := 1, capxOk := true, echoes := 255 }
     ({ link := 0, words := capxW 0x10 } : TMsg) ∉ dev0.tr.inbox ∧ l.state = 1 ∧ tmSrc (capxW 0x10) ≠ dev0.od 0x400001 0 ∧
     tmBits (capxW 0x10) 2 56 8 / 16 = 1 ∧ tmBits (capxW 0x20) 2 56 8 / 16 ≠ 1 ∧ tmSrc [0, 0] = dev0.od 0x400001 0 ∧ l.echoes = 255 ∧
     ({ l with echoes := 254 } : Link).echoes < 255 ∧ Link.reset.capxOk = false) :=
  ⟨rfl, ⟨rfl, rfl, not_ne _, by decide, by decide⟩, ⟨by decide, by decide, by decide, by decide, rfl, rfl, rfl⟩, ⟨rfl, rfl, rfl⟩,
    ⟨by decide, rfl, by decide, by decide, by decide, by decide, rfl, by decide, rfl⟩⟩

def peerMsg (ws : List Word64) : TMsg := { link := 0, words := ws }
/-- Requests of device 9 for row 0 of table 3. -/
def lookupM : TMsg := peerMsg (mkMsg mtLookup 0 9 1 (3 * 2 ^ 36) [packBits [(32, 32, (defsum table3.w).toNat)], 0, 0])
def updateM : TMsg := peerMsg (mkMsg mtUpdate 0 9 1 (3 * 2 ^ 36) ([packBits [(32, 32, (defsum table3.w).toNat)], 0] ++ List.replicate 8 0))
/-- A MIGCOPY of row 0 into slot 0x9000 of the pool DRAM, and the entry that a commit finds. -/
def migM : TMsg := peerMsg (mkMsg mtMigcopy 0 9 1 (3 * 2 ^ 36) ([0x9000, 0] ++ List.replicate 4 0))
def pendE : RowEnt := { rowE with valid := false, fwd := true }
def devG (e : Word64) : Dev :=
  { dMem devM (0x10000 / 64) [e] with info := ([0x10000 / 64, 0x4000, 0x4800].foldl (fun m k => Map.put m k { SectorMeta.zero with tag := 1 }) []) }
def bulkM : TMsg := peerMsg (mkMsg mtBkrd 0 9 1 (1 * 2 ^ 36 + 256) [0x4000, 0])
/-- Context 1 exports its segment 0 to peers. -/
def devX : Dev := { tagged devT [0x100, 0x101, 0x102, 0x103] with
  segs := { devT.segs with ctxs := [(1, { CtxCtrl.reset with valid := true, peerExport := 1 })] } }

/-- The same with its segment in host memory. -/
def devY : Dev := { devX with segs := { devX.segs with recs := [(0, seg0), (8, { seg0 with target := 2 })] } }

theorem wit_PeerMessages :
    (devT.partHeld (ingressAgent (msgQuarter lookupM)) = false ∧ devT.lowPower = false ∧ dev0.table (tmBits lookupM.words 1 36 12) = none) ∧
    (let w := lookupM.words; let d := tagged devT [0]; let ac : SegBy := fun k => d.liveAcc 0x2C0 1 k []
     d.table (tmBits w 1 36 12) = some table3 ∧ tmBits w 2 32 32 = (defsum table3.w).toNat ∧
     tmBits w 3 0 40 < tbRows table3.w ∧ table3.epochAt (tmBits w 1 20 16) = .live ∧
     (match resolveRow ac table3.w d.devId 0 (qBit w 1 19) d with
       | .ok ((_, .ent e _), d2) => (match serveRow ac 3 table3.w 0 e none false d2 with
         | .ok (.row _ _ _ _, _) => true
         | _ => false)
       | _ => false) = true) ∧
    (let u := (tagged devT [0]).msgUpdate table3 updateM; let d := tagged devT [0]
     tmBits updateM.words 2 32 32 = (defsum table3.w).toNat ∧ qBit updateM.words 3 63 = false ∧
     (match uncounted (resolveRow (fun k => d.liveAcc 0x2C0 1 k []) table3.w d.devId u.row u.fwded) d with
       | .ok ((_, .ent _ _), _) => true
       | _ => false) = true) ∧
    -- STEPEND of a table whose steps are determined
    (let tb := (tableW.headD 0 ||| packBits [(34, 1, 1)]) :: tableW.tail
     tbDeterm tb = true ∧ tbShards tb = 1 ∧
     (let d := { devT with tb := { devT.tb with store := [(3, some (mkTable tb 0 none))] } }
      match ((d.tookMsg (peerMsg [9, 3 * 2 ^ 36, 5])).stepEnds 3 5 9).table 3 with
      | some y => decide (y.w = tb ∧ y.peers = [])
      | none => false) = true) ∧
    -- MIGCOPY, MIGCOMMIT and MIGABORT
    (let d := devG 0; let ac : SegBy := fun k => d.liveAcc 0x2C0 1 k []
     (tbWmask tableM).testBit 0 = true ∧
     (match guestWord ac tableM 0 d with
       | .ok (some (da, old), d2) => !old.valid && decide ((ac 0).sg.valid = true ∧ 32 * 0x9000 + 31 ≤ (ac 0).sg.limit) &&
         wrIs (engWriteBytes (ac 0) (32 * 0x9000) (bodyBytes (migM.words.drop 4) 32) false 0 0 d2)
           (fun d3 => wrIs (engWriteBytes (d.guestAcc ac tableM 0 da) (daOff da) (leBytes 8 pendE.word.toNat) false 0 0 d3) (fun _ => true))
       | _ => false) = true) ∧
    (let d := devG pendE.word; let ac : SegBy := fun k => d.liveAcc 0x2C0 1 k []
     (match guestWord ac tableM 0 d with
       | .ok (some (da, e), d2) => e.pendingGuest && wrIs (engWriteBytes (d.guestAcc ac tableM 0 da) (daOff da) (leBytes 8 0) false 0 0 d2) (fun _ => true)
       | _ => false) = true) ∧
    -- BKRD and BKWR
    (tmBits bulkM.words 1 0 9 = 256 ∧
     (match devX.peerSeg bulkM 256 .read with
       | .ok (a, off) => okIs (bulkRead a off 4 256 devX) (fun x _ => decide (x.1.length = 256))
       | _ => false) = true ∧
     (match devX.peerSeg bulkM 256 .write with
       | .ok (a, off) => (match bulkWrite { a with acc := { a.acc with desc := some (peerWrite bulkM.words) } } 0 off 0 4 (List.replicate 256 0) devX with
         | .ok (none, d2) => !d2.owes (peerWrite bulkM.words) false
         | _ => false)
       | _ => false) = true ∧
     -- of host memory, the host's answers still to come
     (match devY.peerSeg bulkM 256 .write with
       | .ok (a, off) => (match bulkWrite { a with acc := { a.acc with desc := some (peerWrite bulkM.words) } } 0 off 0 4 (List.replicate 256 0) devY with
         | .ok (none, d2) => d2.owes (peerWrite bulkM.words) false
         | _ => false)
       | _ => false) = true) ∧
    -- an open transaction, and none
    (let t : Tx := { use := .row id0 0, words := lookupM.words }
     let d := { devT with tr := { devT.tr with txs := [(1, some t)] } }
     (d.tookMsg (peerMsg [9, 2 ^ 48])).tx (tmTxid [9, 2 ^ 48]) = some t ∧ d.tx 1 = some t ∧ tmType t.words = mtLookup ∧
     (devT.tookMsg (peerMsg [9, 2 ^ 48])).tx 1 = none ∧ devT.homesQuiet ∧ devT.refStopped = false) :=
  ⟨⟨rfl, rfl, rfl⟩, ⟨by decide +kernel, by decide +kernel, by decide +kernel, rfl, by decide +kernel⟩,
    ⟨by decide +kernel, by decide +kernel, by decide +kernel⟩, ⟨by decide, by decide, by decide +kernel⟩, ⟨by decide, by decide +kernel⟩,
    by decide +kernel, ⟨by decide, by decide +kernel, by decide +kernel, by decide +kernel⟩,
    ⟨by decide +kernel, by decide +kernel, by decide +kernel, by decide +kernel, quiet_of _ rfl rfl rfl, rfl⟩⟩


/-! ### Witnesses: management, faults, resets, tiers, power -/

/-- A frame's first word: operation, role, tag, entries, length. -/
def hdr (op role : Nat) (tagged : Bool) (count len : Nat) : Word64 :=
  packBits [(56, 8, 1), (48, 8, op), (44, 4, role), (43, 1, if tagged then 1 else 0), (32, 8, count), (16, 16, len)]
/-- READ of 0x1000.01 by nobody; WRITE of one entry, of 8 bytes, by the Operator, without its tag. -/
def readF : List Byte := wordBytes [hdr 1 0 false 1 24, 0, packBits [(48, 16, 0x1000), (40, 8, 1)]]
def writeF : List Byte := wordBytes [hdr 2 2 true 1 48, 0, packBits [(48, 16, 0x2090), (40, 8, 1), (0, 12, 8)], 0, 0, 0]
def longF : List Byte := List.replicate 4104 0
def devFr (bs : List Byte) : Dev := { dev0 with mg := { dev0.mg with frames := [{ via := .window, bytes := bs }] } }

theorem hmac_len (k m : List Byte) : (hmac256 k m).length = 32 := by
  have hw : ∀ x : Chain, (x.words.flatMap fun w => beBytes 4 w.toNat).length = 32 := by intro x; simp [Chain.words, beBytes]
  unfold hmac256 sha256
  exact hw _

/-- A READ of the Operator without entries, tagged with its key. -/
def goodF (k : BitVec 256) : List Byte := let p := wordBytes [hdr 1 2 true 0 32, 5]; p ++ frameTag k p

theorem wit_goodTag (k : BitVec 256) :
    (goodF k).drop ((goodF k).length - 16) = frameTag k ((goodF k).take ((goodF k).length - 16)) ∧ (goodF k).length = 32 := by
  have ht : ∀ p, (frameTag k p).length = 16 := by intro p; simp [frameTag, hmac_len]
  have hp : (wordBytes [hdr 1 2 true 0 32, 5]).length = 16 := by decide
  have hl : (goodF k).length = 32 := by simp only [goodF, List.length_append, ht, hp]
  refine ⟨?_, hl⟩
  rw [hl, goodF, List.drop_append_of_le_length (by rw [hp]), List.take_append_of_le_length (by rw [hp])]
  rw [List.drop_of_length_le (by rw [hp]), List.take_of_length_le (by rw [hp])]; rfl

theorem wit_FramesAndFieldNetwork :
    (dev0.rst.held.contains .mg = false ∧ dev0.refStopped = false ∧ Transport.window.limit < longF.length ∧
      readF.length ≤ Transport.window.limit ∧ (frameEntries (headOf readF) readF).isSome = true ∧ (headOf readF).op = 1 ∧
      (headOf readF).tagged = false ∧ frameEntries (headOf (readF.drop 8)) (readF.drop 8) = none ∧
      (frameEntries (headOf writeF) writeF).isSome = true ∧ (headOf writeF).op = 2 ∧ (headOf writeF).tagged = true ∧
      (frameEntries (headOf (wordBytes [hdr 3 0 false 0 16, 0])) (wordBytes [hdr 3 0 false 0 16, 0])).isSome = true) ∧
    (Map.get false dev0.mg.locked 2 = false ∧ dev0.roleKey 2 = 0 ∧ (5 : Word64) ≤ Map.get 0 [(2, 5)] 2) ∧
    -- an entry written at once, one to be kept that waits
    ((dev0.writeEntries .window 2 1 1 []).2 = true ∧
      (let e : Entry := { ix := 0x2060, sub := 2, ty := OType.u16.code, off := 0, len := 2, val := [24, 0] }
       ({ dev0 with pins := { dev0.pins with bkGood := false } } : Dev).writeEntry .window 2 1 1 e = none) ∧
      (objAt 0x2060 2).isSome = true ∧ (objAt 0xFFFF 255).isSome = false) ∧
    (match objAt 0x2060 2 with
      | some o => decide (o.acc ≠ .wo ∧ dev0.mayRead 1 0x2060 = true ∧ o.ty ≠ .str ∧ o.ty ≠ .blob)
      | none => false) = true ∧
    -- the window
    (dev0.rst.held.contains .cp = false ∧ dev0.mg.winBusy = false ∧ (15 : Word64).toNat % 2 ^ 13 < 16 ∧ 16 ≤ (4096 : Word64).toNat % 2 ^ 13 ∧
      4096 < (4097 : Word64).toNat % 2 ^ 13) ∧
    -- the field network
    (dev0.mg.fnState = 0 ∧ dev0.od 0x180001 1 ≠ 0 ∧
      (let src : BitVec 128 := 0xFE800000000000000000000000000001#128
       src.extractLsb' 118 10 = 0x3FA ∧ ((dev0.mg.frames.filter fun f => f.via.isField).length < 4)) ∧ dev0.hl.state = 2) :=
  ⟨⟨rfl, rfl, by decide +kernel, by decide, by decide +kernel, by decide, by decide, by decide +kernel, by decide +kernel, by decide, by decide,
      by decide +kernel⟩, ⟨rfl, rfl, by decide⟩, ⟨rfl, by decide +kernel, by decide +kernel, by decide +kernel⟩, by decide +kernel,
    ⟨rfl, rfl, by decide, by decide, by decide⟩, ⟨rfl, by decide, ⟨by decide, by decide⟩, rfl⟩⟩

theorem wit_KeysCalendarRecords : dev0.pins.bkGood = true ∧ dev0.rst.nvPulse = false ∧ dev0.mg.keyInit = false ∧ dev0.rst.held.contains .mg = false ∧
    dev0.refStopped = false ∧ dev0.mg.firstCal.getLsbD 63 = false ∧ Dev.reset.rst.held.contains .mg = true :=
  ⟨rfl, rfl, rfl, rfl, rfl, by decide, rfl⟩

def fault0 (sv : Severity) : FaultMsg := { source := 0x3E8, sev := sv, kind := 1, addrValid := false, info := 0, dpa := 0 }

theorem wit_FaultsAndResetTriggers : dev0.refStopped = false ∧
    (dev0.partHeld (fault0 .alert).source = false ∧ dev0.rst.held.contains .mg = false ∧ dev0.flt.distributed = false ∧
      (dev0.slot 0x3E8).msg = none ∧ ({ SrcSlot.reset with msg := some (fault0 .fatal) } : SrcSlot).msg = some (fault0 .fatal)) ∧
    (innerWriter .management = true ∧ innerWriter .host = false ∧ (0 : Word64).getLsbD 63 = false ∧
      ((0x8000000000000000 : Word64).getLsbD 63 = true ∧ (0x8000000000000000 : Word64).toNat / 2 ^ 58 % 4 = 0) ∧ dev0.pins.driven = true) ∧
    (canIsolate 0x33F = true ∧ canIsolate 0x340 = false ∧ (0x33F : Word16).toNat ∉ dev0.rst.isolated ∧ (0x1234 : Word16) ≠ 0xA55A ∧
      dev0.rst.nvWaiting = [] ∧ dev0.pins.perst = false ∧ dev0.rst.startStep ≠ 0 ∧
      (dev0.rst.seq = none ∧ ({ dev0.rst with held := [.hl] } : Resets).held.contains .hl = true ∧ 6 ≤ dev0.rst.startStep)) :=
  ⟨rfl, ⟨rfl, rfl, rfl, rfl, rfl⟩, ⟨rfl, rfl, by decide, ⟨by decide, by decide⟩, rfl⟩,
    ⟨by decide, by decide, by decide, by decide, rfl, rfl, by decide, ⟨rfl, rfl, by decide⟩⟩⟩

def trig (s : ResetSource) : Trigger := { source := s, origin := .none, subject := 0x3F1, info := 0 }
def seqAt (s : ResetSource) (step : Nat) : ResetSeq := { (trig s).seq with step := step }
def devRs (q : ResetSeq) : Dev := { dev0 with rst := { dev0.rst with seq := some q } }

theorem wit_ResetCourse :
    (({ dev0.rst with waiting := [trig .warm] } : Resets).waiting = trig .warm :: [] ∧ dev0.rst.nvPulse = false ∧ Dev.reset.rst.startStep = 0 ∧
      dev0.rst.startStep ≠ 0 ∧ dev0.lowPower = false ∧ dev0.rst.startStep = 11 ∧ dev0.rst.seq = none ∧ dev0.rst.waiting = []) ∧
    ((devRs (seqAt .warm 3)).refStopped = false ∧ (devRs (seqAt .warm 3)).rst.seq = some (seqAt .warm 3) ∧ (seqAt .warm 3).hostLost = false ∧ (∀ p ∈ (devRs (seqAt .warm 3)).cores, p.2.sb = []) ∧
      (seqAt .warm 5).step ≠ 3) ∧
    (let q := { seqAt .isolate 5 with parts := [3] }
     q.step = 5 ∧ q.hitsCp = false ∧ (devRs q).recordsDone q = true ∧ q.inCh = false ∧ ((devRs q).emptyFirst q).l1sBusy { q with step := 6 } = false ∧
     (({ devRs q with net := [.req { reqOf .evictDirty with src := 3 }] } : Dev).emptyFirst q).l1sBusy { q with step := 6 } = true) ∧
    ((seqAt .isolate 7).step = 7 ∧ (seqAt .isolate 7).all = false ∧ (seqAt .isolate 7).quarters = [] ∧ (seqAt .isolate 7).hitsCp = false) ∧
    (({ dev0.rst with startStep := 6 } : Resets).startStep = 6 ∧ dev0.tier.hdm0 = true ∧ dev0.pins.bkGood = true ∧ Dev.reset.pins.perst = Dev.reset.pins.perst ∧
      ({ Dev.reset with pins := { Pins.reset with perst := false } } : Dev).pins.perst = false) ∧
    Memory.wf (dMem dev0 (0x1000000000000 / 64) [1]).mem = true :=
  ⟨⟨rfl, rfl, rfl, by decide, rfl, rfl, rfl, rfl⟩, ⟨rfl, rfl, rfl, (by intro p h; cases h), by decide⟩,
    ⟨rfl, by decide, rfl, by decide, by decide +kernel, by decide +kernel⟩, ⟨rfl, rfl, rfl, by decide⟩, ⟨rfl, rfl, rfl, rfl, rfl⟩, by decide +kernel⟩

/-- TIER_TAG of 256 bytes of DRAM. -/
def tagW : List Word64 := [packBits [(60, 4, tyMaint)], packBits [(56, 8, 0x08)], 0, 256, 0, 0, 0, 0]

theorem wit_TierReadiness :
    (dev0.symErr = [] ∧ Dev.reset.rst.held.contains .mem = true ∧ dev0.rst.held.contains .mem = false ∧ Tier.reset.hdm0 = false ∧ Tier.reset.hdm1 = false ∧
      dev0.retain = false ∧ ({ dev0 with mg := { dev0.mg with vals := [(0x240401, 1)] } } : Dev).retain = true ∧ Memory.wf dev0.mem = true) ∧
    (let r := runOf tagW; let d := dRun dev0 r
     d.tagHead = some r ∧ d.tierReady (ttDpa r.w) = true ∧ r.stage ≠ .admitted ∧
     ({ d with tier := { d.tier with hdm0 := false } } : Dev).tierReady (ttDpa r.w) = false) ∧
    (match tagGranule { src := mgmtAgent, ctx := 0, seg := 0, gen := 0, rt := .normal, h := [], desc := none } 7 0 dev0 with
      | .ok _ => true
      | _ => false) = true ∧
    (let r := { runOf tagW with cnt := [(ttClear, 1)], pos := 1 }; let d := dRun dev0 r
     d.run id0 = some r ∧ r.count ttClear ≠ 0 ∧ d.owes id0 true = false ∧ ttLen r.w / 256 ≤ r.pos) :=
  ⟨⟨rfl, rfl, rfl, rfl, rfl, by decide, by decide, rfl⟩, ⟨by decide, by decide, by decide, by decide⟩, by decide +kernel,
    ⟨rfl, by decide, rfl, by decide⟩⟩

def devD (x : Die) : Dev := { dev0 with tier := { dev0.tier with dies := [(0, x)] }, wq := [(0, [(resDpa / 256, true)])] }

theorem wit_TierUpkeep :
    ((dev0.stack 7).selfRefresh = false ∧ Map.get 0 (dev0.stack 7).refreshed 5 = 0 ∧
      (let d := dev0.setStack 7 { Stack.reset with refreshed := [(5, 1)], bins := [(5, some 1)] }
       Map.get 0 (d.stack 7).refreshed 5 ≠ 0 ∧ (d.now - Map.get 0 (d.stack 7).refreshAt 5).toNat < d.refreshInterval 7 5 ∧
       let e := d.setQ 0 { Quarter.reset with refCount := 3200000 }
       e.refreshInterval 7 5 ≤ (e.now - Map.get 0 (e.stack 7).refreshAt 5).toNat) ∧ (dev0.tier.scrubPos + 1 < dramSectors) ∧ (dev0.badSymbols 0 [39, 0]).length ≤ 2 ∧
      2 < (dev0.badSymbols 0 [39, 0, 5]).length ∧ dev0.badSymbols 0 [] = [] ∧ (1 : Nat) ≠ dev0.tier.scrubPos) ∧
    (isRes (lineDpa (resDpa / 256)) = true ∧ dev0.controllerOf (lineDpa (resDpa / 256)) = 8 + 0 ∧
      (∀ j, j < 4 → Map.get 0 dev0.symErr (4 * (resDpa / 256) + j) = 0) ∧ (dev0.die 0).temp ≤ 950 ∧ (dev0.die 0).swept.length + 1 ≠ dieBlocks ∧
      resDpa / 256 ∉ (dev0.die 0).swept ∧ resDpa / 256 ∈ ({ Die.reset with swept := [resDpa / 256] } : Die).swept) ∧
    (Map.get [] (devD Die.reset).wq 0 = (resDpa / 256, true) :: [] ∧ dev0.symErr = [] ∧
      (GapRegs.reset.since + 1 < dev0.gapWrites ∧ dev0.gapWrites ≤ ({ GapRegs.reset with since := 99 } : GapRegs).since + 1) ∧
      Map.get [] dev0.wq 0 = []) ∧
    ((dev0.die 0).swap = none ∧ dev0.swapDue 0 = false ∧ (devD { Die.reset with writes := [(0, 2 ^ 60)] }).swapDue 0 = true ∧
      ((devD { Die.reset with swap := some (0, 1, 0) }).die 0).logicalOf 0 ≠ ((devD { Die.reset with swap := some (0, 1, 0) }).die 0).logicalOf 1) ∧
    dev0.tier.sweepLate = false ∧ ({ dev0.tier with sweepLate := true } : Tier).sweepLate = true ∧ (dev0.sweepInterval 0).isSome = true ∧
    (devD { Die.reset with sweepMax := 951 }).sweepInterval 0 = none :=
  ⟨⟨rfl, rfl, ⟨by decide, by decide, by decide⟩, by decide, by decide, by decide, rfl, by decide⟩,
    ⟨by decide, by decide, (by intro j _; rfl), by decide, by decide, by decide, by decide⟩,
    ⟨rfl, rfl, ⟨by decide, by decide⟩, rfl⟩, ⟨rfl, by decide +kernel, by decide +kernel, by decide +kernel⟩, rfl, rfl, by decide, by decide⟩

/-- With every page DEVICE. -/
def devDv : Dev := { dev0 with hl := { dev0.hl with biasDef := 0 } }
def devP (p : Power) : Dev := { devDv with pwr := p }

theorem wit_PowerStates :
    (devDv.powerCause 1 = 0 ∧ (devP { Power.reset with state := 1 }).powerCause 3 = 0 ∧ (devP { Power.reset with state := 3 }).pwr.busy = false ∧
      dev0.pwr.state = 0) ∧
    (let p := { Power.reset with busy := true, step := 2, target := 3 }
     p.exiting = false ∧ (∀ n ∈ namedCaches 0, ((devP p).cache n).busy = false) ∧ p.wake = none ∧
     ({ p with step := 3 } : Power).target = 3 ∧ ({ p with wake := some 2, step := 3 } : Power).wake = some 2) ∧
    (∃ n ∈ namedCaches 0, (({ dev0 with caches := [(5, { onDone with busy := true })] } : Dev).cache n).busy = true) ∧
    (let p := { Power.reset with busy := true, exiting := true, step := 5 }
     p.exiting = true ∧ p.gated = [] ∧ (devP p).walking = false ∧ (devP p).calibrating = false) ∧
    -- a quarter still on its way, one that calibrates, a block still to be stored
    ((qAt { Quarter.reset with wait := .walk 600 }).walking = true ∧ (qAt { Quarter.reset with wait := .calib }).calibrating = true ∧
      dev0.writesDrained = true ∧ (devD Die.reset).writesDrained = false ∧ (dev0.qr 3).emGroups = [] ∧ (dev0.qr 3).noChange = false ∧
      (dev0.qr 3).vreq ≠ 600) ∧
    dev0.rst.nvPulse = false ∧ dev0.rst.nvWaiting = [] :=
  ⟨⟨by decide, by decide, rfl, rfl⟩, ⟨rfl, (by intro n _; rfl), rfl, rfl, rfl⟩, ⟨5, by decide, rfl⟩, ⟨rfl, rfl, by decide, by decide⟩,
    ⟨by decide, by decide, by decide, by decide, rfl, rfl, by decide⟩, rfl, rfl⟩

theorem wit_LowPowerRequests :
    devDv.drained = true ∧ (∀ m ∈ devDv.cp.mbx, m.2.enable = false) ∧ devDv.allDevice = true ∧ dev0.pwr.busy = false ∧ dev0.pwr.state ≠ 3 ∧
    ({ dev0 with cp := { dev0.cp with queues := [(0, queue0)] } } : Dev).drained = false ∧
    ({ devDv with hl := { devDv.hl with bias := [(0, some 1)] } } : Dev).allDevice = false ∧
    (∃ m ∈ [(0, { Mailbox.reset with enable := true })], m.2.enable = true) ∧ (devP { Power.reset with state := 3 }).pwr.state = 3 :=
  ⟨by decide, (by intro m h; cases h), by decide, rfl, by decide, by decide, by decide, ⟨_, List.mem_singleton.mpr rfl, rfl⟩, rfl⟩

theorem wit_RegisterWrites : (2 ≠ 4 ∧ 2 ≠ 8) ∧ 0x703000 % 8 = 0 ∧ (0x2000000 : Nat) < bar2 ∧ RegSource.writer .other = false ∧
    0x2000000 / 8 * 8 = 0x2000000 ∧ dev0.rst.held.contains .cp = false ∧ (3 : Word64).toNat % 4 = 3 ∧ RegSource.writer .management = true ∧
    Dev.reset.regHeld 0x200000 = true ∧ Dev.reset.rst.held.contains .tl = true ∧ dev0.rst.held.contains .tl = false ∧
    dev0.rst.held.contains .mem = false :=
  ⟨by decide, by decide, by decide, rfl, by decide, rfl, by decide, rfl, by decide, rfl, rfl, rfl⟩

/-! ### Witnesses: the whole block -/

theorem wit_StepTakesFront : dev0.rst.startStep ≠ 0 ∧ dev0.refStopped = false ∧ Dev.reset.rst.startStep = 0 ∧ st0.pending = [] :=
  ⟨by decide, rfl, rfl, rfl⟩

theorem wit_QueueKept : ({ st0 with pending := [.coldStart, .fnLinkUp] } : State).queueOk := by
  intro i h
  rcases List.mem_cons.mp h with rfl | h
  · rfl
  · cases List.mem_singleton.mp h; rfl

theorem wit_MemoryFormKept : ({ st0 with dev := dMem dev0 5 [1, 2, 3] } : State).memOk ∧
    ∃ t, step { pending := [.coldStart], dev := dMem dev0 5 [1, 2, 3] } = .next t := ⟨show Memory.wf _ = true by decide +kernel, _, rfl⟩

theorem wit_MemoryReadsWrites : Memory.wf (dMem dev0 5 [1, 2, 3]).mem = true ∧ (64 * 6) / 64 ≠ 5 := ⟨by decide +kernel, by decide⟩


/-! ### Well-formedness: an ill-formed term for each check, refused -/

def goodReq (kind : ReqKind) : ReqMsg := reqOf kind
def goodRsp : RspMsg := rspAt .data
def goodMem : MemMsg := { kind := .rd, txid := 0, line := 0, sec := 3, data := 0, info := .zero, req := none, old := 0, refused := none }

theorem test_wf_fields : WellFormed (.add 0 { fld 1 2 3 0 with imm := true }) = true ∧ WellFormed (.fadd 0 { fld 1 2 3 0 with imm := true }) = false := by
  decide
theorem test_wf_canary : WellFormed (.canaryReadRound 0 (List.replicate 64 0) 0) = true ∧ WellFormed (.canaryReadRound 0 [] 0) = false := by decide
theorem test_wf_request : WellFormed (.rdown (goodReq .rdOwn)) = true ∧ WellFormed (.rdown (goodReq .claim)) = false ∧
    WellFormed (.rdown { goodReq .rdOwn with src := 0x400 }) = false ∧ WellFormed (.rdown { goodReq .rdOwn with line := 2 ^ 48 }) = false ∧
    WellFormed (.rdown { goodReq .rdOwn with ctx := 4096 }) = false ∧ WellFormed (.rdown { goodReq .rdOwn with seg := 8 }) = false ∧
    WellFormed (.rdown { goodReq .rdOwn with gen := 16 }) = false ∧ WellFormed (.rdown { goodReq .rdOwn with off := 64 }) = false ∧
    WellFormed (.rdown { goodReq .rdOwn with pay := [{ sec := 4, data := 0, info := .zero }] }) = false ∧
    WellFormed (.rdown { goodReq .rdOwn with pay := [{ sec := 3, data := 0, info := { SectorMeta.zero with tag := 4096 } }] }) = false := by decide
theorem test_wf_snoop : WellFormed (.snpinv (snpOf .inv)) = true ∧ WellFormed (.snpinv (snpOf .fwdShared)) = false ∧
    WellFormed (.snpinv { snpOf .inv with core := 0x110 }) = false ∧ WellFormed (.snpinv { snpOf .inv with core := 0x403 }) = true ∧
    WellFormed (.snpinv { snpOf .inv with sec := 4 }) = false ∧ WellFormed (.snpinv { snpOf .inv with line := 2 ^ 48 }) = false := by decide
theorem test_wf_response : WellFormed (.data goodRsp) = true ∧ WellFormed (.grant goodRsp) = false ∧ WellFormed (.data { goodRsp with dst := 0x400 }) = false ∧
    WellFormed (.data { goodRsp with sec := 4 }) = false ∧ WellFormed (.data { goodRsp with line := 2 ^ 48 }) = false ∧
    WellFormed (.data { goodRsp with info := { SectorMeta.zero with wclass := 8 } }) = false ∧
    WellFormed (.data { goodRsp with info := { SectorMeta.zero with epoch := 65536 } }) = false := by decide
theorem test_wf_answer : WellFormed (.ack (ansOf .ack)) = true ∧ WellFormed (.ack (ansOf .ackData)) = false ∧
    WellFormed (.ack { ansOf .ack with src := 0x404 }) = false ∧ WellFormed (.ack { ansOf .ack with sec := 4 }) = false ∧
    WellFormed (.ack { ansOf .ack with line := 2 ^ 48 }) = false ∧
    WellFormed (.ack { ansOf .ack with info := { SectorMeta.zero with tag := 4096 } }) = false := by decide
theorem test_wf_memory : WellFormed (.memrd goodMem) = true ∧ WellFormed (.memwr goodMem) = false ∧ WellFormed (.memrd { goodMem with sec := 4 }) = false ∧
    WellFormed (.memrd { goodMem with line := 2 ^ 48 }) = false ∧
    WellFormed (.memrd { goodMem with info := { SectorMeta.zero with tag := 4096 } }) = false := by decide
theorem test_wf_host : WellFormed (.memRd (hostReq 64 .S)) = true ∧ WellFormed (.memRd (hostReq 65 .S)) = false ∧ WellFormed (.snpInv 65) = false ∧
    WellFormed (.birsp (2 ^ 48) 0 .i) = false ∧ WellFormed (.goErr (2 ^ 48) 0) = false := by decide
theorem test_wf_hold : WellFormed (.holdEnd 0x1BF 0) = true ∧ WellFormed (.holdEnd 0x1C0 0) = false ∧ WellFormed (.holdEnd 0x110 0) = false ∧
    WellFormed (.holdEnd 0 (2 ^ 48)) = false := by decide
theorem test_wf_caches : WellFormed (.cacheEnable .host 527) = true ∧ WellFormed (.cacheEnable .host 528) = false ∧ WellFormed (.cacheEnable .host 64) = false ∧
    WellFormed (.generationCopyAck 0 0 140) = false ∧ WellFormed (.qdoorbell .host 0 0 0 2) = false := by decide
theorem test_wf_taruc : WellFormed (.ping (peerMsg (mkMsg mtPing 0 9 1 0 []))) = true ∧ WellFormed (.pong (peerMsg (mkMsg mtPing 0 9 1 0 []))) = false ∧
    WellFormed (.ping (peerMsg (mkMsg mtPing 0 9 1 0 [] ++ [0]))) = false ∧ WellFormed (.ping { link := 37, words := mkMsg mtPing 0 9 1 0 [] }) = false ∧
    WellFormed (.flitReceive 0 0 [] 0) = false ∧ WellFormed (.capx 0 [0, 0]) = false ∧ WellFormed (.peerAnswerLimit 65536) = false := by decide
theorem test_wf_readings : WellFormed (.sensorSample { quarters := [], stackT := [], dieT := [], vbk := 0 }) = false ∧
    WellFormed (.faultRaise { fault0 .alert with source := 0x400 }) = false ∧ WellFormed (.crit .none 0x400 0) = false ∧
    WellFormed (.hdm0Ready [8]) = false ∧ WellFormed (.hdm1Ready [64]) = false ∧ WellFormed (.refresh 0 8192) = false ∧
    WellFormed (.dramScrub 0 [40]) = false ∧ WellFormed (.retentionSweep 0 0 [160] []) = false ∧
    WellFormed (.fnDatagram 0 0 65536 0 0 []) = false ∧ WellFormed (.fnDatagram 0 0 0 0 256 []) = false ∧
    WellFormed (.registerWrite .host 4 8 0) = false ∧ WellFormed (.registerWrite .host 8 16 0) = false := by decide

/-! ### Results that the manual or a standard it names gives -/

/-- The worked example of 07_memory_tiers.md: DPA 0x12_3456_7800 with its group GLOBAL and LOCAL. -/
theorem test_home_global : dev0.homeOf 0x1234567800 = 41 ∧ dev0.posOf 0x1234567800 = 0x68AC8 ∧ dev0.controllerOf 0x1234567800 = 5 := by decide
theorem test_home_local : ({ dev0 with ilvDram := 2 ^ 18 } : Dev).homeOf 0x1234567800 = 11 ∧
    ({ dev0 with ilvDram := 2 ^ 18 } : Dev).controllerOf 0x1234567800 = 1 := by decide

/-- The worked example of 11_segments.md. -/
def segEx2 : SegRec := { SegRec.reset with valid := true, base := 0x1000000000, limit := 0x3FFFFFFFF }
def segEx3 : SegRec := { SegRec.reset with valid := true, target := 1, base := 0x206480000000, limit := 0xFFFFFFFF, ilv := true }
theorem test_segments : segEx2.dpa 0x123456700 = 0x1123456700 ∧ segEx3.dpa 0xC0001000 = 0x206780001000 ∧ segEx3.homeQuarter = 2 ∧
    segEx3.offsetOf 0x206780001000 = some 0xC0001000 ∧ segEx3.offsetOf (0x200000000000 + 0x6500000000) = none := by decide

/-- The worked example of 17_boundary.md: 775 mV for Q2. -/
theorem test_vreq : ((devDv.setQ 2 { Quarter.reset with vreq := 775 }).vreqFrame 2).out.head? = some (.vreq 0x3A 0x23 0x1C) := by decide

/-- R106: with e = 2, stamp 0xFFFE is earlier. -/
theorem test_epochs : earlier 0xFFFE 2 = true ∧ earlier 2 0xFFFE = false ∧ earlier 2 2 = false := by decide

/-- Table 6.7: three partials merged in two orders. -/
def part24 : Exact := Exact.zero.addVal (-18) (.fin false 1 24)
def part1 : Exact := Exact.zero.addVal (-18) (.fin false 1 0)
def partM : Exact := Exact.zero.addVal (-18) (.fin true 1 24)
theorem test_exact : part24.t = 0x40000000000 ∧ (part24.merge part1).merge partM = part1 ∧ (part24.merge partM).merge part1 = part1 ∧
    part1.t = 0x40000 ∧ part1.convert .fp32 false (-18) 1 = 0x3F800000 := by decide +kernel

/-- The FP32 results of the same example, in the order of arrival. -/
theorem test_fp32_order : FloatFmt.fp32.round false ((FloatFmt.fp32.decode 0x4B800000).add (FloatFmt.fp32.decode 0x3F800000)) = 0x4B800000 := by
  decide +kernel

/-- Table 6.9: the merged list. -/
def tkE (key id : Nat) : TkEntry := { key := BitVec.ofNat 32 key, id := BitVec.ofNat 64 id }
def tkAll (xs : List TkEntry) : List TkEntry := (xs.foldl (fun l x => (tkInsert false 1 x l).take 4) [])
theorem test_topk : tkAll [tkE 12 0x2A001, tkE 14 0x2A1F0, tkE 15 0x2A003, tkE 15 0x2A004, tkE 13 0x90001, tkE 14 0x07777, tkE 14 0x90002, tkE 16 0x90003] =
    [tkE 12 0x2A001, tkE 13 0x90001, tkE 14 0x07777, tkE 14 0x2A1F0] := by decide

/-- FIPS 180-4, the digest of "abc"; the check values of CRC-32C and of CRC-64/WE, which R404 and R406 name by polynomial. -/
theorem test_sha256 : (sha256 [0x61, 0x62, 0x63]).take 8 = [0xBA, 0x78, 0x16, 0xBF, 0x8F, 0x01, 0xCF, 0xEA] := by decide +kernel
def digits : List Byte := (List.range 9).map fun i => BitVec.ofNat 8 (0x31 + i)
theorem test_crc32c : crc32c digits = 0xE3069283 := by decide +kernel
theorem test_crc64 : crc64 digits = 0x62EC59E3F1A4F00A := by decide +kernel

/-! ### One command each -/

/-- What core 0 holds after a command. -/
def after (i : Instr) (s : State) : Core :=
  match exec i s with
  | .next t => t.dev.core 0
  | _ => Core.reset
def two (x y : Word64) : State := at0 { core0 with s := [(1, x), (2, y)] }

theorem test_add_wraps : (after (.add 0 (fld 3 1 2 0)) (two (BitVec.allOnes 64) 2)).sr 3 = 1 := by decide
theorem test_sub_immediate : (after (.sub 0 { fld 1 1 0 0 with imm := true, mod := 0xFFFFF }) (two 5 0)).sr 1 = 6 := by decide
theorem test_mulh_signs : (after (.mulh 0 (fld 3 1 2 0)) (two (BitVec.allOnes 64) 2)).sr 3 = BitVec.allOnes 64 ∧
    (after (.mulhu 0 (fld 3 1 2 0)) (two (BitVec.allOnes 64) 2)).sr 3 = 1 := by decide
theorem test_sar : (after (.sar 0 (fld 3 1 2 0)) (two 0x8000000000000000 63)).sr 3 = BitVec.allOnes 64 := by decide
theorem test_cmplt : (after (.cmplt 0 (fld 3 1 2 0)) (two (BitVec.allOnes 64) 0)).sr 3 = 1 ∧
    (after (.cmpltu 0 (fld 3 1 2 0)) (two (BitVec.allOnes 64) 0)).sr 3 = 0 := by decide
theorem test_clz : (after (.clz 0 (fld 3 1 0 0)) (two 1 0)).sr 3 = 63 ∧ (after (.ctz 0 (fld 3 1 0 0)) (two 0 0)).sr 3 = 64 := by decide
theorem test_fadd : (after (.fadd 0 (fld 3 1 2 0)) (two 0x3F800000 0x40000000)).sr 3 = 0x40400000 := by decide +kernel
theorem test_p0_ones : (after (.pxor 0 (fld 0 0 0 0)) st0).pr 0 = BitVec.allOnes 64 := by decide
theorem test_pc_moves : (after (.nop 0 (fld 0 0 0 0)) st0).pc = 8 := by decide
theorem test_load_hit : (after (.ld64 0 { fld 3 0 0 0 with mod := 0x40 }) stHit).sr 3 = 7 := by decide +kernel
theorem test_store_waits : (after (.st64 0 { fld 1 0 0 0 with mod := 0x40 }) (two 9 0)).sb.length = 1 := by decide +kernel
theorem test_scratch : (after (.sld64 0 (fld 3 1 0 0)) (at0 ((core0.setS 1 64).putScratch 64 [1, 2, 3, 4, 5, 6, 7, 8]))).sr 3 = 0x0807060504030201 := by
  decide +kernel
theorem test_step_empty : (match step { st0 with pending := [] } with
    | .next t => decide ((t.dev.qr 0).refCount = 1)
    | _ => false) = true := by decide
/-- The spec's worked word of TMMA (06_arithmetic_and_encodings.md, Table 6.11 and its example), and class 0xC, which Table 6.13 does not
list. -/
theorem test_core_word : decodeCoreWord 0 0x700004214850000A =
    some (.tmma 0 { fld 1 2 5 8 with fmt := 5, mod := 10 }) ∧ decodeCoreWord 0 0xC000000000000000 = none ∧
    decodeCoreWord 0 0x2160000000000000 = some (.nop 0 (fld 0 0 0 0)) := by decide +kernel

end Sys2Proof.Tests
end

section
/-! A register write of 8 bytes goes to the rule of its region of the register space (R11, R12, R343, R344), and to nothing where the
access or its source does not reach a register. One lemma per region, then one per register of the region. -/

open Sys2Proof Sys2Proof.Machine

namespace Sys2Proof.Machine

/-! ### A whole register -/

@[simp] theorem halfMask_eight (off : Nat) : halfMask off 8 = 0xFFFFFFFFFFFFFFFF#64 := rfl

@[simp] theorem onLanes_eight (off : Nat) (v : Word64) : onLanes off 8 v = v := BitVec.and_allOnes

@[simp] theorem mergeBits_whole (old v : Word64) : mergeBits old v 0xFFFFFFFFFFFFFFFF#64 = v := by simp [mergeBits]

/-! ### The command -/

/-- REGISTER_WRITE is the write at its address. -/
theorem exec_registerWrite (s : State) (src : RegSource) (a n : Nat) (v : Word64) :
    exec (.registerWrite src a n v) s = .next (s.withDev (s.dev.writeReg src a n v)) := rfl

/-- A write that changes nothing answers the state it was given. -/
theorem exec_registerWrite_ignored {s : State} {src : RegSource} {a n : Nat} {v : Word64} (h : s.dev.writeReg src a n v = s.dev) :
    exec (.registerWrite src a n v) s = .next s := by
  rw [exec_registerWrite, h]; rfl

/-! ### Sources -/

theorem innerWriter_iff {src : RegSource} : innerWriter src = true ↔ src = .management ∨ src = .context0 := by simp [innerWriter]

/-- Who writes the registers that BAR0 does not map writes those of BAR0 too. -/
theorem RegSource.writer_of_inner {src : RegSource} (hs : innerWriter src = true) : RegSource.writer src = true := by
  rcases innerWriter_iff.mp hs with rfl | rfl <;> rfl

/-! ### Regions -/

section
variable {d : Dev} {src : RegSource} {a n : Nat} {v : Word64}

/-- An access of another size, or out of alignment, is ignored (R344). -/
theorem Dev.writeReg_malformed (h : (n ≠ 4 ∧ n ≠ 8) ∨ a % n ≠ 0) : d.writeReg src a n v = d := by
  unfold Dev.writeReg
  exact if_pos (by simpa using h)

/-- Only the host reaches BAR2 (R448). -/
theorem Dev.writeReg_bar2_foreign (hs : src ≠ .host) (ha : bar2 ≤ a) : d.writeReg src a n v = d := by
  by_cases h : (n ≠ 4 ∧ n ≠ 8) ∨ a % n ≠ 0
  · exact Dev.writeReg_malformed h
  · simp [Dev.writeReg, Dev.writeBar2, ha, hs]

theorem Dev.writeReg_bar2 (ha : bar2 ≤ a) (h8 : a % 8 = 0) :
    d.writeReg src a 8 v = d.writeBar2 src (a - bar2) 8 v 0xFFFFFFFFFFFFFFFF#64 v := by
  simp [Dev.writeReg, ha, h8]

/-- A source that may not write BAR0's registers reaches the doorbells alone (R343, R344). -/
theorem Dev.writeReg_notWriter (ha : a < bar2) (hw : RegSource.writer src = false)
    (hd : a / 8 * 8 < 0x2000000 ∨ 0x3000000 ≤ a / 8 * 8) : d.writeReg src a 8 v = d := by
  have hd' : ¬(0x2000000 ≤ a / 8 * 8 ∧ a / 8 * 8 < 0x3000000) := by omega
  simp [Dev.writeReg, Nat.not_le.mpr ha, hw, hd']

/-- The doorbell page of a context (R343, R350). -/
theorem Dev.writeReg_doorbell {q : Nat} (hq : q < 4096) (hcp : d.rst.held.contains .cp = false) :
    d.writeReg src (0x2000000 + 4096 * q) 8 v = d.doorbell q (v.extractLsb' 36 14).toNat (v.extractLsb' 0 32).toNat := by
  have hb : ¬ bar2 ≤ 0x2000000 + 4096 * q := by unfold bar2; omega
  have h8 : (0x2000000 + 4096 * q) % 8 = 0 := by omega
  have hoff : (0x2000000 + 4096 * q) / 8 * 8 = 0x2000000 + 4096 * q := by omega
  have hlo : 0x2000000 ≤ 0x2000000 + 4096 * q := Nat.le_add_right _ _
  have hhi : 0x2000000 + 4096 * q < 0x3000000 := by omega
  have hpage : (0x2000000 + 4096 * q) % 4096 = 0 := by omega
  have hctx : (0x2000000 + 4096 * q - 0x2000000) / 4096 = q := by omega
  simp only [Dev.writeReg, hb, h8, hoff, hlo, hhi, hpage, hctx, hcp, halfMask_eight, onLanes_eight]
  simp

/-- Registers that BAR0 does not map. -/
theorem Dev.writeReg_inner (hw : RegSource.writer src = true) (h8 : a % 8 = 0) (hlo : 0x600000 ≤ a) (hhi : a < 0x800000) :
    d.writeReg src a 8 v = d.writeInner src a v 0xFFFFFFFFFFFFFFFF#64 := by
  have hb : ¬ bar2 ≤ a := by unfold bar2; omega
  have hoff : a / 8 * 8 = a := by omega
  have hd : ¬ 0x2000000 ≤ a := by omega
  simp [Dev.writeReg, hb, h8, hoff, hd, hw, hlo, hhi]

/-- Registers of homes, caches and bias. -/
theorem Dev.writeReg_ch (hw : RegSource.writer src = true) (h8 : a % 8 = 0) (hlo : 0x200000 ≤ a) (hhi : a < 0x300000) :
    d.writeReg src a 8 v = d.writeChReg src a v 0xFFFFFFFFFFFFFFFF#64 := by
  have hb : ¬ bar2 ≤ a := by unfold bar2; omega
  have hoff : a / 8 * 8 = a := by omega
  have hd : ¬ 0x2000000 ≤ a := by omega
  have hi : ¬ 0x600000 ≤ a := by omega
  have ht : a ≠ 0x40 := by omega
  simp [Dev.writeReg, hb, h8, hoff, hd, hi, ht, hw, hlo, hhi]

end

/-! ### Which part a register belongs to (R26) -/

theorem Dev.regHeld_tierStatus (d : Dev) : d.regHeld 0x40 = d.rst.held.contains .mem := by simp [Dev.regHeld]

/-- The registers of links are held with the links. -/
theorem Dev.regHeld_link (d : Dev) {a : Nat} (hlo : 0x600000 ≤ a) (hhi : a < 0x600900) : d.regHeld a = d.rst.held.contains .tl := by
  rw [Bool.eq_iff_iff]
  simp only [Dev.regHeld, Bool.or_eq_true, Bool.and_eq_true, decide_eq_true_eq]
  grind

/-- No part that can be held has a register of fault handling or power. -/
theorem Dev.regHeld_faultPower (d : Dev) {a : Nat} (hlo : 0x600900 ≤ a) (hhi : a < 0x1000000) : d.regHeld a = false := by
  rw [Bool.eq_false_iff]
  simp only [Dev.regHeld, ne_eq, Bool.or_eq_true, Bool.and_eq_true, decide_eq_true_eq]
  omega

/-! ### Registers -/

section
variable {d : Dev} {src : RegSource} {v : Word64}

/-- The host does not write the registers that BAR0 does not map. -/
theorem Dev.writeReg_inner_host {a : Nat} (hlo : 0x600000 ≤ a) (hhi : a < 0x800000) : d.writeReg .host a 8 v = d := by
  by_cases h8 : a % 8 = 0
  · rw [Dev.writeReg_inner rfl h8 hlo hhi]; rfl
  · exact Dev.writeReg_malformed (.inr h8)

/-- RST_PWR_CTRL (R515). -/
theorem Dev.writeReg_powerCtrl (hs : innerWriter src = true) : d.writeReg src 0x703000 8 v = d.powerCtrl src (v.toNat % 4) := by
  rw [Dev.writeReg_inner (RegSource.writer_of_inner hs) rfl (by decide) (by decide)]
  simp [Dev.writeInner, hs, Dev.regHeld_faultPower, BitVec.extractLsb'_toNat]

/-- FLT_INJECT (R470, R485). -/
theorem Dev.writeReg_inject (hs : innerWriter src = true) : d.writeReg src 0x701000 8 v = d.inject src v := by
  rw [Dev.writeReg_inner (RegSource.writer_of_inner hs) rfl (by decide) (by decide)]
  simp [Dev.writeInner, hs, Dev.regHeld_faultPower]

/-- TRC_LINK_CTRL is the first register of a link's 64 bytes (R429); with the links held it takes no write (R26). -/
theorem Dev.writeInner_linkCtrl {a : Nat} (hs : innerWriter src = true) (hlo : 0x600000 ≤ a) (hhi : a < 0x600900) (h64 : a % 64 = 0)
    (mask : Word64) : d.writeInner src a v mask =
      if d.rst.held.contains .tl then d else d.writeLinkCtrl ((a - 0x600000) / 64) v mask := by
  simp [Dev.writeInner, hs, Dev.regHeld_link d hlo hhi, hhi, h64]

theorem Dev.writeReg_linkCtrl (hs : innerWriter src = true) (n : LinkId) : d.writeReg src (0x600000 + 64 * n.val) 8 v =
    if d.rst.held.contains .tl then d else d.writeLinkCtrl n.val v 0xFFFFFFFFFFFFFFFF#64 := by
  have hn := n.isLt
  have hnum : (0x600000 + 64 * n.val - 0x600000) / 64 = n.val := by omega
  rw [Dev.writeReg_inner (RegSource.writer_of_inner hs) (by omega) (by omega) (by omega),
    Dev.writeInner_linkCtrl hs (by omega) (by omega) (by omega), hnum]

/-- A register of a held home, cache or bias unit takes no write (R26). -/
theorem Dev.writeReg_ch_held {a : Nat} (hw : RegSource.writer src = true) (h8 : a % 8 = 0) (hlo : 0x200000 ≤ a) (hhi : a < 0x300000)
    (hheld : d.regHeld a = true) : d.writeReg src a 8 v = d := by
  rw [Dev.writeReg_ch hw h8 hlo hhi]
  exact if_pos hheld

/-- TIER_STATUS. -/
theorem Dev.writeReg_tierStatus (hw : RegSource.writer src = true) (hmem : d.rst.held.contains .mem = false) :
    d.writeReg src 0x40 8 v = d.writeTierStatus v := by
  have hb : ¬ bar2 ≤ 0x40 := by decide
  have hfree : d.regHeld 0x40 = false := by rw [Dev.regHeld_tierStatus, hmem]
  simp [Dev.writeReg, hb, hw, hfree]

/-- GO of the dictionary window, in BAR2 (R448). -/
theorem Dev.writeReg_winGo (hcp : d.rst.held.contains .cp = false) : d.writeReg .host (bar2 + 8) 8 v = d.winGo .host v := by
  rw [Dev.writeReg_bar2 (Nat.le_add_right _ _) (by decide), Nat.add_sub_cancel_left]
  have hfree : Domain.cp ∉ d.rst.held := by simpa using hcp
  simp [Dev.writeBar2, hfree]

end

end Sys2Proof.Machine

namespace Sys2Proof.Proofs

/-! ### Power, fault and link registers at the command -/

section
variable {s : State} {src : RegSource} {v : Word64}

theorem exec_registerWrite_powerCtrl (hs : innerWriter src = true) {state : Nat} (h : v.toNat % 4 = state) :
    exec (.registerWrite src 0x703000 8 v) s = s.goes (s.dev.powerCtrl src state) := by
  rw [exec_registerWrite, Dev.writeReg_powerCtrl hs, h]; rfl

theorem exec_registerWrite_inject (hs : innerWriter src = true) :
    exec (.registerWrite src 0x701000 8 v) s = exec (.faultInject src v) s := by
  rw [exec_registerWrite, Dev.writeReg_inject hs]; rfl

theorem exec_registerWrite_linkCtrl_held (hs : innerWriter src = true) (n : LinkId) (htl : s.dev.rst.held.contains .tl = true) :
    exec (.registerWrite src (0x600000 + 64 * n.val) 8 v) s = .next s :=
  exec_registerWrite_ignored (by rw [Dev.writeReg_linkCtrl hs, if_pos htl])

theorem exec_registerWrite_linkCtrl_free (hs : innerWriter src = true) (n : LinkId) (htl : s.dev.rst.held.contains .tl = false) :
    exec (.registerWrite src (0x600000 + 64 * n.val) 8 v) s =
      .next (s.withDev (s.dev.writeLinkCtrl n.val v 0xFFFFFFFFFFFFFFFF#64)) := by
  rw [exec_registerWrite, Dev.writeReg_linkCtrl hs, htl]; rfl

end

/-- Settles O54: the address takes the write to its region, and there to the rule of its register. -/
theorem registerWrites : Obligations.RegisterWrites := by
  intro s v
  refine ⟨fun src a n h => ?malformed, fun src a n hs ha => ?foreign, fun src a ha hw hd => ?notWriter, fun src q hq hcp => ?doorbell,
    fun hcp => ?window, fun a hlo hhi => ?host, fun src hsrc => ?inner, fun src i hw hheld hlo hhi => ?held, fun src hw hmem => ?tier⟩
  case malformed => exact exec_registerWrite_ignored (Dev.writeReg_malformed h)
  case foreign => exact exec_registerWrite_ignored (Dev.writeReg_bar2_foreign hs ha)
  case notWriter => exact exec_registerWrite_ignored (Dev.writeReg_notWriter ha hw hd)
  case doorbell =>
    rw [exec_registerWrite, Dev.writeReg_doorbell hq hcp, BitVec.extractLsb'_toNat, BitVec.extractLsb'_toNat,
      Nat.shiftRight_eq_div_pow, Nat.shiftRight_zero]
  case window => rw [exec_registerWrite, Dev.writeReg_winGo hcp]; rfl
  case host => exact exec_registerWrite_ignored (Dev.writeReg_inner_host hlo hhi)
  case inner =>
    have hs : innerWriter src = true := innerWriter_iff.mpr hsrc
    exact ⟨exec_registerWrite_powerCtrl hs, exec_registerWrite_powerCtrl hs, exec_registerWrite_powerCtrl hs,
      exec_registerWrite_powerCtrl hs, exec_registerWrite_inject hs, exec_registerWrite_linkCtrl_held hs,
      exec_registerWrite_linkCtrl_free hs⟩
  case held => exact exec_registerWrite_ignored (Dev.writeReg_ch_held hw (Nat.mul_mod_right 8 i) hlo hhi hheld)
  case tier => rw [exec_registerWrite, Dev.writeReg_tierStatus hw hmem]

end Sys2Proof.Proofs
end

section
/-! What an idle block's reference count moves (R71, R456), and the margin managers' canaries and emergencies (R48-R65, R72): one
lemma for each course a command can take, then the statements. -/

open Sys2Proof Sys2Proof.Machine

namespace Sys2Proof.Machine

/-! ### Families written index by index -/

/-- Rewriting the entries below n in order gives each of them its new value and leaves the others. -/
theorem Map.get_foldl_range {α : Type} (e : α) (f : Nat → α → α) (m : Map α) (n k : Nat) :
    Map.get e ((List.range n).foldl (fun m i => Map.put m i (f i (Map.get e m i))) m) k =
      if k < n then f k (Map.get e m k) else Map.get e m k := by
  induction n with
  | zero => rfl
  | succ n ih =>
    rw [List.range_succ, List.foldl_append, List.foldl_cons, List.foldl_nil]
    by_cases hk : k = n
    · subst hk
      rw [Map.get_put_same, ih, if_neg (Nat.lt_irrefl k), if_pos (Nat.lt_succ_self k)]
    · rw [Map.get_put_other _ _ _ _ _ hk, ih]
      simp only [Nat.lt_succ_iff_lt_or_eq, hk, or_false]

theorem Map.get_foldl_put_range {α : Type} (e : α) (f : Nat → α) (m : Map α) (n k : Nat) :
    Map.get e ((List.range n).foldl (fun m i => Map.put m i (f i)) m) k = if k < n then f k else Map.get e m k :=
  Map.get_foldl_range e (fun i _ => f i) m n k

theorem Map.mapVals_id {α : Type} {f : Nat → α → α} (h : ∀ k v, f k v = v) (m : Map α) : Map.mapVals f m = m := by
  simp [Map.mapVals, h]

/-! ### Writes of a quarter -/

theorem Dev.setQ_setQ (d : Dev) (q : Nat) (x y : Quarter) : (d.setQ q x).setQ q y = d.setQ q y := by
  simp [Dev.setQ, Map.put_put]

@[simp] theorem Dev.updQ_setQ (d : Dev) (q : Nat) (x : Quarter) (f : Quarter → Quarter) : (d.setQ q x).updQ q f = d.setQ q (f x) := by
  rw [Dev.updQ, Dev.qr_setQ, Dev.setQ_setQ]

@[simp] theorem Dev.quarterInReset_setQ (d : Dev) (q : Nat) (x : Quarter) (r : Nat) :
    (d.setQ q x).quarterInReset r = d.quarterInReset r := rfl

@[simp] theorem Dev.gatedNow_setQ (d : Dev) (q : Nat) (x : Quarter) : (d.setQ q x).gatedNow = d.gatedNow := rfl

@[simp] theorem Dev.planSet_setQ (d : Dev) (q : Nat) (x : Quarter) (r : Nat) : (d.setQ q x).planSet r = d.planSet r := rfl

@[simp] theorem Dev.stamp_setQ (d : Dev) (q : Nat) (x : Quarter) : (d.setQ q x).stamp = d.stamp := rfl

theorem Dev.gated_of_not_gatedNow {d : Dev} (h : d.gatedNow = false) (g : Nat) : d.gated g = false := by simp [Dev.gated, h]

/-! ### The reference count of an idle block (R71, R72) -/

theorem Dev.tick_stopped {d : Dev} (h : d.rst.startStep = 0 ∨ d.refStopped = true) : d.tick = d := by
  unfold Dev.tick
  exact if_pos (by simpa using h)

/-- A count moves the quarters, the calendar's fraction and the first steps of tier initialisation alone. -/
theorem Dev.tick_frame (d : Dev) : d.tick = { d with
    quarters := d.tick.quarters, mg := { d.mg with fraction := d.tick.mg.fraction }
    tier := { d.tier with initStep := d.tick.tier.initStep } } := by
  unfold Dev.tick
  split <;> rfl

/-- The four quarters' counts move together. -/
theorem Dev.qr_tick {d : Dev} (hs : d.rst.startStep ≠ 0) (hr : d.refStopped = false) {q : Nat} (hq : q < 4) :
    d.tick.qr q = (d.qr q).tick := by
  have hgo : ¬ (d.rst.startStep = 0 || d.refStopped) = true := by simp [hs, hr]
  rw [Dev.tick, if_neg hgo]
  exact (Map.get_foldl_range .reset (fun _ => Quarter.tick) d.quarters 4 q).trans (if_pos hq)

/-- A command that a count brings acts while the reference clock runs. -/
theorem State.timed_next {s : State} {d e : Dev} (hrun : s.dev.refStopped = false) (h : d = e) : s.timed d = .next (s.withDev e) :=
  h ▸ s.timed_running d hrun

/-! ### A replan begins (R55, R56) -/

/-- A trigger outside emergencies, low power states and replans begins one. -/
theorem Dev.replan_begins {d : Dev} {q : Nat} {x : Quarter} (hx : d.qr q = x) (hreset : d.quarterInReset q = false)
    (hem : x.emGroups = []) (hgate : d.gatedNow = false) (hpwr : d.pwr.state = 0) (hwait : x.wait = .none) :
    d.replan q = d.setQ q { x with
      stage := [], wait := .taps, down := false, retried := false, again := false, sett := d.planSet q
      noChange := x.noChange && !x.schedDue, schedDue := false
      progress := { state := 1, position := 0, total := 16, queue := 0xFFFF, tag := 0, start := d.stamp } } := by
  subst hx
  have hacts : ¬ (d.quarterInReset q || !(d.qr q).emGroups.isEmpty || d.pwr.state ≠ 0 || d.gatedNow) = true := by
    simp [hreset, hem, hpwr, hgate]
  exact (if_neg hacts).trans (if_neg (not_not.mpr hwait))

/-! ### The canary read round (R48, R49, R55) -/

/-- The canaries that a round reads: those of groups that no power state gates. -/
def Dev.canariesPowered (d : Dev) : List Nat := (List.range 64).filter fun k => !d.gated (k / 4)

/-- A quarter after a round that read the canaries of `read`. -/
def Quarter.canariesRead (x : Quarter) (read ms : List Nat) (rate : Nat) : Quarter :=
  { x with
    margin := read.foldl (fun m k => Map.put m k (ms.getD k 0)) x.margin
    waveRate := rate, readVolt := x.vmeas, readTemp := x.junctionMax }

theorem Dev.canariesPowered_of_not_gatedNow {d : Dev} (h : d.gatedNow = false) : d.canariesPowered = List.range 64 := by
  simp [Dev.canariesPowered, Dev.gated_of_not_gatedNow h]

theorem Quarter.margin_canariesRead (x : Quarter) (ms : List Nat) (rate : Nat) {n k : Nat} (hk : k < n) :
    Map.get 0 (x.canariesRead (List.range n) ms rate).margin k = ms.getD k 0 :=
  (Map.get_foldl_put_range 0 (fun k => ms.getD k 0) x.margin n k).trans (if_pos hk)

theorem foldl_min_lt_iff (l : List Nat) (b a : Nat) : l.foldl Nat.min b < a ↔ b < a ∨ ∃ x ∈ l, x < a := by
  induction l generalizing b with
  | nil => simp
  | cons x l ih =>
    rw [List.foldl_cons, ih, show Nat.min b x = min b x from rfl, min_lt_iff, or_assoc, List.exists_mem_cons_iff]

/-- A group's margin is below a level where one of its four canaries is (R48). -/
theorem Quarter.groupMargin_lt_iff (x : Quarter) (g a : Nat) :
    x.groupMargin g < a ↔ ∃ i, i < 4 ∧ Map.get 0 x.margin (4 * g + i) < a := by
  rw [Quarter.groupMargin, foldl_min_lt_iff]
  simp only [List.mem_map, List.mem_range, exists_exists_and_eq_and]
  exact or_iff_right_of_imp fun h => ⟨0, by decide, h⟩

theorem Quarter.exists_groupMargin_lt_iff (x : Quarter) (a : Nat) :
    (∃ g, g < 16 ∧ x.groupMargin g < a) ↔ ∃ k, k < 64 ∧ Map.get 0 x.margin k < a := by
  simp only [Quarter.groupMargin_lt_iff]
  constructor
  · rintro ⟨g, hg, i, hi, h⟩
    exact ⟨4 * g + i, by omega, h⟩
  · rintro ⟨k, hk, h⟩
    exact ⟨k / 4, by omega, k % 4, by omega, by rwa [Nat.div_add_mod]⟩

/-- With every group powered and the plan's readings taken, R55 asks for a replan where a canary reads below the alert level, or a
figure read at the plan's settings has moved. -/
theorem Dev.planTrigger_iff {d : Dev} {q : Nat} {x : Quarter} (hx : d.qr q = x) (hgate : d.gatedNow = false)
    (hread : x.planned = true → x.planMargin ≠ []) : d.planTrigger q = true ↔
      x.planned = true ∧ ((∃ k, k < 64 ∧ Map.get 0 x.margin k < x.sett.alert) ∨
        x.vreq = x.planVreq ∧ (((∀ g, g < 16 → x.tapOf g = Map.get 31 x.planTap g) ∧ x.drifted x.waveRate x.planWave = true) ∨
          ∃ g, g < 16 ∧ x.tapOf g = Map.get 31 x.planTap g ∧ x.drifted (x.groupMargin g) (Map.get 0 x.planMargin g) = true)) := by
  subst hx
  rw [← Quarter.exists_groupMargin_lt_iff]
  by_cases hplan : (d.qr q).planned = true
  · simp [Dev.planTrigger, groups16, Dev.gated_of_not_gatedNow hgate, hplan, hread hplan]
  · simp [Dev.planTrigger, hplan]

theorem Quarter.planRead_eq_self {x : Quarter} (hread : x.planned = true → x.planMargin ≠ []) : x.planRead = x := by
  unfold Quarter.planRead
  exact if_neg (by simpa using fun h he => absurd he (hread h))

theorem Dev.emergencyRound_quiet {d : Dev} {q : Nat} (hem : (d.qr q).emGroups = []) : d.emergencyRound q = d := by
  simp [Dev.emergencyRound, hem]

theorem Dev.tapRound_idle {d : Dev} {q : Nat} (hwait : (d.qr q).wait = .none) : d.tapRound q = d := by
  simp [Dev.tapRound, hwait]

/-- A round of a quarter that is not in reset. -/
theorem Dev.canaryRound_awake {d : Dev} {q : Nat} {ms : List Nat} {rate : Nat} (hreset : d.quarterInReset q = false) :
    d.canaryRound q ms rate =
      let d1 := d.updQ q fun x => (x.canariesRead d.canariesPowered ms rate).planRead
      let now := d1.planTrigger q
      let d2 := ((d1.updQ q fun x => { x with trigger := now }).emergencyRound q).tapRound q
      if now && ((d1.qr q).wait = .none || !(d.qr q).trigger) then d2.replan q else d2 :=
  if_neg (by simp [hreset])

/-- A round outside emergencies and replans records what it read, and begins a replan where R55 asks for one. -/
theorem Dev.canaryRound_steady {d : Dev} {q : Nat} {ms : List Nat} {rate : Nat} {y : Quarter}
    (hy : (d.qr q).canariesRead d.canariesPowered ms rate = y) (hreset : d.quarterInReset q = false)
    (hem : y.emGroups = []) (hwait : y.wait = .none) (hread : y.planned = true → y.planMargin ≠ []) :
    d.canaryRound q ms rate = if (d.setQ q y).planTrigger q then (d.setQ q { y with trigger := true }).replan q
      else d.setQ q { y with trigger := false } := by
  have hd : d.updQ q (fun x => (x.canariesRead d.canariesPowered ms rate).planRead) = d.setQ q y := by
    rw [Dev.updQ, hy, Quarter.planRead_eq_self hread]
  have hquiet (now : Bool) : (((d.setQ q y).updQ q fun x => { x with trigger := now }).emergencyRound q).tapRound q =
      d.setQ q { y with trigger := now } := by
    rw [Dev.updQ_setQ, Dev.emergencyRound_quiet (by simpa using hem), Dev.tapRound_idle (by simpa using hwait)]
  rw [Dev.canaryRound_awake hreset, hd]
  simp only [hquiet]
  cases (d.setQ q y).planTrigger q <;> simp [hwait]

/-! ### A canary failure (R50, R63, R478) -/

theorem exec_canaryFail (s : State) (q : QuarterId) (g : Fin 16) (i : Fin 4) (suspects : List (DescId × Nat)) (reads : Nat)
    (bad : List Nat) : exec (.canaryFail q g i suspects reads bad) s = .next (s.withDev (s.dev.canaryFail q g i suspects reads bad)) := rfl

/-- The emergency that a first failure begins (Table 2.3, steps 2 to 5): latch, taps, issue gate, request, alert and fatal report. -/
def Dev.emergencyBegun (d : Dev) (q g i reads : Nat) : Dev :=
  let x := d.qr q
  ((((d.setQ q { x with
      latch := Map.put x.latch (4 * g + i) true, tap := Map.put x.tap g (min (x.tapOf g + 4) 31), gateDiv := 16, emGroups := [g]
      emGood := 0, emRestored := false, again := false }).vreqTo q (min 850 (x.vreq + 20))).marginAlert q 1).fault
    (mkFault (0x3E8 + q) .fatal 0x04 (g + 65536 * min 65535 reads)))

/-- Only groups 8 and 9 hold reads of the host in their controllers. -/
theorem Dev.suspectReads_other (d : Dev) (q : Nat) {g : Nat} (h8 : g ≠ 8) (h9 : g ≠ 9) : d.suspectReads q g = d := by
  simp [Dev.suspectReads, h8, h9, Map.mapVals_id]

/-- Only groups 8 and 9 take read-backs. -/
theorem Dev.readBackBad_other (d : Dev) (q sector : Nat) {g : Nat} (h8 : g ≠ 8) (h9 : g ≠ 9) : d.readBackBad q g sector = d := by
  simp [Dev.readBackBad, h8, h9]

section
variable {d : Dev} {q g i reads : Nat} {bad : List Nat} (hreset : d.quarterInReset q = false) (hgate : d.gated g = false)
include hreset hgate

/-- The first failure: the emergency begins, then the group's own units and the memory controllers answer for what they hold. -/
theorem Dev.canaryFail_first (hem : (d.qr q).emGroups = []) (hwait : (d.qr q).wait = .none) :
    d.canaryFail q g i [] reads bad = bad.foldl (fun e sector => e.readBackBad q g sector)
      (let e := (d.emergencyBegun q g i reads).suspectReads q g
       if g = 7 then e.emptySides q else e) := by
  have hheld : ¬ (d.quarterInReset q || d.gated g) = true := by simp [hreset, hgate]
  have hnew : ¬ ((d.qr q).emGroups.contains g && !(d.qr q).emRestored) = true := by simp [hem]
  refine (if_neg hheld).trans ((if_neg hnew).trans ?_)
  simp [Dev.emergencyBegun, hem, hwait, Quarter.setTap, Quarter.tapOf, ReplanWait.plans, Nat.min_eq_min]

theorem Dev.canaryFail_first_other (hem : (d.qr q).emGroups = []) (hwait : (d.qr q).wait = .none) (h8 : g ≠ 8) (h9 : g ≠ 9) :
    d.canaryFail q g i [] reads bad =
      if g = 7 then (d.emergencyBegun q g i reads).emptySides q else d.emergencyBegun q g i reads := by
  rw [Dev.canaryFail_first hreset hgate hem hwait, Dev.suspectReads_other _ _ h8 h9]
  exact foldl_keeps id bad _ fun e sector => Dev.readBackBad_other e q sector h8 h9

theorem Dev.canaryFail_first_memory (hem : (d.qr q).emGroups = []) (hwait : (d.qr q).wait = .none) (hg : g = 8 ∨ g = 9) :
    d.canaryFail q g i [] reads bad =
      bad.foldl (fun e sector => e.readBackBad q g sector) ((d.emergencyBegun q g i reads).suspectReads q g) := by
  have h7 : g ≠ 7 := by omega
  rw [Dev.canaryFail_first hreset hgate hem hwait]
  simp only [h7, if_false]

/-- Another failure of a group the emergency has sets its latch alone. -/
theorem Dev.canaryFail_again (hem : g ∈ (d.qr q).emGroups) (hres : (d.qr q).emRestored = false) :
    d.canaryFail q g i [] reads bad = d.setQ q { d.qr q with latch := Map.put (d.qr q).latch (4 * g + i) true } := by
  simp [Dev.canaryFail, hreset, hgate, hem, hres]

end

/-! ### The course of an emergency (R63-R65) -/

theorem Dev.marginDeadline_runs {d : Dev} {q : Nat} (hem : (d.qr q).emGroups ≠ []) (hres : (d.qr q).emRestored = false) :
    d.marginDeadline q = d.trigger { source := .margin, origin := .none, subject := 0x3E8 + q, info := 0 } := by
  simp [Dev.marginDeadline, hem, hres]

/-- With no emergency, or the margin restored, its time brings nothing. -/
theorem Dev.marginDeadline_over {d : Dev} {q : Nat} (h : (d.qr q).emGroups = [] ∨ (d.qr q).emRestored = true) :
    d.marginDeadline q = d := by
  unfold Dev.marginDeadline
  exact if_pos (by simpa using h)

theorem Dev.gateDouble_opens {d : Dev} {q : Nat} (hres : (d.qr q).emRestored = true) (hdiv : 2 < (d.qr q).gateDiv) :
    d.gateDouble q = (d.setQ q { d.qr q with gateDiv := (d.qr q).gateDiv / 2 }).admitWaiting := by
  have h1 : ¬ (d.qr q).gateDiv ≤ 1 := by omega
  have h2 : ¬ (d.qr q).gateDiv ≤ 2 := by omega
  simp [Dev.gateDouble, hres, h1, h2]

/-- The gate fully open, the emergency is over. -/
theorem Dev.gateDouble_ends {d : Dev} {q : Nat} (hres : (d.qr q).emRestored = true) (hdiv : (d.qr q).gateDiv = 2) :
    d.gateDouble q =
      let e := (d.setQ q { d.qr q with gateDiv := 1, emGroups := [], emRestored := false, emGood := 0, latch := [] }).admitWaiting
      if d.gatedNow then e.walkStep q (if d.pwr.exiting then (d.qr q).planVreq else 600) else e.replan q := by
  simp [Dev.gateDouble, hres, hdiv]

/-- A scheduled replan may change a request again (R54). -/
theorem Dev.replanDue_begins {d : Dev} {q : Nat} (hreset : d.quarterInReset q = false) (hem : (d.qr q).emGroups = [])
    (hgate : d.gatedNow = false) (hpwr : d.pwr.state = 0) (hwait : (d.qr q).wait = .none) :
    d.replanDue q = d.setQ q { d.qr q with
      noChange := false, schedDue := false, stage := [], wait := .taps, down := false, retried := false, again := false
      sett := d.planSet q
      progress := { state := 1, position := 0, total := 16, queue := 0xFFFF, tag := 0, start := d.stamp } } := by
  have hx := Dev.qr_setQ d q { d.qr q with schedDue := true }
  rw [Dev.replanDue, Dev.updQ, Dev.replan_begins hx hreset hem hgate hpwr hwait, Dev.setQ_setQ]
  simp

end Sys2Proof.Machine

namespace Sys2Proof.Proofs

/-- Settles O55: the front command runs on the queue's rest by definition of a step; an idle block's count keeps its frame. -/
theorem stepTakesFront : Obligations.StepTakesFront :=
  ⟨fun _ _ _ => rfl, fun s hidle => ⟨s.dev.tick, by simp only [step, hidle], s.dev.tick_frame, Dev.tick_stopped,
    fun hs hr _ => Dev.qr_tick hs hr⟩⟩

/-- Settles O19: each event of time acts as its case says, and none acts while the reference counts stand still. -/
theorem emergencyCourse : Obligations.EmergencyCourse := by
  refine ⟨fun s q hstop => ?stopped, fun s q hrun => ⟨fun hem hres => ?deadline, fun hover => ?idle, fun hres hdiv => ?opens,
    fun hres hdiv => ?ends, fun hreset hem hgate hpwr hwait => ?due⟩⟩
  case stopped => exact ⟨s.timed_stopped _ hstop, s.timed_stopped _ hstop, s.timed_stopped _ hstop⟩
  case deadline => exact State.timed_next hrun (Dev.marginDeadline_runs hem hres)
  case idle => exact State.timed_next hrun (Dev.marginDeadline_over hover)
  case opens => exact State.timed_next hrun (Dev.gateDouble_opens hres hdiv)
  case ends => exact State.timed_next hrun (Dev.gateDouble_ends hres hdiv)
  case due => exact State.timed_next hrun (Dev.replanDue_begins hreset hem hgate hpwr hwait)

/-- Settles O18: the round's readings and its trigger, a first failure by its group, and another failure of the same group. -/
theorem canaries : Obligations.Canaries := by
  refine ⟨fun s q ms rate hrun hreset hgate hpwr hem hwait hread => ?round, fun s q g i reads bad hreset hgate => ⟨fun hem hwait =>
    ⟨fun h8 h9 => ?first, fun hg => ?memory⟩, fun hem hres => ?again⟩⟩
  case round =>
    have hround := Dev.canaryRound_steady (ms := ms) (rate := rate) rfl hreset hem hwait hread
    have hmargin (k : Nat) (hk : k < 64) :
        Map.get 0 ((s.dev.qr q).canariesRead s.dev.canariesPowered ms rate).margin k = ms.getD k 0 := by
      rw [Dev.canariesPowered_of_not_gatedNow hgate, Quarter.margin_canariesRead _ _ _ hk]
    generalize s.dev.canariesPowered = read at hround hmargin
    refine ⟨(s.dev.qr q).canariesRead read ms rate, hmargin, rfl, ?_⟩
    intro same cause
    have hcause : cause ↔ (s.dev.setQ q ((s.dev.qr q).canariesRead read ms rate)).planTrigger q = true := by
      rw [Dev.planTrigger_iff (Dev.qr_setQ _ _ ((s.dev.qr q).canariesRead read ms rate)) hgate hread,
        exists_congr fun k => and_congr_right fun hk => by rw [hmargin k hk]]
      exact Iff.rfl
    refine ⟨fun hc => ?_, fun hc => ?_⟩
    · exact State.timed_next hrun (hround.trans (if_pos (hcause.mp hc)))
    · exact State.timed_next hrun (hround.trans (if_neg (mt hcause.mpr hc)))
  case first => rw [exec_canaryFail, Dev.canaryFail_first_other hreset hgate hem hwait h8 h9]; rfl
  case memory => rw [exec_canaryFail, Dev.canaryFail_first_memory hreset hgate hem hwait hg]; rfl
  case again => rw [exec_canaryFail, Dev.canaryFail_again hreset hgate hem hres]

end Sys2Proof.Proofs
end

section
/-! The rules of an engine's step, and of what a command does to its descriptor's run: the layer under the maintenance, probe, update
and lookup descriptors of tables. -/

open Sys2Proof Sys2Proof.Machine

namespace Sys2Proof.Machine

/-! ### Steps of an engine -/

section
variable {α β : Type} {d e : Dev}

/-- A step goes on from the block that its first part leaves. -/
theorem Eng.bind_ok {x : Eng α} {a : α} (h : x d = .ok (a, e)) (f : α → Eng β) : (x >>= f) d = f a e := by
  show Except.bind (x d) (fun p => f p.1 p.2) = _
  rw [h]; rfl

@[simp] theorem Eng.get_bind (f : Dev → Eng β) : ((get : Eng Dev) >>= f) d = f d d := rfl
@[simp] theorem Eng.pure_apply (a : α) : (pure a : Eng α) d = .ok (a, d) := rfl
@[simp] theorem Eng.modify_apply (g : Dev → Dev) : (modify g : Eng PUnit) d = .ok ((), g d) := rfl
@[simp] theorem Eng.set_apply : (set e : Eng PUnit) d = .ok ((), e) := rfl

/-- A step that is not blocked leaves its own block. -/
theorem Dev.engine_ok {x : Eng Unit} (h : x d = .ok ((), e)) : d.engine x = e := by simp [Dev.engine, h]

end

/-! ### A descriptor's run -/

section
variable {d e : Dev} {id : DescId} {r : Run}

theorem Dev.run_id (h : d.run id = some r) : r.id = id := by simpa using List.find?_some h

theorem Dev.mem_runs (h : d.run id = some r) : r ∈ d.cp.runs := List.mem_of_find?_eq_some h

/-- A change of the runs under one number, which keeps that number, as another number's run sees it. -/
theorem Dev.run_updRun (d : Dev) {id : DescId} {f : Run → Run} (hf : ∀ x : Run, x.id = id → (f x).id = id) (j : DescId) :
    (d.updRun id f).run j = (d.run j).map fun x => if x.id = id then f x else x := by
  have hsame (x : Run) : (if x.id = id then f x else x).id = x.id := by
    split <;> rename_i h
    · rw [hf x h, h]
    · rfl
  simp only [Dev.run, Dev.updRun, List.find?_map, Function.comp_def, hsame]

theorem Dev.run_updRun_same {f : Run → Run} (hf : ∀ x : Run, x.id = id → (f x).id = id) (h : d.run id = some r) :
    (d.updRun id f).run id = some (f r) := by
  simp [Dev.run_updRun d hf, h, Dev.run_id h]

/-- A change that keeps every run of the number changes nothing. -/
theorem Dev.updRun_eq_self {f : Run → Run} (hf : ∀ x ∈ d.cp.runs, x.id = id → f x = x) : d.updRun id f = d := by
  have hruns : (d.cp.runs.map fun x => if x.id = id then f x else x) = d.cp.runs := by
    refine (List.map_congr_left fun x hx => ?_).trans (List.map_id _)
    split <;> rename_i h
    · exact hf x hx h
    · rfl
  simp only [Dev.updRun, hruns]

/-- The run of a descriptor whose part has begun. -/
def Run.begun (r : Run) : Run := { r with stage := .running }

theorem Dev.run_begun (h : d.run id = some r) : (d.begun id).run id = some r.begun :=
  Dev.run_updRun_same (fun _ hx => hx) h

/-- The part that serves a descriptor acts on the block in which it has begun. -/
theorem State.serving_withRun {s : State} {ty : Nat} {op : Option Nat} (h : s.serving id r ty op) (f : Run → Dev → Dev) :
    s.dev.withRun id ty op f = f r (s.dev.begun id) := by
  obtain ⟨hrun, hlive, hop⟩ := h
  simp [Dev.withRun, hrun, hlive, hop, Dev.begun]

/-- A descriptor that an engine's step serves. -/
theorem State.serving_engine {s : State} {ty : Nat} {op : Option Nat} {x : Eng Unit} (h : s.serving id r ty op)
    (hx : x (s.dev.begun id) = .ok ((), e)) : s.dev.withRun id ty op (fun _ d => d.engine x) = e :=
  (State.serving_withRun h _).trans (Dev.engine_ok hx)

/-- The run of a descriptor that is being served, as its part finds it. -/
theorem State.serving_begun {s : State} {ty : Nat} {op : Option Nat} (h : s.serving id r ty op) :
    (s.dev.begun id).run id = some r.begun := Dev.run_begun h.1

theorem State.goes_of_eq {s : State} (h : d = e) : s.goes d = .next (s.withDev e) := h ▸ rfl

@[simp] theorem Dev.run_setProg (d : Dev) (i : Nat) (p : Progress) (id : DescId) : (d.setProg i p).run id = d.run id := rfl

/-- A running descriptor's end. -/
theorem Dev.run_endRun (h : d.run id = some r) (hrun : r.stage = .running) (st : Nat) :
    (d.endRun id st).run id = some { r with stage := .ended, status := st } := by
  have hlive : r.live = true := by simp [Run.live, hrun]
  simp only [Dev.endRun, h, hlive, Bool.true_or, if_true, hrun]
  split <;> simp [Dev.run_updRun, h, Dev.run_id h]

/-- An end changes the run of its number, which keeps it, and the run's progress object; one that comes too late changes nothing. -/
theorem Dev.endRun_cases (d : Dev) (id : DescId) (st : Nat) : d.endRun id st = d ∨ ∃ (f : Run → Run) (progs : Map Progress),
    (∀ x : Run, (f x).id = x.id) ∧ d.endRun id st = { d.updRun id f with cp := { (d.updRun id f).cp with progs := progs } } := by
  unfold Dev.endRun
  split
  · exact .inl rfl
  split
  · rename_i r _ _
    by_cases hprog : r.prog = 0
    · refine .inr ⟨_, d.cp.progs, ?_, if_pos hprog⟩
      exact fun _ => rfl
    · refine .inr ⟨_, _, ?_, if_neg hprog⟩
      exact fun _ => rfl
  · exact .inl rfl

/-- An end changes the descriptors alone. -/
theorem Dev.endRun_keeps {γ : Type} (g : Dev → γ) (d : Dev) (id : DescId) (st : Nat) (hg : ∀ cp, g { d with cp := cp } = g d) :
    g (d.endRun id st) = g d := by
  rcases d.endRun_cases id st with h | ⟨f, progs, -, h⟩
  · rw [h]
  · exact (congrArg g h).trans (hg _)

theorem Dev.table_endRun (d : Dev) (id : DescId) (st t : Nat) : (d.endRun id st).table t = d.table t :=
  Dev.endRun_keeps (fun e => e.table t) d id st fun _ => rfl

theorem Dev.endRun_tr (d : Dev) (id : DescId) (st : Nat) : (d.endRun id st).tr = d.tr :=
  Dev.endRun_keeps Dev.tr d id st fun _ => rfl

@[simp] theorem Dev.endRun_regq (d : Dev) (id : DescId) (st : Nat) : (d.endRun id st).regq = d.regq :=
  Dev.endRun_keeps Dev.regq d id st fun _ => rfl

end

/-! ### Register writes that wait -/

theorem Dev.drainRegs_none {d : Dev} (h : d.regq = []) : d.drainRegs = d := by
  obtain ⟨⟩ := d
  simp_all [Dev.drainRegs]

@[simp] theorem Dev.setPos_regq (d : Dev) (id : DescId) (pos : Nat) : (d.setPos id pos).regq = d.regq := by
  unfold Dev.setPos
  split
  · rfl
  · dsimp only
    split <;> rfl

@[simp] theorem Dev.gatherEnd_regq (d : Dev) (id : DescId) : (d.gatherEnd id).regq = d.regq := by
  unfold Dev.gatherEnd
  split
  · rfl
  · exact Dev.endRun_regq _ _ _

end Sys2Proof.Machine
end

section
/-! The MAINT operations on tables (R75-R77, R98-R103, R134, R144, R145): what each step of their engine does, one lemma for each course
it can take, then the statement. -/

open Sys2Proof Sys2Proof.Machine

namespace Sys2Proof.Machine

/-! ### TABLE_DEFINE (R76) -/

section
variable {d d2 : Dev} {id : DescId} {r : Run} {h : List HostAnswer} {bs : List Byte} {m : List SectorMeta} {w : List Word64}
  (hrun : d.run id = some r) (hread : readDa (r.segsBy mgmtAgent r.ctx h) (qWord r.w 2) 0 64 d = .ok (.ok (bs, false, m), d2))
  (hw : bytesWords 8 bs = w)
include hrun hread hw

theorem tableDefineStep_refused (hform : d.tableForm w r.ctx false ≠ stOk) :
    tableDefineStep id h d = .ok ((), d2.endRun id (d.tableForm w r.ctx false)) := by
  subst hw
  simp only [tableDefineStep, Eng.get_bind, hrun]
  refine (Eng.bind_ok hread _).trans ?_
  simp [hform]

/-- A table of one shard without a sketch, whose segments are there with their rights, is made. -/
theorem tableDefineStep_defines (hform : d.tableForm w r.ctx false = stOk)
    (hsegs : ∀ k ∈ tableSegs w, (d.seg (tbCtx w) k).valid = true ∧ (d.seg (tbCtx w) k).read = true ∧
      (tbOpt w ≠ 0 → (d.seg (tbCtx w) k).update = true))
    (hshards : tbShards w = 1) (hsketch : tbSketch w = false) :
    tableDefineStep id h d =
      .ok ((), (d2.setTable (tbId w) (some (mkTable w (if tbEpoch w then 1 else 0) none))).endRun id stOk) := by
  subst hw
  generalize hw : bytesWords 8 bs = w at *
  have hallowed : ((tableSegs w).any fun k => !(d.seg (tbCtx w) k).valid || !(d.seg (tbCtx w) k).read ||
      (tbOpt w ≠ 0 && !(d.seg (tbCtx w) k).update)) = false := by
    rw [List.any_eq_false]
    intro k hk
    obtain ⟨hvalid, hreadable, hupdate⟩ := hsegs k hk
    by_cases hopt : tbOpt w = 0 <;> simp [hvalid, hreadable, hopt, hupdate]
  simp only [tableDefineStep, Eng.get_bind, hrun]
  refine (Eng.bind_ok hread _).trans ?_
  simp only [hw, hform, hallowed, hshards, hsketch]
  simp [bit]

end

/-! ### CARAFE_REFRESH (R100) -/

section
variable {d d2 d3 : Dev} {id : DescId} {r : Run} {h : List HostAnswer} {x : Table} {bs : List Byte} {m : List SectorMeta} {k : Nat}
  (hrun : d.run id = some r) (hlive : r.live = true) (htable : d.table (qBits r.w 3 52 12) = some x)
include hrun hlive htable

theorem carafeStep_ends (hpos : qBits r.w 3 0 32 ≤ r.pos) : carafeStep id h d = .ok ((), d.endRun id stOk) := by
  simp [carafeStep, hrun, hlive, htable, hpos]

/-- An operation of the list counts by its outcome; after the last the descriptor ends. -/
theorem carafeStep_counts (hpos : r.pos < qBits r.w 3 0 32)
    (hread : readDa (r.segsBy mgmtAgent r.ctx h) (qWord r.w 2) (16 * r.pos) 16 d = .ok (.ok (bs, false, m), d2))
    (hop : carafeOp (r.segsBy mgmtAgent (tbCtx x.w) h) (qBits r.w 3 52 12) x.w ((leAt bs 0 8).testBit 63) (field (leAt bs 0 8) 0 40)
      (field (leAt bs 8 8) 0 43) d2 = .ok (.ok k, d3)) :
    carafeStep id h d = .ok ((),
      let e1 := (d3.updRun id fun y => y.addCount k 1).setPos id (r.pos + 1)
      if r.pos + 1 = qBits r.w 3 0 32 then e1.endRun id stOk else e1) := by
  have hmore : ¬ qBits r.w 3 0 32 ≤ r.pos := by omega
  simp only [carafeStep, Eng.get_bind, hrun, hlive, htable, hmore]
  exact (Eng.bind_ok hread _).trans (Eng.bind_ok hop _)

end

/-! ### SKETCH_DECAY (R103) -/

/-- A family's values changed one by one, where the change keeps the reset value. -/
theorem Map.get_map {α β : Type} (a : α) (b : β) (f : Nat → α → β) (hf : ∀ i, f i a = b) (m : Map α) (k : Nat) :
    Map.get b (m.map fun p => (p.1, f p.1 p.2)) k = f k (Map.get a m k) := by
  induction m with
  | nil => exact (hf k).symm
  | cons p m ih =>
    obtain ⟨i, v⟩ := p
    simp only [List.map_cons, Map.get, ih]
    split
    · rename_i h; rw [h]
    · split
      · exact (hf k).symm
      · rfl

/-! ### DETERM_PEERS (R134) -/

section
variable {d d2 d4 : Dev} {id : DescId} {r : Run} {h : List HostAnswer} {x y : Table} {bs : List Byte} {m : List SectorMeta}
  {ac : SegBy} {t : Nat} {os : List Nat}

/-- The steps that every participant has closed are ready. -/
theorem stepsReady_owners (htable : d.table t = some y) (howners : owners ac y.w d.devId d = .ok (.ok os, d4)) :
    stepsReady ac t d = .ok ((), ({ d4 with tb := { d4.tb with
      steps := d4.tb.steps.map fun b =>
        if b.table = t ∧ (os ++ y.peers).all b.ends.contains then { b with ready := true } else b } } : Dev).stepRun t) := by
  simp only [stepsReady, Eng.get_bind, htable]
  refine (Eng.bind_ok howners _).trans ?_
  simp

/-- The devices that the list names take the place of those before (R134). -/
theorem determPeersStep_replaces (hrun : d.run id = some r) 
    (hread : readDa (r.segsBy mgmtAgent r.ctx h) (qWord r.w 2) 0 (2 * qBits r.w 3 0 9) d = .ok (.ok (bs, false, m), d2))
    (htable : d.table (qBits r.w 3 52 12) = some x) :
    determPeersStep id h d = stepsReady (fun j => d.liveAcc mgmtAgent (tbCtx x.w) j h) (qBits r.w 3 52 12)
      ((d2.updTable (qBits r.w 3 52 12) fun z => { z with
        peers := ((List.range (qBits r.w 3 0 9)).map fun i => leAt bs (2 * i) 2).foldl (fun l k => insertNew k l) [] }).endRun id stOk) := by
  simp only [determPeersStep, Eng.get_bind, hrun, htable]
  exact Eng.bind_ok hread _

end

/-! ### GUEST_ATTACH, GUEST_DETACH (R144, R145) -/

section
variable {d d2 d3 : Dev} {id : DescId} {r : Run} {x : Table} {f n : Nat}
  (hrun : d.run id = some r) (htable : d.table (qBits r.w 3 52 12) = some x)
  (hspan : shardSpan (fun j => d.liveAcc mgmtAgent (tbCtx x.w) j []) x.w (qBits r.w 3 0 16) d = .ok (.ok (f, n), d2))
include hrun htable hspan

theorem guestAttach_attaches {ns : Notes} (hentry : qBits r.w 3 0 16 < tbShards x.w) (hdirect : tbDirect x.w = false)
    (hshards : tbShards x.w ≠ 1) (hroom : d.tb.guests.length < 1024)
    (hnew : ∀ g ∈ d.tb.guests, g.table = qBits r.w 3 52 12 → g.entry ≠ qBits r.w 3 0 16)
    (hxlate : d.xlates (tbCtx x.w) [(qWord r.w 2, 8 * n, .read), (qWord r.w 2, 8 * n, .update)] .none = .ok ns)
    (htier : (d.seg (tbCtx x.w) (daSeg (qWord r.w 2))).target = 0) :
    guestAttach id d = .ok ((), ({ d2 with tb := { d2.tb with guests := d2.tb.guests ++
      [{ table := qBits r.w 3 52 12, entry := qBits r.w 3 0 16, da := qWord r.w 2, seg := d.seg (tbCtx x.w) (daSeg (qWord r.w 2))
         gen := d.gen (tbCtx x.w) (daSeg (qWord r.w 2)) }] } } : Dev).endRun id stOk) := by
  have hnone : (d.tb.guests.any fun g => g.table = qBits r.w 3 52 12 && g.entry = qBits r.w 3 0 16) = false := by
    simpa [List.any_eq_false] using hnew
  have hform : ¬ (tbShards x.w ≤ qBits r.w 3 0 16 || tbDirect x.w || tbShards x.w = 1) = true := by
    simp [hentry, hdirect, hshards]
  simp only [guestAttach, Eng.get_bind, hrun, htable, hform, Nat.not_le.mpr hroom, hnone]
  refine (Eng.bind_ok hspan _).trans ?_
  simp [hxlate, htier]

/-- A map goes once it holds no live row, and stands while it does. -/
theorem guestDetach_by_live {g : Guest} {live : Bool}
    (hguest : (d.tb.guests.find? fun y => y.table = qBits r.w 3 52 12 && y.entry = qBits r.w 3 0 16) = some g)
    (hlive : liveGuest { sg := g.seg, acc := { (d.liveAcc mgmtAgent (tbCtx x.w) (daSeg g.da) []).acc with
      gen := g.gen, rt := g.seg.region } } g.da 0 n d2 = .ok (.ok live, d3)) :
    guestDetach id d = .ok ((), if live then d3.endRun id stTableBusy else ({ d3 with tb := { d3.tb with
      guests := d3.tb.guests.filter fun y => !(y.table = qBits r.w 3 52 12 && y.entry = qBits r.w 3 0 16) } } : Dev).endRun id stOk) := by
  simp only [guestDetach, Eng.get_bind, hrun, htable, hguest]
  refine (Eng.bind_ok hspan _).trans ((Eng.bind_ok hlive _).trans ?_)
  cases live <;> rfl

end

end Sys2Proof.Machine

namespace Sys2Proof.Proofs

/-- Settles O21: the end of a running descriptor, then each operation by what its engine's step does. -/
theorem tableMaintenance : Obligations.TableMaintenance := by
  refine ⟨fun d id r st hrun hstage => Dev.run_endRun hrun hstage st, fun s id r h => ⟨?define, ?retire, ?refresh, ?decay, ?peers,
    ?attach, ?detach⟩⟩
  case define =>
    intro hs bs m d2 hread
    have hrun := State.serving_begun hs
    exact ⟨fun hform => State.goes_of_eq (State.serving_engine hs (tableDefineStep_refused (r := r.begun) hrun hread rfl hform)),
      fun hform hsegs hshards hsketch => State.goes_of_eq (State.serving_engine hs
        (tableDefineStep_defines (r := r.begun) hrun hread rfl hform hsegs hshards hsketch))⟩
  case retire =>
    intro hs
    exact ⟨fun hlast => State.goes_of_eq ((State.serving_withRun hs _).trans (if_pos hlast)),
      fun hmore => State.goes_of_eq ((State.serving_withRun hs _).trans (if_neg hmore))⟩
  case refresh =>
    intro hs x htable
    have hrun := State.serving_begun hs
    refine ⟨fun hpos => ?_, fun hpos bs d2 d3 k hreads hop => ?_⟩
    · exact State.goes_of_eq ((State.serving_withRun hs _).trans (Dev.engine_ok (carafeStep_ends hrun rfl htable hpos)))
    · obtain ⟨m, hread⟩ := hreads
      exact State.goes_of_eq ((State.serving_withRun hs _).trans
        (Dev.engine_ok (carafeStep_counts (r := r.begun) hrun rfl htable hpos hread hop)))
  case decay =>
    intro hs
    refine ⟨_, State.goes_of_eq (State.serving_withRun hs _), rfl, fun i => ?_⟩
    exact Map.get_map 0 0 (fun i v => if i / 65536 = qBits r.w 2 52 12 then v / 2 else v) (by simp) _ i
  case peers =>
    intro hs bs m d2 x y os d4 t n hread d3 hx hy howners
    have hreplaces := determPeersStep_replaces (r := r.begun) (State.serving_begun hs) hread hx
    exact State.goes_of_eq (State.serving_engine hs (hreplaces.trans (stepsReady_owners hy howners)))
  case attach =>
    intro hs x f n d2 ns t k da hx hentry hdirect hshards hroom hnew hspan hxlate htier
    exact State.goes_of_eq (State.serving_engine hs
      (guestAttach_attaches (r := r.begun) (State.serving_begun hs) hx hspan hentry hdirect hshards hroom hnew hxlate htier))
  case detach =>
    intro hs x g f n d2 d3 live t k hx hguest tac hspan a0 a hlive
    have hstep := guestDetach_by_live (r := r.begun) (State.serving_begun hs) hx hspan hguest hlive
    constructor <;> rintro rfl <;> exact State.goes_of_eq (State.serving_engine hs hstep)

end Sys2Proof.Proofs
end

section
/-! Shard counters and the PROBE operations on tables (R102, R103, R358): what a flush adds, what a probe writes, then the statement. -/

open Sys2Proof Sys2Proof.Machine

namespace Sys2Proof.Machine

/-! ### SHARD_LOAD_FLUSH (R102) -/

/-- Counts added one by one to their counters, as one counter sees them. -/
theorem Map.get_foldl_add (key : Nat × Nat → Nat) (f : Nat × Nat → Word64) (l : List (Nat × Nat)) (m : Map Word64) (i : Nat) :
    Map.get 0 (l.foldl (fun m p => Map.put m (key p) (Map.get 0 m (key p) + f p)) m) i =
      Map.get 0 m i + ((l.filter fun p => key p = i).map f).sum := by
  induction l generalizing m with
  | nil => simp
  | cons p l ih =>
    rw [List.foldl_cons, ih]
    by_cases hk : key p = i
    · subst hk
      simp [BitVec.add_assoc]
    · rw [Map.get_put_other _ _ _ _ _ (Ne.symm hk), List.filter_cons_of_neg (by simpa using hk)]

theorem Dev.get_load_flushLoad (d : Dev) (g i : Nat) :
    Map.get 0 (d.flushLoad g).tb.load i = Map.get 0 d.tb.load i +
      ((d.tb.localLoad.filter fun p => decide (p.1 / 2 ^ 28 = g ∧ p.1 % 2 ^ 28 = i)).map fun p => BitVec.ofNat 64 p.2).sum := by
  refine (Map.get_foldl_add (fun p => p.1 % 2 ^ 28) (fun p => BitVec.ofNat 64 p.2) _ d.tb.load i).trans ?_
  simp only [List.filter_filter, Bool.decide_and, Bool.and_comm]

theorem Dev.mem_localLoad_flushLoad (d : Dev) (g : Nat) (p : Nat × Nat) :
    p ∈ (d.flushLoad g).tb.localLoad ↔ p ∈ d.tb.localLoad ∧ p.1 / 2 ^ 28 ≠ g := by
  simp [Dev.flushLoad]

/-- Flushes leave the descriptors alone. -/
theorem Dev.run_flushLoads (d : Dev) (l : List Nat) (id : DescId) :
    (l.foldl (fun (y : Dev) g => y.flushLoad g) d).run id = d.run id :=
  foldl_keeps (fun y : Dev => y.run id) l d fun _ _ => rfl

/-! ### Probes (R358) -/

/-- The block after a probe has written n bytes of results. -/
def Dev.probed (d : Dev) (id : DescId) (n : Nat) : Dev := ((d.updRun id fun y => y.setCount 0 n).setPos id n).endRun id stOk

section
variable {d d1 d2 : Dev} {id : DescId} {r : Run} {h : List HostAnswer} {bs : List Byte}

/-- With no write to a register under way, none is carried out after the probe. -/
theorem Dev.drainRegs_probed (hq : d.regq = []) (n : Nat) : (d.probed id n).drainRegs = d.probed id n :=
  Dev.drainRegs_none (by simpa [Dev.probed] using hq)

/-- Results that a probe has written are counted in bytes, and it ends. -/
theorem probeWrite_ok (hrun : d.run id = some r)
    (hput : engWriteBytes (r.segsBy mgmtAgent r.ctx h (daSeg (qWord r.w 2))) (daOff (qWord r.w 2)) bs false 0 0 d = .ok (none, d2)) :
    probeWrite id h bs d = .ok ((), d2.probed id bs.length) := by
  simp only [probeWrite, Eng.get_bind, hrun]
  exact Eng.bind_ok hput _

/-- SKETCH_READ writes the estimates of the rows that its list names. -/
theorem sketchReadStep_ok {x : Table} {m : List SectorMeta} {ib : List Byte} (hrun : d.run id = some r)
    (htable : d.table (qBits r.w 4 52 12) = some x)
    (hread : readDa (r.segsBy mgmtAgent r.ctx h) (qWord r.w 3) 0 (8 * qBits r.w 4 0 32) d = .ok (.ok (ib, false, m), d1)) :
    sketchReadStep id h d = probeWrite id h (wordBytes ((bytesWords (qBits r.w 4 0 32) ib).map fun i =>
      BitVec.ofNat 64 (d.sketchEst (qBits r.w 4 52 12) x.w i.toNat))) d1 := by
  simp only [sketchReadStep, Eng.get_bind, hrun, htable]
  exact Eng.bind_ok hread _

end

end Sys2Proof.Machine

namespace Sys2Proof.Proofs

/-- Settles O22: a flush counter by counter, then each probe by the results it writes. -/
theorem tableProbesAndLoads : Obligations.TableProbesAndLoads := by
  refine ⟨fun s g => ⟨s.dev.flushLoad g.val, rfl, rfl, s.dev.mem_localLoad_flushLoad g.val, s.dev.get_load_flushLoad g.val⟩, ?_⟩
  intro s id r x h d2 t e ac put wrote htable hq hd2
  have hx : (s.dev.begun id).table (qBits r.w 4 52 12) = some x := htable
  have hends {n : Nat} {d : Dev} (hd : d = d2.probed id n) : s.goes d.drainRegs = .next (s.withDev (wrote n)) :=
    State.goes_of_eq (hd ▸ Dev.drainRegs_probed hq n)
  refine ⟨fun hs hput => hends ?load, fun hs ib d1 hreads hd1 hput => hends ?sketch, fun hs hput => hends ?table⟩
  case load =>
    refine (State.serving_withRun hs _).trans ?_
    simp only [hx]
    refine Dev.engine_ok (probeWrite_ok (r := r.begun) ?_ hput)
    exact (Dev.run_flushLoads _ _ id).trans (State.serving_begun hs)
  case sketch =>
    obtain ⟨m, hread⟩ := hreads
    exact State.serving_engine hs ((sketchReadStep_ok (r := r.begun) (State.serving_begun hs) hx hread).trans
      (probeWrite_ok (r := r.begun) (hd1.trans (State.serving_begun hs)) hput))
  case table =>
    refine (State.serving_withRun hs _).trans ?_
    simp only [hx]
    exact Dev.engine_ok (probeWrite_ok (r := r.begun) (State.serving_begun hs) hput)

end Sys2Proof.Proofs
end

section
/-! GATHER (R87-R96): how the descriptor of a queue goes on, what the service of one bag leaves, then the statement. -/

open Sys2Proof Sys2Proof.Machine

namespace Sys2Proof.Machine

/-! ### A running descriptor of a queue (R87) -/

/-- A running lookup of a queue goes on with its bags alone. -/
theorem Dev.gather_running {d : Dev} {id : DescId} {r : Run} (hrun : d.run id = some r) (hstage : r.stage = .running)
    (htype : descType r.w = tyGather) (hqueue : id.queue < 16384) (n : Nat) (h : List HostAnswer) :
    d.gather id n h = d.gatherBags id h n := by
  have hgsub : ¬ 20480 ≤ id.queue := by omega
  have hmailbox : ¬ 16384 ≤ id.queue := by omega
  simp [Dev.gather, hrun, hstage, htype, hgsub, hmailbox]

/-- A lookup that met no poison ends with OK (R96). -/
theorem Dev.gatherEnd_clean {d : Dev} {id : DescId} {r : Run} (hrun : d.run id = some r) (hpoison : r.count gcPoison = 0) :
    d.gatherEnd id = d.endRun id stOk := by
  simp [Dev.gatherEnd, hrun, hpoison]

/-! ### One bag (R89-R95) -/

/-- What a bag found, in the counts of its lookup (Table 12.12). -/
def Run.bagCounted (r : Run) (acc : BagAcc) (sat : Bool) : Run :=
  (((((r.addCount gcCarafe acc.carafe).addCount gcRemote acc.remote).addCount gcPre acc.pre).addCount
    gcSkipped acc.skipped).addCount gcPoison (if acc.poison then 1 else 0)).addCount gcSat
      (if sat = true ∧ acc.poison = false then 1 else 0)

/-- The block after bag b has been pooled and written: the counts, and the position at the next bag. -/
def Dev.bagServed (d : Dev) (id : DescId) (b : Nat) (acc : BagAcc) (sat : Bool) : Dev :=
  let e := d.updRun id fun x => x.bagCounted acc sat
  ({ e with tb := { e.tb with skipped := e.tb.skipped + BitVec.ofNat 64 acc.skipped } } : Dev).setPos id (b + 1)

section
variable {d : Dev} {id : DescId} {r : Run} {t : Table} {h : List HostAnswer}
  (hrun : d.run id = some r) (hlive : r.live = true) (htable : d.table (gaTable r.w) = some t)
include hrun hlive htable

theorem gatherBag_ends (hlast : gaBags r.w ≤ r.pos) : gatherBag id h d = .ok ((), d.gatherEnd id) := by
  simp [gatherBag, hrun, hlive, htable, hlast]

/-- A pooled bag with clean offsets, whose remote rows have all come. -/
theorem gatherBag_serves {ac tac : SegBy} {g o0 o1 : Nat} {d1 d2 d3 d4 d5 : Dev} {xs : List (Nat × IdxRes)} {acc : BagAcc}
    {bs : List Byte} {sat : Bool} (hg : r.grinder (r.count rcSetting) r.pos = g) (hac : r.segsBy (0x200 + g) r.ctx h = ac)
    (htac : r.segsBy (0x200 + g) (tbCtx t.w) h = tac) (hmore : r.pos < gaBags r.w) (hpool : gaPool r.w ≠ 0)
    (hheld : d.partHeld (0x200 + g) = false) (ho0 : bagOffset r ac r.pos d = .ok (.ok (o0, false), d1))
    (ho1 : bagOffset r ac (r.pos + 1) d1 = .ok (.ok (o1, false), d2)) (hrise : o0 ≤ o1) (hcount : o1 ≤ r.count gcX)
    (hresolve : resolveBag r ac tac t.w d.devId o0 (o1 - o0) d2 = .ok (.ok xs, d3)) (hcome : missingRows r xs = [])
    (hrows : bagRows r ac tac (gaTable r.w) t.w g xs { rows := [], poison := false, carafe := 0, remote := 0, pre := 0, skipped := 0 } d3 =
      .ok (.ok acc, d4))
    (hpooled : poolBag r.w (tbDim t.w) acc.rows = (bs, sat))
    (hwrite : outWrite r ac (r.pos * outStep r.w t.w) bs acc.poison d4 = .ok (none, d5)) :
    gatherBag id h d = .ok ((), let y := d5.bagServed id r.pos acc sat
      if r.pos + 1 = gaBags r.w then y.gatherEnd id else y) := by
  subst hg hac htac
  have hbags : ¬ gaBags r.w ≤ r.pos := by omega
  have hform : ¬ (o1 < o0 || r.count gcX < o1) = true := by simp; omega
  simp only [gatherBag, Eng.get_bind, hrun, hlive, htable, hbags, hheld]
  refine (Eng.bind_ok ho0 _).trans ((Eng.bind_ok ho1 _).trans ?_)
  simp only [hform]
  refine (Eng.bind_ok hresolve _).trans ?_
  simp only [hcome]
  refine (Eng.bind_ok hrows _).trans ?_
  simp only [hpooled, hpool]
  refine (Eng.bind_ok hwrite _).trans ?_
  simp [Dev.bagServed, Run.bagCounted, bit, hpool]

end

end Sys2Proof.Machine

namespace Sys2Proof.Proofs

/-- Settles O24: past the last bag the descriptor ends, and a bag before it is served. -/
theorem gatherServesBags : Obligations.GatherServesBags := by
  intro s id h r t d tb b g ac tac hrun hstage htype hqueue htable hq
  have hlive : r.live = true := by simp [Run.live, hstage]
  have hexec {e : Dev} (hstep : gatherBag id h d = .ok ((), e)) (hq' : e.regq = []) :
      exec (.gather id 1 h) s = .next (s.withDev e) := by
    refine State.goes_of_eq ?_
    rw [Dev.gather_running hrun hstage htype hqueue, Dev.gatherBags, Dev.engine_ok hstep]
    exact Dev.drainRegs_none hq'
  refine ⟨fun hlast hpoison => ?ends, fun o0 o1 d1 d2 d3 d4 d5 xs acc bs sat hmore hpool hheld ho0 ho1 hrise hcount hresolve hcome hrows
    hpooled hwrite hq5 => ?serves⟩
  case ends =>
    rw [← Dev.gatherEnd_clean hrun hpoison]
    exact hexec (gatherBag_ends hrun hlive htable hlast) (by simpa using hq)
  case serves =>
    refine hexec (gatherBag_serves hrun hlive htable rfl rfl rfl hmore hpool hheld ho0 ho1 hrise hcount hresolve hcome hrows hpooled
      hwrite) ?_
    split <;> simp [hq5]

end Sys2Proof.Proofs
end

section
/-! Epochs (R105-R110), and updates as their descriptor takes and ends them (R121, R130-R135): what each operation does in the course
that its statement names, then the statement. -/

open Sys2Proof Sys2Proof.Machine

namespace Sys2Proof.Machine

/-! ### Descriptors told apart by their numbers -/

section
variable {d : Dev} {id : DescId} {r x : Run}

theorem Dev.run_unique (hids : (d.cp.runs.map fun y => y.id).Nodup) (h : d.run id = some r) (hx : x ∈ d.cp.runs) (hid : x.id = id) :
    x = r :=
  List.inj_on_of_nodup_map hids hx (Dev.mem_runs h) (hid.trans (Dev.run_id h).symm)

theorem Dev.run_of_mem (hids : (d.cp.runs.map fun y => y.id).Nodup) (hr : r ∈ d.cp.runs) : d.run r.id = some r := by
  cases h : d.run r.id with
  | none => simpa using List.find?_eq_none.mp h r hr
  | some y => rw [Dev.run_unique hids h hr rfl]

/-- A change of runs that keeps their numbers. -/
theorem Dev.runIds_updRun (d : Dev) {id : DescId} {f : Run → Run} (hf : ∀ x : Run, x.id = id → (f x).id = id) :
    ((d.updRun id f).cp.runs.map fun y => y.id) = d.cp.runs.map fun y => y.id := by
  simp only [Dev.updRun, List.map_map]
  refine List.map_congr_left fun x _ => ?_
  by_cases hx : x.id = id <;> simp [hx, hf x]

theorem Dev.runIds_begun (d : Dev) (id : DescId) : ((d.begun id).cp.runs.map fun y => y.id) = d.cp.runs.map fun y => y.id :=
  Dev.runIds_updRun d (by exact fun _ hx => hx)

theorem Dev.runIds_endRun (d : Dev) (id : DescId) (st : Nat) :
    ((d.endRun id st).cp.runs.map fun y => y.id) = d.cp.runs.map fun y => y.id := by
  rcases d.endRun_cases id st with h | ⟨f, progs, hf, h⟩ <;> rw [h]
  exact Dev.runIds_updRun d fun x hx => (hf x).trans hx

theorem Dev.run_setPos (h : d.run id = some r) (pos : Nat) : (d.setPos id pos).run id = some { r with pos := pos } := by
  simp only [Dev.setPos, h]
  split <;> exact Dev.run_updRun_same (fun _ hx => hx) h

end

/-! ### Tables -/

@[simp] theorem Dev.table_setTable (d : Dev) (t : Nat) (x : Option Table) : (d.setTable t x).table t = x := Map.get_put_same _ _ _ _

@[simp] theorem Dev.run_setTable (d : Dev) (t : Nat) (x : Option Table) (id : DescId) : (d.setTable t x).run id = d.run id := rfl

/-- Lookup epochs without a lookup retire; the latest stays (R108). -/
theorem Dev.table_retireEpochs {d : Dev} {t : Nat} {x : Table} (h : d.table t = some x) :
    ∃ loss, (d.retireEpochs t).table t = some { x with
      live := x.live.filter fun e => e = x.lookEp || d.epochBound t e, loss := loss } := by
  simp only [Dev.retireEpochs, h]
  exact ⟨_, Dev.table_setTable d t _⟩

theorem Dev.retireEpochs_cp (d : Dev) (t : Nat) : (d.retireEpochs t).cp = d.cp := by
  unfold Dev.retireEpochs
  split <;> rfl

theorem Dev.run_retireEpochs (d : Dev) (t : Nat) (id : DescId) : (d.retireEpochs t).run id = d.run id := by
  rw [Dev.run, Dev.retireEpochs_cp]; rfl

theorem Dev.retireEpochs_tr (d : Dev) (t : Nat) : (d.retireEpochs t).tr = d.tr := by
  unfold Dev.retireEpochs
  split <;> rfl

/-! ### An epoch descriptor begins (R107) -/

/-- The block after epoch descriptor id of table t has begun. -/
def Dev.epochBegun (d : Dev) (t : Nat) (x : Table) (id : DescId) : Dev :=
  (d.begun id).setTable t (some { x with updEp := epochNext x.updEp })

section
variable {d : Dev} {t : Nat}

/-- Nothing begins, or the first admitted descriptor of the table does, once none of them runs. -/
theorem Dev.epochBegin_cases (d : Dev) (t : Nat) : d.epochBegin t = d ∨
    ∃ r x, r ∈ d.cp.runs ∧ r.stage = .admitted ∧ d.table t = some x ∧ d.epochBegin t = d.epochBegun t x r.id := by
  unfold Dev.epochBegin
  dsimp only
  split
  · exact .inl rfl
  split
  · rename_i r x hfirst hx
    refine .inr ⟨r, x, (List.mem_filter.mp (List.mem_of_find?_eq_some hfirst)).1, ?_, hx, rfl⟩
    simpa using List.find?_some hfirst
  · exact .inl rfl

/-- The only epoch descriptor of a table begins. -/
theorem Dev.epochBegin_only {r : Run} {x : Table} (hr : r ∈ d.cp.runs) (hstage : r.stage = .admitted) (htype : descType r.w = tyEpoch)
    (htable : descTable r.w = some t) (honly : ∀ y ∈ d.cp.runs, descType y.w = tyEpoch → descTable y.w = some t → y = r)
    (hx : d.table t = some x) : d.epochBegin t = d.epochBegun t x r.id := by
  have hmine (y : Run) (hy : y ∈ d.cp.runs.filter fun r => descType r.w = tyEpoch && descTable r.w = some t) : y = r := by
    simp only [List.mem_filter, Bool.and_eq_true, decide_eq_true_eq] at hy
    exact honly y hy.1 hy.2.1 hy.2.2
  have hmem : r ∈ d.cp.runs.filter fun r => descType r.w = tyEpoch && descTable r.w = some t := by simp [hr, htype, htable]
  have hidle : ((d.cp.runs.filter fun r => descType r.w = tyEpoch && descTable r.w = some t).any fun r => r.stage = .running) = false := by
    rw [List.any_eq_false]
    intro y hy
    simp [hmine y hy, hstage]
  have hfirst : ((d.cp.runs.filter fun r => descType r.w = tyEpoch && descTable r.w = some t).find? fun r => r.stage = .admitted) =
      some r := by
    cases hf : (d.cp.runs.filter fun r => descType r.w = tyEpoch && descTable r.w = some t).find? fun r => r.stage = .admitted with
    | none => exact absurd hstage (by simpa using List.find?_eq_none.mp hf r hmem)
    | some y => rw [hmine y (List.mem_of_find?_eq_some hf)]
  have hstore : Map.get none d.tb.store t = some x := hx
  simp only [Dev.epochBegin, hidle, hfirst, hstore]
  rfl

theorem Dev.epochBegin_tr (d : Dev) (t : Nat) : (d.epochBegin t).tr = d.tr := by
  rcases Dev.epochBegin_cases d t with h | ⟨r, x, -, -, -, h⟩ <;> rw [h]
  rfl

/-- A beginning moves a table's update epoch at most. -/
theorem Dev.table_epochBegin {x : Table} (hx : d.table t = some x) : ∃ u, (d.epochBegin t).table t = some { x with updEp := u } := by
  rcases Dev.epochBegin_cases d t with h | ⟨r, y, -, -, hy, h⟩ <;> rw [h]
  · exact ⟨_, hx⟩
  · cases hx.symm.trans hy
    exact ⟨_, Dev.table_setTable _ t _⟩

/-- A descriptor that is not the one to begin stays as it is. -/
theorem Dev.run_epochBegin {id : DescId} {r : Run} (hids : (d.cp.runs.map fun y => y.id).Nodup) (hrun : d.run id = some r)
    (hstage : r.stage ≠ .admitted) : (d.epochBegin t).run id = some r := by
  rcases Dev.epochBegin_cases d t with h | ⟨y, x, hy, hadm, -, h⟩ <;> rw [h]
  · exact hrun
  · have hother : r.id ≠ y.id := fun hid =>
      hstage (Dev.run_unique hids hrun hy (hid.symm.trans (Dev.run_id hrun)) ▸ hadm)
    simp [Dev.epochBegun, Dev.begun, Dev.run_updRun, hrun, hother]

end

/-! ### EPOCH_ADVANCE (R107, R108) -/

/-- A table once its next lookup epoch is set. -/
def Table.advanced (x : Table) : Table := { x with lookEp := epochNext x.lookEp, live := x.live ++ [epochNext x.lookEp] }

/-- The block after the next lookup epoch of a table is set and its descriptor ended. -/
def Dev.epochMoved (d : Dev) (t : Nat) (x : Table) (r : Run) : Dev :=
  let wait := if r.count 5 = 0 then 0 else d.now.toNat + 1 - r.count 5
  (((d.setTable t (some x.advanced)).retireEpochs t).updRun r.id fun y =>
    (y.setCount 0 wait).setCount 1 (epochNext x.lookEp)).endRun r.id stOk

/-- Row requests of the table that were held go on. -/
def Taruc.heldGoOn (x : Taruc) (t : Nat) : Taruc :=
  { x with
    held := x.held.filter fun m => tmBits m.words 1 36 12 ≠ t
    inbox := x.inbox ++ x.held.filter fun m => tmBits m.words 1 36 12 = t }

section
variable {d : Dev} {t : Nat} {x : Table} {r : Run}

theorem Dev.epochAdvance_moves (hx : d.table t = some x)
    (hrunning : (d.cp.runs.find? fun y => descType y.w = tyEpoch && descTable y.w = some t && y.stage = .running) = some r)
    (hopen : d.updatesOpen t x.lookEp = false) (hlive : x.live.length < 4) :
    d.epochAdvance t =
      let e := (d.epochMoved t x r).epochBegin t
      { e with tr := e.tr.heldGoOn t } := by
  simp only [Dev.epochAdvance, hx, hrunning, hopen, Nat.not_le.mpr hlive]
  simp [List.partition_eq_filter_filter, Dev.epochMoved, Table.advanced, Taruc.heldGoOn, Function.comp_def]

theorem Dev.epochMoved_tr (d : Dev) (t : Nat) (x : Table) (r : Run) : (d.epochMoved t x r).tr = d.tr := by
  simp only [Dev.epochMoved, Dev.endRun_tr, Dev.updRun_tr, Dev.retireEpochs_tr]
  rfl

theorem Dev.runIds_epochMoved (d : Dev) (t : Nat) (x : Table) (r : Run) :
    ((d.epochMoved t x r).cp.runs.map fun y => y.id) = d.cp.runs.map fun y => y.id := by
  simp only [Dev.epochMoved]
  rw [Dev.runIds_endRun, Dev.runIds_updRun _ (by exact fun _ hy => hy), Dev.retireEpochs_cp]
  rfl

/-- The epoch descriptor has ended with the new lookup epoch in its record. -/
theorem Dev.run_epochMoved (hrun : d.run r.id = some r) (hstage : r.stage = .running) :
    ∃ z, (d.epochMoved t x r).run r.id = some z ∧ z.stage = .ended ∧ z.status = stOk ∧ z.count 1 = epochNext x.lookEp := by
  have hkept := (Dev.run_retireEpochs (d.setTable t (some x.advanced)) t r.id).trans hrun
  have hended := Dev.run_endRun (Dev.run_updRun_same (f := fun y =>
    (y.setCount 0 (if r.count 5 = 0 then 0 else d.now.toNat + 1 - r.count 5)).setCount 1 (epochNext x.lookEp))
    (fun _ hy => hy) hkept) hstage stOk
  exact ⟨_, hended, rfl, rfl, Map.get_put_same 0 _ 1 _⟩

/-- The table looks up in its new epoch; of the others those with a lookup live on. -/
theorem Dev.table_epochMoved (d : Dev) (t : Nat) (x : Table) (r : Run) : ∃ y, (d.epochMoved t x r).table t = some y ∧ y.w = x.w ∧
    y.lookEp = epochNext x.lookEp ∧ epochNext x.lookEp ∈ y.live ∧
    ∀ k ∈ y.live, k = epochNext x.lookEp ∨ k ∈ x.live ∧ d.epochBound t k = true := by
  obtain ⟨loss, hretired⟩ := Dev.table_retireEpochs (Dev.table_setTable d t (some x.advanced))
  have htable : (d.epochMoved t x r).table t = _ := (Dev.table_endRun _ _ _ _).trans hretired
  refine ⟨_, htable, rfl, rfl, ?_, fun k hk => ?_⟩
  · simp [Table.advanced]
  · obtain ⟨hlive, hbound⟩ := List.mem_filter.mp hk
    rcases List.mem_append.mp hlive with hold | hnew
    · exact ((Bool.or_eq_true _ _).mp hbound).imp of_decide_eq_true fun hb => ⟨hold, hb⟩
    · exact .inl (List.mem_singleton.mp hnew)

end

/-! ### UPDATE: the end of the list (R121) -/

section
variable {d : Dev} {id : DescId} {r : Run} {h : List HostAnswer}

theorem Dev.pumpUpd_none (hrun : d.run id = some r) (hupds : r.upds = []) : d.pumpUpd id = d := by
  simp [Dev.pumpUpd, hrun, hupds]

/-- A list read to its end without a failure or poison, that closes no step and waits for no update, ends its descriptor. -/
theorem Dev.settleUpd_ends (hids : (d.cp.runs.map fun y => y.id).Nodup) (hrun : d.run id = some r) (hlive : r.live = true)
    (hupds : r.upds = []) (hread : r.count ucRead = upCount r.w) (hfail : r.count ucFail = 0) (hstep : upStepEnd r.w = false)
    (hpoison : r.count ucPoison = 0) : d.settleUpd id = (d.setPos id (upCount r.w)).endRun id stOk := by
  have hkept : (d.updRun id fun r => if r.count ucFail = 0 then r else
      { r with upds := r.upds.filter fun x => x.stage = 2 || x.pos < r.count ucFailPos }) = d :=
    Dev.updRun_eq_self fun x hx hid => if_pos (Dev.run_unique hids hrun hx hid ▸ hfail)
  simp only [Dev.settleUpd, hkept, Dev.pumpUpd_none hrun hupds, hrun]
  simp [hlive, hupds, hread, hfail, hstep, hpoison]

/-- A descriptor that has ended closes no step. -/
theorem closeStep_ended (hrun : d.run id = some r) (hlive : r.live = false) : closeStep id h d = .ok ((), d) := by
  simp only [closeStep, Eng.get_bind, hrun]
  cases d.table (upTable r.w) <;> simp [hlive]

/-- UPDATE with its list already read takes no index and no progress object, and settles. -/
theorem State.update_read {s : State} (hs : s.serving id r tyUpdate none) (hprog : r.prog ≠ 0 ∨ qBit r.w 0 56 = false)
    (hread : r.count ucRead = upCount r.w) : s.dev.update id h = ((s.dev.begun id).settleUpd id).engine (closeStep id h) := by
  have hnone : ¬ (qBit r.w 0 56 && r.prog = 0) = true := by
    rcases hprog with hp | hp <;> simp [hp]
  refine (State.serving_withRun hs _).trans ?_
  simp [hnone, hread, Dev.updateLoop]

end

/-! ### UPDATE: an index of the list (R121, R130) -/

/-- The run with position p read and its update held. -/
def Run.holds (r : Run) (p : Nat) (x : PendUpd) : Run := { r.setCount ucRead (p + 1) with upds := r.upds ++ [x] }

/-- An index that is no pad and no bad row, of a row of this device, with values that are numbers. -/
theorem updateIndex_holds {d d2 d3 d4 : Dev} {id : DescId} {r : Run} {t : Table} {h : List HostAnswer} {ib vb : List Byte} {e : RowEnt}
    {at_ : Option Word64} {k i g : Nat} {vs : List Word32} {tac : SegBy} (hi : leNat ib = i)
    (hvs : valueRow (upVfmt r.w) (tbDim t.w) vb = vs) (hg : updGrinder (upScope r.w) (upTable r.w) i = g)
    (htac : r.segsBy (0x200 + g) (tbCtx t.w) h = tac) (hrun : d.run id = some r) (hlive : r.live = true)
    (hfail : r.count ucFail = 0) (hmore : r.count ucRead + 1 < upCount r.w) (htable : d.table (upTable r.w) = some t)
    (hindex : d.reads (r.segsBy 0x200 r.ctx h) (qWord r.w 1) ((if upIdx32 r.w then 4 else 8) * r.count ucRead)
      (if upIdx32 r.w then 4 else 8) ib d2) (hpad : isPad (upIdx32 r.w) i = false)
    (hvalues : d2.reads (r.segsBy 0x200 r.ctx h) (qWord r.w 2) (valueStep r.w t.w * r.count ucRead) (valueBytes r.w t.w) vb d3)
    (hgood : valueBad (upMode r.w) vs = false) (hheld : d.partHeld (0x200 + g) = false)
    (hresolve : uncounted (resolveRow tac t.w d.devId i false) d3 = .ok ((k, .ent e at_), d4)) (hrun4 : d4.run id = some r)
    (hmerge : tbMerge t.w = false) :
    updateIndex id h d = .ok ((), d4.updRun id fun _ => r.holds (r.count ucRead)
      { pos := r.count ucRead, row := i, values := vs, line := d.rowLine tac t.w i e at_, dev := none, fwded := false, stage := 1
        unit := g }) := by
  subst hi hvs hg htac
  obtain ⟨m, hindex⟩ := hindex
  obtain ⟨m', hvalues⟩ := hvalues
  have htake : ¬ (!r.live || r.count ucFail ≠ 0 || upCount r.w ≤ r.count ucRead) = true := by
    simp [hlive, hfail]; omega
  have hnotLast : r.count ucRead + 1 ≠ upCount r.w := by omega
  simp only [updateIndex, Eng.get_bind, hrun, htake, htable]
  refine (Eng.bind_ok hindex _).trans ?_
  simp only [hpad]
  refine (Eng.bind_ok hvalues _).trans ?_
  simp only [hheld]
  refine (Eng.bind_ok hresolve _).trans ?_
  simp [hgood, hmerge, hrun4, Run.putUpd, hnotLast, Run.holds]
  rfl

/-! ### DETERM_STEP_LIMIT (R135) -/

/-- A step with all its contributors in, its updates in the order of R133. -/
def StepBuf.sorted (b : StepBuf) : StepBuf := { b with ready := true, busy := true, upds := b.upds.foldr insertStep [] }

/-- The block after an incomplete step of table t is taken to be applied. -/
def Dev.stepTaken (d : Dev) (t step : Nat) (b : StepBuf) : Dev :=
  let e := d.setStep t step (some b.sorted)
  { e with tb := { e.tb with incomplete := e.tb.incomplete + 1 } }

theorem Dev.determLimit_takes {d : Dev} {t step : Nat} {x : Table} {b : StepBuf} (hx : d.table t = some x)
    (hstep : (d.tb.steps.find? fun y => y.table = t && y.step = step) = some b) (hready : b.ready = false) (hupds : b.upds ≠ [])
    (hidle : ∀ y ∈ d.tb.steps, y.table = t → y.busy = false) : d.determLimit t step = (d.stepTaken t step b).stepRun t := by
  have hb : b.busy = false := by
    have htable := List.find?_some hstep
    simp only [Bool.and_eq_true, decide_eq_true_eq] at htable
    exact hidle b (List.mem_of_find?_eq_some hstep) htable.1
  have hfree : (d.tb.steps.any fun y => y.table = t && y.busy) = false := by simpa [List.any_eq_false] using hidle
  simp [Dev.determLimit, hx, hstep, hb, hready, hupds, hfree, Dev.stepTaken, StepBuf.sorted]

end Sys2Proof.Machine

namespace Sys2Proof.Proofs

/-- Settles O23: epochs by their descriptors' beginning and end, updates by an index of the list and its end, and a step by its limit. -/
theorem epochsAndUpdates : Obligations.EpochsAndUpdates := by
  refine ⟨⟨?opens, ?advances, ?waits⟩, ?ends, ?index, ?limit⟩
  case opens =>
    intro s id r x t hids hrun hstage htype honly htable hx
    obtain rfl := Dev.run_id hrun
    refine State.goes_of_eq ?_
    have hop : (r.isOp tyEpoch none && r.stage = .admitted) = true := by simp [Run.isOp, htype, hstage]
    simp only [Dev.epochOpen, hrun, hop]
    exact Dev.epochBegin_only (Dev.mem_runs hrun) hstage htype htable honly hx
  case advances =>
    intro s t x r d e hx hids hrunning hopen hlive
    have hstage : r.stage = .running := by
      have hfound := List.find?_some hrunning
      simp only [Bool.and_eq_true, decide_eq_true_eq] at hfound
      exact hfound.2
    have hnext := Dev.epochAdvance_moves hx hrunning hopen hlive
    obtain ⟨z, hz, hended, hok, hcount⟩ := Dev.run_epochMoved (t := t) (x := x)
      (Dev.run_of_mem hids (List.mem_of_find?_eq_some hrunning)) hstage
    obtain ⟨y, hy, hw, hlook, hnew, hold⟩ := Dev.table_epochMoved d t x r
    obtain ⟨u, hu⟩ := Dev.table_epochBegin hy
    have hrun := Dev.run_epochBegin (t := t) ((Dev.runIds_epochMoved d t x r).symm ▸ hids) hz (by simp [hended])
    have htr := (Dev.epochBegin_tr (d.epochMoved t x r) t).trans (Dev.epochMoved_tr d t x r)
    generalize (d.epochMoved t x r).epochBegin t = n at hnext hu hrun htr
    exact ⟨s.withDev { n with tr := n.tr.heldGoOn t }, { y with updEp := u }, z, State.goes_of_eq hnext, rfl, hu, hw, hlook, hnew, hold,
      hrun, hended, hok, hcount, congrArg (fun v => (Taruc.heldGoOn v t).inbox) htr, congrArg (fun v => (Taruc.heldGoOn v t).held) htr⟩
  case waits =>
    intro s m hrun hm
    exact State.timed_next hrun (if_pos (List.contains_iff_mem.mpr hm))
  case ends =>
    intro s id r h e hids hs hprog hupds hread hfail hstep hpoison
    have hrun := State.serving_begun hs
    have hbegun : (e.cp.runs.map fun y => y.id).Nodup := (Dev.runIds_begun s.dev id).symm ▸ hids
    refine State.goes_of_eq ((State.update_read hs hprog hread).trans ?_)
    rw [Dev.settleUpd_ends (r := r.begun) hbegun hrun rfl hupds hread hfail hstep hpoison]
    exact Dev.engine_ok (closeStep_ended (Dev.run_endRun (Dev.run_setPos hrun _) rfl _) rfl)
  case index =>
    intro d id r t h ib vb d2 d3 d4 e at_ k p ac i vs g tac wd hrun hlive hfail hmore htable hindex hpad hvalues hgood hheld hresolve
      hrun4 hmerge
    have hid : r.id = id := Dev.run_id hrun
    rw [Dev.engine_ok (updateIndex_holds rfl rfl rfl rfl hrun hlive hfail hmore htable hindex hpad hvalues hgood hheld hresolve hrun4
      hmerge)]
    exact Dev.run_updRun_same (fun _ _ => hid) hrun4
  case limit =>
    intro s t step x b hrun d hx hstep hready hupds hidle
    exact ⟨_, State.timed_next hrun (Dev.determLimit_takes hx hstep hready hupds hidle), rfl, rfl⟩

end Sys2Proof.Proofs
end

section
/-! MIGRATE (R138-R149). WAITING_CREMA_RESUME without room leaves its move as it is, and like every command that reaches the homes it
lets begin what waits at them: a sector reported as uncorrectable is called back from the host (R239). The statement has no hypothesis
that nothing waits there, so it fails. -/

open Sys2Proof Sys2Proof.Machine

namespace Sys2Proof.Machine

section
variable {d : Dev} {id : DescId} {m : Migr}

/-- Without room in Crema the move waits on (R148). -/
theorem Dev.cremaResume_noRoom (hm : (d.tb.migr.find? fun x => x.desc = id && x.step = 0) = some m)
    (hroom : d.migrRoom (preUnits (32 * (m.slotsz + 1))) = false) : d.cremaResume id = d := by
  simp [Dev.cremaResume, hm, hroom]

/-- Without room the state stands just where the homes have nothing to take up. -/
theorem exec_waitingCremaResume_stands_iff {s : State} (hm : (s.dev.tb.migr.find? fun x => x.desc = id && x.step = 0) = some m)
    (hroom : s.dev.migrRoom (preUnits (32 * (m.slotsz + 1))) = false) :
    exec (.waitingCremaResume id) s = .next s ↔ s.dev.pumpHomes = s.dev := by
  have hexec : exec (.waitingCremaResume id) s = s.homes (s.dev.cremaResume id) := rfl
  rw [hexec, Dev.cremaResume_noRoom hm hroom]
  refine ⟨fun h => congrArg State.dev (Host.Outcome.next.inj h), fun h => ?_⟩
  rw [State.homes, h]
  rfl

/-- Where only reports of uncorrectable sectors wait, the homes take up those (R239). -/
theorem pumpHomes_reports (hrows : d.rowsWaiting = 0) (hnet : ∀ q, Msg.req q ∈ d.net → q.src ≠ hostAgent) :
    d.pumpHomes = d.retrySuspects := by
  simp [Dev.pumpHomes, pumpHost_quiet d hnet, hrows, Dev.pumpRows]

end

end Sys2Proof.Machine

namespace Sys2Proof.Proofs

/-! ### A waiting move beside a reported sector -/

/-- The descriptor of the move: MIGRATE, one list entry, table 0. -/
def migrateRun : Run :=
  { mkRun { queue := 0, index := 0 } [packBits [(60, 4, tyMigrate)], 0, packBits [(0, 32, 1)], 0, 0, 0, 0, 0] 0 0 0
      { notes := { segs := [], gens := [] }, param := [], epoch := 0, x := 0 } with
    stage := .running, prog := 1, cnt := [(mcRead, 1)] }

/-- Row 0 of table 0, opened and without a copy. -/
def waitingMove : Migr :=
  { desc := migrateRun.id, table := 0, row := 0, old := 0, dev := 0, wclass := 0, pool := 0, slotsz := 0, slot := 0, units := 0,
    changed := false, step := 0, locked := false }

/-- The move waits, for the Crema store has no space at all; the host may hold the dirty copy of sector 0, whose stored symbols are
beyond correction. -/
def moveWaits : Dev := { Dev.reset with
  cp := { Ctrl.reset with runs := [migrateRun] }
  tb := { Tables.reset with store := [(0, some (mkTable [] 0 none))], migr := [waitingMove], cremaSize := 0 }
  dir := [(0, { DirEntry.empty with v := true, sec := [(0, { DirSector.none with hs := 2 })] })]
  symErr := [(0, 3)] }

/-- The same block once a controller has read the sector and reported it (R239). -/
def badReported : Dev := (moveWaits.memRead 0).2.2

/-- The report waits at an idle line. -/
theorem badReported_waits : badReported.tier.suspects = [(0, 0)] ∧ badReported.lineBusy 0 = false := by decide +kernel

/-- The homes begin the recall of the host's copy. -/
theorem badReported_recalled : badReported.pumpHomes.lineBusy 0 = true := by
  have hnet : badReported.net = [] := rfl
  rw [pumpHomes_reports (by decide) (by simp [hnet])]
  decide +kernel

/-- Refutes O25: WAITING_CREMA_RESUME without room does not leave the state as it is where a reported sector waits for its recall. -/
theorem not_migrationCommands : ¬ Obligations.MigrationCommands := by
  intro h
  let s : State := { pending := [], dev := badReported }
  have hroom : s.dev.migrRoom (preUnits (32 * (waitingMove.slotsz + 1))) = false := by decide
  have hmove : (s.dev.tb.migr.find? fun x => x.desc = migrateRun.id && x.step = 0) = some waitingMove := rfl
  obtain ⟨hopened, -⟩ := h s migrateRun.id [] migrateRun (mkTable [] 0 none) waitingMove rfl rfl rfl rfl
  obtain ⟨-, hnoRoom⟩ := hopened rfl rfl hmove
  obtain ⟨hstands, -⟩ := hnoRoom hroom rfl
  have hdev : badReported.pumpHomes = badReported := (exec_waitingCremaResume_stands_iff hmove hroom).mp hstands
  have hrecalled := badReported_recalled
  rw [hdev, badReported_waits.2] at hrecalled
  exact Bool.false_ne_true hrecalled

end Sys2Proof.Proofs
end

section
/-! Scalar, address, FP32 and predicate instructions (R151, R191, R192, R212): the model's word operations are those of Tables 6.13 and
6.15 in integers and naturals, and every instruction retires with its result. -/

open Sys2Proof Sys2Proof.Machine

namespace Sys2Proof.Machine

/-! ### Word operations (R192) -/

section
variable (a b : Word64)

theorem mulHS_word : mulHS 64 a b = wordInt (a.toInt * b.toInt / 2 ^ 64) := rfl

theorem divS_word : divS 64 a b = if b = 0 then BitVec.allOnes 64 else wordInt (a.toInt.tdiv b.toInt) := by
  unfold divS
  congr 1
  exact BitVec.eq_of_toInt_eq (by rw [BitVec.toInt_sdiv, wordInt, BitVec.toInt_ofInt])

theorem divU_word : divU 64 a b = if b = 0 then BitVec.allOnes 64 else BitVec.ofNat 64 (a.toNat / b.toNat) := by
  unfold divU
  congr 1
  rw [← BitVec.toNat_udiv, BitVec.ofNat_toNat, BitVec.setWidth_eq]

theorem remS_word : remS 64 a b = if b = 0 then a else wordInt (a.toInt.tmod b.toInt) := by
  unfold remS
  congr 1
  rw [← BitVec.toInt_srem, wordInt, BitVec.ofInt_toInt]

theorem remU_word : remU 64 a b = if b = 0 then a else BitVec.ofNat 64 (a.toNat % b.toNat) := by
  unfold remU
  congr 1
  rw [← BitVec.toNat_umod, BitVec.ofNat_toNat, BitVec.setWidth_eq]

theorem shl_word : shl 64 a b = BitVec.ofNat 64 (a.toNat * 2 ^ (b.toNat % 64)) := by
  apply BitVec.eq_of_toNat_eq
  rw [shl, BitVec.toNat_shiftLeft, BitVec.toNat_ofNat, Nat.shiftLeft_eq]

theorem shr_word : shr 64 a b = BitVec.ofNat 64 (a.toNat / 2 ^ (b.toNat % 64)) := by
  rw [← Nat.shiftRight_eq_div_pow, ← BitVec.toNat_ushiftRight, BitVec.ofNat_toNat, BitVec.setWidth_eq, shr]

theorem sar_word : sar 64 a b = wordInt (a.toInt / 2 ^ (b.toNat % 64)) := by
  have h : a.toInt / 2 ^ (b.toNat % 64) = (a.sshiftRight (b.toNat % 64)).toInt := by
    rw [BitVec.toInt_sshiftRight, Int.shiftRight_eq_div_pow]; norm_cast
  rw [h, wordInt, BitVec.ofInt_toInt, sar]

theorem minS_word : minS 64 a b = if a.toInt ≤ b.toInt then a else b := by
  rcases lt_trichotomy a.toInt b.toInt with h | h | h
  · simp [minS, BitVec.slt_iff_toInt_lt, h, h.le]
  · simp [BitVec.eq_of_toInt_eq h, minS]
  · simp [minS, BitVec.slt_iff_toInt_lt, h.not_gt, h.not_ge]

theorem maxS_word : maxS 64 a b = if a.toInt ≤ b.toInt then b else a := by
  rcases lt_trichotomy a.toInt b.toInt with h | h | h
  · simp [maxS, BitVec.slt_iff_toInt_lt, h, h.le]
  · simp [BitVec.eq_of_toInt_eq h, maxS]
  · simp [maxS, BitVec.slt_iff_toInt_lt, h.not_gt, h.not_ge]

theorem minU_word : minU 64 a b = if a.toNat ≤ b.toNat then a else b := by
  rcases lt_trichotomy a.toNat b.toNat with h | h | h
  · simp [minU, BitVec.ult_iff_toNat_lt, h, h.le]
  · simp [BitVec.eq_of_toNat_eq h, minU]
  · simp [minU, BitVec.ult_iff_toNat_lt, h.not_gt, h.not_ge]

theorem maxU_word : maxU 64 a b = if a.toNat ≤ b.toNat then b else a := by
  rcases lt_trichotomy a.toNat b.toNat with h | h | h
  · simp [maxU, BitVec.ult_iff_toNat_lt, h, h.le]
  · simp [BitVec.eq_of_toNat_eq h, maxU]
  · simp [maxU, BitVec.ult_iff_toNat_lt, h.not_gt, h.not_ge]

theorem boolWord_decide (p : Prop) [Decidable p] : boolWord p = wordIf p := by simp [boolWord, wordIf]

theorem cmplt_word : boolWord (a.slt b) = wordIf (a.toInt < b.toInt) := by simp [boolWord, wordIf, BitVec.slt_iff_toInt_lt]

theorem cmpltu_word : boolWord (a.ult b) = wordIf (a.toNat < b.toNat) := by simp [boolWord, wordIf, BitVec.ult_iff_toNat_lt]

end

/-! ### Counts over a word -/

section
variable {w : Nat} (x : BitVec w)

theorem popc_eq_countP (n : Nat) : popc w x n = (List.range n).countP x.getLsbD := by
  induction n with
  | zero => rfl
  | succ n ih => rw [List.range_succ, List.countP_append, List.countP_singleton, ← ih, popc]

theorem bitCount_eq_countP (x : Word64) (n : Nat) : bitCount x n = (List.range n).countP x.getLsbD := by
  induction n with
  | zero => rfl
  | succ n ih => rw [List.range_succ, List.countP_append, List.countP_singleton, ← ih, bitCount]

/-- Below n, where no higher bit is set, the zeros above the highest set bit. -/
theorem clz_eq_log2 (n : Nat) (h : x.toNat < 2 ^ n) : clz w x n = if x = 0 then n else n - 1 - x.toNat.log2 := by
  induction n with
  | zero =>
    have h0 : x = 0 := BitVec.eq_of_toNat_eq (by simpa using h)
    simp [clz, h0]
  | succ n ih =>
    by_cases hb : x.getLsbD n = true
    · have hge : 2 ^ n ≤ x.toNat := Nat.ge_two_pow_of_testBit hb
      have hne : x.toNat ≠ 0 := (Nat.two_pow_pos n).trans_le hge |>.ne'
      have hlog : x.toNat.log2 = n := (Nat.log2_eq_iff hne).mpr ⟨hge, h⟩
      have hx : x ≠ 0 := fun h0 => hne (by rw [h0]; rfl)
      rw [clz, if_pos hb, if_neg hx, hlog, Nat.add_sub_cancel, Nat.sub_self]
    · have hlt : x.toNat < 2 ^ n := Nat.lt_pow_two_of_testBit _ fun i hi => by
        rcases hi.eq_or_lt with rfl | hi
        · exact Bool.eq_false_iff.mpr hb
        · exact Nat.testBit_lt_two_pow (h.trans_le (Nat.pow_le_pow_right (by decide) hi))
      rw [clz, if_neg hb, ih hlt]
      by_cases hx : x = 0
      · rw [if_pos hx, if_pos hx]
      · have hne : x.toNat ≠ 0 := fun h0 => hx (BitVec.eq_of_toNat_eq h0)
        have hlog : x.toNat.log2 < n := (Nat.log2_lt hne).mpr hlt
        rw [if_neg hx, if_neg hx]
        omega

/-- The zeros below the first set bit from bit i on. -/
theorem ctz_eq_find (n i : Nat) : i + ctz w x i n = ((List.range' i n).find? x.getLsbD).getD (i + n) := by
  induction n generalizing i with
  | zero => rfl
  | succ n ih =>
    rw [ctz, List.range'_succ, List.find?_cons]
    cases x.getLsbD i with
    | true => rfl
    | false =>
      have := ih (i + 1)
      rw [Nat.add_right_comm, Nat.add_right_comm i 1 n] at this
      exact this

end

theorem clz_word (a : Word64) : clz 64 a 64 = if a = 0 then 64 else 63 - Nat.log2 a.toNat := clz_eq_log2 a 64 a.isLt

theorem ctz_word (a : Word64) : ctz 64 a 0 64 = ((List.range 64).find? a.getLsbD).getD 64 := by
  rw [List.range_eq_range', ← ctz_eq_find a 64 0, Nat.zero_add]

/-! ### Immediates and addresses -/

/-- The upper 22 bits of a word from an immediate, the lower 42 as they were. -/
theorem lih_word (z : BitVec 42) (x : Word64) :
    (BitVec.ofInt 22 z.toInt ++ x.extractLsb' 0 42 : BitVec 64) = BitVec.ofNat 64 (z.toNat % 2 ^ 22 * 2 ^ 42 + x.toNat % 2 ^ 42) := by
  have hz : (BitVec.ofInt 22 z.toInt).toNat = z.toNat % 2 ^ 22 := by
    rw [BitVec.toNat_ofInt, BitVec.toInt_eq_toNat_cond]
    split <;> omega
  have hlt : z.toNat % 2 ^ 22 * 2 ^ 42 + x.toNat % 2 ^ 42 < 2 ^ 64 := by omega
  apply BitVec.eq_of_toNat_eq
  rw [BitVec.toNat_append, hz, BitVec.extractLsb'_toNat, Nat.shiftRight_zero, ← Nat.shiftLeft_add_eq_or_of_lt (Nat.mod_lt _ (by decide)),
    Nat.shiftLeft_eq, BitVec.toNat_ofNat, Nat.mod_eq_of_lt hlt]

/-- A segment number above 48 bits of a word. -/
theorem aseg_word (m : BitVec 20) (x : Word64) :
    (m.extractLsb' 0 3 ++ (0 : BitVec 13) ++ x.extractLsb' 0 48 : BitVec 64) =
      BitVec.ofNat 64 (m.toNat % 8 * 2 ^ 61 + x.toNat % 2 ^ 48) := by
  have hlt : m.toNat % 8 * 2 ^ 61 + x.toNat % 2 ^ 48 < 2 ^ 64 := by omega
  apply BitVec.eq_of_toNat_eq
  rw [BitVec.toNat_append, BitVec.toNat_append, BitVec.extractLsb'_toNat, BitVec.extractLsb'_toNat, Nat.shiftRight_zero,
    Nat.shiftRight_zero, ← Nat.shiftLeft_add_eq_or_of_lt (Nat.mod_lt _ (by decide)), show (0 : BitVec 13).toNat = 0 from rfl, Nat.or_zero,
    Nat.shiftLeft_eq, Nat.shiftLeft_eq, BitVec.toNat_ofNat, Nat.mod_eq_of_lt hlt]
  omega

/-! ### Instructions on registers alone -/

theorem alu2_congr {op res : Word64 → Word64 → Word64} (h : ∀ a b, op a b = res a b) (c : CoreId) (f : Fields) (s : State) :
    alu2 c f op s = alu2 c f res s := by
  rw [funext₂ h]

theorem alu1_congr {op res : Word64 → Nat} (h : ∀ a, op a = res a) (c : CoreId) (f : Fields) (s : State) :
    alu1 c f (fun a => BitVec.ofNat 64 (op a)) s = alu1 c f (fun a => BitVec.ofNat 64 (res a)) s := by
  rw [funext h]

/-- Each two-operand scalar instruction computes its result of Table 6.15. -/
theorem exec_scalarOps : ∀ p ∈ scalarOps, ∀ (c : CoreId) (f : Fields) (s : State), exec (p.1 c f) s = alu2 c f p.2 s := by
  simp only [scalarOps, List.forall_mem_cons]
  exact ⟨fun _ _ _ => rfl, fun _ _ _ => rfl, fun _ _ _ => rfl, alu2_congr mulHS_word, fun _ _ _ => rfl, alu2_congr divS_word,
    alu2_congr divU_word, alu2_congr remS_word, alu2_congr remU_word, fun _ _ _ => rfl, fun _ _ _ => rfl, fun _ _ _ => rfl,
    alu2_congr shl_word, alu2_congr shr_word, alu2_congr sar_word, alu2_congr minS_word, alu2_congr maxS_word, alu2_congr minU_word,
    alu2_congr maxU_word, alu2_congr fun a b => boolWord_decide (a = b), alu2_congr cmplt_word, alu2_congr cmpltu_word,
    fun _ h => absurd h List.not_mem_nil⟩

/-- Each count over one operand counts as Table 6.15 says. -/
theorem exec_countOps : ∀ p ∈ countOps, ∀ (c : CoreId) (f : Fields) (s : State),
    exec (p.1 c f) s = alu1 c f (fun a => BitVec.ofNat 64 (p.2 a)) s := by
  simp only [countOps, List.forall_mem_cons]
  exact ⟨alu1_congr fun a => popc_eq_countP a 64, alu1_congr clz_word, alu1_congr ctz_word, fun _ h => absurd h List.not_mem_nil⟩

theorem fp2_congr {op res : Val → Val → Nat} (h : ∀ a b, op a b = res a b) (c : CoreId) (f : Fields) (s : State) :
    fp2 c f op s = fp2 c f res s := by
  rw [funext₂ h]

/-- Each FP32 instruction of two operands computes its result by exact value and one rounding (R191). -/
theorem exec_fp32Ops : ∀ p ∈ fp32Ops, ∀ (c : CoreId) (f : Fields) (s : State), exec (p.1 c f) s = fp2 c f p.2 s := by
  simp only [fp32Ops, List.forall_mem_cons]
  exact ⟨fun _ _ _ => rfl, fun _ _ _ => rfl, fun _ _ _ => rfl, fun _ _ _ => rfl, fun _ _ _ => rfl, fun _ _ _ => rfl,
    fun _ _ _ => rfl, fun _ _ _ => rfl, fp2_congr (op := fun a b => if a.lt b || a.eqv b then 1 else 0) fun a b => by simp only [Bool.or_eq_true],
    fun _ h => absurd h List.not_mem_nil⟩

/-- Each predicate instruction of two operands combines its predicates bit by bit. -/
theorem exec_predOps : ∀ p ∈ predOps, ∀ (c : CoreId) (f : Fields) (s : State), exec (p.1 c f) s = pred2 c f p.2 s := by
  simp only [predOps, List.forall_mem_cons]
  exact ⟨fun _ _ _ => rfl, fun _ _ _ => rfl, fun _ _ _ => rfl, fun _ h => absurd h List.not_mem_nil⟩

/-! ### Predicates (R151) -/

theorem Core.setP_zero (k : Core) (x : Word64) : k.setP 0 x = k := rfl

theorem Core.setP_pos (k : Core) {n : Nat} (hn : n ≠ 0) (x : Word64) : k.setP n x = { k with p := Map.put k.p n x } := if_neg hn

@[simp] theorem Core.pr_zero (k : Core) : k.pr 0 = BitVec.allOnes 64 := rfl

/-- An issue counted before a predicate is written is the same as one counted after. -/
theorem Core.setP_counted_next (k : Core) (n : Nat) (x : Word64) : (k.counted.setP n x).next = (k.setP n x).retired k := by
  by_cases hn : n = 0
  · subst hn; rfl
  · rw [Core.setP_pos _ hn, Core.setP_pos _ hn]; rfl

/-- p0 reads as all ones whatever is written (R151). -/
theorem Core.pr_setP (k : Core) (n j : Nat) (x : Word64) :
    (k.setP n x).pr j = if j = 0 then BitVec.allOnes 64 else if j = n then x else k.pr j := by
  by_cases hj : j = 0
  · subst hj; rfl
  · rw [if_neg hj]
    by_cases hn : n = 0
    · subst hn; rw [Core.setP_zero, if_neg hj]
    · rw [Core.setP_pos _ hn]
      by_cases h : j = n
      · subst h; simp [Core.pr, hj]
      · simp [Core.pr, hj, h, Map.get_put_other _ _ _ _ _ h]

end Sys2Proof.Machine

namespace Sys2Proof.Proofs

/-- Settles O1: every scalar, count, immediate and address instruction retires with its result. -/
theorem scalarInteger : Obligations.ScalarInteger := by
  refine ⟨fun p hp s c f hl hi => ?alu, fun p hp s c f hl hi => ?counts, fun s c f => ⟨fun hl hi => ⟨?li, ?lih⟩, fun hl hi => ?aadd,
    fun hl hi => ?aaddi, fun hl hi => ?amovs, fun hl hi => ?smova, fun hl hi => ?aseg⟩⟩
  case alu => rw [exec_scalarOps p hp]; exact State.issueReg_retires hl hi rfl
  case counts => rw [exec_countOps p hp]; exact State.issueReg_retires hl hi rfl
  case lih => exact State.issueReg_retires hl hi (by rw [Fields.imm42, lih_word]; rfl)
  case aseg => exact State.issueReg_retires hl hi (by rw [aseg_word]; rfl)
  all_goals exact State.issueReg_retires hl hi rfl

/-- Settles O2: every FP32 and predicate instruction retires with its result, and p0 reads as all ones. -/
theorem scalarFloatAndPredicates : Obligations.ScalarFloatAndPredicates := by
  refine ⟨⟨fun p hp s c f hl hi => ?fp2, fun s c f => ⟨fun hl hi => ⟨?fsqrt, ?fcvtif⟩, fun hl hi => ?fcvtfi, fun hl hi => ?fma⟩⟩,
    fun p hp s c f hl hi => ?pred2,
    fun s c f => ⟨fun hl hi => ?pnot, fun hl hi => ?pfroms, fun hl hi => ⟨?ptos, ?pcnt⟩⟩, Core.pr_setP⟩
  case fp2 => rw [exec_fp32Ops p hp]; exact State.issueReg_retires hl hi rfl
  case pred2 => rw [exec_predOps p hp]; exact State.issueReg_retires hl hi (Core.setP_counted_next ..)
  case pnot => exact State.issueReg_retires hl hi (Core.setP_counted_next ..)
  case pfroms => exact State.issueReg_retires hl hi (Core.setP_counted_next ..)
  case pcnt => exact State.issueReg_retires hl hi (by rw [bitCount_eq_countP]; rfl)
  all_goals exact State.issueReg_retires hl hi rfl

end Sys2Proof.Proofs
end

section
/-! Exceptions (R171-R174): what a halt, a team's stop and an exception leave of each core; then instructions that work on registers
alone, which change nothing outside cores and teams (R152, R171). -/

open Sys2Proof Sys2Proof.Machine

namespace Sys2Proof.Machine

/-! ### The core that halts (R172) -/

/-- Scratch that becomes undefined changes scratch alone. -/
theorem Dev.scratchFree_self (d : Dev) (c o n : Nat) :
    ({ (d.scratchFree c o n).core c with scratch := [] } : Core) = { d.core c with scratch := [] } := by
  induction n generalizing d o with
  | zero => rfl
  | succ n ih =>
    simp only [Dev.scratchFree, Dev.freeWord]
    rw [ih, Dev.core_updCore, Core.putScratch_frame]
    rfl

/-- A halted core: its state but for scratch, halted. -/
theorem Dev.haltCore_self (d : Dev) (c : Nat) (own : Bool) :
    ∃ m, (d.haltCore c own).core c = ({ d.core c with scratch := m } : Core).halt own := by
  unfold Dev.haltCore
  dsimp only
  generalize hfree : List.foldl _ d _ = d1
  have hcore : ({ d1.core c with scratch := [] } : Core) = { d.core c with scratch := [] } := by
    rw [← hfree]
    exact foldl_keeps (fun e : Dev => ({ e.core c with scratch := [] } : Core)) _ d fun e x => Dev.scratchFree_self e c x.1 x.2
  refine ⟨(d1.core c).scratch, ?_⟩
  rw [foldl_keeps (fun e : Dev => e.core c) _ _ fun e t => Dev.retireEpochs_core e t c]
  have hset : d1.core c = { d.core c with scratch := (d1.core c).scratch } :=
    congrArg (fun k : Core => { k with scratch := (d1.core c).scratch }) hcore
  rw [← hset]
  exact Dev.core_updCore d1 c (Core.halt · own)

theorem Dev.haltCore_stopped (d : Dev) (c : Nat) (own : Bool) : ((d.haltCore c own).core c).status = .stopped := by
  obtain ⟨m, h⟩ := d.haltCore_self c own
  rw [h]; rfl

theorem Dev.scratchFree_teams (d : Dev) (c o n : Nat) : (d.scratchFree c o n).teams = d.teams := by
  induction n generalizing d o with
  | zero => rfl
  | succ n ih => simp only [Dev.scratchFree, Dev.freeWord]; rw [ih]; rfl

theorem Dev.retireEpochs_teams (d : Dev) (t : Nat) : (d.retireEpochs t).teams = d.teams := by
  unfold Dev.retireEpochs
  split <;> rfl

theorem Dev.haltCore_teams (d : Dev) (c : Nat) (own : Bool) : (d.haltCore c own).teams = d.teams :=
  Dev.haltCore_keeps Dev.teams d c own (fun e => Dev.scratchFree_teams e c) Dev.retireEpochs_teams fun _ _ _ => rfl

/-! ### The team that stops (R172) -/

/-- One core of a stopping team. -/
def Dev.stopMember (t : Nat) (d : Dev) (c : Nat) : Dev :=
  if (d.core c).team = some t && ((d.core c).status = .running || (d.core c).status = .reserved) then d.haltCore c false else d

theorem Dev.teamStop_core {d : Dev} {t st : Nat} {tm : Team} (h : d.team t = some tm) (j : Nat) :
    (d.teamStop t st).core j = (tm.cores.foldl (Dev.stopMember t) d).core j := by
  simp only [Dev.teamStop, h]
  rfl

/-- A core outside the team, or one that does not work, stays. -/
theorem Dev.stopMember_stays {t j : Nat} {d : Dev}
    (h : (d.core j).team ≠ some t ∨ ((d.core j).status ≠ .running ∧ (d.core j).status ≠ .reserved)) (c : Nat) :
    (d.stopMember t c).core j = d.core j := by
  unfold Dev.stopMember
  split
  · rename_i hc
    refine Dev.haltCore_other _ _ _ _ fun hj => ?_
    subst hj
    simp only [Bool.and_eq_true, Bool.or_eq_true, decide_eq_true_eq] at hc
    rcases h with h | ⟨h, h'⟩
    · exact h hc.1
    · exact hc.2.elim h h'
  · rfl

theorem Dev.foldl_stopMember_stays {t j : Nat} (l : List Nat) {d : Dev}
    (h : (d.core j).team ≠ some t ∨ ((d.core j).status ≠ .running ∧ (d.core j).status ≠ .reserved)) :
    (l.foldl (Dev.stopMember t) d).core j = d.core j := by
  induction l generalizing d with
  | nil => rfl
  | cons c l ih =>
    have hc := Dev.stopMember_stays h c
    rw [List.foldl_cons, ih (by rw [hc]; exact h), hc]

theorem Dev.teamStop_stays {d : Dev} {t j : Nat} (st : Nat)
    (h : (d.core j).team ≠ some t ∨ ((d.core j).status ≠ .running ∧ (d.core j).status ≠ .reserved)) :
    (d.teamStop t st).core j = d.core j := by
  cases ht : d.team t with
  | none => simp only [Dev.teamStop, ht]
  | some tm => rw [Dev.teamStop_core ht, Dev.foldl_stopMember_stays _ h]

/-- A running core of the list stops. -/
theorem Dev.foldl_stopMember_stops {t j : Nat} {l : List Nat} (hj : j ∈ l) {d : Dev} (ht : (d.core j).team = some t)
    (hr : (d.core j).status = .running) : ((l.foldl (Dev.stopMember t) d).core j).status = .stopped := by
  induction l generalizing d with
  | nil => exact absurd hj List.not_mem_nil
  | cons c l ih =>
    rw [List.foldl_cons]
    by_cases hc : j = c
    · subst hc
      have hstop : ((d.stopMember t j).core j).status = .stopped := by
        rw [Dev.stopMember, if_pos (by simp [ht, hr])]
        exact Dev.haltCore_stopped d j false
      rw [Dev.foldl_stopMember_stays l (.inr ⟨by rw [hstop]; decide, by rw [hstop]; decide⟩), hstop]
    · have hsame : (d.stopMember t c).core j = d.core j := by
        unfold Dev.stopMember
        split
        · exact Dev.haltCore_other _ _ _ _ hc
        · rfl
      exact ih ((List.mem_cons.mp hj).resolve_left hc) (by rw [hsame, ht]) (by rw [hsame, hr])

/-! ### The exception (R171-R173) -/

section
variable (d : Dev) (c code : Nat) (da : Word64)

/-- The block once the faulting core itself has stopped. -/
def Dev.raised : Dev := (d.setCore c { d.core c with exc := some { code := code, ioff := (d.core c).pc, da := da } }).haltCore c true

/-- An exception leaves each core as the stop of the core, and then of its team, do. -/
theorem Dev.raise_core (j : Nat) : (d.raise c code da).core j =
    match (d.core c).team with
    | none => (d.raised c code da).core j
    | some t => ((d.raised c code da).teamStop t stKernelFault).core j := by
  unfold Dev.raise Dev.raised
  dsimp only
  generalize (d.setCore c _).haltCore c true = e
  generalize (d.core c).team = o
  cases o with
  | none => rfl
  | some t =>
    dsimp only
    generalize e.teamStop t stKernelFault = x
    split <;> (split <;> rfl)

theorem Dev.raised_self : ∃ m, (d.raised c code da).core c =
    ({ d.core c with scratch := m, exc := some { code := code, ioff := (d.core c).pc, da := da } } : Core).halt true := by
  obtain ⟨m, h⟩ := Dev.haltCore_self (d.setCore c { d.core c with exc := some { code := code, ioff := (d.core c).pc, da := da } }) c true
  exact ⟨m, by rw [Dev.raised, h, Dev.core_setCore]⟩

theorem Dev.raised_other {j : Nat} (h : j ≠ c) : (d.raised c code da).core j = d.core j := by
  rw [Dev.raised, Dev.haltCore_other _ _ _ _ h, Dev.core_setCore_other _ _ _ _ h]

/-- The faulting core is halted with its record; the stop of its team finds it stopped. -/
theorem Dev.raise_self : ∃ m, (d.raise c code da).core c =
    ({ d.core c with scratch := m, exc := some { code := code, ioff := (d.core c).pc, da := da } } : Core).halt true := by
  obtain ⟨m, h⟩ := d.raised_self c code da
  refine ⟨m, ?_⟩
  rw [Dev.raise_core]
  split
  · exact h
  · rw [Dev.teamStop_stays _ (.inr (by rw [h]; exact ⟨by simp [Core.halt], by simp [Core.halt]⟩)), h]

theorem Dev.raise_stopped : ((d.raise c code da).core c).status = .stopped := by
  obtain ⟨m, h⟩ := d.raise_self c code da
  rw [h]; rfl

/-- A core outside the faulting core's team stays. -/
theorem Dev.raise_other {j : Nat} (hj : j ≠ c) (ht : (d.core c).team = none ∨ (d.core j).team ≠ (d.core c).team) :
    (d.raise c code da).core j = d.core j := by
  rw [Dev.raise_core]
  split
  · exact d.raised_other c code da hj
  · rename_i t htm
    have hne : (d.core j).team ≠ some t := by
      rcases ht with h | h
      · rw [h] at htm; cases htm
      · rwa [htm] at h
    have hcore := d.raised_other c code da hj
    rw [Dev.teamStop_stays _ (.inl (by rw [hcore]; exact hne)), hcore]

/-- A running core of the faulting core's team stops. -/
theorem Dev.raise_member {t j : Nat} {tm : Team} (hc : (d.core c).team = some t) (ht : d.team t = some tm) (hj : j ∈ tm.cores)
    (hteam : (d.core j).team = some t) (hrun : (d.core j).status = .running) : ((d.raise c code da).core j).status = .stopped := by
  by_cases h : j = c
  · subst h; exact d.raise_stopped j code da
  · have hcore := d.raised_other c code da h
    have hteams : (d.raised c code da).team t = some tm := by rw [← ht]; simp [Dev.team, Dev.raised, Dev.haltCore_teams]
    rw [Dev.raise_core, hc]
    dsimp only
    rw [Dev.teamStop_core hteams]
    exact Dev.foldl_stopMember_stops hj (by rw [hcore, hteam]) (by rw [hcore, hrun])

end

/-! ### Instructions on registers alone (R152, R171) -/

/-- What issue can do: nothing, an exception without an address, or the instruction's effect. -/
theorem Dev.issue_cases (d : Dev) (c : Nat) (legal : Bool) (ss vw : List Nat) (run : Dev → Core → Dev) :
    d.issue c legal ss vw run = d ∨ (∃ code, d.issue c legal ss vw run = d.raise c code 0) ∨
      d.issue c legal ss vw run = run (d.setCore c (d.core c).counted) (d.core c).counted := by
  unfold Dev.issue
  dsimp only
  split
  · exact .inl rfl
  split
  · exact .inr (.inl ⟨_, rfl⟩)
  split
  · exact .inr (.inl ⟨_, rfl⟩)
  split
  · exact .inl rfl
  · exact .inr (.inr rfl)

/-- An effect on the registers of core c, and perhaps a free value drawn, alone. -/
def RegisterEffect (c : Nat) (run : Dev → Core → Dev) : Prop :=
  ∀ (d : Dev) (k : Core), ∃ n x, run d k = ({ d with fresh := n } : Dev).setCore c x

/-- The instruction issues with such an effect. -/
def OnRegisters (op : CoreCmd) : Prop :=
  ∀ (s : State) (c : CoreId) (f : Fields), ∃ legal ss vw run,
    exec (op c f) s = s.goes (s.dev.issue c legal ss vw run) ∧ RegisterEffect c run

theorem regOps_onRegisters : ∀ op ∈ regOps, OnRegisters op := by
  simp only [regOps, scalarOps, countOps, fp32Ops, predOps, vecIntOps, vecFloatOps, vecUnaryOps, vecCmpOps, vecRedOps, List.map_cons,
    List.map_nil, List.cons_append, List.nil_append, List.forall_mem_cons, List.not_mem_nil, false_imp_iff, implies_true, and_true]
  and_intros
  all_goals exact fun _ _ _ => ⟨_, _, _, _, rfl, fun _ _ => ⟨_, _, rfl⟩⟩

section
variable {d : Dev} {c : Nat} {legal : Bool} {ss vw : List Nat} {run : Dev → Core → Dev} (h : RegisterEffect c run)
include h

theorem RegisterEffect.besides : (d.issue c legal ss vw run).besides = d.besides :=
  Dev.issue_besides fun e k => by obtain ⟨n, x, hx⟩ := h e k; rw [hx]; rfl

/-- Where the core goes on running, no table and no descriptor changes. -/
theorem RegisterEffect.running (hr : ((d.issue c legal ss vw run).core c).status = .running) :
    (d.issue c legal ss vw run).tb = d.tb ∧ (d.issue c legal ss vw run).cp = d.cp := by
  rcases d.issue_cases c legal ss vw run with hi | ⟨code, hi⟩ | hi
  · rw [hi]; exact ⟨rfl, rfl⟩
  · rw [hi, Dev.raise_stopped] at hr; cases hr
  · obtain ⟨n, x, hx⟩ := h (d.setCore c (d.core c).counted) (d.core c).counted
    rw [hi, hx]; exact ⟨rfl, rfl⟩

/-- At a core without a team no other core changes. -/
theorem RegisterEffect.other (ht : (d.core c).team = none) {j : Nat} (hj : j ≠ c) :
    (d.issue c legal ss vw run).core j = d.core j := by
  rcases d.issue_cases c legal ss vw run with hi | ⟨code, hi⟩ | hi
  · rw [hi]
  · rw [hi, Dev.raise_other _ _ _ _ hj (.inl ht)]
  · obtain ⟨n, x, hx⟩ := h (d.setCore c (d.core c).counted) (d.core c).counted
    rw [hi, hx, Dev.core_setCore_other _ _ _ _ hj]
    exact Dev.core_setCore_other d c j _ hj

end

end Sys2Proof.Machine

namespace Sys2Proof.Proofs

/-- Settles O8: the core halts as it stands with its record, its team stops, and all else stays. -/
theorem exceptionIsPrecise : Obligations.ExceptionIsPrecise := by
  intro d c code da
  obtain ⟨m, hself⟩ := d.raise_self c code da
  have hbesides := Dev.raise_besides d c code da
  dsimp only
  rw [hself]
  exact ⟨rfl, rfl, rfl, rfl, rfl, rfl, rfl, rfl, rfl, rfl, rfl, fun j => d.raise_other c code da,
    fun t tm j => d.raise_member c code da, congrArg (·.mem) hbesides, congrArg (·.net) hbesides⟩

/-- Settles O9: each of these instructions issues with an effect on its core's registers alone. -/
theorem registerInstructions : Obligations.RegisterInstructions := by
  intro op hop s c f
  obtain ⟨legal, ss, vw, run, hexec, heffect⟩ := regOps_onRegisters op hop s c f
  rw [hexec]
  refine ⟨fun hidle => ?_, fun hrun hwait hend => ?_, _, rfl, rfl, heffect.besides, heffect.running, fun ht j hj => heffect.other ht hj⟩
  · rw [Dev.issue_idle hidle]; rfl
  · rw [Dev.issue_fetch hrun hwait hend]; rfl

end Sys2Proof.Proofs
end

section
/-! Lanes and bytes (R10, R190): what a lane of a composed value, a merged sector and a little-endian list of bytes hold; and scratch
as bytes (R155). -/

open Sys2Proof Sys2Proof.Machine

namespace Sys2Proof.Machine

/-! ### Lanes -/

theorem Sector.lane_eq (x : Sector) (w i : Nat) : Sector.lane x w i = x.toNat / 2 ^ (w * i) % 2 ^ w := by
  rw [Sector.lane, lowBits, Nat.shiftRight_eq_div_pow]

theorem Sector.lane_lt (x : Sector) (w i : Nat) : Sector.lane x w i < 2 ^ w := Nat.mod_lt _ (Nat.two_pow_pos w)

theorem toNat_ofNat_of_lt {n m x : Nat} (hx : x < 2 ^ n) (hn : n ≤ m) : (BitVec.ofNat m x).toNat = x := by
  rw [BitVec.toNat_ofNat, Nat.mod_eq_of_lt (hx.trans_le (Nat.pow_le_pow_right (by decide) hn))]

theorem toNat_lt_of_le {n m : Nat} (x : BitVec n) (h : n ≤ m) : x.toNat < 2 ^ m :=
  x.isLt.trans_le (Nat.pow_le_pow_right (by decide) h)

theorem lanesNat_lt (w : Nat) (g : Nat → Nat) (n k : Nat) : lanesNat w g n k < 2 ^ (w * n) := by
  induction n generalizing k with
  | zero => simp [lanesNat]
  | succ n ih =>
    have h1 : lowBits w (g k) < 2 ^ w := Nat.mod_lt _ (Nat.two_pow_pos w)
    have h2 := ih (k + 1)
    calc lanesNat w g (n + 1) k < 2 ^ w + 2 ^ w * lanesNat w g n (k + 1) := Nat.add_lt_add_right h1 _
      _ = 2 ^ w * (lanesNat w g n (k + 1) + 1) := by ring
      _ ≤ 2 ^ w * 2 ^ (w * n) := Nat.mul_le_mul_left _ h2
      _ = 2 ^ (w * (n + 1)) := by rw [← pow_add]; congr 1; ring

/-- Lane i of n lanes from lane k on. -/
theorem lanesNat_lane (w : Nat) (g : Nat → Nat) (n k i : Nat) :
    lanesNat w g n k / 2 ^ (w * i) % 2 ^ w = if i < n then g (k + i) % 2 ^ w else 0 := by
  induction n generalizing k i with
  | zero => simp [lanesNat]
  | succ n ih =>
    have hpos : 0 < 2 ^ w := Nat.two_pow_pos w
    have hlow : lowBits w (g k) < 2 ^ w := Nat.mod_lt _ hpos
    cases i with
    | zero =>
      rw [Nat.mul_zero, pow_zero, Nat.div_one, if_pos (Nat.succ_pos n), lanesNat, Nat.add_mul_mod_self_left, Nat.mod_eq_of_lt hlow]
      rfl
    | succ i =>
      have hdiv : lanesNat w g (n + 1) k / 2 ^ (w * (i + 1)) = lanesNat w g n (k + 1) / 2 ^ (w * i) := by
        rw [Nat.mul_succ, Nat.add_comm (w * i), pow_add, ← Nat.div_div_eq_div_mul, lanesNat, Nat.add_mul_div_left _ _ hpos,
          Nat.div_eq_of_lt hlow, Nat.zero_add]
      rw [hdiv, ih, Nat.add_right_comm, Nat.add_assoc]
      simp only [Nat.add_lt_add_iff_right]

/-- Lane i of a value composed of lanes. -/
theorem Sector.lane_ofLanes (w : Nat) (g : Nat → Nat) (i : Nat) :
    Sector.lane (ofLanes w g) w i = if i < 512 / w then g i % 2 ^ w else 0 := by
  rw [Sector.lane_eq, ofLanes, toNat_ofNat_of_lt (lanesNat_lt w g _ 0) (Nat.mul_div_le 512 w), lanesNat_lane, Nat.zero_add]

/-- Byte i of a merge: of b where the mask takes it, else of a. -/
theorem Sector.lane_merge (a b : Sector) (mask : Word64) {i : Nat} (hi : i < 64) :
    Sector.lane (Sector.merge a b mask) 8 i = if mask.getLsbD i then Sector.lane b 8 i else Sector.lane a 8 i := by
  rw [Sector.merge, Sector.lane_ofLanes, if_pos hi]
  split <;> exact Nat.mod_eq_of_lt (Sector.lane_lt _ 8 i)

/-! ### Bytes, lowest first -/

@[simp] theorem leBytes_length (n x : Nat) : (leBytes n x).length = n := by
  induction n generalizing x with
  | zero => rfl
  | succ n ih => rw [leBytes, List.length_cons, ih]

theorem leNat_leBytes (n x : Nat) : leNat (leBytes n x) = x % 256 ^ n := by
  induction n generalizing x with
  | zero => simp [leBytes, leNat, Nat.mod_one]
  | succ n ih => exact (congrArg (x % 256 + 256 * ·) (ih (x / 256))).trans (by rw [pow_succ', Nat.mod_mul])

theorem leBytes_drop (n x o : Nat) : (leBytes n x).drop o = leBytes (n - o) (x / 256 ^ o) := by
  induction o generalizing n x with
  | zero => simp
  | succ o ih =>
    cases n with
    | zero => simp [leBytes]
    | succ n => rw [leBytes, List.drop_succ_cons, ih, Nat.add_sub_add_right, Nat.div_div_eq_div_mul, pow_succ']

theorem leBytes_take (n x m : Nat) : (leBytes n x).take m = leBytes (min m n) x := by
  induction m generalizing n x with
  | zero => simp [leBytes]
  | succ m ih =>
    cases n with
    | zero => rfl
    | succ n => rw [leBytes, List.take_succ_cons, ih, Nat.succ_min_succ, leBytes]

/-- Byte i of n bytes. -/
theorem leBytes_getD (n x : Nat) {i : Nat} (hi : i < n) : (leBytes n x).getD i 0 = BitVec.ofNat 8 (x / 256 ^ i) := by
  induction n generalizing x i with
  | zero => omega
  | succ n ih =>
    cases i with
    | zero => simp [leBytes]
    | succ i => rw [leBytes, List.getD_cons_succ, ih _ (by omega), Nat.div_div_eq_div_mul, pow_succ']

@[simp] theorem Sector.bytes_length (x : Sector) : (Sector.bytes x).length = 64 := leBytes_length _ _

/-- Byte i of a sector's bytes. -/
theorem Sector.bytes_getD (x : Sector) {i : Nat} (hi : i < 64) : (Sector.bytes x).getD i 0 = Sector.byte x i := by
  rw [Sector.bytes, leBytes_getD _ _ hi, Sector.byte, Sector.lane_eq]
  apply BitVec.eq_of_toNat_eq
  rw [BitVec.toNat_ofNat, BitVec.toNat_ofNat, Nat.mod_mod, show (256 : Nat) = 2 ^ 8 from rfl, ← pow_mul]

/-- The bytes of a sector from one on, as a number: those that lie in the sector. -/
theorem Sector.leNat_bytes (x : Sector) (off size : Nat) :
    leNat (((Sector.bytes x).drop off).take size) = x.toNat / 2 ^ (8 * off) % 2 ^ (8 * size) := by
  have hpow : ∀ n, 256 ^ n = 2 ^ (8 * n) := fun n => by rw [pow_mul]; rfl
  rw [Sector.bytes, leBytes_drop, leBytes_take, leNat_leBytes, hpow, hpow]
  by_cases h : size ≤ 64 - off
  · rw [Nat.min_eq_left h]
  · have hle : 64 - off ≤ size := by omega
    have hx : x.toNat / 2 ^ (8 * off) < 2 ^ (8 * (64 - off)) := by
      apply Nat.div_lt_of_lt_mul
      rw [← pow_add]
      exact toNat_lt_of_le x (by omega)
    rw [Nat.min_eq_right hle, Nat.mod_eq_of_lt hx,
      Nat.mod_eq_of_lt (hx.trans_le (Nat.pow_le_pow_right (by decide) (Nat.mul_le_mul_left 8 hle)))]

/-! ### Scratch (R155) -/

/-- Bytes written from an index on. -/
def Map.putBytes (m : Map Byte) (o : Nat) : List Byte → Map Byte
  | [] => m
  | b :: bs => Map.putBytes (Map.put m o b) (o + 1) bs

theorem Core.putScratch_eq (k : Core) (o : Nat) (bs : List Byte) : k.putScratch o bs = { k with scratch := Map.putBytes k.scratch o bs } := by
  induction bs generalizing k o with
  | nil => rfl
  | cons b bs ih => rw [Core.putScratch, ih]; rfl

/-- The issue of a scratch write is counted before the write as after it. -/
theorem Core.putScratch_counted_next (k : Core) (o : Nat) (bs : List Byte) :
    (k.counted.putScratch o bs).next = (k.putScratch o bs).retired k := by
  rw [Core.putScratch_eq, Core.putScratch_eq]; rfl

end Sys2Proof.Machine
end

section
/-! Loads, stores and scratch accesses (R157-R160, R277-R280, R309): the checks of an access in order, what a store puts into the
buffer and what the core then sees, and the ways a load goes. -/

open Sys2Proof Sys2Proof.Machine

namespace Sys2Proof.Machine

/-! ### The checks of an access (R158) -/

theorem daOff_eq (da : Word64) : daOff da = da.toNat % 2 ^ 48 := by
  rw [daOff, BitVec.extractLsb'_toNat, Nat.shiftRight_zero]

theorem daMiddle_ne_zero_iff (da : Word64) : da.extractLsb' 48 13 ≠ 0 ↔ da.toNat / 2 ^ 48 % 2 ^ 13 ≠ 0 := by
  rw [Ne, ← BitVec.toNat_inj, BitVec.extractLsb'_toNat, Nat.shiftRight_eq_div_pow]
  rfl

theorem SegRec.translate_eq (r : SegRec) (da : Word64) (len : Nat) (right : Right) : r.translate da len right =
    if r.valid = false ∨ da.toNat / 2 ^ 48 % 2 ^ 13 ≠ 0 ∨ r.limit < da.toNat % 2 ^ 48 + (len - 1) then .error .limit
    else if r.has right = false then .error .access
    else .ok (r.dpa (da.toNat % 2 ^ 48)) := by
  have hmiddle : decide (da.extractLsb' 48 13 ≠ 0) = decide (da.toNat / 2 ^ 48 % 2 ^ 13 ≠ 0) :=
    decide_eq_decide.mpr (daMiddle_ne_zero_iff da)
  rw [SegRec.translate, hmiddle, daOff_eq]
  generalize da.toNat / 2 ^ 48 % 2 ^ 13 = m
  cases hv : r.valid with
  | false => simp
  | true => by_cases hm : m = 0 <;> simp [hm]

theorem Core.access_eq (k : Core) (da : Word64) (size : Nat) (right : Right) : k.access da size right =
    if da.toNat % size ≠ 0 then .error 0x03
    else if (k.segOf da).valid = false ∨ da.toNat / 2 ^ 48 % 2 ^ 13 ≠ 0 ∨ (k.segOf da).limit < da.toNat % 2 ^ 48 + (size - 1) then
      .error 0x04
    else if (k.segOf da).has right = false then .error 0x05
    else if (k.segOf da).target = 3 then .error 0x06
    else .ok { da := da, dpa := (k.segOf da).dpa (da.toNat % 2 ^ 48), rt := (k.segOf da).typeAt ((k.segOf da).dpa (da.toNat % 2 ^ 48)) } := by
  rw [Core.access, SegRec.translate_eq]
  split_ifs <;> rfl

/-- The place of an access carries its address. -/
theorem Core.access_da {k : Core} {da : Word64} {size : Nat} {right : Right} {sp : Spot} (h : k.access da size right = .ok sp) :
    sp.da = da := by
  rw [Core.access_eq] at h
  split_ifs at h
  cases h
  rfl

/-! ### Commands -/

theorem exec_loadOps : ∀ p ∈ loadOps, ∀ (c : CoreId) (f : Fields) (s : State), exec (p.1 c f) s = load c f p.2.1 p.2.2 s := by
  simp only [loadOps, List.forall_mem_cons]
  exact ⟨fun _ _ _ => rfl, fun _ _ _ => rfl, fun _ _ _ => rfl, fun _ _ _ => rfl, fun _ _ _ => rfl, fun _ _ _ => rfl,
    fun _ _ _ => rfl, fun _ h => absurd h List.not_mem_nil⟩

theorem exec_storeOps : ∀ p ∈ storeOps, ∀ (c : CoreId) (f : Fields) (s : State), exec (p.1 c f) s = store c f p.2 s := by
  simp only [storeOps, List.forall_mem_cons]
  exact ⟨fun _ _ _ => rfl, fun _ _ _ => rfl, fun _ _ _ => rfl, fun _ _ _ => rfl, fun _ h => absurd h List.not_mem_nil⟩

section
variable {s : State} {c : CoreId} {f : Fields} {size : Nat} {sext : Bool}

/-- The block in which core c has issued. -/
def State.issued (s : State) (c : CoreId) : Dev := s.dev.setCore c (s.dev.core c).counted

@[simp] theorem State.issued_core (s : State) (c : CoreId) : (s.issued c).core c = (s.dev.core c).counted := Dev.core_setCore ..

theorem load_issues (hl : f.legalI 32 16 false = true) (hi : s.issues c [f.d.toNat] []) :
    load c f size sext s = s.goes (
      match (s.dev.core c).access ((s.dev.core c).ar f.a.toNat + wordInt f.imm36) size .read with
      | .error e => (s.issued c).raise c e ((s.dev.core c).ar f.a.toNat + wordInt f.imm36)
      | .ok sp => s.dev.loadGo (s.issued c) c
          (.load f.d.toNat size sext (sp.dpa % 64) ((s.dev.core c).ar f.a.toNat + wordInt f.imm36)) sp (byteMask (sp.dpa % 64) size)) := by
  rw [load, Dev.issue_ready hl hi]
  rfl

theorem exec_vld_issues (hl : f.legalI 32 16 true = true) (hi : s.issues c [] [f.d.toNat]) :
    exec (.vld c f) s = s.goes (
      match (s.dev.core c).access ((s.dev.core c).ar f.a.toNat + wordInt f.imm36) 64 .read with
      | .error e => (s.issued c).raise c e ((s.dev.core c).ar f.a.toNat + wordInt f.imm36)
      | .ok sp => s.dev.loadGo (s.issued c) c
          (.vload f.d.toNat f.p ((s.dev.core c).ar f.a.toNat + wordInt f.imm36)) sp (BitVec.allOnes 64)) := by
  show execVld c f s = _
  rw [execVld, Dev.issue_ready hl hi]
  rfl

theorem exec_vst_issues (hl : f.legalI 32 16 true = true) (hi : s.issues c [] []) :
    exec (.vst c f) s = s.goes (s.dev.storeGo (s.issued c) c ((s.dev.core c).ar f.a.toNat + wordInt f.imm36) 64 fun _ =>
      ((s.dev.core c).govern f.p, (s.dev.core c).vr f.d.toNat)) := by
  show execVst c f s = _
  rw [execVst, Dev.issue_ready hl hi]
  rfl

theorem store_issues (hl : f.legalI 32 16 false = true) (hi : s.issues c [f.d.toNat] []) :
    store c f size s = s.goes (s.dev.storeGo (s.issued c) c ((s.dev.core c).ar f.a.toNat + wordInt f.imm36) size fun o =>
      (byteMask o size, BitVec.ofNat 512 (lowBits (8 * size) ((s.dev.core c).sr f.d.toNat).toNat * 256 ^ o))) := by
  rw [store, Dev.issue_ready hl hi]
  rfl

end

/-! ### Stores (R159, R309) -/

theorem Core.storeIn_counted_next (k : Core) (sp : Spot) (mask : Word64) (x : Sector) :
    (k.counted.storeIn sp mask x).next = (k.storeIn sp mask x).retired k := by
  have hsb : k.counted.sb = k.sb := rfl
  unfold Core.storeIn
  rw [hsb]
  cases k.sb.getLast? with
  | none => rfl
  | some e => dsimp only; split <;> rfl

theorem Core.storeRoom_counted (k : Core) (sp : Spot) (mask : Word64) (x : Sector) :
    k.counted.storeRoom sp mask x = decide ((k.storeIn sp mask x).sb.length ≤ 16) := by
  have hsb : (k.counted.storeIn sp mask x).sb = (k.storeIn sp mask x).sb := by
    show (k.counted.storeIn sp mask x).next.sb = _
    rw [Core.storeIn_counted_next]
    rfl
  rw [Core.storeRoom, hsb]

/-- A store that passes its checks and finds room enters the buffer. -/
theorem Dev.storeGo_enters {s : State} {c : CoreId} {da : Word64} {size : Nat} {mk : Nat → Word64 × Sector} {sp : Spot} {mask : Word64}
    {x : Sector} (hacc : (s.dev.core c).access da size .write = .ok sp) (hmk : mk (sp.dpa % 64) = (mask, x))
    (hrev : (s.dev.core c).isRevoked da = false) (hroom : ((s.dev.core c).storeIn sp mask x).sb.length ≤ 16) :
    s.goes (s.dev.storeGo (s.issued c) c da size mk) = .next (s.retires c ((s.dev.core c).storeIn sp mask x)) := by
  have hacc' : (s.dev.core c).counted.access da size .write = .ok sp := hacc
  have hrev' : (s.dev.core c).counted.isRevoked da = false := hrev
  simp only [Dev.storeGo, State.issued_core, hacc', hmk, hrev', Core.storeRoom_counted, hroom, decide_true, Bool.not_true,
    Bool.false_eq_true, if_false, Core.storeIn_counted_next]
  simp only [State.issued, Dev.setCore_setCore, State.goes_eq, State.retires]

/-- One entry of the buffer over a sector. -/
def StoreEntry.over (n : Nat) (y : Sector) (e : StoreEntry) : Sector := if e.sector = n then Sector.merge y e.data e.mask else y

theorem Core.overlay_eq (k : Core) (n : Nat) (y : Sector) : k.overlay n y = k.sb.foldl (StoreEntry.over n) y := rfl

theorem Core.overlay_append (k : Core) (l : List StoreEntry) (e : StoreEntry) (n : Nat) (y : Sector) :
    ({ k with sb := l ++ [e] } : Core).overlay n y = e.over n (l.foldl (StoreEntry.over n) y) := by
  rw [Core.overlay_eq, List.foldl_append]; rfl

theorem StoreEntry.lane_over (e : StoreEntry) (n : Nat) (y : Sector) {i : Nat} (hi : i < 64) :
    Sector.lane (e.over n y) 8 i = if n = e.sector ∧ e.mask.getLsbD i = true then Sector.lane e.data 8 i else Sector.lane y 8 i := by
  unfold StoreEntry.over
  by_cases h : e.sector = n
  · rw [if_pos h, Sector.lane_merge _ _ _ hi]; simp [h]
  · rw [if_neg h, if_neg fun hn => h hn.1.symm]

/-- After a store the core's own view of a sector has the store's bytes over what it was. -/
theorem Core.lane_overlay_storeIn (k : Core) (sp : Spot) (mask : Word64) (x y : Sector) (i n : Nat) (hi : i < 64) :
    Sector.lane ((k.storeIn sp mask x).overlay n y) 8 i =
      if n = sp.dpa / 64 ∧ mask.getLsbD i = true then Sector.lane x 8 i else Sector.lane (k.overlay n y) 8 i := by
  unfold Core.storeIn
  cases hlast : k.sb.getLast? with
  | none =>
    have hnil : k.sb = [] := List.getLast?_eq_none_iff.mp hlast
    dsimp only
    rw [← List.nil_append [_], Core.overlay_append, StoreEntry.lane_over _ _ _ hi, Core.overlay_eq, hnil]
  | some e =>
    dsimp only
    split
    · rename_i hmerge
      have hsec : e.sector = sp.dpa / 64 := by
        simp only [Bool.and_eq_true, decide_eq_true_eq] at hmerge
        exact hmerge.1.1.1.1
      have hold : k.overlay n y = e.over n (k.sb.dropLast.foldl (StoreEntry.over n) y) := by
        rw [← Core.overlay_append k, List.dropLast_append_getLast? e hlast]
      rw [Core.overlay_append, hold, StoreEntry.lane_over _ _ _ hi, StoreEntry.lane_over _ _ _ hi, Sector.lane_merge _ _ _ hi,
        BitVec.getLsbD_or, hsec]
      by_cases hn : n = sp.dpa / 64
      · cases mask.getLsbD i <;> simp [hn]
      · simp [hn]
    · rw [Core.overlay_append, StoreEntry.lane_over _ _ _ hi, Core.overlay_eq]

/-! ### The L1 as seen after an issue -/

section
variable {d : Dev} {c : Nat} {k : Core} (hw : k.wide = (d.core c).wide)
include hw

theorem Dev.placeOf_setCore (n line : Nat) : (d.setCore c k).placeOf n line = d.placeOf n line := by
  unfold Dev.placeOf
  by_cases h : n - 256 = c
  · rw [h, Dev.core_setCore, hw]
  · rw [Dev.core_setCore_other _ _ _ _ h]

theorem Dev.findWay_setCore (n line : Nat) : (d.setCore c k).findWay n line = d.findWay n line := by
  unfold Dev.findWay
  rw [Dev.placeOf_setCore hw]
  rfl

theorem Dev.waySec_setCore (n line sec : Nat) : (d.setCore c k).waySec n line sec = d.waySec n line sec := by
  unfold Dev.waySec
  rw [Dev.findWay_setCore hw]
  rfl

theorem Dev.cacheSec_setCore (n line sec : Nat) : (d.setCore c k).cacheSec n line sec = d.cacheSec n line sec := by
  unfold Dev.cacheSec
  rw [Dev.waySec_setCore hw]
  rfl

theorem Dev.disabledWays_setCore (n : Nat) : (d.setCore c k).disabledWays n = d.disabledWays n := by
  unfold Dev.disabledWays
  by_cases h : n - 256 = c
  · rw [h, Dev.core_setCore, hw]; rfl
  · rw [Dev.core_setCore_other _ _ _ _ h]; rfl

theorem Dev.serves_setCore (n : Nat) : (d.setCore c k).serves n = d.serves n := by
  unfold Dev.serves
  rw [Dev.placeOf_setCore hw, Dev.disabledWays_setCore hw]
  rfl

/-- With its miss and its evictions as before, a core's L1 has room as before. -/
theorem Dev.l1Full_setCore (hm : k.miss = (d.core c).miss) (he : k.evict = (d.core c).evict) (line : Nat) :
    (d.setCore c k).l1Full c line = d.l1Full c line := by
  have hpend : ∀ l, (d.setCore c k).l1Pending (l1No c - 256) l = d.l1Pending (l1No c - 256) l := fun l => by
    rw [l1No, Nat.add_sub_cancel_left, Dev.l1Pending, Dev.l1Pending, Dev.core_setCore, hm, he]
  have hL1 : ¬ l1No c < 256 := Nat.not_lt.mpr (Nat.le_add_right 256 c)
  unfold Dev.l1Full Dev.candidates
  simp only [if_neg hL1, hpend, Dev.findWay_setCore hw, Dev.placeOf_setCore hw, Dev.disabledWays_setCore hw]
  rfl

end

@[simp] theorem State.waySec_issued (s : State) (c : CoreId) (n line sec : Nat) :
    (s.issued c).waySec n line sec = s.dev.waySec n line sec := Dev.waySec_setCore (k := (s.dev.core c).counted) rfl n line sec

@[simp] theorem State.cacheSec_issued (s : State) (c : CoreId) (n line sec : Nat) :
    (s.issued c).cacheSec n line sec = s.dev.cacheSec n line sec := Dev.cacheSec_setCore (k := (s.dev.core c).counted) rfl n line sec

@[simp] theorem State.serves_issued (s : State) (c : CoreId) (n : Nat) : (s.issued c).serves n = s.dev.serves n :=
  Dev.serves_setCore (k := (s.dev.core c).counted) rfl n

@[simp] theorem State.l1Full_issued (s : State) (c : CoreId) (line : Nat) : (s.issued c).l1Full c line = s.dev.l1Full c line :=
  Dev.l1Full_setCore (k := (s.dev.core c).counted) rfl rfl rfl line

/-! ### Loads (R277-R280, R309) -/

/-- What a load gives its register. -/
theorem Core.loaded_load {k : Core} (hw : k.wait = .none) (reg size : Nat) (sext : Bool) (off : Nat) (da : Word64) (x : Sector) :
    k.counted.loaded (.load reg size sext off da) x = (k.setS reg (loadValue x off size sext)).retired k := by
  have hwait : ({ k.counted with wait := .none } : Core) = k.counted := by rw [← hw]; rfl
  simp only [Core.loaded, Sector.leNat_bytes, hwait]
  rfl

theorem Core.loaded_vload {k : Core} (hw : k.wait = .none) (reg : Nat) (p : BitVec 4) (da : Word64) (x : Sector) :
    k.counted.loaded (.vload reg p da) x = (k.setV reg (Sector.merge (k.vr reg) x (k.govern p))).retired k := by
  have hwait : ({ k.counted with wait := .none } : Core) = k.counted := by rw [← hw]; rfl
  simp only [Core.loaded, hwait]
  rfl

theorem State.goes_issued_setCore (s : State) (c : CoreId) (k : Core) :
    s.goes ((s.issued c).setCore c (k.retired (s.dev.core c))) = .next (s.retires c k) := by
  rw [State.issued, Dev.setCore_setCore]; rfl

theorem sector_div (n : Nat) : n / 64 / 4 = n / 256 := Nat.div_div_eq_div_mul n 64 4

section
variable {s : State} {c : CoreId} {w : CoreWait} {sp : Spot} {mask : Word64}

/-- A load whose bytes the buffer holds takes them. -/
theorem Dev.loadGo_buffered (hrev : (s.dev.core c).isRevoked sp.da = false) (hrt : sp.rt ≠ .device)
    (hdev : ((s.dev.core c).sb.any fun e => e.rt = .device) = false) (hmask : mask &&& ~~~((s.dev.core c).buffered (sp.dpa / 64)) = 0) :
    s.dev.loadGo (s.issued c) c w sp mask =
      (s.issued c).setCore c ((s.dev.core c).counted.loaded w ((s.dev.core c).overlay (sp.dpa / 64) 0)) := by
  have hrev' : (s.dev.core c).counted.isRevoked sp.da = false := hrev
  have hdev' : ((s.dev.core c).counted.sb.any fun e => e.rt = .device) = false := hdev
  have hmask' : mask &&& ~~~((s.dev.core c).counted.buffered (sp.dpa / 64)) = 0 := hmask
  simp only [Dev.loadGo, State.issued_core, hrev', hrt, hdev', hmask', Bool.false_eq_true, if_false, if_true]
  rfl

/-- A NORMAL load that needs more than the buffer goes to the L1 in service. -/
theorem Dev.loadGo_l1 (hrev : (s.dev.core c).isRevoked sp.da = false) (hrt : sp.rt = .normal)
    (hdev : ((s.dev.core c).sb.any fun e => e.rt = .device) = false) (hmask : mask &&& ~~~((s.dev.core c).buffered (sp.dpa / 64)) ≠ 0)
    (hserves : s.dev.serves (l1No c) = true) :
    s.dev.loadGo (s.issued c) c w sp mask = s.dev.loadL1 (s.issued c) c w (sp.dpa / 64) := by
  have hrev' : (s.dev.core c).counted.isRevoked sp.da = false := hrev
  have hdev' : ((s.dev.core c).counted.sb.any fun e => e.rt = .device) = false := hdev
  have hmask' : mask &&& ~~~((s.dev.core c).counted.buffered (sp.dpa / 64)) ≠ 0 := hmask
  have hnd : RType.normal ≠ .device := by decide
  simp only [Dev.loadGo, State.issued_core, hrev', hrt, hnd, hdev', hmask', State.serves_issued, hserves, Bool.false_eq_true,
    if_false, decide_true,
    Bool.and_self, if_true]

/-- A load that hits in the ways takes the sector; its line counts one operation more (R268). -/
theorem Dev.loadL1_hit {base : Dev} {sector : Nat} {x : CSector} (hpf : (s.dev.core c).pfHas (sector / 4) = false)
    (hmiss : (s.dev.core c).miss = none) (hway : (s.dev.waySec (l1No c) (sector / 4) (sector % 4)).st ≠ .I)
    (hx : s.dev.cacheSec (l1No c) (sector / 4) (sector % 4) = x) (hst : x.st ≠ .I) (herr : x.err = 0) (hpoison : x.info.poison = false) :
    base.loadL1 (s.issued c) c w sector = ((s.issued c).l1Touch c (sector / 4)).loadDone c w sector x.data false := by
  have hpf' : (s.dev.core c).counted.pfHas (sector / 4) = false := hpf
  have hmiss' : (s.dev.core c).counted.miss = none := hmiss
  have hcorrect : (s.issued c).l1Correct c (sector / 4) (sector % 4) x = s.issued c := if_pos herr
  simp [Dev.loadL1, hpf', hmiss', hway, hx, hst, herr, hpoison, hcorrect]

theorem Dev.l1Touch_eq (d : Dev) (c line : Nat) : ∃ h, d.l1Touch c line = d.setCore c { d.core c with held := h } := ⟨_, rfl⟩

/-- Data without poison reaches the register under the buffered bytes. -/
theorem Dev.loadDone_touched (d : Dev) (c : Nat) (w : CoreWait) (line sector : Nat) (x : Sector) :
    ∃ h, (d.l1Touch c line).loadDone c w sector x false =
      d.setCore c (({ d.core c with held := h } : Core).loaded w ((d.core c).overlay sector x)) := by
  obtain ⟨h, ht⟩ := d.l1Touch_eq c line
  refine ⟨h, ?_⟩
  rw [ht, Dev.loadDone, if_neg Bool.false_ne_true, Dev.core_setCore, Dev.setCore_setCore]
  rfl

/-- So does a scalar load that hits. -/
theorem State.loadDone_retires (hw : (s.dev.core c).wait = .none) (line sector reg size off : Nat) (sext : Bool) (da : Word64) (x : Sector) :
    ∃ h, s.goes (((s.issued c).l1Touch c line).loadDone c (.load reg size sext off da) sector x false) =
      .next (s.retires c (({ s.dev.core c with held := h } : Core).setS reg
        (loadValue ((s.dev.core c).overlay sector x) off size sext))) := by
  obtain ⟨h, hdone⟩ := (s.issued c).loadDone_touched c (.load reg size sext off da) line sector x
  refine ⟨h, ?_⟩
  rw [hdone, State.issued_core]
  exact (congrArg (fun k => s.goes ((s.issued c).setCore c k))
    (Core.loaded_load (k := { s.dev.core c with held := h }) hw reg size sext off da _)).trans (s.goes_issued_setCore c _)

/-- A load that misses asks its sector's home and waits, with the prefetcher off and room in its set. -/
theorem Dev.loadL1_miss {base : Dev} {sector : Nat} (hpf : (s.dev.core c).pfHas (sector / 4) = false)
    (hmiss : (s.dev.core c).miss = none) (hst : (s.dev.cacheSec (l1No c) (sector / 4) (sector % 4)).st = .I)
    (hroom : s.dev.l1Full c (sector / 4) = false) (hpfEn : (s.dev.cache (l1No c)).pfEn = false) :
    base.loadL1 (s.issued c) c w sector = (s.issued c).loadMiss c w .rdShared sector .normal := by
  have hpf' : (s.dev.core c).counted.pfHas (sector / 4) = false := hpf
  have hmiss' : (s.dev.core c).counted.miss = none := hmiss
  have hquiet : (s.issued c).pfMiss c (sector / 4) w.da = s.issued c := by
    have hpfEn' : ((s.issued c).cache (l1No c)).pfEn = false := hpfEn
    simp [Dev.pfMiss, hpfEn']
  simp [Dev.loadL1, hpf', hmiss', hst, hroom, hquiet]

end

/-- A request that core c in state k puts on its way, with ISSUE stamped (R158, R258). -/
def Core.request (k : Core) (c : Nat) (kind : ReqKind) (sector : Nat) (da : Word64) (rt : RType) (issue : Word16) : ReqMsg :=
  { mkReq kind c (sector / 4) (secMask (sector % 4)) with
    ctx := k.ctx, seg := daSeg da, gen := Map.get 0 k.gens (daSeg da), rt := rt, issue := issue }

theorem Dev.coreReq_setCore (d : Dev) (c : Nat) (k : Core) (kind : ReqKind) (sector : Nat) (da : Word64) (rt : RType)
    (f : ReqMsg → ReqMsg) : (d.setCore c k).coreReq c kind sector da rt f =
      (d.setCore c k).send (.req (f (k.request c kind sector da rt (d.issueStamp (quarterOfCore c))))) := by
  rw [Dev.coreReq, Dev.core_setCore]; rfl

/-- The request of a load, and the wait. -/
theorem State.loadMiss_sends (s : State) (c : CoreId) (w : CoreWait) (kind : ReqKind) (sector : Nat) :
    s.goes ((s.issued c).loadMiss c w kind sector .normal) =
      .next ((s.withCore c { (s.dev.core c).counted with wait := w, miss := some sector }).sends
        (.req ((s.dev.core c).request c kind sector w.da .normal (s.dev.issueStamp (quarterOfCore c))))) := by
  rw [Dev.loadMiss, Dev.updCore, State.issued_core, State.issued, Dev.setCore_setCore, Dev.coreReq_setCore]
  rfl

/-! ### Scratch accesses (R157) -/

theorem Core.scratchExc_none {k : Core} {o n al : Nat} (halign : o % al = 0) (hfits : o + n ≤ k.scratchSize) :
    k.scratchExc o n al = none := by
  rw [Core.scratchExc, if_neg (not_not.mpr halign), if_neg (Nat.not_lt.mpr hfits)]

theorem scratchOp_retires {s : State} {c : CoreId} {f : Fields} {pOk : Bool} {n : Nat} {ss vw : List Nat} {g : Core → Nat → Core}
    {k : Core} {o : Nat} (ho : ((s.dev.core c).sr f.a.toNat + wordInt f.imm36).toNat = o) (hl : f.legalI 32 32 pOk = true)
    (hi : s.issues c (f.a.toNat :: ss) vw) (halign : o % n = 0) (hfits : o + n ≤ (s.dev.core c).scratchSize)
    (hg : (g (s.dev.core c).counted o).next = k.retired (s.dev.core c)) :
    scratchOp c f pOk n ss vw g s = .next (s.retires c k) := by
  have ho' : Fields.so f (s.dev.core c).counted = o := ho
  have hexc : (s.dev.core c).counted.scratchExc o n n = none := Core.scratchExc_none halign hfits
  rw [scratchOp, Dev.issue_ready hl hi]
  simp only [ho', hexc, hg, Dev.setCore_setCore, State.goes_eq, State.retires]

end Sys2Proof.Machine

namespace Sys2Proof.Proofs

/-- Settles O12: the first check that fails gives the exception, and the access has no other effect. -/
theorem accessExceptions : Obligations.AccessExceptions := by
  refine ⟨Core.access_eq, fun p hp s c f e hl hi hbad => ?_, fun p hp s c f e hl hi hbad => ?_⟩
  · rw [exec_loadOps p hp, load_issues hl hi, hbad]; rfl
  · have hbad' : (s.dev.core c).counted.access ((s.dev.core c).ar f.a.toNat + wordInt f.imm36) p.2 .write = .error e := hbad
    rw [exec_storeOps p hp, store_issues hl hi]
    simp only [Dev.storeGo, State.issued_core, hbad']
    rfl

/-- Settles O11: a store enters the buffer, whose bytes the core then sees; scratch accesses take effect at once. -/
theorem storesAndScratch : Obligations.StoresAndScratch := by
  refine ⟨⟨fun p hp s c f sp hl hi hacc hrev hroom => ?store, fun s c f sp hl hi hacc hrev hroom => ?vst, Core.lane_overlay_storeIn⟩,
    fun s c f => ⟨fun hl halign hfits => ⟨fun hi => ?vlds, fun hi => ?vsts⟩, fun hl halign hfits hi => ⟨?sld, ?sst⟩⟩,
    fun k o a bs => ⟨Core.scratchByte_putScratch k o a bs, Core.putScratch_frame k o bs⟩⟩
  case store => rw [exec_storeOps p hp, store_issues hl hi]; exact Dev.storeGo_enters hacc rfl hrev hroom
  case vst => rw [exec_vst_issues hl hi]; exact Dev.storeGo_enters hacc rfl hrev hroom
  case vlds => show execVlds c f s = _; exact scratchOp_retires rfl hl hi halign hfits rfl
  case vsts => show execVsts c f s = _; exact scratchOp_retires rfl hl hi halign hfits (Core.putScratch_counted_next ..)
  case sld => show execSld64 c f s = _; exact scratchOp_retires rfl hl hi halign hfits rfl
  case sst => show execSst64 c f s = _; exact scratchOp_retires rfl hl hi halign hfits (Core.putScratch_counted_next ..)

/-- Settles O10: a load takes the buffered bytes, hits in the L1, or asks the home of its sector and waits. -/
theorem loads : Obligations.Loads := by
  refine ⟨⟨fun p hp s c f sp hl hi hacc hrev hrt hdev => ⟨fun hmask => ?buffered, fun hmask hserves hpf hmiss hway hst herr hpoison => ?hit⟩,
    fun s c f sp hl hi hacc hrev hrt hdev hall => ?vld⟩,
    fun p hp s c f sp hl hi hacc hrev hrt hdev hmask hserves hpf hmiss hst hroom hpfEn => ?miss⟩
  case buffered =>
    rw [exec_loadOps p hp, load_issues hl hi, hacc]
    dsimp only
    rw [Dev.loadGo_buffered hrev (by rw [hrt]; decide) hdev hmask, Core.loaded_load hi.2.1, State.goes_issued_setCore]
  case hit =>
    rw [← sector_div] at hpf hway hst herr hpoison
    rw [exec_loadOps p hp, load_issues hl hi, hacc, ← sector_div]
    dsimp only
    rw [Dev.loadGo_l1 hrev hrt hdev hmask hserves, Dev.loadL1_hit hpf hmiss hway rfl hst herr hpoison]
    exact s.loadDone_retires hi.2.1 ..
  case vld =>
    have hmask : BitVec.allOnes 64 &&& ~~~((s.dev.core c).buffered (sp.dpa / 64)) = 0 := by rw [hall]; decide
    rw [exec_vld_issues hl hi, hacc]
    dsimp only
    rw [Dev.loadGo_buffered hrev hrt hdev hmask, Core.loaded_vload hi.2.1, State.goes_issued_setCore]
  case miss =>
    rw [← sector_div] at hpf hst hroom
    rw [exec_loadOps p hp, load_issues hl hi, hacc, ← sector_div]
    dsimp only
    rw [Dev.loadGo_l1 hrev hrt hdev hmask hserves, Dev.loadL1_miss hpf hmiss hst hroom hpfEn]
    exact ⟨_, s.loadMiss_sends c _ _ _, rfl, rfl, rfl, rfl, rfl⟩

end Sys2Proof.Proofs
end

section
/-! Waiting, ordering and control (R160, R168-R171, R177, R210, R315): what DRAIN and WAITM wait for, END at a core whose team goes on,
branches, and arrival at the team's barrier. -/

open Sys2Proof Sys2Proof.Machine

namespace Sys2Proof.Machine

theorem State.issue_issued {s : State} {c : CoreId} {legal : Bool} {ss vw : List Nat} (hl : legal = true) (hi : s.issues c ss vw)
    (run : Dev → Core → Dev) : s.dev.issue c legal ss vw run = run (s.issued c) (s.dev.core c).counted :=
  Dev.issue_ready hl hi run

/-! ### Settlement (R315) -/

@[simp] theorem Dev.writeSettled_setCore (d : Dev) (c j : Nat) (k : Core) (w : OutWrite) :
    (d.setCore c k).writeSettled j w = d.writeSettled j w := rfl

@[simp] theorem State.writesSettled_issued (s : State) (c : CoreId) : (s.issued c).writesSettled c = s.dev.writesSettled c := by
  rw [Dev.writesSettled, State.issued_core]; rfl

/-- With every write settled none is kept. -/
theorem Dev.dropSettled_all {d : Dev} {c : Nat} (h : d.writesSettled c = true) :
    d.dropSettled c = d.setCore c { d.core c with writes := [] } := by
  have hnone : ((d.core c).writes.filter fun w => !d.writeSettled c w) = [] := by
    rw [List.filter_eq_nil_iff]
    intro w hw
    simpa using List.all_eq_true.mp h w hw
  rw [Dev.dropSettled, Dev.updCore, hnone]

section
variable {s : State} {c : CoreId} {base : Dev} {go : Dev → Dev}

/-- The block after an issue in which core c has forgotten its settled writes. -/
def State.settled (s : State) (c : CoreId) : Dev := s.dev.setCore c { (s.dev.core c).counted with writes := [] }

@[simp] theorem State.settled_core (s : State) (c : CoreId) :
    (s.settled c).core c = { (s.dev.core c).counted with writes := [] } := Dev.core_setCore ..

theorem State.dropSettled_issued (h : s.dev.writesSettled c = true) : (s.issued c).dropSettled c = s.settled c := by
  rw [Dev.dropSettled_all (by rw [State.writesSettled_issued, h]), State.issued_core, State.issued, Dev.setCore_setCore]; rfl

theorem State.coreDrained_issued (s : State) (c : CoreId) : (s.issued c).coreDrained c =
    ((s.dev.core c).sb.isEmpty && s.dev.writesSettled c && !((s.dev.core c).movQ.any (·.dump))) := by
  rw [Dev.coreDrained, State.writesSettled_issued, State.issued_core]; rfl

theorem State.goes_settled_setCore (s : State) (c : CoreId) (k : Core) :
    s.goes ((s.settled c).setCore c (k.retired (s.dev.core c))) = .next (s.retires c k) := by
  rw [State.settled, Dev.setCore_setCore]; rfl

theorem State.goes_settled_next (s : State) (c : CoreId) :
    s.goes ((s.settled c).updCore c Core.next) = .next (s.retires c { s.dev.core c with writes := [] }) := by
  rw [Dev.updCore, State.settled_core]
  exact s.goes_settled_setCore c { s.dev.core c with writes := [] }

theorem State.goes_settled_raise (s : State) (c : CoreId) (code : Nat) (da : Word64) :
    s.goes ((s.settled c).raise c code da) = .next ((s.withCore c { s.dev.core c with writes := [] }).excepts c code da) := by
  rw [State.excepts, State.withCore, Dev.core_setCore, Dev.setCore_setCore]; rfl

/-- How DRAIN ends, by the first earlier failure. -/
theorem State.drain_ends (s : State) (c : CoreId) (failed : Option Word64) :
    s.goes (match failed with
      | some da => (s.issued c).raise c 0x0D da
      | none => (s.settled c).updCore c Core.next) =
    match failed with
      | some da => .next (s.excepts c 0x0D da)
      | none => .next (s.retires c { s.dev.core c with writes := [] }) := by
  cases failed with
  | some da => rfl
  | none => exact s.goes_settled_next c

/-- How WAITM ends, by the first earlier failure and a poisoned sector. -/
theorem State.waitm_ends (s : State) (c : CoreId) (failed poison : Option Word64) :
    s.goes (match failed, poison with
      | some da, _ => (s.issued c).raise c 0x0D da
      | none, some da => (s.settled c).raise c 0x0B da
      | none, none => (s.settled c).updCore c Core.next) =
    match failed, poison with
      | some da, _ => .next (s.excepts c 0x0D da)
      | none, some da => .next ((s.withCore c { s.dev.core c with writes := [] }).excepts c 0x0B da)
      | none, none => .next (s.retires c { s.dev.core c with writes := [] }) := by
  cases failed with
  | some da => rfl
  | none =>
    cases poison with
    | some da => exact s.goes_settled_raise c 0x0B da
    | none => exact s.goes_settled_next c

/-- DRAIN's course: it waits, reports the first failure, or goes on. -/
theorem State.drainThen_issued (s : State) (c : CoreId) (base : Dev) (go : Dev → Dev) : base.drainThen (s.issued c) c go =
    if !(s.dev.core c).sb.isEmpty || !s.dev.writesSettled c || (s.dev.core c).movQ.any (·.dump) then base
    else match (s.dev.core c).failDa with
      | some da => (s.issued c).raise c 0x0D da
      | none => go (s.settled c) := by
  have hfail : ((s.issued c).core c).failDa = (s.dev.core c).failDa := by rw [State.issued_core]; rfl
  rw [Dev.drainThen, State.coreDrained_issued, hfail]
  by_cases h : s.dev.writesSettled c = true
  · rw [State.dropSettled_issued h, h]
    cases (s.dev.core c).sb.isEmpty <;> cases (s.dev.core c).movQ.any (·.dump) <;> rfl
  · rw [Bool.not_eq_true] at h
    simp [h]

/-- DRAIN's course at a core that has nothing to wait for. -/
theorem State.drainThen_goes (hsb : (s.dev.core c).sb = []) (hw : s.dev.writesSettled c = true)
    (hmov : (s.dev.core c).movQ.any (·.dump) = false) (hfail : (s.dev.core c).failDa = none) :
    base.drainThen (s.issued c) c go = go (s.settled c) := by
  rw [State.drainThen_issued, hsb, hw, hmov, hfail]; rfl

/-- WAITM's course: it waits, reports the first failure or a poisoned sector, or goes on. -/
theorem State.waitmThen_issued (s : State) (c : CoreId) (base : Dev) (go : Dev → Dev) : base.waitmThen (s.issued c) c go =
    if !(s.dev.core c).movQ.isEmpty || !(s.dev.core c).sb.isEmpty || !s.dev.writesSettled c then base
    else match (s.dev.core c).failDa, (s.dev.core c).movPoison with
      | some da, _ => (s.issued c).raise c 0x0D da
      | none, some da => (s.settled c).raise c 0x0B da
      | none, none => go (s.settled c) := by
  have hmov : ((s.issued c).core c).movQ = (s.dev.core c).movQ := by rw [State.issued_core]; rfl
  have hpoison : ((s.settled c).core c).movPoison = (s.dev.core c).movPoison := by rw [State.settled_core]; rfl
  rw [Dev.waitmThen, State.drainThen_issued, hmov]
  cases hq : (s.dev.core c).movQ with
  | cons x xs => rfl
  | nil =>
    simp only [hpoison, List.isEmpty_nil, List.any_nil, Bool.or_false, Bool.not_true, Bool.false_or, Bool.false_eq_true, if_false]
    split
    · rfl
    · cases (s.dev.core c).failDa <;> cases (s.dev.core c).movPoison <;> rfl

/-- Nothing is left to wait for once DRAIN has passed. -/
theorem State.waitmThen_settled (hsb : (s.dev.core c).sb = []) (hmov : (s.dev.core c).movQ = []) (hfail : (s.dev.core c).failDa = none)
    (hpoison : (s.dev.core c).movPoison = none) : base.waitmThen (s.settled c) c go = go (s.settled c) := by
  have hall : (s.settled c).writesSettled c = true := by rw [Dev.writesSettled, State.settled_core]; rfl
  have hdrop : (s.settled c).dropSettled c = s.settled c := by
    rw [Dev.dropSettled_all hall, State.settled_core, State.settled, Dev.setCore_setCore]
  have hdrained : (s.settled c).coreDrained c = true := by
    rw [Dev.coreDrained, hall, State.settled_core]; simp [Core.counted, hsb, hmov]
  simp [Dev.waitmThen, Dev.drainThen, hdrained, hdrop, Core.counted, hmov, hfail, hpoison]

end

/-! ### The team goes on (R168) -/

/-- While one of its cores has work left a team is not complete. -/
theorem Dev.teamEnd_unfinished {d : Dev} {t j : Nat} {tm : Team} (ht : d.team t = some tm) (hj : j ∈ tm.cores)
    (hf : (d.core j).finished = false) : d.teamEnd t = d := by
  have hnot : (tm.cores.all fun c => (d.core c).finished) = false := by
    rw [Bool.eq_false_iff, Ne, List.all_eq_true]
    intro h
    rw [h j hj] at hf
    cases hf
  refine Dev.engine_ok ?_
  rw [teamDone, Eng.get_bind, ht]
  dsimp only
  rw [hnot]
  rfl

theorem Dev.coreDone_unfinished {d : Dev} {c t j : Nat} {tm : Team} (hc : (d.core c).team = some t) (ht : d.team t = some tm)
    (hj : j ∈ tm.cores) (hf : (d.core j).finished = false) : d.coreDone c = d := by
  rw [Dev.coreDone, hc]
  exact Dev.teamEnd_unfinished ht hj hf

/-! ### Branches (R210) -/

theorem Core.branch_eq (k : Core) (n : Int) : k.branch n = { k with pc := k.pcAt n } := by
  rw [Core.branch, ← BitVec.ofInt_natCast, ← BitVec.ofInt_add, BitVec.toNat_ofInt, Core.pcAt]; norm_cast

section
variable {s : State} {c : CoreId} {f : Fields}

theorem State.goes_issued_retiredTo (s : State) (c : CoreId) (k : Core) (pc : Nat) :
    s.goes ((s.issued c).setCore c (k.retiredTo (s.dev.core c) pc)) = .next (s.goesTo c k pc) := by
  rw [State.issued, Dev.setCore_setCore]; rfl

/-- A branch whose test holds goes to its target, another to the next instruction. -/
theorem branchIf_goes {an : Nat} {ss : List Nat} {t : Core → Bool} (hl : f.legalI 0 an false = true) (hi : s.issues c ss []) {b : Bool}
    (ht : t (s.dev.core c).counted = b) : branchIf c f an ss t s =
      .next (if b then s.goesTo c (s.dev.core c) ((s.dev.core c).pcAt f.imm36) else s.retires c (s.dev.core c)) := by
  have hif : branchIf c f an ss t s = s.goes ((s.issued c).setCore c
      (if t (s.dev.core c).counted then (s.dev.core c).counted.branch f.imm36 else (s.dev.core c).counted.next)) := by
    rw [branchIf, State.issue_issued hl hi]
  rw [hif, ht, Core.branch_eq]
  cases b with
  | true => exact s.goes_issued_retiredTo c (s.dev.core c) _
  | false => exact State.goes_issued_setCore s c (s.dev.core c)

end

/-! ### The team's barrier (R169) -/

theorem State.barrierOf_settled {s : State} {c : CoreId} {t : Nat} {tm : Team} (hc : (s.dev.core c).team = some t)
    (ht : s.dev.team t = some tm) : (s.settled c).barrierOf c = (tm.barrier, tm.cores.length) := by
  have hc' : ((s.settled c).core c).team = some t := by rw [State.settled_core]; exact hc
  have ht' : (s.settled c).team t = some tm := ht
  rw [Dev.barrierOf, hc']
  dsimp only
  rw [ht']

theorem exec_tbar_arrives {s : State} {c : CoreId} {f : Fields} {t : Nat} {tm : Team} {dpa : Nat}
    (hl : f.legalR 0 0 0 0 false [] 0 = true) (hi : s.issues c [] []) (hsb : (s.dev.core c).sb = [])
    (hw : s.dev.writesSettled c = true) (hmov : (s.dev.core c).movQ.any (·.dump) = false) (hfail : (s.dev.core c).failDa = none)
    (hc : (s.dev.core c).team = some t) (ht : s.dev.team t = some tm) (hbar : tm.barrier ≠ 0)
    (hxlate : ((s.dev.core c).segOf tm.barrier).translate tm.barrier 8 .atomic = .ok dpa)
    (htarget : ((s.dev.core c).segOf tm.barrier).target ≠ 3) (hdram : isDram dpa = true)
    (htype : ((s.dev.core c).segOf tm.barrier).typeAt dpa = .normal) (hrev : (s.dev.core c).isRevoked tm.barrier = false) :
    exec (.tbar c f) s = .next ((s.withCore c
      { (s.dev.core c).counted with writes := [], miss := none, wait := .arrive tm.cores.length tm.barrier }).sends (.req
        { (s.dev.core c).request c .atomic (dpa / 64) tm.barrier .normal (s.dev.issueStamp (quarterOfCore c)) with
          op := .barrierArrive, off := dpa % 64, narrow := false, operand := BitVec.ofNat 64 tm.cores.length })) := by
  have hseg : (s.dev.core c).counted.segOf tm.barrier = (s.dev.core c).segOf tm.barrier := rfl
  have hrev' : (s.dev.core c).counted.isRevoked tm.barrier = false := hrev
  show execTbar c f s = _
  rw [execTbar, State.issue_issued hl hi, State.drainThen_goes hsb hw hmov hfail, State.barrierOf_settled hc ht]
  simp only [hbar, if_false, hseg, hxlate, htarget, hdram, htype, hrev', decide_false, Bool.not_true, Bool.or_self,
    ne_eq, not_true_eq_false, Bool.false_eq_true]
  rw [Dev.updCore, State.settled_core, State.settled, Dev.setCore_setCore, Dev.coreReq_setCore]
  rfl

/-! ### Scratch words (R177) -/

theorem exec_waits_inRange {s : State} {c : CoreId} {f : Fields} (hl : f.legalR 0 32 0 0 false [] 0 = true)
    (hi : s.issues c [f.a.toNat] []) (halign : ((s.dev.core c).sr f.a.toNat).toNat % 8 = 0)
    (hfits : ((s.dev.core c).sr f.a.toNat).toNat + 8 ≤ (s.dev.core c).scratchSize) : exec (.waits c f) s =
      .next (if (s.dev.core c).scratchNat ((s.dev.core c).sr f.a.toNat).toNat 8 = 0 then s else s.retires c (s.dev.core c)) := by
  have hexc : (s.dev.core c).counted.scratchExc ((s.dev.core c).counted.sr f.a.toNat).toNat 8 8 = none :=
    Core.scratchExc_none halign hfits
  have hnat : (s.dev.core c).counted.scratchNat ((s.dev.core c).counted.sr f.a.toNat).toNat 8 =
    (s.dev.core c).scratchNat ((s.dev.core c).sr f.a.toNat).toNat 8 := rfl
  show execWaits c f s = _
  rw [execWaits, State.issue_issued hl hi]
  simp only [hexc, hnat]
  split
  · rfl
  · exact s.goes_issued_setCore c (s.dev.core c)

end Sys2Proof.Machine

namespace Sys2Proof.Proofs

/-- Settles O6: DRAIN and WAITM wait, report or go on, and END ends the core while its team goes on. -/
theorem drainWaitAndEnd : Obligations.DrainWaitAndEnd := by
  refine ⟨fun s c f hl hi => ⟨?drain, ?waitm⟩, fun s c f t tm j hl hi hsb hw hmov hfail hpoison hc ht hj hne hf => ?endK⟩
  case drain =>
    show execDrain c f s = _
    rw [execDrain, State.issue_issued hl hi, State.drainThen_issued]
    split
    · rfl
    · exact s.drain_ends c _
  case waitm =>
    show execWaitm c f s = _
    rw [execWaitm, State.issue_issued hl hi, State.waitmThen_issued]
    split
    · rfl
    · exact s.waitm_ends c _ _
  case endK =>
    show execEndK c f s = _
    have hdump : (s.dev.core c).movQ.any (·.dump) = false := by rw [hmov]; rfl
    have hgoesOn : ∀ k : Core, k.team = some t → ((s.settled c).setCore c k).coreDone c = (s.settled c).setCore c k := fun k hk =>
      Dev.coreDone_unfinished (by rw [Dev.core_setCore, hk]) ht hj
        (by rw [Dev.core_setCore_other _ _ _ _ hne, State.settled, Dev.core_setCore_other _ _ _ _ hne, hf])
    rw [execEndK, State.issue_issued hl hi, State.drainThen_goes hsb hw hdump hfail, State.waitmThen_settled hsb hmov hfail hpoison,
      Dev.updCore, State.settled_core, hgoesOn]
    · exact s.goes_settled_setCore c { s.dev.core c with writes := [], status := .ended, exitVal := (s.dev.core c).sr f.a.toNat }
    · exact hc

/-- Settles O7: branches go where they say, barriers are arrived at, scratch words are passed or waited at, and BRK stops the core. -/
theorem controlTransfers : Obligations.ControlTransfers := by
  refine ⟨fun s c f => ⟨fun hl hi => ?j, fun hl hi => ?call, fun hl hi => ?jr, fun hl hi => ⟨?bz, ?bnz⟩, fun hl hi => ?bpany,
      fun hl hi => ?nop, fun hl hi => ⟨?rdref, ?rdwave⟩⟩,
    fun s c f => ⟨fun hl hi => ?brk, fun hl hi halign hfits => ?waits,
      fun t tm dpa hl hi hsb hw hmov hfail hc ht hbar hxlate htarget hdram htype hrev => ?tbar⟩⟩
  case j =>
    show execJ c f s = _
    rw [execJ, State.issue_issued hl hi, Core.branch_eq]
    exact s.goes_issued_retiredTo c (s.dev.core c) _
  case call =>
    show execCall c f s = _
    rw [execCall, State.issue_issued hl hi, Core.branch_eq]
    exact s.goes_issued_retiredTo c ((s.dev.core c).setS f.d.toNat (BitVec.ofNat 64 ((s.dev.core c).pc + 8))) _
  case jr =>
    show execJr c f s = _
    rw [execJr, State.issue_issued hl hi]
    exact s.goes_issued_retiredTo c (s.dev.core c) _
  case bz =>
    by_cases h : (s.dev.core c).sr f.a.toNat = 0
    · exact (branchIf_goes hl hi (decide_eq_true h)).trans (by rw [if_pos h]; rfl)
    · exact (branchIf_goes hl hi (decide_eq_false h)).trans (by rw [if_neg h]; rfl)
  case bnz =>
    by_cases h : (s.dev.core c).sr f.a.toNat = 0
    · exact (branchIf_goes hl hi (decide_eq_false (not_not.mpr h))).trans (by rw [if_pos h]; rfl)
    · exact (branchIf_goes hl hi (decide_eq_true h)).trans (by rw [if_neg h]; rfl)
  case bpany =>
    by_cases h : (s.dev.core c).pr f.a.toNat = 0
    · exact (branchIf_goes hl hi (decide_eq_false (not_not.mpr h))).trans (by rw [if_pos h]; rfl)
    · exact (branchIf_goes hl hi (decide_eq_true h)).trans (by rw [if_neg h]; rfl)
  case nop => exact State.issueReg_retires hl hi rfl
  case rdref => exact State.issueReg_retires hl hi rfl
  case rdwave => exact State.issueReg_retires hl hi rfl
  case brk =>
    show execBrk c f s = _
    rw [execBrk, State.issue_issued hl hi]
    rfl
  case waits =>
    exact exec_waits_inRange hl hi halign hfits
  case tbar =>
    exact ⟨_, exec_tbar_arrives hl hi hsb hw hmov hfail hc ht hbar hxlate htarget hdram htype hrev, rfl, rfl, rfl,
      Nat.div_div_eq_div_mul dpa 64 4, rfl, rfl⟩

end Sys2Proof.Proofs
end

section
/-! Memory past the store buffer (R159, R160, R176, R266): one piece of the scratch mover, and atomics. -/

open Sys2Proof Sys2Proof.Machine

namespace Sys2Proof.Machine

/-! ### The mover (R176) -/

/-- A transfer of one sector, before its piece has left. -/
def Mover.sector (dump : Bool) (da : Word64) (o : Nat) : Mover := { dump := dump, da := da, scratch := o, len := 64, pos := 0, out := [] }

/-- A core whose mover has this one transfer. -/
def Core.moving (k : Core) (x : Mover) : Core := { k with movQ := [x] }

theorem Core.moverNext_of_unsent {k : Core} {x : Mover} (hq : k.movQ = [x]) (hpos : x.pos < x.len) : k.moverNext = some (0, x) := by
  simp [Core.moverNext, hq, hpos]

theorem Core.moverNext_of_sent {k : Core} {x : Mover} (hq : k.movQ = [x]) (hpos : x.pos = x.len) : k.moverNext = none := by
  simp [Core.moverNext, hq, hpos]

theorem Dev.moverPump_stops {d : Dev} {c : Nat} (h : (d.core c).moverNext = none) (n : Nat) : d.moverPump c n = d := by
  cases n with
  | zero => rfl
  | succ n => rw [Dev.moverPump, h]

/-- A piece leaves while no request is in flight. -/
theorem Dev.moverPump_piece {d : Dev} {c : Nat} {x : Mover} (hq : (d.core c).movQ = [x]) (hpos : x.pos < x.len) (hout : x.out = [])
    (n : Nat) : d.moverPump c (n + 1) = (d.moverPieceOut c 0 x).moverPump c n := by
  have hlines : ¬ 64 ≤ (d.core c).moverLines := by simp [Core.moverLines, hq, hout]
  rw [Dev.moverPump, Core.moverNext_of_unsent hq hpos]
  exact if_neg hlines

theorem Core.moverSent_sector {k : Core} {dump : Bool} {da : Word64} {o : Nat} (key : Nat) (hq : k.movQ = [Mover.sector dump da o]) :
    k.moverSent 0 64 [key] = { k with movQ := [{ Mover.sector dump da o with pos := 64, out := [key] }] } := by
  simp [Core.moverSent, Core.moverTidy, hq, Mover.sector]

theorem copySpan_sector {dpa : Nat} (h : dpa % 64 = 0) : copySpan dpa 64 256 = 64 := by
  rw [copySpan]
  exact Nat.min_eq_left (by omega)

theorem sectorsMask_one {i : Nat} (h : i < 4) : sectorsMask i 1 = secMask i := by
  interval_cases i <;> rfl

section
variable {d : Dev} {c : Nat} {k : Core} {da : Word64} {o dpa : Nat}
  (hrev : k.isRevoked da = false) (htarget : (k.segOf da).target ≤ 2) (hdpa : (k.segOf da).dpa (daOff da) = dpa) (hsec : dpa % 64 = 0)
include hrev htarget hdpa hsec

/-- The piece of a one-sector SFILL asks the sector's home for its data. -/
theorem Dev.moverPieceOut_fill (hq : k.movQ = [Mover.sector false da o]) :
    (d.setCore c k).moverPieceOut c 0 (Mover.sector false da o) =
      (d.setCore c { k with movQ := [{ Mover.sector false da o with pos := 64, out := [o] }] }).send (.req
        { k.request c .rdCurrent (dpa / 64) da (k.segOf da).region (d.issueStamp (quarterOfCore c)) with
          smask := sectorsMask (dpa / 64 % 4) 1, origin := .fill }) := by
  have hne : (k.segOf da).target ≠ 3 := by omega
  have hzero : da + BitVec.ofNat 64 0 = da := BitVec.add_zero da
  simp only [Dev.moverPieceOut, Mover.sector, Dev.core_setCore, hrev, hne, hzero, hdpa, copySpan_sector hsec, Bool.false_eq_true, if_false]
  rw [Dev.updCore, Dev.core_setCore, Dev.setCore_setCore, Dev.coreReq_setCore]
  exact congrArg (fun y => (d.setCore c y).send _) (k.moverSent_sector o hq)

/-- The piece of a one-sector Sfalse sends the bytes of scratch to the sector's home. -/
theorem Dev.moverPieceOut_dump (hq : k.movQ = [Mover.sector true da o]) :
    (d.setCore c k).moverPieceOut c 0 (Mover.sector true da o) =
      (d.setCore c { k with
        movQ := [{ Mover.sector true da o with pos := 64, out := [daOff da] }]
        writes := k.writes ++ [{ sector := dpa / 64, da := da, mover := true, done := false, kept := false }] }).send (.req
          { k.request c .wrFull (dpa / 64) da (k.segOf da).region (d.issueStamp (quarterOfCore c)) with
            smask := sectorsMask (dpa / 64 % 4) 1, origin := .dump
            pay := [{ sec := dpa / 64 % 4, data := k.scratchSector o, info := .zero }] }) := by
  have hne : (k.segOf da).target ≠ 3 := by omega
  have hzero : da + BitVec.ofNat 64 0 = da := BitVec.add_zero da
  simp only [Dev.moverPieceOut, Mover.sector, Dev.core_setCore, hrev, hne, hzero, hdpa, copySpan_sector hsec, Bool.false_eq_true, if_false,
    if_true]
  rw [Dev.updCore, Dev.core_setCore, Dev.setCore_setCore, Dev.coreReq_setCore]
  have hsent := k.moverSent_sector (daOff da) hq
  exact congrArg (fun y : Core => (d.setCore c { y with
    writes := k.writes ++ [{ sector := dpa / 64, da := da, mover := true, done := false, kept := false }] }).send (.req
      { y.request c .wrFull (dpa / 64) da (k.segOf da).region (d.issueStamp (quarterOfCore c)) with
            smask := sectorsMask (dpa / 64 % 4) 1, origin := .dump
            pay := [{ sec := dpa / 64 % 4, data := k.scratchSector o, info := .zero }] })) hsent

end

/-- A transfer of one sector whose checks pass hands its only piece to an idle mover. -/
theorem moverOp_sector {s : State} {c : CoreId} {f : Fields} {dump : Bool} {dpa : Nat} {da : Word64} {o : Nat}
    (hda : (s.dev.core c).ar f.a.toNat = da) (ho : ((s.dev.core c).sr f.b.toNat).toNat = o) (hl : f.legalR 0 16 32 32 false [] 0 = true)
    (hi : s.issues c [f.b.toNat, f.c.toNat] []) (hlen : (s.dev.core c).sr f.c.toNat = 64) (halign : da.toNat % 64 = 0)
    (hfits : o + 64 ≤ (s.dev.core c).scratchSize) (hidle : (s.dev.core c).movQ = []) (htarget : ((s.dev.core c).segOf da).target ≤ 2)
    (hxlate : ((s.dev.core c).segOf da).translate da 64 (if dump then .write else .read) = .ok dpa) :
    moverOp c f dump s = s.goes ((s.dev.setCore c
      (((s.dev.core c).moving (Mover.sector dump da o)).retired (s.dev.core c))).moverPump c 64) := by
  have hda' : (s.dev.core c).counted.ar f.a.toNat = da := hda
  have ho' : ((s.dev.core c).counted.sr f.b.toNat).toNat = o := ho
  have hlen' : ((s.dev.core c).counted.sr f.c.toNat).toNat = 64 := congrArg BitVec.toNat hlen
  have hxlate' : ((s.dev.core c).counted.segOf da).translate da 64 (if dump then .write else .read) = .ok dpa := hxlate
  have htarget' : ((s.dev.core c).counted.segOf da).target ≠ 4 := by
    show ((s.dev.core c).segOf da).target ≠ 4
    omega
  have hfits' : ¬ (s.dev.core c).counted.scratchSize < o + 64 := Nat.not_lt.mpr hfits
  have hidle' : (s.dev.core c).counted.movQ = [] := hidle
  rw [moverOp, State.issue_issued hl hi, hda', ho', hlen']
  simp only [Dev.moverGo, State.issued_core, halign, hxlate', hfits', hidle', htarget', List.length_nil, Nat.reduceMod, Nat.reduceEqDiff,
    ne_eq, not_true_eq_false, decide_false, Bool.or_self, Bool.false_eq_true, if_false]
  rw [if_neg (by decide)]
  have hk : ({ (s.dev.core c).counted.next with movQ := (s.dev.core c).counted.next.movQ ++ [Mover.sector dump da o] } : Core) =
      ((s.dev.core c).moving (Mover.sector dump da o)).retired (s.dev.core c) := by
    have hq : (s.dev.core c).counted.next.movQ = [] := hidle
    rw [hq]
    rfl
  rw [← hk, Dev.updCore, Dev.updCore, Dev.core_setCore, State.issued_core, State.issued, Dev.setCore_setCore, Dev.setCore_setCore]
  rfl

section
variable {s : State} {c : CoreId} {f : Fields} {dpa : Nat} {da : Word64} {o : Nat}
  (hda : (s.dev.core c).ar f.a.toNat = da) (ho : ((s.dev.core c).sr f.b.toNat).toNat = o) (hl : f.legalR 0 16 32 32 false [] 0 = true)
  (hi : s.issues c [f.b.toNat, f.c.toNat] []) (hlen : (s.dev.core c).sr f.c.toNat = 64) (halign : da.toNat % 64 = 0)
  (hfits : o + 64 ≤ (s.dev.core c).scratchSize) (hidle : (s.dev.core c).movQ = []) (hrev : (s.dev.core c).isRevoked da = false)
  (htarget : ((s.dev.core c).segOf da).target ≤ 2) (hdpa : ((s.dev.core c).segOf da).dpa (daOff da) = dpa) (hsec : dpa % 64 = 0)
include hda ho hl hi hlen halign hfits hidle hrev htarget hdpa hsec

theorem exec_sfill_sector (hxlate : ((s.dev.core c).segOf da).translate da 64 .read = .ok dpa) :
    exec (.sfill c f) s = .next ((s.retires c
      { s.dev.core c with movQ := [{ Mover.sector false da o with pos := 64, out := [o] }] }).sends (.req
        { (s.dev.core c).request c .rdCurrent (dpa / 64) da ((s.dev.core c).segOf da).region (s.dev.issueStamp (quarterOfCore c)) with
          smask := sectorsMask (dpa / 64 % 4) 1, origin := .fill })) := by
  show moverOp c f false s = _
  rw [moverOp_sector (dump := false) hda ho hl hi hlen halign hfits hidle htarget hxlate,
    Dev.moverPump_piece (x := Mover.sector false da o) (by rw [Dev.core_setCore]; rfl) (Nat.zero_lt_succ 63) rfl,
    Dev.moverPieceOut_fill (k := ((s.dev.core c).moving (Mover.sector false da o)).retired (s.dev.core c)) hrev htarget hdpa hsec rfl,
    Dev.moverPump_stops]
  · rfl
  · exact Core.moverNext_of_sent (x := { Mover.sector false da o with pos := 64, out := [o] }) (congrArg Core.movQ (Dev.core_setCore ..)) rfl

theorem exec_sdump_sector (hxlate : ((s.dev.core c).segOf da).translate da 64 .write = .ok dpa) :
    exec (.sdump c f) s = .next ((s.retires c { s.dev.core c with
      movQ := [{ Mover.sector true da o with pos := 64, out := [daOff da] }]
      writes := (s.dev.core c).writes ++ [{ sector := dpa / 64, da := da, mover := true, done := false, kept := false }] }).sends (.req
        { (s.dev.core c).request c .wrFull (dpa / 64) da ((s.dev.core c).segOf da).region (s.dev.issueStamp (quarterOfCore c)) with
          smask := sectorsMask (dpa / 64 % 4) 1, origin := .dump
          pay := [{ sec := dpa / 64 % 4, data := (s.dev.core c).scratchSector o, info := .zero }] })) := by
  show moverOp c f true s = _
  rw [moverOp_sector (dump := true) hda ho hl hi hlen halign hfits hidle htarget hxlate,
    Dev.moverPump_piece (x := Mover.sector true da o) (by rw [Dev.core_setCore]; rfl) (Nat.zero_lt_succ 63) rfl,
    Dev.moverPieceOut_dump (k := ((s.dev.core c).moving (Mover.sector true da o)).retired (s.dev.core c)) hrev htarget hdpa hsec rfl,
    Dev.moverPump_stops]
  · rfl
  · exact Core.moverNext_of_sent (x := { Mover.sector true da o with pos := 64, out := [daOff da] })
      (congrArg Core.movQ (Dev.core_setCore ..)) rfl

end

/-! ### Atomics (R159, R266, R316) -/

theorem exec_amo_sends {s : State} {c : CoreId} {f : Fields} {op : AtomicOp} {sp : Spot} {n : Bool} {da : Word64} (hn : f.mod.getLsbD 4 = n)
    (hda : (s.dev.core c).ar f.a.toNat = da) (hl : f.legalR 32 16 32 32 false [] 0x1F = true) (hop : amoOp f = some op)
    (hc : op = .cas ∨ f.c = 0) (hi : s.issues c [f.d.toNat, f.b.toNat, f.c.toNat] [])
    (hacc : (s.dev.core c).access da (if n then 4 else 8) .atomic = .ok sp) (hsb : (s.dev.core c).sb = []) (hrt : sp.rt ≠ .device)
    (hfail : (s.dev.core c).failDa = none) (hrev : (s.dev.core c).isRevoked da = false) (hreg : isReg sp.dpa = false) :
    exec (.amo c f) s = .next ((s.withCore c { (s.dev.core c).counted with wait := .amo f.d.toNat n da }).sends (.req
      { (s.dev.core c).request c .atomic (sp.dpa / 64) da sp.rt (s.dev.issueStamp (quarterOfCore c)) with
        op := op, off := sp.dpa % 64, narrow := n, operand := (s.dev.core c).sr f.b.toNat, cmp := (s.dev.core c).sr f.c.toNat })) := by
  have hlegal : (f.legalR 32 16 32 32 false [] 0x1F && (amoOp f).isSome && (amoOp f = some .cas || f.c = 0)) = true := by
    simp only [hl, hop, Option.isSome_some, Option.some.injEq, Bool.true_and, Bool.or_eq_true, decide_eq_true_eq, hc]
  have hda' : (s.dev.core c).counted.ar f.a.toNat = da := hda
  have hsr : (s.dev.core c).counted.sr = (s.dev.core c).sr := rfl
  have hacc' : (s.dev.core c).counted.access da (if n then 4 else 8) .atomic = .ok sp := hacc
  have hsb' : (s.dev.core c).counted.sb = [] := hsb
  have hfail' : (s.dev.core c).counted.failDa = none := hfail
  have hrev' : (s.dev.core c).counted.isRevoked da = false := hrev
  show execAmo c f s = _
  have hgo : s.dev.amoGo (s.issued c) c op n f.d.toNat da ((s.dev.core c).sr f.b.toNat) ((s.dev.core c).sr f.c.toNat) =
      ((s.issued c).updCore c fun z => { z with wait := .amo f.d.toNat n da }).coreReq c .atomic (sp.dpa / 64) da sp.rt fun m =>
        { m with op := op, off := sp.dpa % 64, narrow := n, operand := (s.dev.core c).sr f.b.toNat, cmp := (s.dev.core c).sr f.c.toNat } := by
    simp only [Dev.amoGo, State.issued_core, hacc', hsb', hrt, hfail', hrev', hreg, List.isEmpty_nil, Bool.not_true, decide_false,
      Bool.false_and, Bool.or_self, Bool.false_eq_true, if_false]
  rw [execAmo, State.issue_issued hlegal hi, hop, hda', hsr, show amoNarrow f = n from hn]
  dsimp only
  rw [hgo, Dev.updCore, State.issued_core, State.issued, Dev.setCore_setCore, Dev.coreReq_setCore]
  rfl

theorem and_allOnes_low (x : Word64) : x &&& 0x00000000FFFFFFFF#64 = BitVec.ofNat 64 (x.toNat % 2 ^ 32) := by
  apply BitVec.eq_of_toNat_eq
  rw [BitVec.toNat_and, toNat_ofNat_of_lt (Nat.mod_lt _ (by decide)) (by decide : 32 ≤ 64)]
  exact Nat.and_two_pow_sub_one_eq_mod x.toNat 32

theorem exec_atomrsp_amo {s : State} {m : RspMsg} {reg : Nat} {n : Bool} {da : Word64} (hkind : m.kind = .atomRsp)
    (hcore : isCore m.dst = true) (hheld : s.dev.partHeld m.dst = false) (hw : (s.dev.core m.dst).wait = .amo reg n da)
    (hpoison : m.info.poison = false) :
    exec (.atomrsp m) s = .next ((s.withDev (s.dev.taken (.rsp m))).withCore m.dst
      { ({ s.dev.core m.dst with wait := .none } : Core).setS reg (if n then BitVec.ofNat 64 (m.old.toNat % 2 ^ 32) else m.old) with
        pc := (s.dev.core m.dst).pc + 8 }) := by
  have hm : ({ m with kind := .atomRsp } : RspMsg) = m := by rw [← hkind]
  have hheld' : (s.dev.taken (.rsp m)).partHeld m.dst = false := hheld
  have hw' : ((s.dev.taken (.rsp m)).core m.dst).wait = .amo reg n da := hw
  show execAtomrsp m s = _
  rw [execAtomrsp, hm]
  simp only [Dev.atomRspIn, hcore, hheld', hw', hpoison, and_allOnes_low, Bool.not_true, Bool.or_self, Bool.false_eq_true, if_false]
  rfl

end Sys2Proof.Machine

namespace Sys2Proof.Proofs

/-- Settles O15: the one piece of a one-sector transfer leaves at once, SFILL's as a read and Strue's as a full write. -/
theorem moverTransfers : Obligations.MoverTransfers := by
  intro s c f dpa k da o r hl hi hlen halign hfits hidle hrev htarget hdpa hsec
  have hmask : sectorsMask (dpa / 64 % 4) 1 = secMask (dpa / 64 % 4) := sectorsMask_one (Nat.mod_lt _ (by decide))
  exact ⟨fun hx => ⟨_, exec_sfill_sector rfl rfl hl hi hlen halign hfits hidle hrev htarget hdpa hsec hx, rfl, rfl, sector_div dpa, hmask⟩,
    fun hx => ⟨_, exec_sdump_sector rfl rfl hl hi hlen halign hfits hidle hrev htarget hdpa hsec hx, rfl, rfl, sector_div dpa, hmask, rfl⟩⟩

/-- Settles O16: AMO asks the home and waits, and ATOMRSP gives the register the old value. -/
theorem atomicsComplete : Obligations.AtomicsComplete := by
  refine ⟨fun s c f op sp hl hop hc hi hacc hsb hrt hfail hrev hreg => ?_, fun s m reg n da hkind hcore hheld hw hpoison =>
    exec_atomrsp_amo hkind hcore hheld hw hpoison⟩
  exact ⟨_, exec_amo_sends rfl rfl hl hop hc hi hacc hsb hrt hfail hrev hreg, rfl, rfl, rfl, sector_div sp.dpa, rfl, rfl, rfl, rfl⟩

end Sys2Proof.Proofs
end

section
/-! The store buffer's head leaves (R159, R264, R285, R309, R334): into the L1, to its home, into a register, or with a report. -/

open Sys2Proof Sys2Proof.Machine

namespace Sys2Proof.Machine

/-! ### A sector of a cache, written where it stands -/

theorem Map.any_put {α : Type} (p : α → Bool) (m : Map α) (k : Nat) {v : α} (hv : p v = true) :
    (Map.put m k v).any (fun q => p q.2) = true := by
  induction m with
  | nil => simp [Map.put, hv]
  | cons q rest ih =>
    rw [Map.put]
    split_ifs <;> simp [hv, ih]

@[simp] theorem CLine.setSec_line (l : CLine) (sec : Nat) (x : CSector) : (l.setSec sec x).line = l.line := rfl

theorem CLine.setSec_live (l : CLine) (sec : Nat) {x : CSector} (hx : x.st ≠ .I) : (l.setSec sec x).live = true :=
  Map.any_put (fun y : CSector => y.st != .I) l.sec sec (bne_iff_ne.mpr hx)

@[simp] theorem CLine.sector_setSec (l : CLine) (sec : Nat) (x : CSector) : (l.setSec sec x).sector sec = x := Map.get_put_same ..

/-- A live sector of the side buffer's line replaces the line's in the buffer. -/
theorem sideLine_written {side : List CLine} {line sec : Nat} {l : CLine} {x : CSector} (hl : side.find? (fun l => l.line = line) = some l)
    (hx : x.st ≠ .I) :
    ((side.map fun l => if l.line = line then l.setSec sec x else l).filter CLine.live).find? (fun l => l.line = line) =
      some (l.setSec sec x) := by
  induction side with
  | nil => cases hl
  | cons y ys ih =>
    by_cases hy : y.line = line
    · have hyl : y = l := by simpa [hy] using hl
      simp [hyl ▸ hy, hyl, CLine.setSec_live l sec hx]
    · have hys : ys.find? (fun l => l.line = line) = some l := by simpa [hy] using hl
      rw [List.map_cons, if_neg hy, List.filter_cons]
      split
      · rw [List.find?_cons_of_neg (by simpa using hy), ih hys]
      · exact ih hys

section
variable {d : Dev} {n line sec : Nat} {x : CSector}

/-- Two blocks that show the same of cache n. -/
structure Dev.SameCache (d e : Dev) (n : Nat) : Prop where
  ways : (e.cache n).ways = (d.cache n).ways
  side : (e.cache n).side = (d.cache n).side
  wide : (e.core (n - 256)).wide = (d.core (n - 256)).wide

theorem Dev.SameCache.trans {d e f : Dev} {n : Nat} (h : d.SameCache e n) (h' : e.SameCache f n) : d.SameCache f n :=
  ⟨h'.ways.trans h.ways, h'.side.trans h.side, h'.wide.trans h.wide⟩

theorem Dev.SameCache.placeOf {e : Dev} (h : d.SameCache e n) (line : Nat) : e.placeOf n line = d.placeOf n line := by
  simp only [Dev.placeOf, h.wide]

theorem Dev.SameCache.findWay {e : Dev} (h : d.SameCache e n) (line : Nat) : e.findWay n line = d.findWay n line := by
  simp only [Dev.findWay, Dev.wayLine, h.placeOf, h.ways]
  rfl

theorem Dev.SameCache.waySec {e : Dev} (h : d.SameCache e n) (line sec : Nat) : e.waySec n line sec = d.waySec n line sec := by
  simp only [Dev.waySec, h.findWay, Dev.wayLine, h.ways]

theorem Dev.SameCache.cacheSec {e : Dev} (h : d.SameCache e n) (line sec : Nat) : e.cacheSec n line sec = d.cacheSec n line sec := by
  simp only [Dev.cacheSec, h.waySec, Dev.sideLine, h.side]

theorem Dev.findWay_holds {key : Nat} (h : d.findWay n line = some key) : (d.wayLine n key).line = line ∧ (d.wayLine n key).live = true := by
  have := List.find?_some h
  simpa using this

theorem Dev.wayLine_written (key j : Nat) (l : CLine) :
    (d.updCache n fun k => { k with ways := Map.put k.ways key l }).wayLine n j = if j = key then l else d.wayLine n j := by
  rw [Dev.wayLine, Dev.cache_updCache]
  split
  · next h => rw [h, Map.get_put_same]
  · next h => exact Map.get_put_other _ _ _ _ _ h

/-- The way that holds a line still holds it after a sector of it is written. -/
theorem Dev.findWay_written {key : Nat} (h : d.findWay n line = some key) (hx : x.st ≠ .I) :
    (d.updCache n fun k => { k with ways := Map.put k.ways key ((d.wayLine n key).setSec sec x) }).findWay n line = some key := by
  obtain ⟨hline, hlive⟩ := Dev.findWay_holds h
  have hpred : ∀ j, (decide (((d.updCache n fun k => { k with ways := Map.put k.ways key ((d.wayLine n key).setSec sec x) }).wayLine n j).line
      = line) && ((d.updCache n fun k => { k with ways := Map.put k.ways key ((d.wayLine n key).setSec sec x) }).wayLine n j).live) =
      (decide ((d.wayLine n j).line = line) && (d.wayLine n j).live) := fun j => by
    rw [Dev.wayLine_written]
    split
    · next hj => rw [hj, CLine.setSec_line, CLine.setSec_live _ _ hx, hlive]
    · rfl
  rw [← h, Dev.findWay, Dev.findWay, funext hpred]
  rfl

/-- The side buffer's line with a sector written. -/
def Cache.setSide (k : Cache) (line sec : Nat) (x : CSector) : Cache :=
  { k with side := (k.side.map fun l => if l.line = line then l.setSec sec x else l).filter CLine.live }

/-- A sector that stands in the ways is replaced there. -/
theorem Dev.cacheSec_cacheSet_way (hst : (d.waySec n line sec).st ≠ .I) (hx : x.st ≠ .I) :
    (d.cacheSet n line sec x).cacheSec n line sec = x := by
  cases hf : d.findWay n line with
  | none => rw [Dev.waySec, hf] at hst; exact absurd rfl hst
  | some key =>
    have hsec : ((d.wayLine n key).sector sec).st ≠ .I := by rwa [Dev.waySec, hf] at hst
    have hset : d.cacheSet n line sec x =
        d.updCache n fun k => { k with ways := Map.put k.ways key ((d.wayLine n key).setSec sec x) } := by
      simp only [Dev.cacheSet, hf, hsec, decide_false, Bool.false_and, Bool.false_eq_true, if_false]
    have hway : (d.cacheSet n line sec x).waySec n line sec = x := by
      rw [hset, Dev.waySec, Dev.findWay_written hf hx]
      dsimp only
      rw [Dev.wayLine_written, if_pos rfl, CLine.sector_setSec]
    rw [Dev.cacheSec, hway]
    simp [hx]

/-- A sector that stands in the side buffer alone is replaced there. -/
theorem Dev.cacheSec_cacheSet_side {l : CLine} (hway : (d.waySec n line sec).st = .I) (hl : d.sideLine n line = some l)
    (hst : (l.sector sec).st ≠ .I) (hx : x.st ≠ .I) : (d.cacheSet n line sec x).cacheSec n line sec = x := by
  have hset : d.cacheSet n line sec x = d.updCache n fun k => k.setSide line sec x := by
    cases hf : d.findWay n line with
    | none => simp only [Dev.cacheSet, hf]; rfl
    | some key =>
      have hsec : ((d.wayLine n key).sector sec).st = .I := by rwa [Dev.waySec, hf] at hway
      simp [Dev.cacheSet, hf, hl, hsec, hst, Cache.setSide]
  have hsame : (d.updCache n fun k => k.setSide line sec x).waySec n line sec = d.waySec n line sec := by
    simp only [Dev.waySec, Dev.findWay, Dev.wayLine, Dev.cache_updCache]
    rfl
  have hside : (d.updCache n fun k => k.setSide line sec x).sideLine n line = some (l.setSec sec x) := by
    rw [Dev.sideLine, Dev.cache_updCache]
    exact sideLine_written hl hx
  rw [hset, Dev.cacheSec, hsame, hside]
  simp [hway]

/-- A sector that stands in cache n is replaced where it stands. -/
theorem Dev.cacheSec_cacheSet (hst : (d.cacheSec n line sec).st ≠ .I) (hx : x.st ≠ .I) :
    (d.cacheSet n line sec x).cacheSec n line sec = x := by
  by_cases hway : (d.waySec n line sec).st = .I
  · cases hl : d.sideLine n line with
    | none => simp [Dev.cacheSec, hl, hway] at hst
    | some l => exact Dev.cacheSec_cacheSet_side hway hl (by simpa [Dev.cacheSec, hl, hway] using hst) hx
  · exact Dev.cacheSec_cacheSet_way hway hx

end
/-! ### The head performed in the L1 (R264) -/

theorem Dev.takeInject_snd (d : Dev) (parts : List Nat) (checker : Nat) :
    (d.takeInject parts checker).2.caches = d.caches ∧ (d.takeInject parts checker).2.cores = d.cores := by
  rw [Dev.takeInject]
  dsimp only
  split <;> exact ⟨rfl, rfl⟩

theorem Dev.SameCache.of_parts {d e : Dev} (n : Nat) (hcaches : e.caches = d.caches) (hcores : e.cores = d.cores) : d.SameCache e n := by
  constructor <;> simp only [Dev.cache, Dev.core, hcaches, hcores]

theorem Dev.SameCache.setCore {d : Dev} {c : Nat} {k : Core} (hw : k.wide = (d.core c).wide) (n : Nat) : d.SameCache (d.setCore c k) n := by
  refine ⟨rfl, rfl, ?_⟩
  by_cases h : n - 256 = c
  · rw [h, Dev.core_setCore, hw]
  · rw [Dev.core_setCore_other _ _ _ _ h]

theorem Dev.SameCache.streaming (d : Dev) (n : Nat) (b : Bool) : d.SameCache (d.updCache n fun x => { x with streaming := b }) n := by
  constructor
  · rw [Dev.cache_updCache]
  · rw [Dev.cache_updCache]
  · rfl

theorem Dev.SameCache.updCore {d : Dev} {c : Nat} {f : Core → Core} (hw : (f (d.core c)).wide = (d.core c).wide) (n : Nat) :
    d.SameCache (d.updCore c f) n := .setCore hw n

/-- The detector's count after an entry; with eight lines the L1 is streaming. -/
def Dev.runTo (d : Dev) (c run sector : Nat) : Dev :=
  let d1 := d.updCore c fun y => { y with sdRun := run, sdNext := sector + 1, sdStart := if run ≤ 1 then sector else y.sdStart }
  if run = 32 then d1.updCache (l1No c) fun x => { x with streaming := true } else d1

theorem Dev.runTo_sameCache (d : Dev) (c run sector : Nat) : d.SameCache (d.runTo c run sector) (l1No c) := by
  rw [Dev.runTo]
  split
  · exact (Dev.SameCache.updCore rfl _).trans (.streaming ..)
  · exact .updCore rfl _

theorem Dev.core_updCache (d : Dev) (n c : Nat) (f : Cache → Cache) : (d.updCache n f).core c = d.core c := rfl

theorem Dev.runTo_status (d : Dev) (c run sector : Nat) : ((d.runTo c run sector).core c).status = (d.core c).status := by
  rw [Dev.runTo]
  split
  · rw [Dev.core_updCache, Dev.core_updCore]
  · rw [Dev.core_updCore]

theorem Dev.detect_sameCache (d : Dev) (c : Nat) (e : StoreEntry) : d.SameCache (d.detect c e) (l1No c) := by
  rw [Dev.detect]
  dsimp only
  split
  · exact .updCore rfl _
  split
  · exact .updCore rfl _
  · exact d.runTo_sameCache c _ e.sector

theorem Dev.detect_status (d : Dev) (c : Nat) (e : StoreEntry) : ((d.detect c e).core c).status = (d.core c).status := by
  rw [Dev.detect]
  dsimp only
  split
  · rw [Dev.core_updCore]
  split
  · rw [Dev.core_updCore]
  · exact d.runTo_status c _ e.sector

/-- While its core has not stopped, the head leaves and that is all. -/
theorem Dev.popStore_live {d : Dev} {c : Nat} (h : (d.core c).status ≠ .stopped) :
    d.popStore c = d.updCore c fun k => { k with sb := k.sb.drop 1 } := by
  rw [Dev.popStore, if_neg]
  rwa [Dev.core_updCore]

theorem Dev.popStore_sameCache {d : Dev} {c : Nat} (h : (d.core c).status ≠ .stopped) (n : Nat) : d.SameCache (d.popStore c) n := by
  rw [Dev.popStore_live h]
  exact .updCore rfl n

@[simp] theorem Dev.cacheSet_cores (d : Dev) (n line sec : Nat) (x : CSector) : (d.cacheSet n line sec x).cores = d.cores := by
  unfold Dev.cacheSet
  cases d.findWay n line with
  | none => rfl
  | some key => dsimp only; rw [apply_ite Dev.cores]; exact ite_self _

/-- The sector that a store is performed in. -/
def Dev.performed (d : Dev) (c : Nat) (e : StoreEntry) : CSector :=
  let x := d.cacheSec (l1No c) (e.sector / 4) (e.sector % 4)
  { st := .M, data := (mergeWrite x.data x.info e.data e.mask false).1, info := (mergeWrite x.data x.info e.data e.mask false).2
    err := (d.takeInject [c] 1).1 }

/-- A store performed in the L1 leaves its sector there in M, merged. -/
theorem Dev.cacheSec_performStore {d : Dev} {c : Nat} {e : StoreEntry}
    (hst : (d.cacheSec (l1No c) (e.sector / 4) (e.sector % 4)).st ≠ .I) (hlive : (d.core c).status ≠ .stopped) :
    (d.performStore c e).cacheSec (l1No c) (e.sector / 4) (e.sector % 4) = d.performed c e := by
  obtain ⟨hcaches, hcores⟩ := d.takeInject_snd [c] 1
  have hinject : d.SameCache (d.takeInject [c] 1).2 (l1No c) := .of_parts _ hcaches hcores
  have hset := Dev.cacheSec_cacheSet (x := d.performed c e) (by rwa [← hinject.cacheSec] at hst) (by decide : MState.M ≠ .I)
  have hstatus : ((((d.takeInject [c] 1).2.cacheSet (l1No c) (e.sector / 4) (e.sector % 4) (d.performed c e)).l1Touch c
      (e.sector / 4)).core c).status = (d.core c).status := by
    rw [Dev.l1Touch, Dev.core_updCore]
    simp only [Dev.core, Dev.cacheSet_cores, hcores]
  have hafter : ((d.takeInject [c] 1).2.cacheSet (l1No c) (e.sector / 4) (e.sector % 4) (d.performed c e)).SameCache
      (d.performStore c e) (l1No c) :=
    ((Dev.SameCache.updCore rfl _).trans (Dev.detect_sameCache ..)).trans
      (Dev.popStore_sameCache (by rw [Dev.detect_status]; exact hstatus ▸ hlive) _)
  rw [hafter.cacheSec, hset]

theorem Sector.byte_merge (a b : Sector) (mask : Word64) {i : Nat} (hi : i < 64) :
    Sector.byte (Sector.merge a b mask) i = if mask.getLsbD i then Sector.byte b i else Sector.byte a i := by
  rw [Sector.byte, Sector.lane_merge _ _ _ hi]
  split <;> rfl

/-- Byte i after a write under a mask: of the write where the mask takes it. -/
theorem byte_mergeWrite (old x : Sector) (oi : SectorMeta) (mask : Word64) {i : Nat} (hi : i < 64) :
    Sector.byte (mergeWrite old oi x mask false).1 i = if mask.getLsbD i then Sector.byte x i else Sector.byte old i := by
  rw [mergeWrite]
  by_cases h : mask = BitVec.allOnes 64
  · have hall : mask.getLsbD i = true := by rw [h, BitVec.getLsbD_allOnes, decide_eq_true hi]
    rw [if_pos h, if_pos hall]
    rfl
  · simp only [h, Bool.false_eq_true, if_false]
    exact Sector.byte_merge old x mask hi

/-! ### The ways the head leaves -/

section
variable {d : Dev} {c : Nat} {e : StoreEntry} {rest : List StoreEntry}

theorem Dev.storeDrain_empty (h : (d.core c).sb = []) : d.storeDrain c = d := by
  rw [Dev.storeDrain, h]
  rfl

section
variable (hsb : (d.core c).sb = e :: rest) (hheld : d.partHeld c = false)
include hsb hheld

theorem Dev.storeDrain_normal (hrt : e.rt = .normal) : d.storeDrain c = d.drainNormal c e := by
  rw [Dev.storeDrain, hsb]
  simp only [List.head?_cons, hheld, hrt, Bool.false_eq_true, if_false]

theorem Dev.storeDrain_device (hrt : e.rt = .device) : d.storeDrain c = d.drainDevice c e := by
  rw [Dev.storeDrain, hsb]
  simp only [List.head?_cons, hheld, hrt, Bool.false_eq_true, if_false]

theorem Dev.storeDrain_stream (hrt : e.rt = .stream) (hlive : (((d.streamEnd c).sendStore c e false).core c).status ≠ .stopped) :
    d.storeDrain c = (d.streamEnd c).sendStore c e false := by
  rw [Dev.storeDrain, hsb]
  simp only [List.head?_cons, hheld, hrt, hlive, Bool.false_eq_true, if_false]

end

/-- A DEVICE store to a register, with nothing before it, is made. -/
theorem Dev.drainDevice_register (hsettled : d.writesSettled c = true) (hout : e.out = false) (hreg : isReg (64 * e.sector) = true)
    (hfree : d.regSecHeld (64 * e.sector - regDpa) = false) :
    d.drainDevice c e = ((d.streamEnd c).writeRegSector e.sector e.data e.mask).popStore c := by
  simp only [Dev.drainDevice, hsettled, hout, hreg, hfree, Bool.not_true, Bool.and_false, Bool.false_eq_true, if_false, if_true]

/-- A store through a revoked segment changes nothing and is reported. -/
theorem Dev.drainNormal_revoked (hout : e.out = false) (hrev : (d.core c).isRevoked e.da = true) (hmiss : (d.core c).miss = none) :
    d.drainNormal c e = (d.noteFail c e.da).popStore c := by
  simp [Dev.drainNormal, hout, hrev, hmiss]

/-- A store to a sector that the ways hold in E or M is performed there. -/
theorem Dev.drainNormal_performs {x : CSector} (hx : d.cacheSec (l1No c) (e.sector / 4) (e.sector % 4) = x) (hout : e.out = false)
    (hrev : (d.core c).isRevoked e.da = false) (hserves : d.serves (l1No c) = true) (hpf : (d.core c).pfHas (e.sector / 4) = false)
    (hmiss : (d.core c).miss = none) (hstreaming : (d.cache (l1No c)).streaming = false) (hst : x.st = .E ∨ x.st = .M)
    (hway : d.waySec (l1No c) (e.sector / 4) (e.sector % 4) = x) (herr : x.err = 0) : d.drainNormal c e = d.performStore c e := by
  have hnot : ¬ x.st = .I := fun h => by rw [h] at hst; exact hst.elim nofun nofun
  have hcorrect : d.l1Correct c (e.sector / 4) (e.sector % 4) x = d := if_pos herr
  have hhas : (decide (x.st = .E) || decide (x.st = .M)) = true := by simpa using hst
  simp [Dev.drainNormal, hx, hout, hrev, hserves, hpf, hmiss, hstreaming, hnot, hway, herr, hcorrect, hst]

/-- The request that takes an entry to its home. -/
def Core.storeRequest (k : Core) (c : Nat) (e : StoreEntry) (issue : Word16) : ReqMsg :=
  { k.request c (if e.mask = BitVec.allOnes 64 then .wrFull else .wrPart) e.sector e.da e.rt issue with
    gen := e.gen, origin := .store, pay := [{ sec := e.sector % 4, data := e.data, info := .zero }]
    bmask := BitVec.ofNat 256 (e.mask.toNat * 2 ^ (64 * (e.sector % 4))) }

/-- A streaming entry leaves the buffer as a write to its home. -/
theorem Dev.sendStore_leaves (hsb : (d.core c).sb = e :: rest) : d.sendStore c e false =
    (d.setCore c { d.core c with
      writes := (d.core c).writes ++ [{ sector := e.sector, da := e.da, mover := false, done := false, kept := false }]
      sb := rest }).send (.req ((d.core c).storeRequest c e (d.issueStamp (quarterOfCore c)))) := by
  rw [Dev.sendStore, Dev.updCore, Dev.coreReq_setCore, hsb]
  rfl

theorem Dev.core_streamEnd (d : Dev) (c : Nat) : (d.streamEnd c).core c = { d.core c with sdRun := 0 } := by
  rw [Dev.streamEnd, Dev.core_updCore]
  rfl

end

end Sys2Proof.Machine

namespace Sys2Proof.Proofs

/-- Settles O28: the head goes into the L1, to its home, into a register, or is dropped with a report. -/
theorem storeBufferDrains : Obligations.StoreBufferDrains := by
  refine ⟨fun s c h => ?empty, fun s c e rest hsb hheld hlive => ⟨fun hrt => ?stream, fun hrt hsettled hout hreg hfree => ?device,
    fun hrt hout hrev hmiss => ?revoked, fun hrt hout hrev hserves hpf hmiss hstreaming hst hway herr => ?performed⟩,
    fun d c e hst hlive => ?merged⟩
  case empty => exact congrArg s.goes (Dev.storeDrain_empty h)
  case stream =>
    have hsb' : ((s.dev.streamEnd c).core c).sb = e :: rest := by rw [Dev.core_streamEnd]; exact hsb
    have hsent := Dev.sendStore_leaves hsb'
    have hgo : ((((s.dev.streamEnd c).sendStore c e false).core c).status) ≠ .stopped := by
      rw [hsent]
      show (((s.dev.streamEnd c).setCore c _).core c).status ≠ _
      rw [Dev.core_setCore, Dev.core_streamEnd]
      exact hlive
    have hwrites : ((s.dev.streamEnd c).core c).writes = (s.dev.core c).writes := by rw [Dev.core_streamEnd]
    refine ⟨_, (congrArg s.goes ((Dev.storeDrain_stream hsb hheld hrt hgo).trans hsent)).trans (by rw [hwrites]; rfl),
      rfl, rfl, rfl, rfl, rfl⟩
  case device =>
    exact congrArg s.goes ((Dev.storeDrain_device hsb hheld hrt).trans (Dev.drainDevice_register hsettled hout hreg hfree))
  case revoked =>
    exact congrArg s.goes ((Dev.storeDrain_normal hsb hheld hrt).trans (Dev.drainNormal_revoked hout hrev hmiss))
  case performed =>
    exact congrArg s.goes ((Dev.storeDrain_normal hsb hheld hrt).trans
      (Dev.drainNormal_performs rfl hout hrev hserves hpf hmiss hstreaming hst hway herr))
  case merged =>
    intro y
    have hy : y = d.performed c e := Dev.cacheSec_performStore hst hlive
    rw [hy]
    exact ⟨rfl, fun i hi => byte_mergeWrite _ e.data (d.cacheSec (l1No c) (e.sector / 4) (e.sector % 4)).info e.mask hi⟩

end Sys2Proof.Proofs
end

section
/-! Kernels (R69, R74, R154, R164-R167, R179): placement, a team's start, the registers a core starts with, the launch stagger and
the retirement of cores. -/

open Sys2Proof Sys2Proof.Machine

namespace Sys2Proof.Machine

/-! ### A core prepared for launch (R154) -/

section
variable (d : Dev) (r : Run) (team rank c : Nat) (pre : List Byte)

/-- What the image and the launch say of a prepared core beside its registers. -/
theorem Dev.prepCore_launch : let k := (d.prepCore r team rank c pre).core c
    k.status = .reserved ∧ k.pc = hdrEntry r.header ∧ k.codeSize = hdrCodeSize r.header ∧ k.exact = hdrExact r.header ∧
      k.wide = hdrWide r.header ∧ k.ctx = r.ctx ∧ k.team = some team ∧ k.rank = rank := by
  rw [Dev.prepCore]
  dsimp only
  rw [Dev.core_updCore, Core.putScratch_eq]
  exact ⟨rfl, rfl, rfl, rfl, rfl, rfl, rfl, rfl⟩

/-- The register files of a prepared core: six values and nothing else. -/
theorem Dev.prepCore_files : let k := (d.prepCore r team rank c pre).core c
    k.s = [(0, BitVec.ofNat 64 rank), (1, BitVec.ofNat 64 (kTeam r.w)), (2, BitVec.ofNat 64 (d.logical c)), (3, qWord r.w 6)] ∧
      k.a = [(0, qWord r.w 2), (1, qWord r.w 3)] ∧ k.p = [] ∧ k.v = [] ∧ k.t = [] ∧ k.accF = [] ∧ k.accX = [] := by
  rw [Dev.prepCore]
  dsimp only
  rw [Dev.core_updCore, Core.putScratch_eq]
  exact ⟨rfl, rfl, rfl, rfl, rfl, rfl, rfl⟩

end

/-- A file of rising registers below one holds its default there. -/
theorem Map.get_of_lt {α : Type} (a : α) {m : Map α} {n : Nat} (h : ∀ p ∈ m, p.1 < n) : Map.get a m n = a := by
  induction m with
  | nil => rfl
  | cons p rest ih =>
    have hp := h p List.mem_cons_self
    rw [Map.get, if_neg (by omega), if_neg (by omega)]
    exact ih fun q hq => h q (List.mem_cons_of_mem _ hq)

/-! ### The launch stagger (R69, R74) -/

/-- A reserved core starts. -/
def Dev.startCore (d : Dev) (c : Nat) : Dev :=
  if (d.core c).status = .reserved then d.updCore c fun k => { k with status := .running } else d

/-- A core runs if it was reserved. -/
def Core.started (k : Core) : Core := if k.status = .reserved then { k with status := .running } else k

@[simp] theorem Core.started_started (k : Core) : k.started.started = k.started := by
  by_cases h : k.status = .reserved <;> simp [Core.started, h]

theorem Dev.core_startCore (d : Dev) (c j : Nat) : (d.startCore c).core j = if j = c then (d.core j).started else d.core j := by
  by_cases hj : j = c
  · rw [if_pos hj, hj, Dev.startCore, Core.started]
    split
    · rw [Dev.core_updCore]
    · rfl
  · rw [if_neg hj, Dev.startCore]
    split
    · exact Dev.core_setCore_other _ _ _ _ hj
    · rfl

/-- After a window each of its cores has started and no other. -/
theorem Dev.core_startCores (d : Dev) (cs : List Nat) (j : Nat) :
    (cs.foldl Dev.startCore d).core j = if j ∈ cs then (d.core j).started else d.core j := by
  induction cs generalizing d with
  | nil => rfl
  | cons c cs ih =>
    rw [List.foldl_cons, ih, Dev.core_startCore]
    by_cases hc : j = c
    · simp [hc]
    · simp [hc]

/-- How far the waiting cores are let on: up to the first whose launch allows no more. -/
theorem Dev.staggerFit_spec (d : Dev) (cs : List Nat) (n : Nat) : n ≤ d.staggerFit cs n ∧ d.staggerFit cs n ≤ n + cs.length ∧
    ∀ i c, cs[i]? = some c → (n + i < d.staggerFit cs n → n + i < d.staggerOf c) ∧
      (n + i = d.staggerFit cs n → d.staggerOf c ≤ d.staggerFit cs n) := by
  induction cs generalizing n with
  | nil => exact ⟨Nat.le_refl n, Nat.le_refl n, nofun⟩
  | cons x xs ih =>
    rw [Dev.staggerFit]
    split
    · next hfit =>
      obtain ⟨hlow, hhigh, hall⟩ := ih (n + 1)
      refine ⟨by omega, by rw [List.length_cons]; omega, fun i c hi => ?_⟩
      cases i with
      | zero =>
        obtain rfl : x = c := by simpa using hi
        exact ⟨fun _ => hfit, fun h => by omega⟩
      | succ i =>
        have := hall i c (by simpa using hi)
        rwa [show n + (i + 1) = n + 1 + i by omega]
    · next hstop =>
      refine ⟨Nat.le_refl n, Nat.le_add_right .., fun i c hi => ⟨fun h => by omega, fun h => ?_⟩⟩
      obtain rfl : i = 0 := by omega
      obtain rfl : x = c := by simpa using hi
      exact Nat.not_lt.mp hstop

/-- Cores, and then restarts of tile units, that a window starts. -/
def Dev.windowCores (d : Dev) (q : Nat) : Nat := d.staggerFit (d.qr q).stagger 0
def Dev.windowRestarts (d : Dev) (q : Nat) : Nat :=
  (if d.windowCores q < (d.qr q).stagger.length then d.windowCores q else d.staggerFit (d.qr q).restart (d.windowCores q)) - d.windowCores q

section
variable (d : Dev) (q : Nat)

theorem Dev.windowCores_le : d.windowCores q ≤ (d.qr q).stagger.length := by
  obtain ⟨-, hhigh, -⟩ := d.staggerFit_spec (d.qr q).stagger 0
  rwa [Nat.zero_add] at hhigh

theorem Dev.windowCores_spec (i c : Nat) (hi : (d.qr q).stagger[i]? = some c) :
    (i < d.windowCores q → i < d.staggerOf c) ∧ (i = d.windowCores q → d.staggerOf c ≤ d.windowCores q) := by
  obtain ⟨-, -, hall⟩ := d.staggerFit_spec (d.qr q).stagger 0
  have hspec := hall i c hi
  rwa [Nat.zero_add] at hspec

/-- Cores that wait come before restarts. -/
theorem Dev.windowRestarts_none (h : d.windowCores q < (d.qr q).stagger.length) : d.windowRestarts q = 0 := by
  rw [Dev.windowRestarts, if_pos h, Nat.sub_self]

theorem Dev.windowRestarts_eq (h : d.windowCores q = (d.qr q).stagger.length) :
    d.windowCores q + d.windowRestarts q = d.staggerFit (d.qr q).restart (d.windowCores q) := by
  obtain ⟨hlow, -, -⟩ := d.staggerFit_spec (d.qr q).restart (d.windowCores q)
  rw [Dev.windowRestarts, if_neg (Nat.not_lt.mpr h.ge), Nat.add_sub_cancel' hlow]

theorem Dev.windowRestarts_le : d.windowRestarts q ≤ (d.qr q).restart.length := by
  obtain ⟨-, hhigh, -⟩ := d.staggerFit_spec (d.qr q).restart (d.windowCores q)
  rcases Nat.lt_or_eq_of_le (d.windowCores_le q) with h | h
  · rw [d.windowRestarts_none q h]
    exact Nat.zero_le _
  · rw [← d.windowRestarts_eq q h] at hhigh
    exact Nat.le_of_add_le_add_left hhigh

theorem Dev.windowRestarts_spec (h : d.windowCores q = (d.qr q).stagger.length) (i c : Nat) (hi : (d.qr q).restart[i]? = some c) :
    (i < d.windowRestarts q → d.windowCores q + i < d.staggerOf c) ∧
      (i = d.windowRestarts q → d.staggerOf c ≤ d.windowCores q + d.windowRestarts q) := by
  obtain ⟨-, -, hall⟩ := d.staggerFit_spec (d.qr q).restart (d.windowCores q)
  have hspec := hall i c hi
  rwa [← d.windowRestarts_eq q h, Nat.add_lt_add_iff_left, Nat.add_left_cancel_iff] at hspec

end

theorem Dev.staggerWindow_eq (d : Dev) (q : Nat) : d.staggerWindow q =
    (((d.qr q).stagger.take (d.windowCores q)).foldl Dev.startCore d).setQ q { d.qr q with
      stagger := (d.qr q).stagger.drop (d.windowCores q), restart := (d.qr q).restart.drop (d.windowRestarts q) } := rfl

theorem Dev.core_staggerWindow (d : Dev) (q c : Nat) : (d.staggerWindow q).core c =
    if c ∈ (d.qr q).stagger.take (d.windowCores q) ∧ (d.core c).status = .reserved then { d.core c with status := .running } else d.core c := by
  rw [Dev.staggerWindow_eq]
  refine (Dev.core_startCores d _ c).trans ?_
  rw [ite_and]
  rfl

/-! ### A team's start (R167) -/

/-- Core p.2 is prepared as rank p.1 and waits in its quarter's start order. -/
def Dev.prepInOrder (r : Run) (pre : List Byte) (e : Dev) (p : Nat × Nat) : Dev :=
  (e.prepCore r r.seq p.1 p.2 pre).updQ (quarterOfCore p.2) fun q => { q with stagger := q.stagger ++ [p.2] }

theorem teamStart_starts {d d2 : Dev} {r : Run} {id : DescId} {h : List HostAnswer} {cs : List Nat} {pre : List Byte}
    (hfirst : d.kernelOrder.head? = some r) (hid : r.id = id) (hasked : r.count 20 ≠ 0) (hpick : d.pickCores r = some cs)
    (hbar : qWord r.w 3 = 0)
    (hreads : d.reads (r.segsBy mgmtAgent r.ctx h) (qWord r.w 1) (hdrPreOff r.header) (hdrPreSize r.header) pre d2) :
    d.teamStartCmd id h =
      let y := ((List.range cs.length).zip cs).foldl (Dev.prepInOrder r pre) d2
      let z := y.updRun id fun u => { u with stage := .running, team := some r.seq, waited := satBits 32 (y.now - u.fetched).toNat }
      { z with
        cmap := { z.cmap with launched := z.cmap.launched + 1 }
        teams := Map.put z.teams r.seq { desc := id, cores := cs, ctx := r.ctx, barrier := 0, dump := qWord r.w 4, stop := 0 } } := by
  obtain ⟨m, hread⟩ := hreads
  have hread' : readDa (fun s => r.acc mgmtAgent r.ctx s h) (qWord r.w 1) (hdrPreOff r.header) (hdrPreSize r.header) d =
    .ok (.ok (pre, false, m), d2) := hread
  refine Dev.engine_ok ?_
  rw [teamStart, Eng.get_bind, hfirst]
  simp only [hid, hasked, hpick, hbar, ne_eq, not_true_eq_false, decide_false, Bool.or_self, Bool.false_eq_true, if_false, if_true]
  rw [Eng.bind_ok (Eng.pure_apply none)]
  dsimp only
  rw [Eng.bind_ok hread']
  rfl

end Sys2Proof.Machine

namespace Sys2Proof.Proofs

/-- Settles O27: six registers and p0 are set, the others are zero, and a window only sets the core running. -/
theorem launchRegisters : Obligations.LaunchRegisters := by
  refine ⟨fun d r team rank c pre => ?_, fun s q c hrun hc hst => ?_⟩
  · obtain ⟨hstatus, hpc, hsize, hexact, hwide, hctx, hteam, hrank⟩ := d.prepCore_launch r team rank c pre
    obtain ⟨hs, ha, hp, hv, ht, hf, hx⟩ := d.prepCore_files r team rank c pre
    refine ⟨hstatus, hpc, hsize, hexact, hwide, hctx, hteam, hrank, ?_, ?_, ?_, ?_, ?_, ?_, fun n hn => ?_, fun n hn => ?_, rfl,
      fun n hn => ?_, fun n => ?_, fun n i => ?_, fun n i j => ⟨?_, ?_⟩⟩
    case refine_7 => rw [Core.sr, hs]; exact Map.get_of_lt _ (by simp; omega)
    case refine_8 => rw [Core.ar, ha]; exact Map.get_of_lt _ (by simp; omega)
    case refine_9 => rw [Core.pr, if_neg hn, hp]; rfl
    case refine_10 => rw [Core.vr, hv]; rfl
    case refine_11 => rw [Core.tileRow, ht]; rfl
    case refine_12 => rw [Core.accAt, hf]; rfl
    case refine_13 => rw [Core.accXAt, hx]; rfl
    case refine_1 | refine_2 | refine_3 | refine_4 => rw [Core.sr, hs]; rfl
    case refine_5 | refine_6 => rw [Core.ar, ha]; rfl
  · exact ⟨_, State.timed_next hrun rfl, (Dev.core_staggerWindow ..).trans (if_pos ⟨hc, hst⟩)⟩

/-- Settles O26: a kernel asks or ends, the first that fits takes its cores, a window starts them, and retired cores are recorded. -/
theorem kernelCommands : Obligations.KernelCommands := by
  refine ⟨fun s id r h hrun hlive htype hteam => ⟨fun hfits => ?asks, fun hfits => ?ends⟩,
    fun s id r h cs pre d2 hfirst hid hasked hpick hbar hreads => ?starts,
    fun s q hrun => ?window, fun s w => ⟨fun hc hr hf => ?retired, fun hnot => ?stays⟩⟩
  case asks =>
    exact congrArg s.goes (by simp [Dev.kernel, hrun, hlive, htype, hteam, hfits])
  case ends =>
    exact congrArg s.goes (by simp [Dev.kernel, hrun, hlive, htype, hteam, hfits])
  case starts => exact congrArg s.goes (teamStart_starts hfirst hid hasked hpick hbar hreads)
  case window =>
    exact ⟨_, _, _, State.timed_next hrun rfl, s.dev.windowCores_le q, s.dev.windowRestarts_le q, s.dev.windowRestarts_none q,
      s.dev.windowCores_spec q, s.dev.windowRestarts_spec q, Dev.qr_setQ .., s.dev.core_staggerWindow q⟩
  case retired =>
    have hgo : s.dev.retireCore w.toNat =
        (({ s.dev with cmap := { s.dev.cmap with retired := insertNew w.toNat s.dev.cmap.retired } } : Dev).nvRecord
          (nvRepair (w.toNat / 68))).dropUnfit := by
      have hc' : ¬ 272 ≤ w.toNat := Nat.not_le.mpr hc
      simp [Dev.retireCore, hc', hr, hf, quarterOfCore]
    exact congrArg s.goes ((if_pos hc).trans hgo)
  case stays =>
    refine congrArg s.goes ?_
    by_cases hc : w.toNat < 272
    · have hc' : ¬ 272 ≤ w.toNat := Nat.not_le.mpr hc
      rw [if_pos hc]
      exact if_pos (by simpa [hc'] using hnot)
    · exact if_neg hc

end Sys2Proof.Proofs
end

section
/-! GSUB (R177, R364-R367): the descriptor a core hands over enters as a run, admitted or waiting, and the core goes on. -/

open Sys2Proof Sys2Proof.Machine

namespace Sys2Proof.Machine

/-! ### A GATHER enters (R364-R366) -/

section
variable {d : Dev} {id : DescId} {r : Run}

theorem Dev.run_of_runs {e : Dev} (h : e.cp.runs = d.cp.runs) (id : DescId) : e.run id = d.run id := by
  rw [Dev.run, Dev.run, h]

theorem Dev.run_addRun (h : d.run r.id = none) : (d.addRun r).run r.id = some r := by
  have hold : d.cp.runs.find? (fun x => x.id = r.id) = none := h
  show (d.cp.runs ++ [r]).find? (fun x => x.id = r.id) = some r
  rw [List.find?_append, hold]
  simp

theorem Dev.onAdmit_gather (h : d.run id = some r) (hty : descType r.w = tyGather) :
    d.onAdmit id = d.updRun id fun y => y.setCount rcSetting (d.od 0x280004 64) := by
  rw [Dev.onAdmit, h]
  dsimp only
  rw [hty]
  rfl

/-- A descriptor's work has been taken over: it waits for admission or is admitted, and no core has changed. -/
def Dev.Entered (d e : Dev) (id : DescId) (w : List Word64) : Prop :=
  e.cores = d.cores ∧ ∃ r, e.run id = some r ∧ r.w = w ∧ r.stage ≠ .ended

/-- The admission of a GATHER changes its run alone. -/
theorem Dev.admitRun_gather (h : d.run id = some r) (hty : descType r.w = tyGather) (delayed : Bool) :
    d.Entered (d.admitRun id delayed) id r.w := by
  have hadmit : ∃ (e : Dev) (r1 : Run), d.admitRun id delayed = e.onAdmit id ∧ e.cores = d.cores ∧ e.run id = some r1 ∧ r1.w = r.w ∧
      r1.stage = .admitted := by
    refine ⟨_, _, rfl, rfl, (Dev.run_of_runs (d := d.updRun id _) rfl id).trans (Dev.run_updRun_same ?_ h), rfl, rfl⟩
    exact fun _ hx => hx
  obtain ⟨e, r1, he, hcores, hrun, hw, hstage⟩ := hadmit
  rw [he, Dev.onAdmit_gather hrun (by rw [hw, hty])]
  refine ⟨hcores, r1.setCount rcSetting (e.od 0x280004 64), Dev.run_updRun_same (fun _ hx => hx) hrun, hw, ?_⟩
  rw [show (r1.setCount rcSetting (e.od 0x280004 64)).stage = r1.stage from rfl, hstage]
  decide

/-- A GATHER that passed its checks, of a class that waits, is taken over. -/
theorem Dev.enterRun_gather (hfree : d.run r.id = none) (hty : descType r.w = tyGather) (hcls : r.cls ≠ 2) (hstage : r.stage ≠ .ended) :
    d.Entered (d.enterRun r none) r.id r.w := by
  have hfence : descType r.w ≠ tyFence := by rw [hty]; decide
  have hepoch : descType r.w ≠ tyEpoch := by rw [hty]; decide
  have hadd : (d.addRun { r with charged := d.charges r.w r.param }).run r.id = some { r with charged := d.charges r.w r.param } :=
    Dev.run_addRun (r := { r with charged := d.charges r.w r.param }) hfree
  have hnot : (decide (descType r.w = tyFence) || decide (descType r.w = tyEpoch)) = false := by simp [hfence, hepoch]
  rw [Dev.enterRun]
  dsimp only
  rw [hnot, if_neg Bool.false_ne_true, if_neg hcls]
  split
  · exact Dev.admitRun_gather hadd hty false
  · exact ⟨rfl, _, hadd, rfl, hstage⟩

/-- While the run of a GSUB has not ended its record is not due. -/
theorem Dev.gsubDone_unended (h : d.run id = some r) (hstage : r.stage ≠ .ended) (c : Nat) : d.gsubDone c id = d := by
  have hundef : d.undefOuts id = d := Dev.engine_ok (by
    rw [gatherUndef, Eng.get_bind, h]
    simp only [Run.undefDue, hstage, decide_false, Bool.and_false, Bool.false_and, Bool.not_false, if_true]
    rfl)
  rw [Dev.gsubDone, hundef, h]
  dsimp only
  cases (d.core c).gsubs.find? fun g => g.index = id.index with
  | none => rfl
  | some g => simp only [hstage, decide_false, Bool.false_and, Bool.false_eq_true, if_false]

end

/-! ### GSUB (R177) -/

/-- Only a GATHER image passes the checks. -/
theorem gsubCheck_gather {w : List Word64} {ctx : Nat} {d d1 : Dev} {ck : Checked} (h : gsubCheck w ctx d = .ok (.ok ck, d1)) :
    descType w = tyGather := by
  by_contra hty
  have hbad : (decide (descType w ≠ tyGather) || decide (qBits w 0 48 8 ≠ 0) || decide (qBits w 0 16 16 ≠ 0)) = true := by simp [hty]
  rw [gsubCheck, if_pos hbad] at h
  cases h

/-- A core that has handed over one more GSUB and goes on. -/
def Core.withGsub (k : Core) (g : Gsub) : Core := { k.next with gsubs := k.gsubs ++ [g] }

/-- A GSUB whose checks pass stands outstanding at its core, which goes on, and its run has entered. -/
theorem Dev.gsubGo_enters {base d d1 : Dev} {c o out rc : Nat} {k : Core} {w : List Word64} {ck : Checked} (hk : d.core c = k)
    (hw : gsubWords (bytesWords 8 (k.scratchBytes o 64)) (quarterOfCore c) = w) (hgsubs : k.gsubs = [])
    (himage : o + 64 ≤ k.scratchSize) (hrecord : rc + 32 ≤ k.scratchSize) (hout : out + d.gsubLen w k.ctx ≤ k.scratchSize)
    (hcheck : gsubCheck w k.ctx d = .ok (.ok ck, d1)) (hcls : k.cls ≠ 2) (hnone : d1.run { queue := gsubQueue c, index := 0 } = none) :
    (d1.updCore c fun y => y.withGsub { index := 0, output := out, len := d.gsubLen w k.ctx, record := rc }).Entered
      (base.gsubGo d c o out rc) { queue := gsubQueue c, index := 0 } w := by
  let d2 := d1.updCore c fun y => y.withGsub { index := 0, output := out, len := d.gsubLen w k.ctx, record := rc }
  have hentered : d2.Entered (d2.enterRun ((mkRun { queue := gsubQueue c, index := 0 } w k.ctx k.cls d2.now ck).setCount 11 out) none) _ w :=
    Dev.enterRun_gather hnone (gsubCheck_gather hcheck) hcls nofun
  have hfits : (decide (k.scratchSize < o + 64) || decide (k.scratchSize < rc + 32)) = false := by
    simp only [Bool.or_eq_false_iff, decide_eq_false_iff_not]
    omega
  obtain ⟨-, r, hr, -, hstage⟩ := id hentered
  have hfirst : (List.range 4).find? (fun i => !(([] : List Gsub).any fun g => g.index = i)) = some 0 := by decide
  unfold Dev.gsubGo
  rw [hk]
  dsimp only
  rw [hfits, if_neg Bool.false_ne_true, hw, if_neg (Nat.not_lt.mpr hout), hgsubs, hfirst]
  dsimp only
  rw [hcheck]
  exact (congrArg (fun e => Dev.Entered d2 e _ w) (Dev.gsubDone_unended hr hstage c)).mpr hentered

end Sys2Proof.Machine

namespace Sys2Proof.Proofs

/-- Settles O17: the image enters as a run, and the core goes on with one GSUB outstanding. -/
theorem gsubStarts : Obligations.GsubStarts := by
  intro s c f ck d1 k o out rc d w hl hi hgsubs himage hrecord hout hcheck hcls hfree hrun
  obtain ⟨hcores, r, hr, hw, -⟩ := Dev.gsubGo_enters (base := s.dev) (s.issued_core c) rfl hgsubs himage hrecord hout hcheck hcls hrun
  have hcore : (s.dev.gsubGo (s.issued c) c o out rc).core c =
      (d1.core c).withGsub { index := 0, output := out, len := d.gsubLen w k.ctx, record := rc } := by
    rw [Dev.core, hcores]
    exact Dev.core_updCore ..
  refine ⟨_, congrArg s.goes (State.issue_issued hl hi _), ?_, ?_, r, hr, hw⟩
  · exact (congrArg Core.gsubs hcore).trans (by rw [Core.withGsub, hfree]; rfl)
  · exact congrArg Core.pc hcore

end Sys2Proof.Proofs
end

section
/-! The tile unit (R152, R153, R196-R204): its queue, the oldest instruction's end, and what each instruction leaves in accumulators,
tiles and scratch. -/

open Sys2Proof Sys2Proof.Machine

namespace Sys2Proof.Machine

/-! ### Issue (R152, R153) -/

section
variable {s : State} {c : CoreId} {f : Fields} {legal : Bool} {ss : List Nat} {op : UnitOp} {acc : Option Nat}
  {pre : Core → Option Nat} {xyz : Core → Word64 × Word64 × Word64}

/-- With the accumulator there, a tile instruction raises what its checks find, or enters the queue when there is room. -/
theorem tileIssue_issues (hl : legal = true) (hi : s.issues c ss [])
    (hacc : ∀ n, acc = some n → ((s.dev.core c).exact = true → n < 2) ∧ (s.dev.core c).accHeldByTop n = false) :
    tileIssue c f legal ss op acc pre xyz s = s.goes (match pre (s.dev.core c).counted with
      | some e => (s.issued c).raise c e 0
      | none =>
        if decide (4 ≤ (s.dev.core c).tileQ.length) then s.dev
        else (s.issued c).setCore c { (s.dev.core c).counted.next with tileQ := (s.dev.core c).tileQ ++
          [{ op := op, f := f, x := (xyz (s.dev.core c).counted).1
             y := (xyz (s.dev.core c).counted).2.1, z := (xyz (s.dev.core c).counted).2.2 }] }) := by
  rw [tileIssue, State.issue_issued hl hi]
  cases acc with
  | none => rfl
  | some n =>
    obtain ⟨hmode, hheld⟩ := hacc n rfl
    have hmissing : (s.dev.core c).counted.accMissing n = false := by
      show ((s.dev.core c).exact && decide (2 ≤ n)) = false
      cases hx : (s.dev.core c).exact with
      | false => rfl
      | true => simpa using hmode hx
    have hheld' : (s.dev.core c).counted.accHeldByTop n = false := hheld
    dsimp only
    rw [hmissing, hheld']
    rfl

/-- A tile instruction whose checks pass enters the queue. -/
theorem tileIssue_queues {x y z : Word64} (hl : legal = true) (hi : s.issues c ss []) (hfree : (s.dev.core c).tileFree acc)
    (hpre : pre (s.dev.core c).counted = none) (hxyz : xyz (s.dev.core c).counted = (x, y, z)) :
    tileIssue c f legal ss op acc pre xyz s = .next (s.queuedTile c op f x y z) := by
  obtain ⟨hroom, hacc⟩ := hfree
  rw [tileIssue_issues hl hi hacc, hpre, hxyz]
  dsimp only
  rw [if_neg (by simpa using hroom)]
  exact s.goes_issued_setCore c { s.dev.core c with tileQ := (s.dev.core c).tileQ ++ [{ op := op, f := f, x := x, y := y, z := z }] }

/-- A tile instruction whose checks fail raises what they found. -/
theorem tileIssue_refuses {e : Nat} (hl : legal = true) (hi : s.issues c ss []) (hfree : (s.dev.core c).tileFree acc)
    (hpre : pre (s.dev.core c).counted = some e) : tileIssue c f legal ss op acc pre xyz s = .next (s.excepts c e 0) := by
  rw [tileIssue_issues hl hi hfree.2, hpre]
  rfl

end

theorem exec_tileOps : ∀ p ∈ tileOps, ∀ (c : CoreId) (f : Fields) (s : State),
    exec (p.1 c f) s = tileIssue c f (Fields.legalTile f p.2.2) [] p.2.1 (some f.d.toNat) (tileMode f) noXyz s := by
  simp only [tileOps, List.forall_mem_cons]
  exact ⟨fun _ _ _ => rfl, fun _ _ _ => rfl, fun _ _ _ => rfl, fun _ _ _ => rfl, fun _ _ _ => rfl, fun _ _ _ => rfl,
    fun _ h => absurd h List.not_mem_nil⟩

end Sys2Proof.Machine
end

section
/-! What the tile unit leaves (R153, R196-R204): every element of an accumulator, every row of a tile, every piece of scratch is
written once, so each holds what was computed for it. -/

open Sys2Proof Sys2Proof.Machine

namespace Sys2Proof.Machine

/-! ### Indexes written in order -/

/-- Of N indexes from a base on each has its value, and the others have theirs. -/
theorem Map.get_foldl_put_from {α : Type} (a : α) (base : Nat) (v : Nat → α) (m : Map α) (N n : Nat) :
    Map.get a ((List.range N).foldl (fun m i => Map.put m (base + i) (v i)) m) n =
      if base ≤ n ∧ n < base + N then v (n - base) else Map.get a m n := by
  induction N with
  | zero => rw [if_neg (by omega)]; rfl
  | succ N ih =>
    rw [List.range_succ, List.foldl_append, List.foldl_cons, List.foldl_nil]
    by_cases hn : n = base + N
    · rw [hn, Map.get_put_same, if_pos (by omega), Nat.add_sub_cancel_left]
    · rw [Map.get_put_other _ _ _ _ _ hn, ih]
      by_cases hin : base ≤ n ∧ n < base + N
      · rw [if_pos hin, if_pos (by omega)]
      · rw [if_neg hin, if_neg (by omega)]

/-- The index of an element among those of accumulator n. -/
theorem accIndex (n e : Nat) : 4096 * n + 64 * (e / 64) + e % 64 = 4096 * n + e := by omega

/-! ### Accumulators (R153) -/

section
variable (k : Core) (n : Nat) {m i j : Nat} (hi : i < 64) (hj : j < 64)

/-- Every element of accumulator n, in the form of either mode. -/
def Core.fillAcc (v : Nat → Nat → Word32) : Core := k.accAll fun y i j => y.setAcc n i j (v i j)
def Core.fillAccX (v : Nat → Nat → Exact) : Core := k.accAll fun y i j => y.setAccX n i j (v i j)

theorem foldl_setAcc (v : Nat → Nat → Word32) (l : List Nat) :
    l.foldl (fun (y : Core) e => y.setAcc n (e / 64) (e % 64) (v (e / 64) (e % 64))) k =
      { k with accF := l.foldl (fun m e => Map.put m (4096 * n + e) (v (e / 64) (e % 64))) k.accF } := by
  induction l generalizing k with
  | nil => rfl
  | cons e l ih => rw [List.foldl_cons, List.foldl_cons, ih, Core.setAcc, accIndex]

theorem foldl_setAccX (v : Nat → Nat → Exact) (l : List Nat) :
    l.foldl (fun (y : Core) e => y.setAccX n (e / 64) (e % 64) (v (e / 64) (e % 64))) k =
      { k with accX := l.foldl (fun m e => Map.put m (4096 * n + e) (v (e / 64) (e % 64))) k.accX } := by
  induction l generalizing k with
  | nil => rfl
  | cons e l ih => rw [List.foldl_cons, List.foldl_cons, ih, Core.setAccX, accIndex]

@[simp] theorem Core.accXAt_fillAcc (v : Nat → Nat → Word32) : (k.fillAcc n v).accXAt m i j = k.accXAt m i j := by
  rw [Core.fillAcc, Core.accAll, foldl_setAcc, Core.accXAt, Core.accXAt]

@[simp] theorem Core.accAt_fillAccX (v : Nat → Nat → Exact) : (k.fillAccX n v).accAt m i j = k.accAt m i j := by
  rw [Core.fillAccX, Core.accAll, foldl_setAccX, Core.accAt, Core.accAt]

include hi hj

theorem Core.accAt_fillAcc (v : Nat → Nat → Word32) : (k.fillAcc n v).accAt m i j = if m = n then v i j else k.accAt m i j := by
  rw [Core.fillAcc, Core.accAll, foldl_setAcc, Core.accAt, Map.get_foldl_put_from]
  by_cases h : m = n
  · rw [if_pos h, if_pos (by omega), show (4096 * m + 64 * i + j - 4096 * n) / 64 = i by omega,
      show (4096 * m + 64 * i + j - 4096 * n) % 64 = j by omega]
  · rw [if_neg h, if_neg (by omega)]
    rfl

theorem Core.accXAt_fillAccX (v : Nat → Nat → Exact) : (k.fillAccX n v).accXAt m i j = if m = n then v i j else k.accXAt m i j := by
  rw [Core.fillAccX, Core.accAll, foldl_setAccX, Core.accXAt, Map.get_foldl_put_from]
  by_cases h : m = n
  · rw [if_pos h, if_pos (by omega), show (4096 * m + 64 * i + j - 4096 * n) / 64 = i by omega,
      show (4096 * m + 64 * i + j - 4096 * n) % 64 = j by omega]
  · rw [if_neg h, if_neg (by omega)]
    rfl

end

/-! ### Tiles -/

/-- Every row of tile t. -/
def Core.fillTile (k : Core) (t : Nat) (v : Nat → Sector) : Core := (List.range 64).foldl (fun (y : Core) r => y.setTileRow t r (v r)) k

theorem foldl_setTileRow (k : Core) (t : Nat) (v : Nat → Sector) (l : List Nat) :
    l.foldl (fun (y : Core) r => y.setTileRow t r (v r)) k = { k with t := l.foldl (fun m r => Map.put m (64 * t + r) (v r)) k.t } := by
  induction l generalizing k with
  | nil => rfl
  | cons r l ih => rw [List.foldl_cons, List.foldl_cons, ih, Core.setTileRow]

theorem Core.tileRow_fillTile (k : Core) (t : Nat) (v : Nat → Sector) {i : Nat} (hi : i < 64) : (k.fillTile t v).tileRow t i = v i := by
  rw [Core.fillTile, foldl_setTileRow, Core.tileRow, Map.get_foldl_put_from, if_pos (by omega), Nat.add_sub_cancel_left]

/-! ### Scratch -/

/-- N pieces of scratch, `step` bytes apart. -/
def Core.putPieces (k : Core) (o step : Nat) (bs : Nat → List Byte) (N : Nat) : Core :=
  (List.range N).foldl (fun (y : Core) i => y.putScratch (o + step * i) (bs i)) k

theorem Core.putPieces_succ (k : Core) (o step : Nat) (bs : Nat → List Byte) (N : Nat) :
    k.putPieces o step bs (N + 1) = (k.putPieces o step bs N).putScratch (o + step * N) (bs N) := by
  rw [Core.putPieces, List.range_succ, List.foldl_append]
  rfl

/-- Pieces no longer than their distance do not meet: each keeps its bytes. -/
theorem Core.scratchByte_putPieces (k : Core) (o step : Nat) (bs : Nat → List Byte) {N i b : Nat} (hi : i < N) (hb : b < (bs i).length)
    (hstep : (bs i).length ≤ step) : (k.putPieces o step bs N).scratchByte (o + step * i + b) = (bs i).getD b 0 := by
  induction N with
  | zero => omega
  | succ N ih =>
    rw [Core.putPieces_succ, Core.scratchByte_putScratch]
    by_cases h : i = N
    · rw [← h, if_pos (by omega), Nat.add_sub_cancel_left]
    · have hbefore : o + step * i + b < o + step * N := by
        have := Nat.mul_le_mul_left step (show i + 1 ≤ N by omega)
        rw [Nat.mul_succ] at this
        omega
      rw [if_neg (by omega), ih (by omega)]

theorem Core.scratchBytes_eq_leBytes {k : Core} {o n x : Nat} (h : ∀ b, b < n → k.scratchByte (o + b) = (leBytes n x).getD b 0) :
    k.scratchBytes o n = leBytes n x := by
  induction n generalizing o x with
  | zero => rfl
  | succ n ih =>
    have hfirst := h 0 (Nat.succ_pos n)
    rw [Core.scratchBytes, leBytes, ih fun b hb => by simpa [leBytes, Nat.add_assoc, Nat.add_comm 1 b] using h (b + 1) (by omega)]
    exact congrArg (· :: _) hfirst

/-- A number stored as one of such pieces is read back. -/
theorem Core.scratchNat_putPieces (k : Core) (o w : Nat) (x : Nat → Nat) {N i : Nat} (hi : i < N) (hx : x i < 256 ^ w) :
    (k.putPieces o w (fun i => leBytes w (x i)) N).scratchNat (o + w * i) w = x i := by
  have hlen : (leBytes w (x i)).length = w := leBytes_length w (x i)
  have hbytes : (k.putPieces o w (fun i => leBytes w (x i)) N).scratchBytes (o + w * i) w = leBytes w (x i) :=
    Core.scratchBytes_eq_leBytes fun b hb => Core.scratchByte_putPieces k o w _ hi (hlen.symm ▸ hb) hlen.le
  rw [Core.scratchNat, hbytes, leNat_leBytes, Nat.mod_eq_of_lt hx]

/-- An image written element by element is one of pieces. -/
theorem Core.accAll_putScratch (k : Core) (o w : Nat) (bs : Nat → Nat → List Byte) :
    (k.accAll fun y i j => y.putScratch (o + imageAt w i j) (bs i j)) = k.putPieces o w (fun e => bs (e / 64) (e % 64)) 4096 := by
  have hat : ∀ e, imageAt w (e / 64) (e % 64) = w * e := fun e => by rw [imageAt, Nat.div_add_mod]
  simp only [Core.accAll, hat]
  rfl

/-! ### The effect of the oldest instruction -/

section
variable {k : Core} {q : Queued} {i j : Nat} (hi : i < 64) (hj : j < 64)

theorem Core.tileRun_tileAcc (hop : q.op ∈ [.tmma, .tl2, .tl1, .tham, .tmins, .tmaxs]) : k.tileRun q = k.tileAcc q := by
  simp only [List.mem_cons, List.not_mem_nil, or_false] at hop
  rcases hop with h | h | h | h | h | h <;> rw [Core.tileRun, h]

/-- What a multiply-accumulate or distance leaves in an element: in FP32 mode, and in exact mode. -/
def Core.newAcc (k : Core) (q : Queued) (i j : Nat) : Word32 :=
  BitVec.ofNat 32 (FloatFmt.fp32.round false
    ((if q.f.mod.getLsbD 6 then Val.zero else FloatFmt.fp32.decode (k.accAt q.f.d.toNat i j).toNat).add (exactSum (k.tileTerms q i j))))
def Core.newAccX (k : Core) (q : Queued) (i j : Nat) : Exact :=
  (k.tileTerms q i j).foldl (Exact.addVal k.accL) (if q.f.mod.getLsbD 6 then .zero else k.accXAt q.f.d.toNat i j)

theorem Core.tileAcc_eq (k : Core) (q : Queued) :
    k.tileAcc q = if k.exact then k.fillAccX q.f.d.toNat (k.newAccX q) else k.fillAcc q.f.d.toNat (k.newAcc q) := rfl

theorem Core.acczero_fills (hop : q.op = .acczero) : k.tileRun q =
    if k.exact then k.fillAccX q.f.d.toNat fun _ _ => .zero else k.fillAcc q.f.d.toNat fun _ _ => 0 := by
  rw [Core.tileRun, hop]
  dsimp only
  split <;> rfl

include hi hj

theorem Core.accAt_tileAcc (hx : k.exact = false) : (k.tileAcc q).accAt q.f.d.toNat i j = k.newAcc q i j := by
  rw [Core.tileAcc_eq, if_neg (by rw [hx]; decide), Core.accAt_fillAcc k _ hi hj, if_pos rfl]

theorem Core.accXAt_tileAcc (hx : k.exact = true) : (k.tileAcc q).accXAt q.f.d.toNat i j = k.newAccX q i j := by
  rw [Core.tileAcc_eq, if_pos hx, Core.accXAt_fillAccX k _ hi hj, if_pos rfl]

/-- The other accumulators keep their elements. -/
theorem Core.tileAcc_other {n : Nat} (hn : n ≠ q.f.d.toNat) :
    (k.tileAcc q).accAt n i j = k.accAt n i j ∧ (k.tileAcc q).accXAt n i j = k.accXAt n i j := by
  rw [Core.tileAcc_eq]
  split
  · exact ⟨k.accAt_fillAccX _ _, (k.accXAt_fillAccX _ hi hj _).trans (if_neg hn)⟩
  · exact ⟨(k.accAt_fillAcc _ hi hj _).trans (if_neg hn), k.accXAt_fillAcc _ _⟩

end

/-! ### Rows in a format (R201, R202) -/

theorem fmtFloat_of_mx {fmt : Nat} (h : mxRegs fmt ≠ 0) : ∃ F, fmtFloat fmt = some F := by
  have hfmt : fmt = 8 ∨ fmt = 5 ∨ fmt = 6 := by
    by_contra hnot
    rw [not_or, not_or] at hnot
    obtain ⟨h8, h5, h6⟩ := hnot
    exact h (by simp [mxRegs, h8, h5, h6])
  rcases hfmt with rfl | rfl | rfl <;> exact ⟨_, rfl⟩

/-- A row fills its bytes. -/
theorem Core.accRow_length (k : Core) (n fmt : Nat) (sat : Bool) (i : Nat) : (k.accRow n fmt sat i).1.length = accRowBytes fmt := by
  rw [Core.accRow]
  by_cases h : mxRegs fmt = 0
  · rw [if_pos h, leBytes_length]
  · obtain ⟨F, hF⟩ := fmtFloat_of_mx h
    rw [if_neg h, hF]
    exact leBytes_length ..

/-- The rows of ACCST stand apart, and what follows them lies behind the last. -/
theorem Core.scratchByte_accStore (k : Core) (q : Queued) {i b : Nat} (hi : i < 64) (hstride : accRowBytes q.f.fmt.toNat ≤ q.y.toNat)
    (hb : b < accRowBytes q.f.fmt.toNat) : (k.accStore q).scratchByte (q.x.toNat + q.y.toNat * i + b) =
      (k.accRow q.f.a.toNat q.f.fmt.toNat (q.f.mod.getLsbD 4) i).1.getD b 0 := by
  have hlen := k.accRow_length q.f.a.toNat q.f.fmt.toNat (q.f.mod.getLsbD 4) i
  have hbefore : q.x.toNat + q.y.toNat * i + b < q.x.toNat + 64 * q.y.toNat := by
    have := Nat.mul_le_mul_left q.y.toNat (show i + 1 ≤ 64 by omega)
    rw [Nat.mul_succ, Nat.mul_comm _ 64] at this
    omega
  have hrows : k.accStore q = (k.putPieces q.x.toNat q.y.toNat
      (fun r => (k.accRow q.f.a.toNat q.f.fmt.toNat (q.f.mod.getLsbD 4) r).1) 64).putScratch (q.x.toNat + 64 * q.y.toNat)
        ((List.range 64).flatMap fun r => (k.accRow q.f.a.toNat q.f.fmt.toNat (q.f.mod.getLsbD 4) r).2) := rfl
  rw [hrows, Core.scratchByte_putScratch, if_neg (fun h => absurd h.1 (Nat.not_le.mpr hbefore))]
  exact Core.scratchByte_putPieces k _ _ _ hi (hlen ▸ hb) (hlen ▸ hstride)

/-! ### Images (R204) -/

section
variable {k : Core} {q : Queued} {i j : Nat} (hi : i < 64) (hj : j < 64)

theorem elem_div (hj : j < 64) : (64 * i + j) / 64 = i := by omega
theorem elem_mod (hj : j < 64) : (64 * i + j) % 64 = j := by omega

include hi hj

theorem Core.scratchNat_accSave_fp32 (hx : k.exact = false) :
    (k.accSave q).scratchNat (q.x.toNat + 4 * (64 * i + j)) 4 = (k.accAt q.f.a.toNat i j).toNat := by
  have hsave : k.accSave q = k.putPieces q.x.toNat 4 (fun e => leBytes 4 (k.accAt q.f.a.toNat (e / 64) (e % 64)).toNat) 4096 := by
    rw [Core.accSave, hx]
    exact k.accAll_putScratch q.x.toNat 4 fun i j => leBytes 4 (k.accAt q.f.a.toNat i j).toNat
  rw [hsave, Core.scratchNat_putPieces k _ _ _ (by omega) (BitVec.isLt _), elem_div hj, elem_mod hj]

theorem Core.scratchNat_accSave_exact (hx : k.exact = true) :
    (k.accSave q).scratchNat (q.x.toNat + 16 * (64 * i + j)) 16 = ((k.accXAt q.f.a.toNat i j).image k.accL).toNat := by
  have hsave : k.accSave q =
      k.putPieces q.x.toNat 16 (fun e => leBytes 16 ((k.accXAt q.f.a.toNat (e / 64) (e % 64)).image k.accL).toNat) 4096 := by
    rw [Core.accSave, hx]
    exact k.accAll_putScratch q.x.toNat 16 fun i j => leBytes 16 ((k.accXAt q.f.a.toNat i j).image k.accL).toNat
  rw [hsave, Core.scratchNat_putPieces k _ _ _ (by omega) (BitVec.isLt _), elem_div hj, elem_mod hj]

/-- An image of the same L is merged element by element. -/
theorem Core.accXAt_accMerge
    (hL : ∀ e, e < 4096 → Exact.imageL (BitVec.ofNat 128 (k.scratchNat (q.x.toNat + 16 * e) 16)) = k.accL) :
    (k.accMerge q).accXAt q.f.d.toNat i j =
      (k.accXAt q.f.d.toNat i j).merge (Exact.ofImage (BitVec.ofNat 128 (k.scratchNat (q.x.toNat + 16 * (64 * i + j)) 16))) := by
  have hsame : ((List.range 4096).any fun e => decide (Exact.imageL (k.imageElem q.x.toNat (e / 64) (e % 64)) ≠ k.accL)) = false := by
    rw [List.any_eq_false]
    intro e he
    have hat : imageAt 16 (e / 64) (e % 64) = 16 * e := by rw [imageAt, Nat.div_add_mod]
    rw [Core.imageElem, hat, decide_eq_true_eq, not_not]
    exact hL e (List.mem_range.mp he)
  have hmerge : k.accMerge q = k.fillAccX q.f.d.toNat fun i j =>
      (k.accXAt q.f.d.toNat i j).merge (Exact.ofImage (k.imageElem q.x.toNat i j)) := by
    rw [Core.accMerge]
    dsimp only
    rw [hsame]
    rfl
  rw [hmerge, Core.accXAt_fillAccX k _ hi hj, if_pos rfl]
  rfl

end

/-! ### Modes (R153, R199) -/

section
variable {α : Sort _} {a b : α} {k : Core}

/-- A choice by the mode, at a core that has issued. -/
theorem Core.ite_counted_fp32 (hx : k.exact = false) : (if k.counted.exact then a else b) = b :=
  if_neg fun h => Bool.false_ne_true (hx.symm.trans h)

theorem Core.ite_counted_exact (hx : k.exact = true) : (if k.counted.exact then a else b) = a := if_pos hx

end

/-- No format is refused but BF16 and FP16 in exact mode. -/
theorem tileMode_none {f : Fields} {k : Core} (h : k.exact = true → f.fmt ≠ 1 ∧ f.fmt ≠ 2) : tileMode f k.counted = none := by
  refine if_neg fun hbad => ?_
  have hbad' : (k.exact && (decide (f.fmt = 1) || decide (f.fmt = 2))) = true := hbad
  simp only [Bool.and_eq_true, Bool.or_eq_true, decide_eq_true_eq] at hbad'
  obtain ⟨hx, hfmt⟩ := hbad'
  obtain ⟨h1, h2⟩ := h hx
  exact hfmt.elim h1 h2

/-- ACCMODE at once sets mode and L and clears every accumulator, when no queued instruction names one. -/
theorem exec_accmode_switches {s : State} {c : CoreId} {f : Fields} (hl : f.legalRI false 0 0 = true) (hi : s.issues c [] [])
    (hidle : (((s.dev.core c).tileQ ++ (s.dev.core c).topQ).any fun x => !x.accUse.isEmpty) = false) :
    exec (.accmode c f) s = .next (s.retires c { s.dev.core c with
      exact := f.mod.getLsbD 8, accL := (BitVec.ofNat 8 f.mod.toNat).toInt, accF := [], accX := [] }) := by
  have hidle' : (((s.dev.core c).counted.tileQ ++ (s.dev.core c).counted.topQ).any fun x => !x.accUse.isEmpty) = false := hidle
  have hbits : f.mod.extractLsb' 0 8 = BitVec.ofNat 8 f.mod.toNat := by
    apply BitVec.eq_of_toNat_eq
    rw [BitVec.extractLsb'_toNat, Nat.shiftRight_zero, BitVec.toNat_ofNat]
  show execAccmode c f s = _
  rw [execAccmode, State.issue_issued hl hi, hidle', if_neg Bool.false_ne_true, hbits]
  exact s.goes_issued_setCore c { s.dev.core c with
    exact := f.mod.getLsbD 8, accL := (BitVec.ofNat 8 f.mod.toNat).toInt, accF := [], accX := [] }

/-! ### The unit's end of an instruction (R69, R152) -/

section
variable {d : Dev} {c : Nat}

theorem Dev.tileEnd_runs {q : Queued} {rest : List Queued} (hq : (d.core c).tileQ = q :: rest)
    (hgo : (d.qr (quarterOfCore c)).restart.contains c = false) : d.tileEnd c =
      if (d.core c).status = .running then d.setCore c (({ d.core c with tileQ := rest } : Core).tileRun q)
      else (d.setCore c (({ d.core c with tileQ := rest } : Core).tileRun q)).coreDone c := by
  rw [Dev.tileEnd, hgo, hq]
  rfl

theorem Dev.tileEnd_rests (h : (d.core c).tileQ = [] ∨ (d.qr (quarterOfCore c)).restart.contains c = true) : d.tileEnd c = d := by
  rw [Dev.tileEnd]
  by_cases hr : (d.qr (quarterOfCore c)).restart.contains c = true
  · exact if_pos hr
  · rw [h.resolve_right hr]
    exact if_neg hr

end

end Sys2Proof.Machine

namespace Sys2Proof.Proofs

/-- Settles O13: the queue takes what passes its checks, the oldest instruction takes effect, and each element, row and piece of
scratch holds what was computed for it. -/
theorem tileUnit : Obligations.TileUnit := by
  refine ⟨⟨fun p hp s c f hl hi hfree hmode => ?tile,
      fun s c f => ⟨fun hl hi hfree ⟨halign, hfits⟩ => ⟨?tld, ?tst⟩, fun hl hi hfree => ?tzero, fun hl hi hfree => ?ttr8,
        fun hl hi hfree => ?acczero, fun hl hi hfree hrows => ?accst, fun hl hi hfree hx hrows => ?accld,
        fun hl hi hfree ⟨halign, hfits⟩ => ?accsave,
        fun hl hi hfree => ⟨fun hx ⟨halign, hfits⟩ => ⟨?accrestore, ?accmrg⟩, fun hx => ⟨?restoreMode, ?mergeMode⟩⟩,
        fun hl hi hidle => ?accmode⟩⟩,
    fun s c => ⟨fun q rest hq hgo => ?ends, fun h => ?rests⟩,
    fun k q i j hi hj => ⟨fun hop => ⟨fun hx => ?fp32, fun hx => ?exact, fun n hn => ?others⟩,
      fun hop => ⟨fun hx => ?zeroFp32, fun hx => ?zeroExact⟩, fun hop => ?loads, fun hop => ?restores,
      fun hop => ⟨fun hx => ?saveFp32, fun hx => ?saveExact⟩, fun hop hL => ?merges, fun hop hstride b hb => ?stores,
      fun hop => ?zeroTile, fun hop => ?loadTile, fun hop => ?storeTile, fun hop => ?transpose⟩⟩
  case tile =>
    rw [exec_tileOps p hp]
    exact tileIssue_queues hl hi hfree (tileMode_none hmode) rfl
  case tld => show execTld c f s = _; exact tileIssue_queues hl hi hfree (Core.scratchExc_none halign hfits) rfl
  case tst => show execTst c f s = _; exact tileIssue_queues hl hi hfree (Core.scratchExc_none halign hfits) rfl
  case tzero => show execTzero c f s = _; exact tileIssue_queues hl hi hfree rfl rfl
  case ttr8 => show execTtr8 c f s = _; exact tileIssue_queues hl hi hfree rfl rfl
  case acczero => show execAcczero c f s = _; exact tileIssue_queues hl hi hfree rfl rfl
  case accst => show execAccst c f s = _; exact tileIssue_queues hl hi hfree hrows rfl
  case accld => show execAccld c f s = _; exact tileIssue_queues hl hi hfree ((Core.ite_counted_fp32 hx).trans hrows) rfl
  case accsave => show execAccsave c f s = _; exact tileIssue_queues hl hi hfree (Core.scratchExc_none halign hfits) rfl
  case accrestore =>
    show execAccrestore c f s = _
    exact tileIssue_queues hl hi hfree ((Core.ite_counted_exact hx).trans (Core.scratchExc_none halign hfits)) rfl
  case accmrg =>
    show execAccmrg c f s = _
    exact tileIssue_queues hl hi hfree ((Core.ite_counted_exact hx).trans (Core.scratchExc_none halign hfits)) rfl
  case restoreMode => show execAccrestore c f s = _; exact tileIssue_refuses hl hi hfree (Core.ite_counted_fp32 hx)
  case mergeMode => show execAccmrg c f s = _; exact tileIssue_refuses hl hi hfree (Core.ite_counted_fp32 hx)
  case accmode => exact exec_accmode_switches hl hi hidle
  case ends =>
    refine (congrArg s.goes (Dev.tileEnd_runs hq hgo)).trans ?_
    by_cases hrun : (s.dev.core c).status = .running
    · rw [if_pos hrun, if_pos hrun]
      rfl
    · rw [if_neg hrun, if_neg hrun]
      rfl
  case rests => exact congrArg s.goes (Dev.tileEnd_rests h)
  case fp32 => rw [Core.tileRun_tileAcc hop]; exact Core.accAt_tileAcc hi hj hx
  case exact => rw [Core.tileRun_tileAcc hop]; exact Core.accXAt_tileAcc hi hj hx
  case others => rw [Core.tileRun_tileAcc hop]; exact Core.tileAcc_other hi hj hn
  case zeroFp32 => rw [Core.acczero_fills hop, if_neg (by rw [hx]; decide), Core.accAt_fillAcc k _ hi hj, if_pos rfl]
  case zeroExact => rw [Core.acczero_fills hop, if_pos hx, Core.accXAt_fillAccX k _ hi hj, if_pos rfl]
  case loads => rw [Core.tileRun, hop]; exact (k.accAt_fillAcc _ hi hj _).trans (if_pos rfl)
  case restores => rw [Core.tileRun, hop]; exact (k.accXAt_fillAccX _ hi hj _).trans (if_pos rfl)
  case saveFp32 => rw [Core.tileRun, hop]; exact Core.scratchNat_accSave_fp32 hi hj hx
  case saveExact => rw [Core.tileRun, hop]; exact Core.scratchNat_accSave_exact hi hj hx
  case merges => rw [Core.tileRun, hop]; exact Core.accXAt_accMerge hi hj hL
  case stores => rw [Core.tileRun, hop]; exact k.scratchByte_accStore q hi hstride hb
  case zeroTile => rw [Core.tileRun, hop]; exact k.tileRow_fillTile _ _ hi
  case loadTile => rw [Core.tileRun, hop]; exact k.tileRow_fillTile _ _ hi
  case storeTile =>
    rw [Core.tileRun, hop, ← Sector.bytes_getD _ hj]
    exact k.scratchByte_putPieces q.x.toNat 64 (fun r => Sector.bytes (k.tileRow q.f.d.toNat r)) hi
      (by rw [Sector.bytes_length]; exact hj) (Sector.bytes_length _).le
  case transpose =>
    have hrow : (k.tileRun q).tileRow q.f.d.toNat i = ofLanes 8 fun r => Sector.lane (k.tileRow q.f.a.toNat r) 8 i := by
      rw [Core.tileRun, hop]
      exact k.tileRow_fillTile _ _ hi
    rw [hrow, Sector.lane_ofLanes, if_pos hj]
    exact Nat.mod_eq_of_lt (Sector.lane_lt _ 8 i)

end Sys2Proof.Proofs
end

section
/-! Vector instructions (R190-R194, R212): the model's lane operations are those of Table 6.15 in integers and naturals, a result enters
lane by lane under the predicate, and every instruction retires with its result. -/

open Sys2Proof Sys2Proof.Machine

namespace Sys2Proof.Machine

/-! ### Lanes as words (R192) -/

section
variable {w : Nat} (a b : Nat)

theorem toInt_ofNat_eq_signedOf : (BitVec.ofNat w a).toInt = signedOf w a := by
  rw [BitVec.toInt_eq_toNat_cond, BitVec.toNat_ofNat, signedOf, lowBits]
  cases w with
  | zero => simp [Nat.mod_one]
  | succ n =>
    have hlt : a % 2 ^ (n + 1) < 2 ^ (n + 1) := Nat.mod_lt _ (Nat.two_pow_pos _)
    rw [Nat.add_sub_cancel]
    generalize a % 2 ^ (n + 1) = m at hlt ⊢
    rw [pow_succ] at hlt ⊢
    split_ifs <;> omega

/-- A result in integers of signed lanes. -/
theorem bv2_ofInt {op : BitVec w → BitVec w → BitVec w} {z : Int → Int → Int}
    (h : ∀ x y, op x y = BitVec.ofInt w (z x.toInt y.toInt)) : bv2 w op a b = laneInt w (z (signedOf w a) (signedOf w b)) := by
  rw [bv2, h, toInt_ofNat_eq_signedOf, toInt_ofNat_eq_signedOf, BitVec.toNat_ofInt, Nat.cast_pow, laneInt]
  rfl

theorem clampS_eq_satInt (z : Int) : clampS w z = satInt w z := by
  have hpos : (0 : Int) < 2 ^ (w - 1) := by positivity
  rw [clampS, satInt, Nat.cast_pow, Nat.cast_ofNat]
  generalize (2 : Int) ^ (w - 1) = h at hpos ⊢
  split_ifs <;> omega

theorem minS_eq (x y : BitVec w) : minS w x y = if x.toInt ≤ y.toInt then x else y := by
  rcases lt_trichotomy x.toInt y.toInt with h | h | h
  · simp [minS, BitVec.slt_iff_toInt_lt, h, h.le]
  · simp [BitVec.eq_of_toInt_eq h, minS]
  · simp [minS, BitVec.slt_iff_toInt_lt, h.not_gt, h.not_ge]

theorem maxS_eq (x y : BitVec w) : maxS w x y = if x.toInt ≤ y.toInt then y else x := by
  rcases lt_trichotomy x.toInt y.toInt with h | h | h
  · simp [maxS, BitVec.slt_iff_toInt_lt, h, h.le]
  · simp [BitVec.eq_of_toInt_eq h, maxS]
  · simp [maxS, BitVec.slt_iff_toInt_lt, h.not_gt, h.not_ge]

theorem minU_toNat (x y : BitVec w) : (minU w x y).toNat = min x.toNat y.toNat := by
  simp only [minU, BitVec.ult_iff_toNat_lt]
  split <;> omega

theorem maxU_toNat (x y : BitVec w) : (maxU w x y).toNat = max x.toNat y.toNat := by
  simp only [maxU, BitVec.ult_iff_toNat_lt]
  split <;> omega

theorem sar_eq_ofInt (x y : BitVec w) : sar w x y = BitVec.ofInt w (x.toInt / 2 ^ (y.toNat % w)) := by
  rw [sar, BitVec.sshiftRight, Int.shiftRight_eq_div_pow, Nat.cast_pow]
  rfl

theorem shl_toNat (x y : BitVec w) : (shl w x y).toNat = x.toNat * 2 ^ (y.toNat % w) % 2 ^ w := by
  rw [shl, BitVec.toNat_shiftLeft, Nat.shiftLeft_eq]

theorem shr_toNat (x y : BitVec w) : (shr w x y).toNat = x.toNat / 2 ^ (y.toNat % w) := by
  rw [shr, BitVec.toNat_ushiftRight, Nat.shiftRight_eq_div_pow]

/-! ### Lane results in integers and naturals (R192, Table 6.15) -/

theorem bv2_add : bv2 w (· + ·) a b = (a + b) % 2 ^ w := by
  rw [bv2, BitVec.toNat_add, BitVec.toNat_ofNat, BitVec.toNat_ofNat, ← Nat.add_mod]

theorem bv2_mul : bv2 w (· * ·) a b = a * b % 2 ^ w := by
  rw [bv2, BitVec.toNat_mul, BitVec.toNat_ofNat, BitVec.toNat_ofNat, ← Nat.mul_mod]

theorem bv2_sub : bv2 w (· - ·) a b = laneInt w (a - b) := by
  have hsub : BitVec.ofNat w a - BitVec.ofNat w b = BitVec.ofInt w (a - b) := by
    rw [← BitVec.ofInt_natCast, ← BitVec.ofInt_natCast, sub_eq_iff_eq_add, ← BitVec.ofInt_add, sub_add_cancel]
  rw [bv2, hsub, BitVec.toNat_ofInt, Nat.cast_pow, laneInt]
  rfl

theorem popc_lane (a : Nat) : popc w (BitVec.ofNat w a) w = (List.range w).countP a.testBit := by
  rw [popc_eq_countP]
  refine List.countP_congr fun i hi => ?_
  rw [BitVec.getLsbD_ofNat, decide_eq_true (List.mem_range.mp hi), Bool.true_and]

theorem bv2_mulHS : bv2 w (mulHS w) a b = laneInt w (signedOf w a * signedOf w b / 2 ^ w) :=
  bv2_ofInt a b (z := fun x y => x * y / 2 ^ w) fun _ _ => by rw [mulHS, Nat.cast_pow]; rfl

theorem bv2_addSat : bv2 w (addSat w) a b = laneInt w (satInt w (signedOf w a + signedOf w b)) :=
  bv2_ofInt a b (z := fun x y => satInt w (x + y)) fun _ _ => by rw [addSat, clampS_eq_satInt]

theorem bv2_subSat : bv2 w (subSat w) a b = laneInt w (satInt w (signedOf w a - signedOf w b)) :=
  bv2_ofInt a b (z := fun x y => satInt w (x - y)) fun _ _ => by rw [subSat, clampS_eq_satInt]

theorem bv2_absDiff : bv2 w (absDiff w) a b = (signedOf w a - signedOf w b).natAbs % 2 ^ w := by
  rw [bv2, absDiff, toInt_ofNat_eq_signedOf, toInt_ofNat_eq_signedOf, BitVec.ofInt_natCast, BitVec.toNat_ofNat]

variable {a b} (ha : a < 2 ^ w) (hb : b < 2 ^ w)

include ha hb

/-- On lanes that lie in their width an operation on naturals is that on words. -/
theorem bv2_toNat {op : BitVec w → BitVec w → BitVec w} {r : Nat → Nat → Nat} (h : ∀ x y, (op x y).toNat = r x.toNat y.toNat) :
    bv2 w op a b = r a b := by
  rw [bv2, h, toNat_ofNat_of_lt ha le_rfl, toNat_ofNat_of_lt hb le_rfl]

theorem bv2_shl : bv2 w (shl w) a b = a * 2 ^ (b % w) % 2 ^ w :=
  bv2_toNat ha hb (r := fun a b => a * 2 ^ (b % w) % 2 ^ w) shl_toNat

theorem bv2_shr : bv2 w (shr w) a b = a / 2 ^ (b % w) := bv2_toNat ha hb (r := fun a b => a / 2 ^ (b % w)) shr_toNat

theorem bv2_minS : bv2 w (minS w) a b = if signedOf w a ≤ signedOf w b then a else b := by
  rw [bv2, minS_eq, toInt_ofNat_eq_signedOf, toInt_ofNat_eq_signedOf, apply_ite BitVec.toNat, toNat_ofNat_of_lt ha le_rfl,
    toNat_ofNat_of_lt hb le_rfl]

theorem bv2_maxS : bv2 w (maxS w) a b = if signedOf w a ≤ signedOf w b then b else a := by
  rw [bv2, maxS_eq, toInt_ofNat_eq_signedOf, toInt_ofNat_eq_signedOf, apply_ite BitVec.toNat, toNat_ofNat_of_lt ha le_rfl,
    toNat_ofNat_of_lt hb le_rfl]

omit ha in
theorem bv2_sar : bv2 w (sar w) a b = laneInt w (signedOf w a / 2 ^ (b % w)) := by
  rw [bv2, sar_eq_ofInt, toInt_ofNat_eq_signedOf, toNat_ofNat_of_lt hb le_rfl, BitVec.toNat_ofInt, Nat.cast_pow, laneInt]
  rfl

end

/-! ### Lane-wise writes (R190, R194) -/

theorem opB_lt (f : Fields) (k : Core) (i : Nat) : opB f k i < 2 ^ Fields.w f := by
  rw [opB]
  split
  · exact Nat.mod_lt _ (Nat.two_pow_pos _)
  · exact Sector.lane_lt _ _ _

/-- The register written lane by lane holds each lane's result, or what the lane held. -/
theorem Core.lane_lanes (k : Core) (f : Fields) (new : Nat → Nat) {i : Nat} (hi : i < 512 / Fields.w f) :
    Sector.lane ((k.lanes f new).vr f.d.toNat) (Fields.w f) i =
      if (k.govern f.p).getLsbD (i * Fields.w f / 8) then new i % 2 ^ Fields.w f else Sector.lane (k.vr f.d.toNat) (Fields.w f) i := by
  rw [Core.lanes, Core.setV, Core.vr, Map.get_put_same, Sector.lane_ofLanes, if_pos hi]
  split
  · rfl
  · exact Nat.mod_eq_of_lt (Sector.lane_lt _ _ _)

theorem Core.vr_lanes_other (k : Core) (f : Fields) (new : Nat → Nat) {n : Nat} (hn : n ≠ f.d.toNat) :
    (k.lanes f new).vr n = k.vr n := Map.get_put_other _ _ _ _ _ hn

/-- An issue counted before a lane-wise write is the same as one counted after. -/
theorem Core.lanes_counted_next (k : Core) (f : Fields) (new : Nat → Nat) :
    (k.counted.lanes f new).next = (k.lanes f new).retired k := rfl

/-- Lanes of one of two results, as a lane number lies beyond the vector or not. -/
theorem Core.lanes_beyond (k : Core) (f : Fields) (n j : Nat) (x y : Nat → Nat) :
    (k.lanes f fun i => if n ≤ j then x i else y i) = if j < n then k.lanes f y else k.lanes f x := by
  by_cases h : j < n
  · simp only [if_pos h, if_neg (Nat.not_le.mpr h)]
  · simp only [if_neg h, if_pos (Nat.not_lt.mp h)]

theorem decide_bit (x : Bool) : decide ((if x then 1 else 0) % 2 = 1) = x := by cases x <;> rfl

/-- A predicate after a comparison: the lane's result in an enabled lane's bytes, the other bits as before. -/
theorem getLsbD_mergePred (g : Word64) (w : Nat) (old : Word64) (res : Nat → Bool) {b : Nat} (hb : b < 64) :
    (mergePred g w old res).getLsbD b = if g.getLsbD (b / (w / 8) * w / 8) then res (b / (w / 8)) else old.getLsbD b := by
  have hbit : ∀ h : Nat → Nat, (BitVec.ofNat 64 (lanesNat 1 h 64 0)).getLsbD b = decide (h b % 2 = 1) := fun h => by
    have hlane := lanesNat_lane 1 h 64 0 b
    rw [if_pos hb, Nat.zero_add, Nat.one_mul, pow_one] at hlane
    rw [BitVec.getLsbD_ofNat, decide_eq_true hb, Bool.true_and, Nat.testBit_eq_decide_div_mod_eq, hlane]
  rw [mergePred, hbit]
  cases hon : g.getLsbD (b / (w / 8) * w / 8) with
  | true =>
    simp only [laneOn, hon, if_true]
    exact decide_bit _
  | false =>
    simp only [laneOn, hon, Bool.false_eq_true, if_false]
    exact decide_bit _

/-! ### The forms of vector instructions -/

section
variable {s : State} {c : CoreId} {f : Fields} {fmts : List Nat}

theorem vec2_congr {op res : Nat → Nat → Nat} (h : ∀ a b, a < 2 ^ Fields.w f → b < 2 ^ Fields.w f → op a b = res a b) :
    vec2 c f fmts op s = vec2 c f fmts res s := by
  have hlane : ∀ (k : Core) (i : Nat), op (Sector.lane (k.vr f.a.toNat) (Fields.w f) i) (opB f k i) =
      res (Sector.lane (k.vr f.a.toNat) (Fields.w f) i) (opB f k i) := fun k i => h _ _ (Sector.lane_lt _ _ i) (opB_lt f k i)
  simp only [vec2, hlane]

theorem vec2_retires {op : Nat → Nat → Nat} (hl : f.legalR 32 32 32 0 true fmts 1 = true)
    (hi : s.issues c (if f.mod.getLsbD 0 then [f.b.toNat] else []) [f.d.toNat]) :
    vec2 c f fmts op s = .next (s.retires c ((s.dev.core c).lanes f fun i =>
      op (Sector.lane ((s.dev.core c).vr f.a.toNat) (Fields.w f) i) ((s.dev.core c).laneB f i))) :=
  State.issueReg_retires hl hi rfl

theorem vec1_retires {op : Nat → Nat} (hl : f.legalR 32 32 0 0 true fmts 0 = true) (hi : s.issues c [] [f.d.toNat]) :
    vec1 c f fmts op s = .next (s.retires c ((s.dev.core c).lanes f fun i =>
      op (Sector.lane ((s.dev.core c).vr f.a.toNat) (Fields.w f) i))) :=
  State.issueReg_retires hl hi rfl

/-- A comparison writes its predicate bit by bit. -/
theorem vecCmp_retires {op : Nat → Nat → Bool} (hl : f.legalR 8 32 32 0 true fmts 1 = true)
    (hi : s.issues c (if f.mod.getLsbD 0 then [f.b.toNat] else []) []) : let k := s.dev.core c
    ∃ x : Word64, vecCmp c f fmts op s = .next (s.retires c (k.setP f.d.toNat x)) ∧
      ∀ b, b < 64 → let i := b / (Fields.w f / 8)
        x.getLsbD b = if (k.govern f.p).getLsbD (i * Fields.w f / 8)
          then op (Sector.lane (k.vr f.a.toNat) (Fields.w f) i) (k.laneB f i) else (k.pr f.d.toNat).getLsbD b :=
  ⟨_, State.issueReg_retires hl hi (Core.setP_counted_next ..), fun _ hb => getLsbD_mergePred _ _ _ _ hb⟩

/-- An instruction on registers that draws a free value retires in the state in which the next one is drawn. -/
theorem State.issue_drawn_retires {legal : Bool} {ss vw : List Nat} {g : Dev → Core → Core} {k : Core} (hl : legal = true)
    (hi : s.issues c ss vw) (hk : (g (s.issued c) (s.dev.core c).counted).next = k.retired (s.dev.core c)) :
    s.goes (s.dev.issue c legal ss vw fun e k => ({ e with fresh := e.fresh + 1 } : Dev).setCore c (g e k).next) =
      .next (s.drawn.retires c k) := by
  rw [State.issue_issued hl hi, hk]
  exact congrArg s.goes (s.drawn.dev.setCore_setCore c (s.dev.core c).counted (k.retired (s.dev.core c)))

end

/-! ### The lists of vector instructions -/

theorem exec_vecIntOps : ∀ p ∈ vecIntOps, ∀ (c : CoreId) (f : Fields) (s : State),
    exec (p.1 c f) s = vec2 c f intFmts (p.2 (Fields.w f)) s := by
  simp only [vecIntOps, List.forall_mem_cons]
  exact ⟨fun _ _ _ => vec2_congr fun a b _ _ => bv2_add a b,
    fun _ _ _ => vec2_congr fun a b _ _ => bv2_sub a b,
    fun _ _ _ => vec2_congr fun a b _ _ => bv2_mul a b,
    fun _ _ _ => vec2_congr fun a b _ _ => bv2_mulHS a b,
    fun _ _ _ => vec2_congr fun _ _ ha hb => bv2_minS ha hb,
    fun _ _ _ => vec2_congr fun _ _ ha hb => bv2_maxS ha hb,
    fun _ _ _ => vec2_congr fun _ _ ha hb => bv2_toNat ha hb minU_toNat,
    fun _ _ _ => vec2_congr fun _ _ ha hb => bv2_toNat ha hb maxU_toNat,
    fun _ _ _ => vec2_congr fun _ _ ha hb => bv2_toNat ha hb BitVec.toNat_and,
    fun _ _ _ => vec2_congr fun _ _ ha hb => bv2_toNat ha hb BitVec.toNat_or,
    fun _ _ _ => vec2_congr fun _ _ ha hb => bv2_toNat ha hb BitVec.toNat_xor,
    fun _ _ _ => vec2_congr fun _ _ ha hb => bv2_shl ha hb,
    fun _ _ _ => vec2_congr fun _ _ ha hb => bv2_shr ha hb,
    fun _ _ _ => vec2_congr fun _ _ _ hb => bv2_sar hb,
    fun _ _ _ => vec2_congr fun a b _ _ => bv2_absDiff a b,
    fun _ _ _ => vec2_congr fun a b _ _ => bv2_addSat a b,
    fun _ _ _ => vec2_congr fun a b _ _ => bv2_subSat a b,
    fun _ h => absurd h List.not_mem_nil⟩

theorem exec_vpopc (c : CoreId) (f : Fields) (s : State) :
    exec (.vpopc c f) s = vec1 c f intFmts (fun a => (List.range (Fields.w f)).countP a.testBit) s := by
  rw [← funext popc_lane]
  rfl

theorem exec_vecFloatOps : ∀ p ∈ vecFloatOps, ∀ (c : CoreId) (f : Fields) (s : State),
    exec (p.1 c f) s = vec2 c f fpFmts (p.2 (Fields.ff f)) s := by
  simp only [vecFloatOps, List.forall_mem_cons]
  exact ⟨fun _ _ _ => rfl, fun _ _ _ => rfl, fun _ _ _ => rfl, fun _ _ _ => rfl, fun _ _ _ => rfl, fun _ _ _ => rfl,
    fun _ h => absurd h List.not_mem_nil⟩

theorem exec_vecUnaryOps : ∀ p ∈ vecUnaryOps, ∀ (c : CoreId) (f : Fields) (s : State),
    exec (p.1 c f) s = vec1 c f fpFmts (p.2 (Fields.ff f)) s := by
  simp only [vecUnaryOps, List.forall_mem_cons]
  exact ⟨fun _ _ _ => rfl, fun _ _ _ => rfl, fun _ _ _ => rfl, fun _ h => absurd h List.not_mem_nil⟩

theorem exec_vecCmpOps : ∀ p ∈ vecCmpOps, ∀ (c : CoreId) (f : Fields) (s : State),
    exec (p.1 c f) s = vecCmp c f p.2.1 (p.2.2 f) s := by
  simp only [vecCmpOps, List.forall_mem_cons]
  exact ⟨fun _ _ _ => rfl, fun _ _ _ => rfl, fun _ _ _ => rfl, fun _ _ _ => rfl, fun _ _ _ => rfl, fun _ _ _ => rfl,
    fun _ h => absurd h List.not_mem_nil⟩

theorem exec_vecRedOps : ∀ p ∈ vecRedOps, ∀ (c : CoreId) (f : Fields) (s : State),
    exec (p.1 c f) s = vecRed c f p.2.1 p.2.2 s := by
  simp only [vecRedOps, List.forall_mem_cons]
  exact ⟨fun _ _ _ => rfl, fun _ _ _ => rfl, fun _ _ _ => rfl, fun _ h => absurd h List.not_mem_nil⟩

end Sys2Proof.Machine

namespace Sys2Proof.Proofs

/-- Settles O3: the written lanes are those enabled, and only the destination register is written. -/
theorem laneWrites : Obligations.LaneWrites := by
  intro k f new _
  exact ⟨fun _ hi => k.lane_lanes f new hi, fun _ hn => k.vr_lanes_other f new hn, rfl⟩

/-- Settles O4: every integer and floating-point vector instruction retires with its lanes. -/
theorem vectorArithmetic : Obligations.VectorArithmetic := by
  refine ⟨⟨fun p hp s c f hl hi => ?int, fun s c f hl hi => ?popc⟩,
    fun p hp s c f hl hi => ?float, fun p hp s c f hl hi => ?unary, fun s c f hl hi => ?fma⟩
  case int => rw [exec_vecIntOps p hp]; exact vec2_retires hl hi
  case popc => rw [exec_vpopc]; exact vec1_retires hl hi
  case float => rw [exec_vecFloatOps p hp]; exact vec2_retires hl hi
  case unary => rw [exec_vecUnaryOps p hp]; exact vec1_retires hl hi
  case fma => exact State.issueReg_retires hl hi rfl

/-- Settles O5: comparisons write their predicate bit by bit; reductions, moves, conversions and MX blocks retire with their results. -/
theorem vectorDataAndCompare : Obligations.VectorDataAndCompare := by
  refine ⟨⟨fun p hp s c f hl hi => ?cmp, fun p hp s c f hl hi => ?red⟩,
    fun s c f => ⟨fun hl hi => ?bcast, fun hl hi => ⟨?sel, ?perm⟩, fun hl hi => ?ext, fun hl hi => ?ins⟩,
    fun s c f => ⟨fun hl hok hi => ⟨fun hw => ?widens, fun hw => ?narrows⟩, fun hl hpair hpart hi => ?enc,
      fun hl hpair hpart hi => ?dec⟩⟩
  case cmp => rw [exec_vecCmpOps p hp]; exact vecCmp_retires hl hi
  case red => rw [exec_vecRedOps p hp]; exact State.issueReg_retires hl hi rfl
  case bcast => exact State.issueReg_retires hl hi rfl
  case sel => exact State.issueReg_retires hl hi rfl
  case perm => exact State.issue_drawn_retires hl hi rfl
  case ext => exact State.issue_drawn_retires hl hi rfl
  case ins =>
    exact State.issue_drawn_retires hl hi
      (((s.dev.core c).lanes_counted_next f _).trans (congrArg (Core.retired · (s.dev.core c)) (Core.lanes_beyond ..)))
  case widens => exact State.issueReg_retires (by rw [hl, hok]; rfl) hi ((congrArg Core.next (if_pos hw)).trans rfl)
  case narrows => exact State.issueReg_retires (by rw [hl, hok]; rfl) hi ((congrArg Core.next (if_neg (Nat.not_le.mpr hw))).trans rfl)
  case enc => exact State.issueReg_retires (by rw [hl, decide_eq_true hpair, decide_eq_true hpart]; rfl) hi rfl
  case dec =>
    simp only [Nat.zero_add]
    exact State.issueReg_retires (by rw [hl, decide_eq_true hpair, decide_eq_true hpart]; rfl) hi rfl

end Sys2Proof.Proofs
end

section
/-! The top-k unit (R205-R208): its queue, and what the oldest instruction leaves in the lists, in scratch and in its register. -/

open Sys2Proof Sys2Proof.Machine

namespace Sys2Proof.Machine

/-! ### Issue (R152, R205) -/

/-- In exact mode there are two accumulators. -/
theorem Core.accMissing_eq_false {k : Core} {n : Nat} (h : k.exact = true → n < 2) : k.accMissing n = false := by
  rw [Core.accMissing, Bool.and_eq_false_imp]
  exact fun hx => decide_eq_false (Nat.not_le.mpr (h hx))

/-- A top-k instruction whose checks pass enters the queue, once the tile unit writes its accumulator no more. -/
theorem topIssue_queues {s : State} {c : CoreId} {f : Fields} {legal : Bool} {ss : List Nat} {op : UnitOp} {acc : Option Nat}
    {pre : Core → Option Nat} {xyz : Core → Word64 × Word64 × Word64} {x y z : Word64} (hl : legal = true) (hi : s.issues c ss [])
    (hroom : (s.dev.core c).topFree)
    (hacc : ∀ n, acc = some n → ((s.dev.core c).exact = true → n < 2) ∧
      ((s.dev.core c).tileQ.any fun x => x.accWrite.contains n) = false)
    (hpre : pre (s.dev.core c).counted = none) (hxyz : xyz (s.dev.core c).counted = (x, y, z)) :
    topIssue c f legal ss op acc pre xyz s = .next (s.queuedTop c op f x y z) := by
  have hfull : decide (2 ≤ (s.dev.core c).counted.topQ.length) = false := decide_eq_false (Nat.not_le.mpr hroom)
  have hqueued := s.goes_issued_setCore c
    { s.dev.core c with topQ := (s.dev.core c).topQ ++ [{ op := op, f := f, x := x, y := y, z := z }] }
  rw [topIssue, State.issue_issued hl hi, hpre, hxyz]
  cases acc with
  | none =>
    dsimp only
    rw [hfull]
    exact hqueued
  | some n =>
    obtain ⟨hmode, hwrites⟩ := hacc n rfl
    have hmissing : (s.dev.core c).counted.accMissing n = false := Core.accMissing_eq_false hmode
    have hwrites' : ((s.dev.core c).counted.tileQ.any fun x => x.accWrite.contains n) = false := hwrites
    dsimp only
    rw [hfull, hmissing, hwrites']
    exact hqueued

/-! ### Pushes (R206, R207) -/

section
variable (k : Core) (list : Nat) (x : Nat → TkEntry)

/-- Entries x 0, x 1, … pushed to a list in turn. -/
def Core.tkPushes (k : Core) (list : Nat) (x : Nat → TkEntry) (l : List Nat) : Core :=
  l.foldl (fun (y : Core) i => y.tkPush1 list (x i)) k

/-- A list after pushes to it: each leaves its best k entries. -/
def Core.tkBest (k : Core) (x : Nat → TkEntry) (l : List Nat) (es : List TkEntry) : List TkEntry :=
  l.foldl (fun es i => (tkInsert k.tkDesc k.tkKey (x i) es).take k.tkK) es

/-- Pushes change the lists alone, and of them the one pushed to. -/
theorem Core.tkPushes_spec (l : List Nat) : ∃ ls, k.tkPushes list x l = { k with tkLists := ls } ∧
    Map.get [] ls list = k.tkBest x l (Map.get [] k.tkLists list) ∧ ∀ n, n ≠ list → Map.get [] ls n = Map.get [] k.tkLists n := by
  induction l generalizing k with
  | nil => exact ⟨k.tkLists, rfl, rfl, fun _ _ => rfl⟩
  | cons i l ih =>
    obtain ⟨ls, hpushes, hlist, hothers⟩ := ih (k.tkPush1 list (x i))
    refine ⟨ls, hpushes, hlist.trans ?_, fun n hn => (hothers n hn).trans (Map.get_put_other _ _ _ _ _ hn)⟩
    exact congrArg (k.tkBest x l) (Map.get_put_same ..)

/-- Pushes by the number of lists are pushes to one list, for no push changes that number. -/
theorem Core.foldl_tkPush1_mod (row : Nat) (l : List Nat) :
    l.foldl (fun (y : Core) j => y.tkPush1 (row % y.tkL) (x j)) k = k.tkPushes (row % k.tkL) x l := by
  induction l generalizing k with
  | nil => rfl
  | cons j l ih => exact ih (k.tkPush1 (row % k.tkL) (x j))

end

/-- Changes of one core in turn are one change of what it holds. -/
theorem Dev.foldl_updCore {α : Type} (d : Dev) (c : Nat) (g : α → Core → Core) (k : Core) (l : List α) :
    l.foldl (fun (e : Dev) i => e.updCore c (g i)) (d.setCore c k) = d.setCore c (l.foldl (fun y i => g i y) k) := by
  induction l generalizing k with
  | nil => rfl
  | cons i l ih => rw [List.foldl_cons, Dev.updCore, Dev.core_setCore, Dev.setCore_setCore, ih, List.foldl_cons]

/-! ### The effect of the oldest instruction -/

/-- The entry of element j of the row that a TKPUSH pushes. -/
def Core.rowEntry (k : Core) (q : Queued) (j : Nat) : TkEntry :=
  { id := q.y + BitVec.ofNat 64 j, key := BitVec.ofNat 32 (k.accFp32 q.f.a.toNat q.x.toNat j) }

theorem Dev.tkList_of_lt (d : Dev) {l n : Nat} (h : n < l) : d.tkList l n = (n, d) := if_pos h

section
variable (d : Dev) (c : Nat) (k : Core) (q : Queued)

theorem Dev.topRun_tkinit (hop : q.op = .tkinit) : (d.setCore c k).topRun c q = d.setCore c
    { k with tkK := q.x.toNat, tkL := q.y.toNat, tkDesc := q.f.mod.getLsbD 0, tkKey := q.f.mod.toNat / 2 % 4, tkLists := [] } := by
  rw [Dev.topRun, hop, Dev.core_setCore]
  exact Dev.setCore_setCore ..

theorem Dev.topRun_tkpushs (hop : q.op = .tkpushs) (hlist : q.z.toNat < k.tkL) : (d.setCore c k).topRun c q = d.setCore c
    (k.tkPushes q.z.toNat (fun i => k.entryAt (q.x.toNat + 16 * i)) (List.range q.y.toNat)) := by
  rw [Dev.topRun, hop, Dev.core_setCore, Dev.tkList_of_lt _ hlist]
  exact Dev.foldl_updCore ..

theorem Dev.topRun_tkpush (hop : q.op = .tkpush) (hrow : q.x.toNat < 64) : (d.setCore c k).topRun c q = d.setCore c
    (k.tkPushes (q.x.toNat % k.tkL) (k.rowEntry q) (List.range 64)) := by
  rw [Dev.topRun, hop, Dev.core_setCore]
  simp only [Dev.tkKeyOf, if_pos hrow]
  rw [Dev.foldl_updCore, ← Core.foldl_tkPush1_mod]
  rfl

theorem Dev.topRun_tkout (hop : q.op = .tkout) (hlist : q.y.toNat < k.tkL) : (d.setCore c k).topRun c q = d.setCore c
    ((({ k with tkLists := Map.put k.tkLists q.y.toNat [] } : Core).putScratch q.x.toNat
      ((Map.get [] k.tkLists q.y.toNat).flatMap TkEntry.bytes)).setS q.f.d.toNat
        (BitVec.ofNat 64 (Map.get [] k.tkLists q.y.toNat).length)) := by
  rw [Dev.topRun, hop, Dev.core_setCore, Dev.tkList_of_lt _ hlist]
  dsimp only
  rw [Dev.updCore, Dev.core_setCore, Dev.setCore_setCore]

end

/-- A core whose top-k queue is down to the rest. -/
def Core.topRest (k : Core) (rest : List Queued) : Core := { k with topQ := rest }

/-- The oldest instruction of the unit ends: it leaves the queue and takes effect, and a core that no longer runs may have nothing
more to do. -/
theorem exec_topkUnitComplete {s : State} {c : CoreId} {q : Queued} {rest : List Queued} (hq : (s.dev.core c).topQ = q :: rest) :
    exec (.topkUnitComplete c) s =
      s.goes (if (s.dev.core c).status = .running then (s.dev.setCore c ((s.dev.core c).topRest rest)).topRun c q
        else ((s.dev.setCore c ((s.dev.core c).topRest rest)).topRun c q).coreDone c) := by
  show execTopkUnitComplete c s = _
  rw [execTopkUnitComplete]
  dsimp only
  rw [hq]
  rfl

/-- At a running core that is all. -/
theorem exec_topkUnitComplete_running {s : State} {c : CoreId} {q : Queued} {rest : List Queued} {x : Core}
    (hq : (s.dev.core c).topQ = q :: rest) (hrun : (s.dev.core c).status = .running)
    (hx : (s.dev.setCore c ((s.dev.core c).topRest rest)).topRun c q = s.dev.setCore c x) :
    exec (.topkUnitComplete c) s = .next (s.withCore c x) := by
  rw [exec_topkUnitComplete hq, if_pos hrun, hx]
  rfl

/-- An end that pushes to one list leaves its best k there, and the other lists as they were. -/
theorem exec_topkUnitComplete_pushes {s : State} {c : CoreId} {q : Queued} {rest : List Queued} {list : Nat} {x : Nat → TkEntry}
    {l : List Nat} (hq : (s.dev.core c).topQ = q :: rest) (hrun : (s.dev.core c).status = .running)
    (hx : (s.dev.setCore c ((s.dev.core c).topRest rest)).topRun c q =
      s.dev.setCore c (((s.dev.core c).topRest rest).tkPushes list x l)) :
    ∃ ls, exec (.topkUnitComplete c) s = .next (s.withCore c { (s.dev.core c).topRest rest with tkLists := ls }) ∧
      Map.get [] ls list = (s.dev.core c).tkBest x l (Map.get [] (s.dev.core c).tkLists list) ∧
      ∀ n, n ≠ list → Map.get [] ls n = Map.get [] (s.dev.core c).tkLists n := by
  obtain ⟨ls, hpushes, hspec⟩ := ((s.dev.core c).topRest rest).tkPushes_spec list x l
  exact ⟨ls, exec_topkUnitComplete_running hq hrun (hpushes ▸ hx), hspec⟩

end Sys2Proof.Machine

namespace Sys2Proof.Proofs

/-- Settles O14: the queue takes what passes its checks; the oldest instruction sets up the lists, pushes to one of them, or stores and
empties one. -/
theorem topkUnit : Obligations.TopkUnit := by
  refine ⟨fun s c f => ⟨fun hl hkey hi hfree hk1 hk2 hl1 hl2 hmul => ?init, fun hl hi hfree hmode hwrites => ?push,
      fun hl hi hfree halign hfits => ?pushs, fun hl hi hfree halign hfits => ?out⟩,
    fun s c q rest hq => ⟨fun hstop => ?stopped, fun hrun => ⟨fun hop => ?inits, fun hop hlist => ?pushesScratch,
      fun hop hrow => ?pushesRow, fun hop hlist => ?outputs⟩⟩⟩
  case init =>
    show execTkinit c f s = _
    exact topIssue_queues (by rw [hl, decide_eq_true hkey]; rfl) hi hfree (fun _ h => nomatch h)
      (if_pos (by simp only [Bool.and_eq_true, decide_eq_true_eq]; exact ⟨⟨⟨⟨hk1, hk2⟩, hl1⟩, hl2⟩, hmul⟩)) rfl
  case push =>
    show execTkpush c f s = _
    exact topIssue_queues hl hi hfree (fun _ h => Option.some.inj h ▸ ⟨hmode, hwrites⟩) rfl rfl
  case pushs =>
    show execTkpushs c f s = _
    exact topIssue_queues hl hi hfree (fun _ h => nomatch h) (Core.scratchExc_none halign hfits) rfl
  case out =>
    show execTkout c f s = _
    exact topIssue_queues hl hi hfree (fun _ h => nomatch h) (Core.scratchExc_none halign hfits) rfl
  case stopped => rw [exec_topkUnitComplete hq, if_neg hstop]; rfl
  case inits => exact exec_topkUnitComplete_running hq hrun (Dev.topRun_tkinit _ _ _ _ hop)
  case pushesScratch => exact exec_topkUnitComplete_pushes hq hrun (Dev.topRun_tkpushs _ _ _ _ hop hlist)
  case pushesRow => exact exec_topkUnitComplete_pushes hq hrun (Dev.topRun_tkpush _ _ _ _ hop hrow)
  case outputs => exact exec_topkUnitComplete_running hq hrun (Dev.topRun_tkout _ _ _ _ hop hlist)

end Sys2Proof.Proofs
end

section
/-! Reading back what was written to tier memory (R215, R218): the bytes of a range, a sector with what is kept beside it, and the
tier memory of the reset state (R241). -/

open Sys2Proof Sys2Proof.Machine

namespace Sys2Proof.Machine

theorem Sector.ofBytes_bytes (x : Sector) : Sector.ofBytes (Sector.bytes x) = x := by
  have hnat : leNat (Sector.bytes x) = x.toNat :=
    (leNat_leBytes 64 x.toNat).trans (Nat.mod_eq_of_lt (x.isLt.trans_eq (Nat.pow_mul 2 8 64)))
  rw [Sector.ofBytes, List.take_of_length_le (Sector.bytes_length x).le, hnat, BitVec.ofNat_toNat, BitVec.setWidth_eq]

/-! ### Ranges of memory -/

/-- A write of bytes leaves every address outside its range as it reads. -/
theorem Mem.read_writeBytes_other {m : List Host.Cell} (hm : Memory.wf m = true) (bs : List Byte) {k j : Nat}
    (hj : j < k ∨ k + bs.length ≤ j) : Mem.read (Mem.writeBytes m k bs) j = Mem.read m j := by
  induction bs generalizing m k with
  | nil => rfl
  | cons b bs ih =>
    rw [List.length_cons] at hj
    rw [Mem.writeBytes, ih (Mem.write_wf m k b hm) (by omega), Mem.read_write_other m 0 k j b hm (by omega)]

/-- The bytes written are read back. -/
theorem Mem.readBytes_writeBytes {m : List Host.Cell} (hm : Memory.wf m = true) (bs : List Byte) (k : Nat) :
    Mem.readBytes (Mem.writeBytes m k bs) k bs.length = bs := by
  induction bs generalizing m k with
  | nil => rfl
  | cons b bs ih =>
    have hw := Mem.write_wf m k b hm
    rw [List.length_cons, Mem.readBytes, Mem.writeBytes, Mem.read_writeBytes_other hw bs (.inl (Nat.lt_succ_self k)),
      Mem.read_write_same m 0 k b hm, ih hw]

/-- Two memories that agree on a range give the same bytes there. -/
theorem Mem.readBytes_congr {m m' : List Host.Cell} {k n : Nat} (h : ∀ j, k ≤ j → j < k + n → Mem.read m' j = Mem.read m j) :
    Mem.readBytes m' k n = Mem.readBytes m k n := by
  induction n generalizing k with
  | zero => rfl
  | succ n ih =>
    rw [Mem.readBytes, Mem.readBytes, h k (Nat.le_refl k) (by omega), ih fun j hlo hhi => h j (by omega) (by omega)]

/-! ### Sectors -/

theorem Dev.putSec_mem (d : Dev) (k : Nat) (x : Sector) (i : SectorMeta) :
    (d.putSec k x i).mem = Mem.writeBytes d.mem (64 * k) (Sector.bytes x) := by
  rw [Dev.putSec]

@[simp] theorem Dev.putSec_memWf {d : Dev} (hm : Memory.wf d.mem = true) (k : Nat) (x : Sector) (i : SectorMeta) :
    Memory.wf (d.putSec k x i).mem = true := by
  rw [Dev.putSec_mem]
  exact Mem.writeBytes_wf _ _ _ hm

theorem Dev.secData_putSec {d : Dev} (hm : Memory.wf d.mem = true) (k : Nat) (x : Sector) (i : SectorMeta) :
    (d.putSec k x i).secData k = x := by
  have hread := Mem.readBytes_writeBytes hm (Sector.bytes x) (64 * k)
  rw [Sector.bytes_length] at hread
  rw [Dev.secData, Dev.putSec_mem, hread, Sector.ofBytes_bytes]

@[simp] theorem Dev.secInfo_putSec (d : Dev) (k : Nat) (x : Sector) (i : SectorMeta) : (d.putSec k x i).secInfo k = i :=
  Map.get_put_same ..

/-- No byte outside the sector changes. -/
theorem Dev.read_putSec_other {d : Dev} (hm : Memory.wf d.mem = true) {k a : Nat} (x : Sector) (i : SectorMeta) (ha : a / 64 ≠ k) :
    Mem.read (d.putSec k x i).mem a = Mem.read d.mem a := by
  rw [Dev.putSec_mem, Mem.read_writeBytes_other hm (Sector.bytes x) (by rw [Sector.bytes_length]; omega)]

theorem Dev.secData_putSec_other {d : Dev} (hm : Memory.wf d.mem = true) {k j : Nat} (x : Sector) (i : SectorMeta) (hj : j ≠ k) :
    (d.putSec k x i).secData j = d.secData j :=
  congrArg Sector.ofBytes (Mem.readBytes_congr fun _ _ _ => Dev.read_putSec_other hm x i (by omega))

theorem Dev.secInfo_putSec_other (d : Dev) {k j : Nat} (x : Sector) (i : SectorMeta) (hj : j ≠ k) :
    (d.putSec k x i).secInfo j = d.secInfo j :=
  Map.get_put_other _ _ _ _ _ hj

end Sys2Proof.Machine

namespace Sys2Proof.Proofs

/-- Settles O57: nothing waits at reset, and no cell is listed. -/
theorem invariantsAtReset : Obligations.InvariantsAtReset :=
  ⟨fun _ hi => absurd hi List.not_mem_nil, rfl, fun _ => rfl⟩

/-- Settles O60: the sector's bytes are written as one range, which no other sector meets. -/
theorem memoryReadsWrites : Obligations.MemoryReadsWrites := fun d k x i hm =>
  ⟨d.putSec_memWf hm k x i, d.secData_putSec hm k x i, d.secInfo_putSec k x i, fun _ ha => d.read_putSec_other hm x i ha,
    fun _ hj => ⟨d.secData_putSec_other hm x i hj, d.secInfo_putSec_other x i hj⟩⟩

end Sys2Proof.Proofs
end

section
/-! What leaves tier memory alone (07_memory_tiers.md R213, R215): every operation of the block that writes no cell. In the order
of the model's files. -/

open Sys2Proof Sys2Proof.Machine

namespace Sys2Proof.Machine

/-! ### Choices and repetitions -/

@[simp] theorem Dev.mem_ite (c : Prop) [Decidable c] (x y : Dev) : (if c then x else y).mem = if c then x.mem else y.mem := apply_ite ..

@[simp] theorem Dev.snd_mem_ite {α : Type} (c : Prop) [Decidable c] (x y : α × Dev) :
    (if c then x else y).2.mem = if c then x.2.mem else y.2.mem := by split <;> rfl

@[simp] theorem Dev.fst_mem_ite {α : Type} (c : Prop) [Decidable c] (x y : Dev × α) :
    (if c then x else y).1.mem = if c then x.1.mem else y.1.mem := by split <;> rfl

@[simp] theorem Dev.foldl_mem {β : Type} {f : Dev → β → Dev} (l : List β) (d : Dev) (h : ∀ e b, (f e b).mem = e.mem) :
    (l.foldl f d).mem = d.mem := foldl_keeps Dev.mem l d h

/-! ### The state (Machine/Ops.lean) -/

@[simp] theorem Dev.putHost_mem (d : Dev) (hpa : Nat) (bs : List Byte) : (d.putHost hpa bs).mem = d.mem := by
  fun_induction Dev.putHost <;> simp [*]

@[simp] theorem Dev.freeWord_mem (d : Dev) : d.freeWord.2.mem = d.mem := by rfl

@[simp] theorem Dev.freeSector_mem (d : Dev) : d.freeSector.2.mem = d.mem := by rfl

/-! ### Faults (Machine/FaultOps.lean) -/

@[simp] theorem Dev.msixRaise_mem (d : Dev) (v : Nat) : (d.msixRaise v).mem = d.mem := by
  simp [Dev.msixRaise]

@[simp] theorem Dev.refreshPins_mem (d : Dev) : d.refreshPins.mem = d.mem := by
  simp [Dev.refreshPins]

@[simp] theorem Dev.pinCause_mem (d : Dev) (m : FaultMsg) : (d.pinCause m).mem = d.mem := by rfl

@[simp] theorem Dev.collect_mem (d : Dev) (m : FaultMsg) : (d.collect m).mem = d.mem := by
  simp [Dev.collect]

@[simp] theorem Dev.wakeBy_mem (d : Dev) (src : Nat) : (d.wakeBy src).mem = d.mem := by
  simp [Dev.wakeBy]

@[simp] theorem Dev.faultRaw_mem (d : Dev) (m : FaultMsg) : (d.faultRaw m).mem = d.mem := by
  unfold Dev.faultRaw
  dsimp only
  (repeat' split) <;> simp

@[simp] theorem Dev.fault_mem (d : Dev) (m : FaultMsg) : (d.fault m).mem = d.mem := by
  simp [Dev.fault]

@[simp] theorem Dev.marginAlert_mem (d : Dev) (q cause : Nat) : (d.marginAlert q cause).mem = d.mem := by
  simp [Dev.marginAlert]

@[simp] theorem Dev.trigger_mem (d : Dev) (t : Trigger) : (d.trigger t).mem = d.mem := by rfl

@[simp] theorem Dev.crit_mem (d : Dev) (origin : CritOrigin) (source kind info : Nat) : (d.crit origin source kind info).mem = d.mem := by
  simp [Dev.crit]

@[simp] theorem Dev.nvWrite_mem (d : Dev) (kind : Nat) : (d.nvWrite kind).mem = d.mem := by
  simp [Dev.nvWrite]

@[simp] theorem Dev.nvRecord_mem (d : Dev) (kind : Nat) : (d.nvRecord kind).mem = d.mem := by
  simp [Dev.nvRecord]

@[simp] theorem Dev.lifeLog_mem (d : Dev) (kind subject : Nat) (value : Word64) : (d.lifeLog kind subject value).mem = d.mem := by
  simp [Dev.lifeLog]

@[simp] theorem Dev.tierEvent_mem (d : Dev) (was : Bool) (f : Tier → Tier) : (d.tierEvent was f).mem = d.mem := by
  simp [Dev.tierEvent]

/-! ### The reference count (Machine/Clock.lean) -/

@[simp] theorem Dev.tick_mem (d : Dev) : d.tick.mem = d.mem := by
  simp [Dev.tick]

/-! ### Cores (Machine/CoreOps.lean) -/

@[simp] theorem Dev.setTable_mem (d : Dev) (t : Nat) (x : Option Table) : (d.setTable t x).mem = d.mem := by rfl

@[simp] theorem Dev.retireEpochs_mem (d : Dev) (t : Nat) : (d.retireEpochs t).mem = d.mem := by
  unfold Dev.retireEpochs
  split <;> simp

@[simp] theorem Dev.scratchFree_mem (d : Dev) (c o n : Nat) : (d.scratchFree c o n).mem = d.mem :=
  by
  induction n generalizing d o with
  | zero => rfl
  | succ n ih => simp [Dev.scratchFree, ih]

@[simp] theorem Dev.haltCore_mem (d : Dev) (c : Nat) (own : Bool) : (d.haltCore c own).mem = d.mem := by
  simp [Dev.haltCore]

@[simp] theorem Dev.teamStop_mem (d : Dev) (t status : Nat) : (d.teamStop t status).mem = d.mem := by
  unfold Dev.teamStop
  split <;> simp

@[simp] theorem Dev.raise_mem (d : Dev) (c code : Nat) (da : Word64) : (d.raise c code da).mem = d.mem := by
  unfold Dev.raise
  dsimp only
  (repeat' split) <;> simp

theorem Dev.issue_mem {d : Dev} {c : Nat} {legal : Bool} {ss vw : List Nat} {run : Dev → Core → Dev} (h : ∀ e k, (run e k).mem = e.mem) :
    (d.issue c legal ss vw run).mem = d.mem := by
  simp [Dev.issue, h]

@[simp] theorem Dev.issueReg_mem (d : Dev) (c : Nat) (legal : Bool) (ss vw : List Nat) (g : Core → Core) :
    (d.issueReg c legal ss vw g).mem = d.mem := Dev.issue_mem fun _ _ => rfl

/-! ### Caches (Machine/CacheOps.lean) -/

@[simp] theorem Dev.cacheSet_mem (d : Dev) (n line sec : Nat) (x : CSector) : (d.cacheSet n line sec x).mem = d.mem := by
  unfold Dev.cacheSet
  (repeat' split) <;> simp

@[simp] theorem Dev.cacheDrop_mem (d : Dev) (n line sec : Nat) : (d.cacheDrop n line sec).mem = d.mem := by
  simp [Dev.cacheDrop]

@[simp] theorem Dev.queueBlock_mem (d : Dev) (die line : Nat) (counts : Bool) : (d.queueBlock die line counts).mem = d.mem := by rfl

@[simp] theorem Dev.noteWrite_mem (d : Dev) (sector : Nat) : (d.noteWrite sector).mem = d.mem := by
  simp [Dev.noteWrite]

@[simp] theorem Dev.takeInject_mem (d : Dev) (parts : List Nat) (checker : Nat) : (d.takeInject parts checker).2.mem = d.mem := by
  simp [Dev.takeInject]

@[simp] theorem Dev.aimInject_mem (d : Dev) (by_ h : Nat) : (d.aimInject by_ h).mem = d.mem := by
  simp [Dev.aimInject]

@[simp] theorem Dev.lostEntry_mem (d : Dev) (dpa cause : Nat) : (d.lostEntry dpa cause).mem = d.mem := by
  simp [Dev.lostEntry]

@[simp] theorem Dev.setEntry_mem (d : Dev) (e : DirEntry) : (d.setEntry e).mem = d.mem := by
  unfold Dev.setEntry
  split <;> simp

@[simp] theorem Dev.updSector_mem (d : Dev) (line sec : Nat) (f : DirSector → DirSector) : (d.updSector line sec f).mem = d.mem := by
  simp [Dev.updSector]

@[simp] theorem Dev.coreReq_mem (d : Dev) (c : Nat) (kind : ReqKind) (sector : Nat) (da : Word64) (rt : RType) (f : ReqMsg → ReqMsg) :
    (d.coreReq c kind sector da rt f).mem = d.mem := by rfl

@[simp] theorem Dev.reread_mem (d : Dev) (c sector : Nat) : (d.reread c sector).mem = d.mem := by
  unfold Dev.reread
  split <;> simp

@[simp] theorem Dev.l1Release_mem (d : Dev) (c line sec : Nat) (x : CSector) : (d.l1Release c line sec x).mem = d.mem := by
  unfold Dev.l1Release
  split <;> simp

@[simp] theorem Dev.l1ReleaseLine_mem (d : Dev) (c : Nat) (l : CLine) : (d.l1ReleaseLine c l).mem = d.mem := by
  simp [Dev.l1ReleaseLine]

@[simp] theorem Dev.sideFill_mem (d : Dev) (n size line sec : Nat) (x : CSector) : (d.sideFill n size line sec x).mem = d.mem := by
  unfold Dev.sideFill
  dsimp only
  (repeat' split) <;> simp

@[simp] theorem Dev.setStack_mem (d : Dev) (s : Nat) (x : Stack) : (d.setStack s x).mem = d.mem := by rfl

@[simp] theorem Dev.updStack_mem (d : Dev) (s : Nat) (f : Stack → Stack) : (d.updStack s f).mem = d.mem := by rfl

@[simp] theorem Dev.correctSec_mem (d : Dev) (sector : Nat) : (d.correctSec sector).mem = d.mem := by
  simp [Dev.correctSec]

@[simp] theorem Dev.sideRemove_mem (d : Dev) (line : Nat) : (d.sideRemove line).mem = d.mem := by rfl

/-! ### Homes (Machine/HomeOps.lean) -/

@[simp] theorem Dev.countReject_mem (d : Dev) (ctx seg : Nat) (e : ErrStatus) : (d.countReject ctx seg e).mem = d.mem := by
  unfold Dev.countReject
  split <;> simp

@[simp] theorem Dev.setTxn_mem (d : Dev) (h slot : Nat) (t : Option Txn) : (d.setTxn h slot t).mem = d.mem := by
  unfold Dev.setTxn
  split <;> simp

@[simp] theorem Dev.sendErr_mem (d : Dev) (m : ReqMsg) (txid : Nat) (e : ErrStatus) : (d.sendErr m txid e).mem = d.mem := by
  unfold Dev.sendErr
  split
  · split <;> rfl
  · exact foldl_keeps Dev.mem _ d fun _ _ => rfl

@[simp] theorem Dev.noteBcast_mem (d : Dev) (h : Nat) : (d.noteBcast h).mem = d.mem := by rfl

@[simp] theorem Dev.biSnoop_mem (d : Dev) (kind : SnpKind) (line : Nat) (secs : List Nat) : (d.biSnoop kind line secs).mem = d.mem := by
  simp [Dev.biSnoop]

@[simp] theorem Dev.d2h_mem (d : Dev) (op : D2H) (line sec : Nat) (x : Sector) (mask : Word64) (poison : Bool) :
    (d.d2h op line sec x mask poison).mem = d.mem := by rfl

/-! ### Transactions of a home (Machine/HomeTxn.lean) -/

@[simp] theorem Dev.snpAnswer_mem (d : Dev) (t : Txn) (sec : Nat) : (d.snpAnswer t sec).mem = d.mem := by
  unfold Dev.snpAnswer
  split <;> simp

@[simp] theorem Dev.mailboxTrigger_mem (d : Dev) (q : ReqMsg) : (d.mailboxTrigger q).mem = d.mem := by
  simp [Dev.mailboxTrigger]

theorem Dev.newEntry_mem {d e : Dev} {line : Nat} (h : d.newEntry line = some e) : e.mem = d.mem := by
  unfold Dev.newEntry at h
  dsimp only at h
  split at h
  · cases h; simp
  · cases h

@[simp] theorem Dev.dirRead_mem (d : Dev) (line : Nat) : (d.dirRead line).2.mem = d.mem := by
  unfold Dev.dirRead
  split <;> simp

@[simp] theorem Dev.setBias_mem (d : Dev) (page code : Nat) : (d.setBias page code).mem = d.mem := by rfl

@[simp] theorem Dev.biInvLine_mem (d : Dev) (line : Nat) : (d.biInvLine line).mem = d.mem := by
  unfold Dev.biInvLine
  dsimp only
  (repeat' split) <;> simp

@[simp] theorem Dev.toShared_mem (d : Dev) (page : Nat) (re : Bool) : (d.toShared page re).mem = d.mem := by rfl

@[simp] theorem Dev.enqueue_mem (d : Dev) (m : ReqMsg) : (d.enqueue m).mem = d.mem := by rfl

@[simp] theorem Dev.hostIn_mem (d : Dev) (m : ReqMsg) : (d.hostIn m).mem = d.mem := by
  simp [Dev.hostIn]

@[simp] theorem Dev.hostQueue_mem (d : Dev) (m : ReqMsg) (re : Bool) : (d.hostQueue m re).mem = d.mem := by
  simp [Dev.hostQueue]

@[simp] theorem Dev.pageDevice_mem (d : Dev) (page : Nat) : (d.pageDevice page).1.mem = d.mem := by
  simp [Dev.pageDevice]

@[simp] theorem Dev.biasGo_mem (d : Dev) (n : Nat) (hs : List Nat) : (d.biasGo n hs).1.mem = d.mem := by
  induction n generalizing d hs with
  | zero => rfl
  | succ n ih => simp [Dev.biasGo, ih]

/-! ### Row flags and predictors (Machine/Flags.lean) -/

@[simp] theorem Dev.setQueue_mem (d : Dev) (q : Nat) (x : Queue) : (d.setQueue q x).mem = d.mem := by rfl

@[simp] theorem Dev.updQueue_mem (d : Dev) (q : Nat) (f : Queue → Queue) : (d.updQueue q f).mem = d.mem := by rfl

@[simp] theorem Dev.setMailbox_mem (d : Dev) (m : Nat) (x : Mailbox) : (d.setMailbox m x).mem = d.mem := by rfl

@[simp] theorem Dev.setSeg_mem (d : Dev) (ctx s : Nat) (r : SegRec) : (d.setSeg ctx s r).mem = d.mem := by rfl

@[simp] theorem Dev.setLnk_mem (d : Dev) (n : Nat) (x : Link) : (d.setLnk n x).mem = d.mem := by rfl

@[simp] theorem Dev.updLnk_mem (d : Dev) (n : Nat) (f : Link → Link) : (d.updLnk n f).mem = d.mem := by rfl

/-! ### Engines (Machine/Engine.lean) -/

@[simp] theorem Dev.l1Lose_mem (d : Dev) (c line sec : Nat) : (d.l1Lose c line sec).mem = d.mem := by
  simp [Dev.l1Lose]

@[simp] theorem Dev.ownerGone_mem (d : Dev) (line sec own : Nat) : (d.ownerGone line sec own).mem = d.mem := by
  simp [Dev.ownerGone]

@[simp] theorem Dev.putHostMasked_mem (d : Dev) (hpa : Nat) (x : Sector) (mask : Word64) : (d.putHostMasked hpa x mask).mem = d.mem := by
  simp [Dev.putHostMasked]

/-! ### Queues (Machine/QueueOps.lean) -/

theorem Dev.withRun_mem {d : Dev} {id : DescId} {ty : Nat} {op : Option Nat} {f : Run → Dev → Dev} (h : ∀ r e, (f r e).mem = e.mem) :
    (d.withRun id ty op f).mem = d.mem := by
  unfold Dev.withRun
  split
  · split
    · exact h _ _
    · rfl
  · rfl

@[simp] theorem Dev.setProg_mem (d : Dev) (i : Nat) (p : Progress) : (d.setProg i p).mem = d.mem := by rfl

@[simp] theorem Dev.takeProg_mem (d : Dev) (id : DescId) (tag i total : Nat) : (d.takeProg id tag i total).mem = d.mem := by rfl

@[simp] theorem Dev.setPos_mem (d : Dev) (id : DescId) (pos : Nat) : (d.setPos id pos).mem = d.mem := by
  unfold Dev.setPos
  split <;> simp

@[simp] theorem Dev.endRun_mem (d : Dev) (id : DescId) (status : Nat) : (d.endRun id status).mem = d.mem := by
  unfold Dev.endRun
  split <;> simp

@[simp] theorem Dev.epochBegin_mem (d : Dev) (t : Nat) : (d.epochBegin t).mem = d.mem := by
  unfold Dev.epochBegin
  dsimp only
  (repeat' split) <;> simp

@[simp] theorem Dev.closeTable_mem (d : Dev) (t : Nat) : (d.closeTable t).mem = d.mem := by
  unfold Dev.closeTable
  split <;> simp

@[simp] theorem Dev.onAdmit_mem (d : Dev) (id : DescId) : (d.onAdmit id).mem = d.mem := by
  unfold Dev.onAdmit
  (repeat' split) <;> simp

@[simp] theorem Dev.admitRun_mem (d : Dev) (id : DescId) (delayed : Bool) : (d.admitRun id delayed).mem = d.mem := by
  simp [Dev.admitRun]

@[simp] theorem Dev.admitWaiting_mem (d : Dev) : d.admitWaiting.mem = d.mem :=
  foldl_keeps (fun p : Dev × List Nat => p.1.mem) _ (d, []) fun p r => by simp

@[simp] theorem Dev.lateFor_mem (d : Dev) (id : DescId) : (d.lateFor id).mem = d.mem := by
  unfold Dev.lateFor
  split <;> simp

@[simp] theorem Dev.countTimeout_mem (d : Dev) (st : Nat) : (d.countTimeout st).mem = d.mem := by
  simp [Dev.countTimeout]

@[simp] theorem Dev.haltQueue_mem (d : Dev) (q cause : Nat) : (d.haltQueue q cause).mem = d.mem := by
  simp [Dev.haltQueue]

/-! ### Links between devices (Machine/TarucOps.lean) -/

@[simp] theorem Dev.flitOut_mem (d : Dev) (n : Nat) (f : FlitRec) (bad : Bool) : (d.flitOut n f bad).mem = d.mem := by rfl

@[simp] theorem Dev.flitNew_mem (d : Dev) (n kind fstart : Nat) (ws : List Word64) : (d.flitNew n kind fstart ws).mem = d.mem := by
  simp [Dev.flitNew]

@[simp] theorem Dev.flitMsg_mem (d : Dev) (n : Nat) (m : List Word64) : (d.flitMsg n m).mem = d.mem :=
  foldl_keeps (fun p : Dev × Bool => p.1.mem) _ _ fun p r => by simp

@[simp] theorem Dev.giveBack_mem (d : Dev) (n pool len : Nat) : (d.giveBack n pool len).mem = d.mem := by
  simp [Dev.giveBack]

@[simp] theorem Dev.passed_mem (d : Dev) (m : OutMsg) : (d.passed m).mem = d.mem := by
  unfold Dev.passed
  split <;> simp

@[simp] theorem Dev.pumpOut_mem (d : Dev) (n m : Nat) : (d.pumpOut n m).mem = d.mem := by
  fun_induction Dev.pumpOut <;> simp [*]

@[simp] theorem Dev.linkPump_mem (d : Dev) (n : Nat) : (d.linkPump n).mem = d.mem := by
  simp [Dev.linkPump]

@[simp] theorem Dev.linkPass_mem (d : Dev) (n : Nat) (m : OutMsg) : (d.linkPass n m).mem = d.mem := by
  simp [Dev.linkPass]

@[simp] theorem Dev.linkSend_mem (d : Dev) (n : Nat) (m : List Word64) : (d.linkSend n m).mem = d.mem := by
  simp [Dev.linkSend]

@[simp] theorem Dev.deliverMsg_mem (d : Dev) (m : TMsg) : (d.deliverMsg m).mem = d.mem := by rfl

@[simp] theorem Dev.sendTo_mem (d0 : Dev) (ttl : Nat) (m : List Word64) (came : optParam (Option (Nat × Nat)) none) :
    (d0.sendTo ttl m came).mem = d0.mem := by
  unfold Dev.sendTo
  dsimp only
  (repeat' split) <;> simp

@[simp] theorem Dev.sendMsg_mem (d : Dev) (m : List Word64) : (d.sendMsg m).mem = d.mem := by
  simp [Dev.sendMsg]

@[simp] theorem Dev.ackMsg_mem (d : Dev) (m : List Word64) (st : Nat) : (d.ackMsg m st).mem = d.mem := by
  simp [Dev.ackMsg]

@[simp] theorem Dev.request_mem (d : Dev) (use : TxUse) (mt dst body : Nat) (rest : List Word64) :
    (d.request use mt dst body rest).mem = d.mem := by
  simp [Dev.request]

@[simp] theorem Dev.closeTx_mem (d : Dev) (t : Nat) : (d.closeTx t).mem = d.mem := by rfl

@[simp] theorem Dev.tookMsg_mem (d : Dev) (m : TMsg) : (d.tookMsg m).mem = d.mem := by
  simp [Dev.tookMsg]

@[simp] theorem Dev.relayMsg_mem (d : Dev) (q : Nat) (m : List Word64) (dev : Nat) : (d.relayMsg q m dev).mem = d.mem := by
  simp [Dev.relayMsg]

/-! ### Tables (Machine/TableOps.lean) -/

@[simp] theorem Dev.updTable_mem (d : Dev) (t : Nat) (f : Table → Table) : (d.updTable t f).mem = d.mem := by
  unfold Dev.updTable
  split <;> simp

@[simp] theorem Dev.countLookup_mem (d : Dev) (g t : Nat) (w : List Word64) (r shard : Nat) :
    (d.countLookup g t w r shard).mem = d.mem := by
  simp [Dev.countLookup]

@[simp] theorem Dev.flushLoad_mem (d : Dev) (g : Nat) : (d.flushLoad g).mem = d.mem := by rfl

/-! ### GATHER (Machine/Gather.lean) -/

@[simp] theorem Dev.askRows_mem (d : Dev) (id : DescId) (tb : List Word64) (ep : Nat) (xs : List (Nat × Nat × Nat × Bool)) :
    (d.askRows id tb ep xs).mem = d.mem := by
  simp [Dev.askRows]

@[simp] theorem Dev.gatherEnd_mem (d : Dev) (id : DescId) : (d.gatherEnd id).mem = d.mem := by
  unfold Dev.gatherEnd
  split <;> simp

@[simp] theorem Dev.freeBytes_mem (d : Dev) (n : Nat) : (d.freeBytes n).2.mem = d.mem := by
  induction n generalizing d with
  | zero => rfl
  | succ n ih => simp [Dev.freeBytes, ih]

/-! ### Table commands (Machine/Tables.lean) -/

@[simp] theorem Dev.dropTable_mem (d : Dev) (t : Nat) : (d.dropTable t).mem = d.mem := by rfl

@[simp] theorem Dev.tableRetire_mem (d : Dev) (id : DescId) : (d.tableRetire id).mem = d.mem := Dev.withRun_mem fun r e => by simp

@[simp] theorem Dev.sketchDecay_mem (d : Dev) (id : DescId) : (d.sketchDecay id).mem = d.mem := Dev.withRun_mem fun r e => by simp

@[simp] theorem Dev.epochOpen_mem (d : Dev) (id : DescId) : (d.epochOpen id).mem = d.mem := by
  unfold Dev.epochOpen
  split <;> simp

@[simp] theorem Dev.epochAdvance_mem (d : Dev) (t : Nat) : (d.epochAdvance t).mem = d.mem := by
  unfold Dev.epochAdvance
  split <;> simp

/-! ### Row updates (Machine/UpdateOps.lean) -/

@[simp] theorem Dev.trainPred_mem (d : Dev) (u : RowUpdate) (contended : Bool) : (d.trainPred u contended).mem = d.mem := by rfl

@[simp] theorem Dev.storePre_mem (d : Dev) (t row stamp newer wc : Nat) (slot : List Byte) (poison : Bool) :
    (d.storePre t row stamp newer wc slot poison).mem = d.mem := by
  simp [Dev.storePre]

@[simp] theorem Dev.acceptStep_mem (d : Dev) (t step : Nat) (x : StepUpd) : (d.acceptStep t step x).2.mem = d.mem := by
  unfold Dev.acceptStep
  split <;> simp

@[simp] theorem Dev.setStep_mem (d : Dev) (t step : Nat) (b : Option StepBuf) : (d.setStep t step b).mem = d.mem := by rfl

@[simp] theorem Dev.stepNext_mem (d : Dev) (t n : Nat) : (d.stepNext t n).mem = d.mem := by
  fun_induction Dev.stepNext <;> simp [*]

@[simp] theorem Dev.stepRun_mem (d : Dev) (t : Nat) : (d.stepRun t).mem = d.mem := by
  simp [Dev.stepRun]

@[simp] theorem Dev.issueUpd_mem (d : Dev) (id : DescId) (x : PendUpd) : (d.issueUpd id x).mem = d.mem := by
  unfold Dev.issueUpd
  dsimp only
  (repeat' split) <;> simp

@[simp] theorem Dev.pumpUpd_mem (d : Dev) (id : DescId) : (d.pumpUpd id).mem = d.mem := by
  unfold Dev.pumpUpd
  split
  · rfl
  split
  · rfl
  · exact foldl_keeps (fun p : Dev × List Nat => p.1.mem) _ (d, []) fun p x => by simp only [Dev.fst_mem_ite]; simp

@[simp] theorem Dev.settleUpd_mem (d : Dev) (id : DescId) : (d.settleUpd id).mem = d.mem := by
  unfold Dev.settleUpd
  dsimp only
  (repeat' split) <;> simp

@[simp] theorem Dev.updPos_mem (d : Dev) (id : DescId) (pos st site : Nat) : (d.updPos id pos st site).mem = d.mem := by
  simp [Dev.updPos]

@[simp] theorem Dev.updEnd_mem (d : Dev) (u : RowUpdate) (st site : Nat) : (d.updEnd u st site).mem = d.mem := by
  unfold Dev.updEnd
  (repeat' split) <;> simp

/-! ### UPDATE (Machine/Updates.lean) -/

@[simp] theorem Dev.stepEnds_mem (d : Dev) (t step dev : Nat) : (d.stepEnds t step dev).mem = d.mem := by
  unfold Dev.stepEnds
  split <;> simp

@[simp] theorem Dev.relayUpd_mem (d : Dev) (u : RowUpdate) (dev : Nat) : (d.relayUpd u dev).mem = d.mem := by
  unfold Dev.relayUpd
  dsimp only
  split
  · simp
  split
  · simp
  · split <;> simp

@[simp] theorem Dev.tookRow_mem (d : Dev) (m : ReqMsg) : (d.tookRow m).mem = d.mem := by rfl

@[simp] theorem Dev.granuleDone_mem (d : Dev) (u : RowUpdate) (line : Nat) (r : Option ErrStatus) (site : Nat) :
    (d.granuleDone u line r site).mem = d.mem := by rfl

@[simp] theorem Dev.rowCmp_mem (d : Dev) (txid : Nat) (r : Option ErrStatus) (site : Nat) : (d.rowCmp txid r site).mem = d.mem := by
  fun_cases Dev.rowCmp <;> simp

@[simp] theorem Dev.determLimit_mem (d : Dev) (t step : Nat) : (d.determLimit t step).mem = d.mem := by
  unfold Dev.determLimit
  split <;> simp

/-! ### Migration (Machine/Migrate.lean) -/

@[simp] theorem Dev.updMigr_mem (d : Dev) (t row : Nat) (f : Migr → Migr) : (d.updMigr t row f).mem = d.mem := by rfl

@[simp] theorem Dev.dropMigr_mem (d : Dev) (id : DescId) : (d.dropMigr id).mem = d.mem := by rfl

@[simp] theorem Dev.settleMigr_mem (d : Dev) (id : DescId) : (d.settleMigr id).mem = d.mem := by
  unfold Dev.settleMigr
  split <;> simp

@[simp] theorem Dev.skipMigr_mem (d : Dev) (id : DescId) : (d.skipMigr id).mem = d.mem := by
  simp [Dev.skipMigr]

@[simp] theorem Dev.tellAbort_mem (d : Dev) (m : Migr) : (d.tellAbort m).mem = d.mem := by
  simp [Dev.tellAbort]

@[simp] theorem Dev.committed_mem (d : Dev) (t row : Nat) : (d.committed t row).mem = d.mem := by
  unfold Dev.committed
  split <;> simp

/-! ### Kernels (Machine/Kernel.lean) -/

@[simp] theorem Dev.dropUnfit_mem (d : Dev) : d.dropUnfit.mem = d.mem := by
  simp [Dev.dropUnfit]

@[simp] theorem Dev.prepCore_mem (d : Dev) (r : Run) (team rank c : Nat) (pre : List Byte) :
    (d.prepCore r team rank c pre).mem = d.mem := by
  simp [Dev.prepCore]

@[simp] theorem Dev.kernel_mem (d : Dev) (id : DescId) (_h : List HostAnswer) : (d.kernel id _h).mem = d.mem := by
  unfold Dev.kernel
  split <;> simp

@[simp] theorem Dev.staggerWindow_mem (d : Dev) (q : Nat) : (d.staggerWindow q).mem = d.mem := by
  simp [Dev.staggerWindow]

@[simp] theorem Dev.coreIdle_mem (d : Dev) (stopped : Bool) (c : Nat) : (d.coreIdle stopped c).mem = d.mem := by
  simp [Dev.coreIdle]

@[simp] theorem Dev.retireCore_mem (d : Dev) (c : Nat) : (d.retireCore c).mem = d.mem := by
  simp [Dev.retireCore]

@[simp] theorem Dev.sramError_mem (d : Dev) (c : Nat) : (d.sramError c).mem = d.mem := by
  simp [Dev.sramError]

/-! ### Descriptors (Machine/Descriptor.lean) -/

@[simp] theorem Dev.countRefusal_mem (d : Dev) (st : Nat) : (d.countRefusal st).mem = d.mem := by
  simp [Dev.countRefusal]

@[simp] theorem Dev.enterRun_mem (d : Dev) (r : Run) (err : Option Nat) : (d.enterRun r err).mem = d.mem := by
  unfold Dev.enterRun
  split <;> simp

/-! ### Completion and COPY (Machine/Queues.lean) -/

@[simp] theorem Dev.abortHead_mem (d : Dev) (q : Nat) : (d.abortHead q).mem = d.mem := by
  unfold Dev.abortHead
  split <;> simp

@[simp] theorem Dev.writeQdbCfg_mem (d : Dev) (q : Nat) (v : Word64) : (d.writeQdbCfg q v).mem = d.mem := by
  simp [Dev.writeQdbCfg]

@[simp] theorem Dev.writeQdbBase_mem (d : Dev) (q : Nat) (ring : Bool) (v : Word64) : (d.writeQdbBase q ring v).mem = d.mem := by
  simp [Dev.writeQdbBase]

@[simp] theorem Dev.doorbell_mem (d : Dev) (ctx q tail : Nat) : (d.doorbell ctx q tail).mem = d.mem := by
  simp [Dev.doorbell]

@[simp] theorem Dev.fence_mem (d : Dev) (id : DescId) : (d.fence id).mem = d.mem := Dev.withRun_mem fun r e => by simp

@[simp] theorem Dev.finishRecord_mem (d : Dev) (id : DescId) (ok : Bool) : (d.finishRecord id ok).mem = d.mem := by
  unfold Dev.finishRecord
  split <;> simp

@[simp] theorem Dev.settleCopy_mem (d : Dev) (id : DescId) : (d.settleCopy id).mem = d.mem := by
  unfold Dev.settleCopy
  split <;> simp

@[simp] theorem Dev.failCopy_mem (d : Dev) (id : DescId) (st : Nat) : (d.failCopy id st).mem = d.mem := by
  simp [Dev.failCopy]

@[simp] theorem Dev.overlapFree_mem (d : Dev) (r : Run) (off : Nat) (bs : List Byte) : (d.overlapFree r off bs).2.mem = d.mem := by
  simp [Dev.overlapFree]

@[simp] theorem Dev.countHost_mem (d : Dev) (agent n : Nat) : (d.countHost agent n).mem = d.mem := by unfold Dev.countHost; rfl

/-! ### Cache commands (Machine/Caches.lean) -/

@[simp] theorem Dev.l1Clean_mem (d : Dev) (n : Nat) (l : CLine) : (d.l1Clean n l).mem = d.mem := by
  simp [Dev.l1Clean]

@[simp] theorem Dev.opDone_mem (d : Dev) (n : Nat) (o : CacheOp) : (d.opDone n o).mem = d.mem := by rfl

@[simp] theorem Dev.startOp_mem (d : Dev) (n : Nat) (o : CacheOp) : (d.startOp n o).mem = d.mem := by rfl

@[simp] theorem Dev.enableCache_mem (d : Dev) (n : Nat) : (d.enableCache n).mem = d.mem := by rfl

@[simp] theorem Dev.disableCache_mem (d : Dev) (n : Nat) : (d.disableCache n).mem = d.mem := by
  simp [Dev.disableCache]

@[simp] theorem Dev.pcmd_mem (d : Dev) (n code : Nat) : (d.pcmd n code).mem = d.mem := by
  simp [Dev.pcmd]

@[simp] theorem Dev.writeCacheEnable_mem (d : Dev) (v : Nat) : (d.writeCacheEnable v).mem = d.mem := by
  fun_cases Dev.writeCacheEnable
  · exact foldl_keeps Dev.mem _ d fun _ _ => rfl
  · rw [Dev.foldl_mem, Dev.foldl_mem] <;> simp

@[simp] theorem Dev.cacheCommand_mem (d : Dev) (v : Nat) : (d.cacheCommand v).mem = d.mem := by
  fun_cases Dev.cacheCommand
  · rfl
  · exact foldl_keeps Dev.mem _ d fun _ _ => rfl
  · rw [Dev.setProg_mem]
    exact foldl_keeps Dev.mem _ d fun e n => by simp

@[simp] theorem Dev.wayRestore_mem (d : Dev) (v : Nat) : (d.wayRestore v).mem = d.mem := by
  simp [Dev.wayRestore]

@[simp] theorem Dev.rangeOver_mem (d : Dev) (r : Run) (done : Bool) : (d.rangeOver r done).mem = d.mem := by
  simp [Dev.rangeOver]

@[simp] theorem Dev.rangeStart_mem (d : Dev) (r : Run) : (d.rangeStart r).mem = d.mem := by
  unfold Dev.rangeStart
  dsimp only
  split
  · rfl
  split
  · simp
  split
  · rfl
  · rw [Dev.foldl_mem] <;> simp

@[simp] theorem Dev.rangeEntry_mem (d : Dev) (id : DescId) (h : Nat) : (d.rangeEntry id h).mem = d.mem := by
  unfold Dev.rangeEntry
  split <;> simp

@[simp] theorem Dev.unlockWays_mem (d : Dev) (m : Nat) : (d.unlockWays m).mem = d.mem := foldl_keeps Dev.mem _ d fun _ _ => rfl

@[simp] theorem Dev.lockWays_mem (d : Dev) (m : Nat) : (d.lockWays m).1.mem = d.mem := foldl_keeps Dev.mem _ d fun _ _ => rfl

@[simp] theorem Dev.rangeEnd_mem (d : Dev) : d.rangeEnd.mem = d.mem := by
  unfold Dev.rangeEnd
  split <;> simp

/-! ### Loads and stores (Machine/CoreMem.lean) -/

@[simp] theorem Dev.dropSettled_mem (d : Dev) (c : Nat) : (d.dropSettled c).mem = d.mem := by rfl

@[simp] theorem Dev.noteFail_mem (d : Dev) (c : Nat) (da : Word64) : (d.noteFail c da).mem = d.mem := by rfl

@[simp] theorem Dev.pfPump_mem (d : Dev) (c n : Nat) : (d.pfPump c n).mem = d.mem := by
  induction n generalizing d with
  | zero => rfl
  | succ n ih =>
    unfold Dev.pfPump
    dsimp only
    split <;> simp [ih]

@[simp] theorem Dev.pfMiss_mem (d : Dev) (c line : Nat) (da : Word64) : (d.pfMiss c line da).mem = d.mem := by
  simp [Dev.pfMiss]

@[simp] theorem Dev.pfHit_mem (d : Dev) (c line : Nat) : (d.pfHit c line).mem = d.mem := by
  simp [Dev.pfHit]

@[simp] theorem Dev.l1Touch_mem (d : Dev) (c line : Nat) : (d.l1Touch c line).mem = d.mem := by rfl

@[simp] theorem Dev.loadDone_mem (d : Dev) (c : Nat) (w : CoreWait) (sector : Nat) (x : Sector) (poison : Bool) :
    (d.loadDone c w sector x poison).mem = d.mem := by
  simp [Dev.loadDone]

@[simp] theorem Dev.loadMiss_mem (d : Dev) (c : Nat) (w : CoreWait) (kind : ReqKind) (sector : Nat) (rt : RType) :
    (d.loadMiss c w kind sector rt).mem = d.mem := by rfl

/-! ### Control (Machine/Control.lean) -/

/-! ### Messages at a home (Machine/Home.lean) -/

@[simp] theorem Dev.setHeld_mem (d : Dev) (c line sec : Nat) (st : MState) : (d.setHeld c line sec st).mem = d.mem := by
  simp [Dev.setHeld]

@[simp] theorem Dev.resend_mem (d : Dev) (c sector : Nat) : (d.resend c sector).mem = d.mem := by rfl

@[simp] theorem Dev.snpInvAt_mem (d : Dev) (m : SnpMsg) : (d.snpInvAt m).mem = d.mem := by
  simp [Dev.snpInvAt]

@[simp] theorem Dev.fwdAt_mem (d : Dev) (m : SnpMsg) (grant stays : MState → MState) : (d.fwdAt m grant stays).mem = d.mem := by
  simp [Dev.fwdAt]

@[simp] theorem Dev.snpAnswerAt_mem (d : Dev) (m : SnpMsg) : (d.snpAnswerAt m).mem = d.mem := by
  unfold Dev.snpAnswerAt
  split <;> simp

@[simp] theorem Dev.snoopIn_mem (d : Dev) (m : SnpMsg) : (d.snoopIn m).mem = d.mem := by
  simp [Dev.snoopIn]

@[simp] theorem Dev.fwdEntry_mem (d : Dev) (q : ReqMsg) (m : AnsMsg) : (d.fwdEntry q m).mem = d.mem := by
  fun_cases Dev.fwdEntry <;> simp

@[simp] theorem Dev.refuseMem_mem (d : Dev) (m : MemMsg) (kind : MemKind) (e : ErrStatus) : (d.refuseMem m kind e).mem = d.mem := by
  unfold Dev.refuseMem
  split <;> simp

/-! ### The mover (Machine/MoverOps.lean) -/

@[simp] theorem Dev.moverPieceOut_mem (d : Dev) (c i : Nat) (x : Mover) : (d.moverPieceOut c i x).mem = d.mem := by
  simp [Dev.moverPieceOut]

@[simp] theorem Dev.moverPump_mem (d : Dev) (c n : Nat) : (d.moverPump c n).mem = d.mem := by
  fun_induction Dev.moverPump <;> simp [*]

/-! ### The host link (Machine/HostLink.lean) -/

@[simp] theorem Dev.refuseHost_mem (d : Dev) (m : HostReq) (read : Bool) : (d.refuseHost m read).mem = d.mem := by rfl

@[simp] theorem Dev.ackPeers_mem (d : Dev) : d.ackPeers.mem = d.mem := by
  simp [Dev.ackPeers]

@[simp] theorem Dev.descHostError_mem (d : Dev) (id : DescId) : (d.descHostError id).mem = d.mem := by
  unfold Dev.descHostError
  split <;> simp

@[simp] theorem Dev.decoderCommit_mem (d : Dev) (n base size ways : Nat) (bi : Bool) :
    (d.decoderCommit n base size ways bi).mem = d.mem := by rfl

@[simp] theorem Dev.linkBelowCap_mem (d : Dev) (width rate : Nat) : (d.linkBelowCap width rate).mem = d.mem := by
  simp [Dev.linkBelowCap]

@[simp] theorem Dev.hostLinkUp_mem (d : Dev) (ok : Bool) (width rate cacheId biId : Nat) :
    (d.hostLinkUp ok width rate cacheId biId).mem = d.mem := by
  simp [Dev.hostLinkUp]

@[simp] theorem Dev.linkRecovery_mem (d : Dev) (width rate : Nat) : (d.linkRecovery width rate).mem = d.mem := by
  simp [Dev.linkRecovery]

@[simp] theorem Dev.hostUnknown_mem (d : Dev) : d.hostUnknown.mem = d.mem := by rfl

@[simp] theorem Dev.hostLoss_mem (d : Dev) (src : ResetSource) (info : Nat) : (d.hostLoss src info).mem = d.mem := by
  simp [Dev.hostLoss]

@[simp] theorem Dev.dlDown_mem (d : Dev) : d.dlDown.mem = d.mem := by
  simp [Dev.dlDown]

@[simp] theorem Dev.answerLimit_mem (d : Dev) : d.answerLimit.mem = d.mem := by
  simp [Dev.answerLimit]

@[simp] theorem Dev.ideFailure_mem (d : Dev) (stream : Nat) : (d.ideFailure stream).mem = d.mem := by
  simp [Dev.ideFailure]

@[simp] theorem Dev.ideRefresh_mem (d : Dev) (stream : Nat) : (d.ideRefresh stream).mem = d.mem := by
  simp [Dev.ideRefresh]

/-! ### Links (Machine/Links.lean) -/

@[simp] theorem Dev.reroute_mem (d : Dev) (n : Nat) (ms : List OutMsg) : (d.reroute n ms).mem = d.mem := by
  simp [Dev.reroute]

@[simp] theorem Dev.linkDown_mem (d : Dev) (n : Nat) : (d.linkDown n).mem = d.mem := by
  simp [Dev.linkDown]

@[simp] theorem Dev.linkRetrain_mem (d : Dev) (n : Nat) : (d.linkRetrain n).mem = d.mem := by rfl

@[simp] theorem Dev.idle_mem (d : Dev) (n : Nat) : (d.idle n).mem = d.mem := by
  simp [Dev.idle]

@[simp] theorem Dev.replay_mem (d : Dev) (n from_ : Nat) : (d.replay n from_).mem = d.mem := by
  simp [Dev.replay]

@[simp] theorem Dev.sendProbe_mem (d : Dev) (n : Nat) : (d.sendProbe n).mem = d.mem := by
  simp [Dev.sendProbe]

@[simp] theorem Dev.phyTrained_mem (d : Dev) (n medium loss latency : Nat) : (d.phyTrained n medium loss latency).mem = d.mem := by
  simp [Dev.phyTrained]

@[simp] theorem Dev.capx_mem (d : Dev) (n : Nat) (ws : List Word64) : (d.capx n ws).mem = d.mem := by
  simp [Dev.capx]

@[simp] theorem Dev.lenprobe_mem (d : Dev) (n : Nat) (ws : List Word64) : (d.lenprobe n ws).mem = d.mem := by
  simp [Dev.lenprobe]

@[simp] theorem Dev.linkReady_mem (d : Dev) (n : Nat) : (d.linkReady n).mem = d.mem :=
  (foldl_keeps Dev.mem _ _ fun e n => by simp).trans (by simp)

@[simp] theorem Dev.lenecho_mem (d : Dev) (n : Nat) (ws : List Word64) : (d.lenecho n ws).mem = d.mem := by
  simp [Dev.lenecho]

@[simp] theorem Dev.msgIn_mem (d : Dev) (n : Nat) (m : List Word64) : (d.msgIn n m).mem = d.mem := by
  simp [Dev.msgIn]

@[simp] theorem Dev.nakFor_mem (d : Dev) (n : Nat) : (d.nakFor n).mem = d.mem := by
  simp [Dev.nakFor]

@[simp] theorem Dev.flitHeader_mem (d : Dev) (n : Nat) (hdr : Word64) : (d.flitHeader n hdr).mem = d.mem := by
  simp [Dev.flitHeader]

@[simp] theorem Dev.flitIn_mem (d : Dev) (n : Nat) (hdr : Word64) (ws : List Word64) (crc : Word64) :
    (d.flitIn n hdr ws crc).mem = d.mem := by
  simp [Dev.flitIn]

@[simp] theorem Dev.nak_mem (d : Dev) (n fseq : Nat) : (d.nak n fseq).mem = d.mem := by
  simp [Dev.nak]

@[simp] theorem Dev.retryTimeout_mem (d : Dev) (n : Nat) : (d.retryTimeout n).mem = d.mem := by
  unfold Dev.retryTimeout
  split <;> simp

@[simp] theorem Dev.retrainLimit_mem (d : Dev) (n : Nat) : (d.retrainLimit n).mem = d.mem := by
  simp [Dev.retrainLimit]

@[simp] theorem Dev.linkAttempt_mem (d : Dev) (n : Nat) : (d.linkAttempt n).mem = d.mem := by
  simp [Dev.linkAttempt]

@[simp] theorem Dev.linkEnable_mem (d : Dev) (n : Nat) (v : Bool) : (d.linkEnable n v).mem = d.mem := by
  simp [Dev.linkEnable]

@[simp] theorem Dev.forceRetrain_mem (d : Dev) (n : Nat) : (d.forceRetrain n).mem = d.mem := by
  simp [Dev.forceRetrain]

/-! ### Messages of peers (Machine/Ingress.lean) -/

@[simp] theorem Dev.errAnswer_mem (d : Dev) (m : List Word64) (st : Nat) : (d.errAnswer m st).mem = d.mem := by
  simp [Dev.errAnswer]

@[simp] theorem Dev.rowAnswer_mem (d : Dev) (m : List Word64) (st : Nat) : (d.rowAnswer m st).mem = d.mem := by
  simp [Dev.rowAnswer]

@[simp] theorem Dev.epochLimit_mem (d : Dev) (m : TMsg) : (d.epochLimit m).mem = d.mem := by
  simp [Dev.epochLimit]

@[simp] theorem Dev.rowReply_mem (d : Dev) (id : DescId) (pos : Nat) (x : RowReply) : (d.rowReply id pos x).mem = d.mem := by
  simp [Dev.rowReply]

@[simp] theorem Dev.ping_mem (d : Dev) (m : TMsg) : (d.ping m).mem = d.mem := by
  simp [Dev.ping]

@[simp] theorem Dev.pong_mem (d : Dev) (m : TMsg) : (d.pong m).mem = d.mem := by
  simp [Dev.pong]

/-! ### The tiers (Machine/Tiers.lean) -/

@[simp] theorem Dev.setDie_mem (d : Dev) (k : Nat) (x : Die) : (d.setDie k x).mem = d.mem := by rfl

@[simp] theorem Dev.updDie_mem (d : Dev) (k : Nat) (f : Die → Die) : (d.updDie k f).mem = d.mem := by rfl

@[simp] theorem Dev.refresh_mem (d : Dev) (s g : Nat) : (d.refresh s g).mem = d.mem := by
  simp [Dev.refresh]

@[simp] theorem Dev.repairRow_mem (d : Dev) (s sector : Nat) : (d.repairRow s sector).mem = d.mem := by
  simp [Dev.repairRow]

@[simp] theorem Dev.passEnd_mem (d : Dev) (k : Nat) : (d.passEnd k).mem = d.mem := by
  simp [Dev.passEnd]

@[simp] theorem Dev.overtemp_mem (d : Dev) (k : Nat) : (d.overtemp k).mem = d.mem := by
  simp [Dev.overtemp]

@[simp] theorem Dev.sweepLate_mem (d : Dev) (k : Nat) : (d.sweepLate k).mem = d.mem := by
  simp [Dev.sweepLate]

@[simp] theorem Dev.endOfLife_mem (d : Dev) : d.endOfLife.2.mem = d.mem := by
  fun_cases Dev.endOfLife <;> simp

@[simp] theorem Dev.lifePersist_mem (d : Dev) : d.lifePersist.mem = d.mem := by
  simp [Dev.lifePersist]

@[simp] theorem Dev.tierSettings_mem (d : Dev) : d.tierSettings.mem = d.mem := by rfl

@[simp] theorem Dev.initProgress_mem (d : Dev) (i total : Nat) : (d.initProgress i total).mem = d.mem := by rfl

@[simp] theorem Dev.hostGiveBack_mem (d : Dev) (line sec : Nat) (x : CSector) : (d.hostGiveBack line sec x).mem = d.mem := by
  simp [Dev.hostGiveBack]

@[simp] theorem Dev.gpfPhase1_mem (d : Dev) : d.gpfPhase1.mem = d.mem := by
  simp [Dev.gpfPhase1]

/-! ### Margins (Machine/Margins.lean) -/

@[simp] theorem Dev.vreqFrame_mem (d : Dev) (q : Nat) : (d.vreqFrame q).mem = d.mem := by rfl

@[simp] theorem Dev.vreqTo_mem (d : Dev) (q mv : Nat) : (d.vreqTo q mv).mem = d.mem := by rfl

@[simp] theorem Dev.replan_mem (d : Dev) (q : Nat) : (d.replan q).mem = d.mem := by
  simp [Dev.replan]

@[simp] theorem Dev.firstBaseline_mem (d : Dev) (q : Nat) : (d.firstBaseline q).mem = d.mem := by
  simp [Dev.firstBaseline]

@[simp] theorem Dev.budgetEnd_mem (d : Dev) (q : Nat) : (d.budgetEnd q).mem = d.mem := by
  simp [Dev.budgetEnd]

@[simp] theorem Dev.planEnd_mem (d : Dev) (q : Nat) : (d.planEnd q).mem = d.mem := by
  simp [Dev.planEnd]

@[simp] theorem Dev.rateStep_mem (d : Dev) (q : Nat) : (d.rateStep q).mem = d.mem := by
  simp [Dev.rateStep]

@[simp] theorem Dev.tapRound_mem (d : Dev) (q : Nat) : (d.tapRound q).mem = d.mem := by
  simp [Dev.tapRound]

@[simp] theorem Dev.walkStep_mem (d : Dev) (q target : Nat) : (d.walkStep q target).mem = d.mem := by
  simp [Dev.walkStep]

@[simp] theorem Dev.voltSettle_mem (d : Dev) (q mv : Nat) : (d.voltSettle q mv).mem = d.mem := by
  unfold Dev.voltSettle
  dsimp only
  (repeat' split) <;> simp

@[simp] theorem Dev.suspectAnswer_mem (d : Dev) (w : List Word64) : (d.suspectAnswer w).mem = d.mem := by
  simp [Dev.suspectAnswer]

@[simp] theorem Dev.suspectPeer_mem (d : Dev) (q : Nat) (id : DescId) : (d.suspectPeer q id).mem = d.mem := by
  unfold Dev.suspectPeer
  split <;> simp

@[simp] theorem Dev.emptySides_mem (d : Dev) (q : Nat) : (d.emptySides q).mem = d.mem := foldl_keeps Dev.mem _ d fun e n => by simp

@[simp] theorem Dev.suspectReads_mem (d : Dev) (q g : Nat) : (d.suspectReads q g).mem = d.mem := by rfl

@[simp] theorem Dev.emergencyRound_mem (d : Dev) (q : Nat) : (d.emergencyRound q).mem = d.mem := by
  simp [Dev.emergencyRound]

@[simp] theorem Dev.marginDeadline_mem (d : Dev) (q : Nat) : (d.marginDeadline q).mem = d.mem := by
  simp [Dev.marginDeadline]

@[simp] theorem Dev.gateDouble_mem (d : Dev) (q : Nat) : (d.gateDouble q).mem = d.mem := by
  simp [Dev.gateDouble]

@[simp] theorem Dev.canaryRound_mem (d : Dev) (q : Nat) (ms : List Nat) (rate : Nat) : (d.canaryRound q ms rate).mem = d.mem := by
  simp [Dev.canaryRound]

@[simp] theorem Dev.replanDue_mem (d : Dev) (q : Nat) : (d.replanDue q).mem = d.mem := by
  simp [Dev.replanDue]

@[simp] theorem Dev.powerWindow_mem (d : Dev) (avg : Nat) : (d.powerWindow avg).mem = d.mem := by
  simp [Dev.powerWindow]

@[simp] theorem Dev.ageingAlert_mem (d : Dev) (q : Nat) : (d.ageingAlert q).mem = d.mem := by
  simp [Dev.ageingAlert]

@[simp] theorem Dev.refLost_mem (d : Dev) (q : Nat) : (d.refLost q).mem = d.mem := by
  simp [Dev.refLost]

@[simp] theorem Dev.refBack_mem (d : Dev) (q : Nat) : (d.refBack q).mem = d.mem := by rfl

@[simp] theorem Dev.vreqRepeat_mem (d : Dev) : d.vreqRepeat.mem = d.mem := by
  simp [Dev.vreqRepeat]

@[simp] theorem Dev.throttleOff_mem (d : Dev) : d.throttleOff.mem = d.mem := by
  unfold Dev.throttleOff
  split
  · rfl
  · rw [Dev.admitWaiting_mem]
    exact foldl_keeps Dev.mem _ _ fun _ _ => rfl

@[simp] theorem Dev.sensorSample_mem (d : Dev) (m : Sensors) : (d.sensorSample m).mem = d.mem := by
  unfold Dev.sensorSample
  dsimp only
  rw [Dev.foldl_mem, Dev.foldl_mem, Dev.foldl_mem] <;> simp

/-! ### Mailboxes (Machine/Mailbox.lean) -/

@[simp] theorem Dev.refuseMessage_mem (d : Dev) (m st : Nat) : (d.refuseMessage m st).mem = d.mem := by rfl

@[simp] theorem Dev.mailboxLimit_mem (d : Dev) (m : Nat) : (d.mailboxLimit m).mem = d.mem := by
  fun_cases Dev.mailboxLimit <;> simp

@[simp] theorem Dev.writeMailbox_mem (d : Dev) (m i : Nat) (v : Word64) : (d.writeMailbox m i v).mem = d.mem := by
  unfold Dev.writeMailbox
  split <;> simp

/-! ### Segments (Machine/Segment.lean) -/

@[simp] theorem Dev.segRefuse_mem (d : Dev) (ctx s : Nat) (r : SegRec) (code : Nat) : (d.segRefuse ctx s r code).mem = d.mem := by rfl

@[simp] theorem Dev.segKeep_mem (d : Dev) (ctx s : Nat) (r : SegRec) : (d.segKeep ctx s r).mem = d.mem := by
  simp [Dev.segKeep]

@[simp] theorem Dev.writeSegAttr_mem (d : Dev) (ctx s : Nat) (v : Word64) : (d.writeSegAttr ctx s v).mem = d.mem := by
  fun_cases Dev.writeSegAttr <;> simp

@[simp] theorem Dev.writeSegLimit_mem (d : Dev) (ctx s : Nat) (v : Word64) : (d.writeSegLimit ctx s v).mem = d.mem := by
  simp [Dev.writeSegLimit]

@[simp] theorem Dev.writeSegBase_mem (d : Dev) (ctx s : Nat) (v : Word64) : (d.writeSegBase ctx s v).mem = d.mem := by
  simp [Dev.writeSegBase]

@[simp] theorem Dev.writeCtxCtrl_mem (d : Dev) (ctx : Nat) (v : Word64) : (d.writeCtxCtrl ctx v).mem = d.mem := by
  simp [Dev.writeCtxCtrl]

@[simp] theorem Dev.updRevoke_mem (d : Dev) (id : DescId) (f : Revoke → Revoke) : (d.updRevoke id f).mem = d.mem := by rfl

@[simp] theorem Dev.revoke_mem (d : Dev) (id : DescId) : (d.revoke id).mem = d.mem := by
  unfold Dev.revoke
  split <;> simp

@[simp] theorem Dev.genBump_mem (d : Dev) (ctx s : Nat) : (d.genBump ctx s).mem = d.mem := by
  unfold Dev.genBump
  split <;> simp

@[simp] theorem Dev.markRevoked_mem (d : Dev) (ctx s g : Nat) : (d.markRevoked ctx s g).mem = d.mem := by rfl

@[simp] theorem Dev.genAck_mem (d : Dev) (ctx s copy : Nat) : (d.genAck ctx s copy).mem = d.mem := by
  unfold Dev.genAck
  split <;> simp

@[simp] theorem Dev.revokeDone_mem (d : Dev) (v : Revoke) : (d.revokeDone v).mem = d.mem := by
  unfold Dev.revokeDone
  dsimp only
  (repeat' split) <;> simp

@[simp] theorem Dev.markerAnswer_mem (d : Dev) (ctx s agent : Nat) : (d.markerAnswer ctx s agent).mem = d.mem := by
  unfold Dev.markerAnswer
  split <;> simp

/-! ### Resets (Machine/Reset.lean) -/

@[simp] theorem Dev.faultClear_mem (d : Dev) (v : Nat) : (d.faultClear v).mem = d.mem := by
  simp [Dev.faultClear]

@[simp] theorem Dev.faultPinDrive_mem (d : Dev) (v : Bool) : (d.faultPinDrive v).mem = d.mem := by
  simp [Dev.faultPinDrive]

@[simp] theorem Dev.srcClear_mem (d : Dev) (src : RegSource) (code : Nat) : (d.srcClear src code).mem = d.mem := by
  simp [Dev.srcClear]

@[simp] theorem Dev.inject_mem (d : Dev) (src : RegSource) (v : Word64) : (d.inject src v).mem = d.mem := by
  simp [Dev.inject]

@[simp] theorem Dev.countReset_mem (d : Dev) (t : Trigger) (cause : Bool) : (d.countReset t cause).mem = d.mem := by
  simp [Dev.countReset]

@[simp] theorem Dev.abandonOps_mem (d : Dev) (hit : Nat → Bool) : (d.abandonOps hit).mem = d.mem := by
  simp [Dev.abandonOps]

@[simp] theorem Dev.discardStores_mem (d : Dev) (c : Nat) (keep : StoreEntry → Bool) : (d.discardStores c keep).mem = d.mem := by
  simp [Dev.discardStores]

@[simp] theorem Dev.drainLimit_mem (d : Dev) : d.drainLimit.mem = d.mem := by
  unfold Dev.drainLimit
  split <;> simp

@[simp] theorem Dev.forget_mem (d : Dev) (c line sec : Nat) : (d.forget c line sec).mem = d.mem := by
  simp [Dev.forget]

@[simp] theorem Dev.holdCp_mem (d : Dev) : d.holdCp.mem = d.mem := by rfl

@[simp] theorem Dev.holdAll_mem (d : Dev) (crit : Bool) : (d.holdAll crit).mem = d.mem := by rfl

@[simp] theorem Dev.holdHl_mem (d : Dev) : d.holdHl.mem = d.mem := by rfl

@[simp] theorem Dev.restoreCtx0_mem (d : Dev) : d.restoreCtx0.mem = d.mem :=
  foldl_keeps Dev.mem _ d fun e p => by
    split
    · rfl
    · split <;> rfl

@[simp] theorem Dev.openCut_mem (d : Dev) : d.openCut.mem = d.mem :=
  foldl_keeps Dev.mem _ d fun e p => by split <;> simp

@[simp] theorem Dev.releaseCp_mem (d : Dev) : d.releaseCp.mem = d.mem := by
  simp [Dev.releaseCp]

@[simp] theorem Dev.releaseSeq_mem (d : Dev) (s : ResetSeq) : (d.releaseSeq s).mem = d.mem := by
  simp [Dev.releaseSeq]

@[simp] theorem Dev.coldStart_mem (d : Dev) : d.coldStart.mem = d.mem := by
  simp [Dev.coldStart]

@[simp] theorem Dev.releaseMg_mem (d : Dev) : d.releaseMg.mem = d.mem := by
  simp [Dev.releaseMg]

@[simp] theorem Dev.tierBegin_mem (d : Dev) : d.tierBegin.mem = d.mem := by rfl

@[simp] theorem Dev.releaseMid_mem (d : Dev) : d.releaseMid.mem = d.mem := by
  simp [Dev.releaseMid]

@[simp] theorem Dev.releaseStart_mem (d : Dev) : d.releaseStart.mem = d.mem := by
  unfold Dev.releaseStart
  split <;> simp

@[simp] theorem Dev.release_mem (d : Dev) : d.release.mem = d.mem := by
  unfold Dev.release
  split <;> simp

@[simp] theorem Dev.isolate_mem (d : Dev) (c : Nat) : (d.isolate c).mem = d.mem := by
  simp [Dev.isolate]

@[simp] theorem Dev.stopTimeout_mem (d : Dev) (c bound : Nat) : (d.stopTimeout c bound).mem = d.mem := by
  simp [Dev.stopTimeout]

@[simp] theorem Dev.critEvent_mem (d : Dev) (o : CritOrigin) (source info : Nat) : (d.critEvent o source info).mem = d.mem := by
  unfold Dev.critEvent
  split <;> simp

@[simp] theorem Dev.heartbeat_mem (d : Dev) (k : Nat) : (d.heartbeat k).mem = d.mem := by rfl

@[simp] theorem Dev.pulseEnd_mem (d : Dev) : d.pulseEnd.mem = d.mem := by
  unfold Dev.pulseEnd
  split <;> simp

@[simp] theorem Dev.bkFall_mem (d : Dev) : d.bkFall.mem = d.mem := by
  simp [Dev.bkFall]

@[simp] theorem Dev.bkRise_mem (d : Dev) : d.bkRise.mem = d.mem := by
  unfold Dev.bkRise
  dsimp only
  (repeat' split) <;> simp

@[simp] theorem Dev.perst_mem (d : Dev) : d.perst.mem = d.mem := by
  simp [Dev.perst]

@[simp] theorem Dev.perstOff_mem (d : Dev) : d.perstOff.mem = d.mem := by
  simp [Dev.perstOff]

/-! ### Power states (Machine/Power.lean) -/

@[simp] theorem Dev.flushEvery_mem (d : Dev) : d.flushEvery.mem = d.mem := foldl_keeps Dev.mem _ d fun e n => by simp

@[simp] theorem Dev.powerRequest_mem (d : Dev) (target : Nat) : (d.powerRequest target).mem = d.mem := by
  simp [Dev.powerRequest]

@[simp] theorem Dev.gateLogic_mem (d : Dev) : d.gateLogic.mem = d.mem := by rfl

@[simp] theorem Dev.enterStandby_mem (d : Dev) : d.enterStandby.mem = d.mem := by
  simp [Dev.enterStandby]

@[simp] theorem Dev.enterDormant_mem (d : Dev) : d.enterDormant.mem = d.mem := by
  unfold Dev.enterDormant
  dsimp only
  exact foldl_keeps Dev.mem _ d fun e n => by simp

@[simp] theorem Dev.calPersist_mem (d : Dev) : d.calPersist.mem = d.mem := by
  simp [Dev.calPersist]

@[simp] theorem Dev.enterOff_mem (d : Dev) : d.enterOff.mem = d.mem := by
  simp [Dev.enterOff]

@[simp] theorem Dev.showOff_mem (d : Dev) : d.showOff.mem = d.mem := by rfl

@[simp] theorem Dev.entryNext_mem (d : Dev) : d.entryNext.mem = d.mem := by
  unfold Dev.entryNext
  dsimp only
  (repeat' split) <;> simp

@[simp] theorem Dev.entryStep_mem (d : Dev) : d.entryStep.mem = d.mem := by
  fun_cases Dev.entryStep <;> simp

@[simp] theorem Dev.exitDormant_mem (d : Dev) : d.exitDormant.mem = d.mem := by
  unfold Dev.exitDormant
  dsimp only
  exact foldl_keeps Dev.mem _ d fun _ _ => rfl

@[simp] theorem Dev.exitCaches_mem (d : Dev) : d.exitCaches.mem = d.mem := foldl_keeps Dev.mem _ d fun _ _ => rfl

@[simp] theorem Dev.exitCalibrate_mem (d : Dev) : d.exitCalibrate.mem = d.mem := by rfl

@[simp] theorem Dev.powerCtrl_mem (d : Dev) (src : RegSource) (target : Nat) : (d.powerCtrl src target).mem = d.mem := by
  simp [Dev.powerCtrl]

@[simp] theorem Dev.d3hot_mem (d : Dev) : d.d3hot.mem = d.mem := by
  simp [Dev.d3hot]

@[simp] theorem Dev.d0_mem (d : Dev) : d.d0.mem = d.mem := by
  simp [Dev.d0]

/-! ### The dictionary (Machine/Dictionary.lean) -/

@[simp] theorem Dev.calWrite_mem (d : Dev) (v : Word64) : (d.calWrite v).mem = d.mem := by rfl

@[simp] theorem Dev.calAdvance_mem (d : Dev) : d.calAdvance.mem = d.mem := by
  simp [Dev.calAdvance]

@[simp] theorem Dev.writeKey_mem (d : Dev) (writer : Nat) (key : BitVec 256) (seq : Word64) (role : Nat) (v : BitVec 256) :
    (d.writeKey writer key seq role v).mem = d.mem := by rfl

@[simp] theorem Dev.authFail_mem (d : Dev) (r : Nat) : (d.authFail r).mem = d.mem := by rfl

@[simp] theorem Dev.acceptSeq_mem (d : Dev) (r : Nat) (seq : Word64) : (d.acceptSeq r seq).mem = d.mem := by
  simp [Dev.acceptSeq]

@[simp] theorem Dev.sendFrame_mem (d : Dev) (via : Transport) (bs : List Byte) : (d.sendFrame via bs).mem = d.mem := by
  unfold Dev.sendFrame
  split <;> simp

@[simp] theorem Dev.respond_mem (d : Dev) (via : Transport) (h : FrameHead) (status : Nat) (key : Option (BitVec 256)) (n : Nat)
    (ents : List Word64) :
    (d.respond via h status key n ents).mem = d.mem := by
  simp [Dev.respond]

@[simp] theorem Dev.nvCompact_mem (d : Dev) : d.nvCompact.mem = d.mem := by rfl

@[simp] theorem Dev.askDefaults_mem (d : Dev) : d.askDefaults.mem = d.mem := by
  simp [Dev.askDefaults]

@[simp] theorem Dev.fnUp_mem (d : Dev) : d.fnUp.mem = d.mem := by
  simp [Dev.fnUp]

@[simp] theorem Dev.setEffect_mem (d : Dev) (key v : Nat) : (d.setEffect key v).mem = d.mem := by
  simp [Dev.setEffect]

@[simp] theorem Dev.setSetting_mem (d : Dev) (key v : Nat) : (d.setSetting key v).mem = d.mem := by
  simp [Dev.setSetting]

@[simp] theorem Dev.writeEffect_mem (d : Dev) (role : Nat) (fk : BitVec 256) (seq : Word64) (o : Obj) (key v : Nat) :
    (d.writeEffect role fk seq o key v).2.mem = d.mem := by
  simp [Dev.writeEffect]

theorem Dev.writeEntry_mem {d e : Dev} {via : Transport} {role : Nat} {fk : BitVec 256} {seq : Word64} {x : Entry} {st : Nat}
    (h : d.writeEntry via role fk seq x = some (st, e)) :
    e.mem = d.mem := by
  revert h
  fun_cases Dev.writeEntry <;> grind [Dev.writeEffect_mem, Dev.nvRecord_mem]

@[simp] theorem Dev.pushEntry_mem (d : Dev) (e : Entry) (st : Nat) : (d.pushEntry e st).mem = d.mem := by rfl

@[simp] theorem Dev.writeEntries_mem (d : Dev) (via : Transport) (role : Nat) (fk : BitVec 256) (seq : Word64) (es : List Entry) :
    (d.writeEntries via role fk seq es).1.mem = d.mem := by
  induction es generalizing d with
  | nil => rfl
  | cons x es ih =>
    unfold Dev.writeEntries
    split
    · rfl
    next st e h =>
      have he : e.mem = d.mem := Dev.writeEntry_mem h
      split
      · simp [ih, he]
      · simp [he]

@[simp] theorem Dev.popFrame_mem (d : Dev) : d.popFrame.mem = d.mem := by rfl

@[simp] theorem Dev.authFrame_mem (d : Dev) (h : FrameHead) (bs : List Byte) : (d.authFrame h bs).2.2.mem = d.mem := by
  fun_cases Dev.authFrame <;> simp

@[simp] theorem Dev.respondWrite_mem (d : Dev) (via : Transport) (h : FrameHead) (key : Option (BitVec 256)) (ents : List Word64) :
    (d.respondWrite via h key ents).mem = d.mem := by
  simp [Dev.respondWrite]

@[simp] theorem Dev.runFrame_mem (d : Dev) (f : Frame) (h : FrameHead) (es : List Entry) (key : Option (BitVec 256)) :
    (d.runFrame f h es key).mem = d.mem := by
  simp [Dev.runFrame]

@[simp] theorem Dev.handleFrame_mem (d : Dev) (op : Nat) : (d.handleFrame op).mem = d.mem := by
  unfold Dev.handleFrame
  dsimp only
  (repeat' split) <;> simp

@[simp] theorem Dev.persistLimit_mem (d : Dev) : d.persistLimit.mem = d.mem := by
  unfold Dev.persistLimit
  dsimp only
  (repeat' split) <;> simp

@[simp] theorem Dev.discoverAnswer_mem (d : Dev) : d.discoverAnswer.mem = d.mem := by
  unfold Dev.discoverAnswer
  split <;> simp

@[simp] theorem Dev.datagram_mem (d : Dev) (src dst : BitVec 128) (port dport hop : Nat) (bs : List Byte) :
    (d.datagram src dst port dport hop bs).mem = d.mem := by
  simp [Dev.datagram]

@[simp] theorem Dev.solicited_mem (d : Dev) (target : BitVec 128) : (d.solicited target).mem = d.mem := by
  simp [Dev.solicited]

@[simp] theorem Dev.fnDown_mem (d : Dev) : d.fnDown.mem = d.mem := by rfl

@[simp] theorem Dev.dadEnd_mem (d : Dev) (inUse : Bool) : (d.dadEnd inUse).mem = d.mem := by
  simp [Dev.dadEnd]

@[simp] theorem Dev.winGo_mem (d : Dev) (src : RegSource) (v : Word64) : (d.winGo src v).mem = d.mem := by
  simp [Dev.winGo]

/-! ### Registers (Machine/Registers.lean) -/

@[simp] theorem Dev.writeTierStatus_mem (d : Dev) (v : Word64) : (d.writeTierStatus v).mem = d.mem := by rfl

@[simp] theorem Dev.writeHomeStatus_mem (d : Dev) (h : Nat) (v : Word64) : (d.writeHomeStatus h v).mem = d.mem := by rfl

@[simp] theorem Dev.writeCacheStatus_mem (d : Dev) (n : Nat) (v : Word64) : (d.writeCacheStatus n v).mem = d.mem := by rfl

@[simp] theorem Dev.writeLinkStatus_mem (d : Dev) (n : Nat) (v : Word64) : (d.writeLinkStatus n v).mem = d.mem := by rfl

@[simp] theorem Dev.writeFltStatus_mem (d : Dev) (q : Nat) (v : Word64) : (d.writeFltStatus q v).mem = d.mem := by
  simp [Dev.writeFltStatus]

@[simp] theorem Dev.writeSrcInfo_mem (d : Dev) (src : RegSource) (c : Nat) (v : Word64) : (d.writeSrcInfo src c v).mem = d.mem := by
  simp [Dev.writeSrcInfo]

@[simp] theorem Dev.writePwrStatus_mem (d : Dev) (v : Word64) : (d.writePwrStatus v).mem = d.mem := by rfl

@[simp] theorem Dev.streamEnd_mem (d : Dev) (c : Nat) : (d.streamEnd c).mem = d.mem := by rfl

@[simp] theorem Dev.writeCacheCtrl_mem (d : Dev) (n : Nat) (v mask : Word64) : (d.writeCacheCtrl n v mask).mem = d.mem := by
  simp [Dev.writeCacheCtrl]

@[simp] theorem Dev.writeLinkCtrl_mem (d : Dev) (n : Nat) (v mask : Word64) : (d.writeLinkCtrl n v mask).mem = d.mem := by
  simp [Dev.writeLinkCtrl]

@[simp] theorem Dev.writeMsix_mem (d : Dev) (i : Nat) (w : Word64) : (d.writeMsix i w).mem = d.mem := by
  simp [Dev.writeMsix]

@[simp] theorem Dev.writeQueueReg_mem (d : Dev) (q i : Nat) (v mask : Word64) : (d.writeQueueReg q i v mask).mem = d.mem := by
  unfold Dev.writeQueueReg
  split <;> simp

@[simp] theorem Dev.writeSegReg_mem (d : Dev) (ctx s i : Nat) (v mask : Word64) : (d.writeSegReg ctx s i v mask).mem = d.mem := by
  unfold Dev.writeSegReg
  split <;> simp

@[simp] theorem Dev.writeCpReg_mem (d : Dev) (off : Nat) (v mask : Word64) : (d.writeCpReg off v mask).mem = d.mem := by
  simp [Dev.writeCpReg]

@[simp] theorem Dev.writeInner_mem (d : Dev) (src : RegSource) (off : Nat) (v mask : Word64) :
    (d.writeInner src off v mask).mem = d.mem := by
  simp [Dev.writeInner]

@[simp] theorem Dev.writeBar2_mem (d : Dev) (src : RegSource) (off size : Nat) (v mask raw : Word64) :
    (d.writeBar2 src off size v mask raw).mem = d.mem := by
  simp [Dev.writeBar2]

/-! ### Store buffers (Machine/Stores.lean) -/

@[simp] theorem Dev.detect_mem (d : Dev) (c : Nat) (e : StoreEntry) : (d.detect c e).mem = d.mem := by
  simp [Dev.detect]

@[simp] theorem Dev.sendStore_mem (d : Dev) (c : Nat) (e : StoreEntry) (kept : Bool) : (d.sendStore c e kept).mem = d.mem := by rfl

@[simp] theorem Dev.claimStore_mem (d : Dev) (c : Nat) (e : StoreEntry) (shared : Bool) : (d.claimStore c e shared).mem = d.mem := by
  simp [Dev.claimStore]

/-! ### Answers at a core (Machine/CoreRsp.lean) -/

@[simp] theorem Dev.compAck_mem (d : Dev) (c : Nat) (m : RspMsg) : (d.compAck c m).mem = d.mem := by rfl

@[simp] theorem Dev.hostFwd_mem (d : Dev) (m : RspMsg) : (d.hostFwd m).mem = d.mem := by
  fun_cases Dev.hostFwd <;> simp

@[simp] theorem Dev.grantIn_mem (d : Dev) (m : RspMsg) : (d.grantIn m).mem = d.mem := by
  simp [Dev.grantIn]

@[simp] theorem Dev.atomRspIn_mem (d : Dev) (m : RspMsg) : (d.atomRspIn m).mem = d.mem := by
  unfold Dev.atomRspIn
  dsimp only
  (repeat' split) <;> simp

/-! ### The top-k unit (Machine/TopK.lean) -/

@[simp] theorem Dev.tkList_mem (d : Dev) (l n : Nat) : (d.tkList l n).2.mem = d.mem := by
  simp [Dev.tkList]

@[simp] theorem Dev.tkKeyOf_mem (d : Dev) (k : Core) (n i j : Nat) : (d.tkKeyOf k n i j).2.mem = d.mem := by
  simp [Dev.tkKeyOf]

@[simp] theorem Dev.topRun_mem (d : Dev) (c : Nat) (q : Queued) : (d.topRun c q).mem = d.mem := by
  unfold Dev.topRun
  dsimp only
  split
  · rfl
  · exact foldl_keeps Dev.mem _ d fun e j => by simp
  · rw [Dev.foldl_mem, Dev.tkList_mem]
    exact fun _ _ => rfl
  · simp
  · rfl

end Sys2Proof.Machine
end

section
/-! The canonical form of tier memory (R213, R215; notes/assumptions 7) is kept by every operation that may write a cell. What an
engine does is a program of the monad `Eng`: `Eng.KeepsMem` says that it keeps the form, with one rule per construct of the monad,
and the lemma of a program follows its text by these rules. In the order of the model's files. -/

open Sys2Proof Sys2Proof.Machine

namespace Sys2Proof.Machine

/-! ### The rules -/

@[simp] theorem Memory.wf_ite (c : Prop) [Decidable c] (x y : List Host.Cell) :
    Memory.wf (if c then x else y) = if c then Memory.wf x else Memory.wf y := apply_ite ..

/-- The block's tier memory is in canonical form. The rules below ask it of what a function gives; a claim about one block is
written out. -/
def Dev.MemOk (d : Dev) : Prop := Memory.wf d.mem = true

@[simp] theorem Dev.memOk_iff {d : Dev} : d.MemOk ↔ Memory.wf d.mem = true := Iff.rfl

/-- A step of an engine leaves tier memory in canonical form when it finds it so. -/
def Eng.KeepsMem {α : Type} (x : Eng α) : Prop :=
  ∀ ⦃d e : Dev⦄ ⦃a : α⦄, Memory.wf d.mem = true → x d = .ok (a, e) → Memory.wf e.mem = true

namespace Eng.KeepsMem
variable {α β : Type}

theorem pure (a : α) : Eng.KeepsMem (Pure.pure a) := by
  intro d e b hd h
  cases h
  exact hd

theorem throw (b : Blocked) : Eng.KeepsMem (α := α) (MonadExcept.throw b) := by
  intro d e a hd h
  cases h

theorem set {e : Dev} (he : Memory.wf e.mem = true) : Eng.KeepsMem (MonadStateOf.set e) := by
  intro d f a hd h
  cases h
  exact he

theorem modify {f : Dev → Dev} (hf : ∀ d, Memory.wf d.mem = true → (f d).MemOk) : Eng.KeepsMem (modify f) := by
  intro d e a hd h
  cases h
  exact hf d hd

theorem bind {x : Eng α} {f : α → Eng β} (hx : x.KeepsMem) (hf : ∀ a, (f a).KeepsMem) : (x >>= f).KeepsMem := by
  intro d e b hd h
  change (x d >>= fun p => f p.1 p.2) = .ok (b, e) at h
  cases hxd : x d with
  | error => rw [hxd] at h; cases h
  | ok p => rw [hxd] at h; exact hf p.1 (hx hd hxd) h

theorem get_bind {f : Dev → Eng β} (hf : ∀ d, Memory.wf d.mem = true → (f d).KeepsMem) : (get >>= f).KeepsMem :=
  fun d _ _ hd h => hf d hd hd h

theorem forM (l : List α) {f : α → Eng PUnit} (hf : ∀ a, (f a).KeepsMem) : Eng.KeepsMem (l.forM f) := by
  induction l with
  | nil => exact .pure _
  | cons a l ih => exact .bind (hf a) fun _ => ih

theorem forIn (l : List α) (b : β) {f : α → β → Eng (ForInStep β)} (hf : ∀ a b, (f a b).KeepsMem) : Eng.KeepsMem (forIn l b f) := by
  induction l generalizing b with
  | nil => exact .pure _
  | cons a l ih =>
    rw [List.forIn_cons]
    refine .bind (hf a b) fun r => ?_
    cases r with
    | done c => exact .pure _
    | yield c => exact ih c

end Eng.KeepsMem

@[simp] theorem Eng.throw_bind {α β : Type} (b : Blocked) (f : α → Eng β) :
    ((MonadExcept.throw b : Eng α) >>= f) = MonadExcept.throw b := rfl

@[simp] theorem Dev.foldl_memWf {β : Type} {f : Dev → β → Dev} {d : Dev} (hd : Memory.wf d.mem = true) (l : List β)
    (h : ∀ e b, Memory.wf e.mem = true → (f e b).MemOk) : Memory.wf (l.foldl f d).mem = true := by
  induction l generalizing d with
  | nil => exact hd
  | cons b l ih => exact ih (h d b hd)

theorem Dev.MemOk.foldl {β : Type} {f : Dev → β → Dev} {d : Dev} (hd : d.MemOk) (l : List β)
    (h : ∀ e b, Memory.wf e.mem = true → (f e b).MemOk) : (l.foldl f d).MemOk :=
  Dev.foldl_memWf hd l h

/-- What is kept beside tier memory at the host link plays no part. -/
theorem Dev.MemOk.setHl {d : Dev} (hd : d.MemOk) (hl : HLink) : Dev.MemOk { d with hl := hl } := hd

/-- Leaving cells out keeps the canonical form. -/
theorem Mem.filter_wfFrom (q : Host.Cell → Bool) {m : List Host.Cell} {lo : Nat} (hm : Mem.wfFrom lo m = true) :
    Mem.wfFrom lo (m.filter q) = true := by
  induction m generalizing lo with
  | nil => rfl
  | cons c m ih =>
    obtain ⟨i, v⟩ := c
    simp only [Mem.wfFrom, Bool.and_eq_true, decide_eq_true_eq] at hm
    obtain ⟨⟨hlo, hv⟩, hrest⟩ := hm
    by_cases hq : q (i, v) = true
    · rw [List.filter_cons_of_pos hq]
      simp only [Mem.wfFrom, Bool.and_eq_true, decide_eq_true_eq]
      exact ⟨⟨hlo, hv⟩, ih hrest⟩
    · rw [List.filter_cons_of_neg hq]
      exact ih (Mem.wfFrom_mono (by omega) hrest)

theorem Mem.filter_wf (q : Host.Cell → Bool) {m : List Host.Cell} (hm : Memory.wf m = true) : Memory.wf (m.filter q) = true :=
  Mem.filter_wfFrom q hm

/-! ### Cores (Machine/CoreOps.lean) -/

theorem Dev.issue_memWf {d : Dev} (hm : Memory.wf d.mem = true) {c : Nat} {legal : Bool} {ss vw : List Nat} {run : Dev → Core → Dev}
    (hr : ∀ e k, Memory.wf e.mem = true → (run e k).MemOk) :
    Memory.wf (d.issue c legal ss vw run).mem = true := by
  have hr' : ∀ e k, Memory.wf e.mem = true → Memory.wf (run e k).mem = true := hr
  simp [Dev.issue, hm, hr']

/-! ### Caches (Machine/CacheOps.lean) -/

@[simp] theorem Dev.memWrite_memWf {d : Dev} (hm : Memory.wf d.mem = true) (by_ : List Nat) (sector : Nat) (x : Sector) (mask : Word64)
    (poison : Bool) (epoch wclass : Nat) :
    Memory.wf (d.memWrite by_ sector x mask poison epoch wclass).mem = true := by
  simp [Dev.memWrite, hm]

@[simp] theorem Dev.poisonSec_memWf {d : Dev} (hm : Memory.wf d.mem = true) (sector : Nat) : Memory.wf (d.poisonSec sector).mem = true := by
  simp [Dev.poisonSec, hm]

@[simp] theorem Dev.loseSector_memWf {d : Dev} (hm : Memory.wf d.mem = true) (sector cause : Nat) :
    Memory.wf (d.loseSector sector cause).mem = true := by
  simp [Dev.loseSector, hm]

@[simp] theorem Dev.sliceWriteBack_memWf {d : Dev} (hm : Memory.wf d.mem = true) (line sec : Nat) (x : CSector) :
    Memory.wf (d.sliceWriteBack line sec x).mem = true := by
  simp [Dev.sliceWriteBack, hm]

@[simp] theorem Dev.sliceRelease_memWf {d : Dev} (hm : Memory.wf d.mem = true) (l : CLine) : Memory.wf (d.sliceRelease l).mem = true := by
  simp +contextual [Dev.sliceRelease, hm]

@[simp] theorem Dev.allocWay_memWf {d : Dev} (hm : Memory.wf d.mem = true) (n line : Nat) : Memory.wf (d.allocWay n line).2.mem = true := by
  unfold Dev.allocWay
  split <;> simp [hm]

@[simp] theorem Dev.cacheFill_memWf {d : Dev} (hm : Memory.wf d.mem = true) (n line sec : Nat) (x : CSector) :
    Memory.wf (d.cacheFill n line sec x).mem = true := by
  unfold Dev.cacheFill
  split
  · simpa
  · have hd := Dev.allocWay_memWf hm n line
    split <;> simp_all

@[simp] theorem Dev.sidePull_memWf {d : Dev} (hm : Memory.wf d.mem = true) (n line : Nat) : Memory.wf (d.sidePull n line).mem = true := by
  unfold Dev.sidePull
  split
  · exact hm
  dsimp only
  split
  · simpa
  · have hd := Dev.allocWay_memWf hm n line
    split <;> simp_all

@[simp] theorem Dev.reportBad_memWf {d : Dev} (hm : Memory.wf d.mem = true) (sector cause : Nat) :
    Memory.wf (d.reportBad sector cause).mem = true := by
  unfold Dev.reportBad
  split <;> simp [hm]

@[simp] theorem Dev.memRead_memWf {d : Dev} (hm : Memory.wf d.mem = true) (sector : Nat) : Memory.wf (d.memRead sector).2.2.mem = true := by
  unfold Dev.memRead
  dsimp only
  (repeat' split) <;> simp [hm]

@[simp] theorem Dev.wayError_memWf {d : Dev} (hm : Memory.wf d.mem = true) (n key : Nat) (uncorr : Bool) :
    Memory.wf (d.wayError n key uncorr).mem = true := by
  simp +contextual [Dev.wayError, hm]

/-! ### Homes (Machine/HomeOps.lean) -/

@[simp] theorem Dev.isoLose_memWf {d : Dev} (hm : Memory.wf d.mem = true) (h c line sec : Nat) :
    Memory.wf (d.isoLose h c line sec).mem = true := by
  simp [Dev.isoLose, hm]

@[simp] theorem Dev.snoop_memWf {d : Dev} (hm : Memory.wf d.mem = true) (h slot : Nat) (kind : SnpKind) (c line sec : Nat)
    (ret owner : Bool) (m : ReqMsg) :
    Memory.wf (d.snoop h slot kind c line sec ret owner m).2.mem = true := by
  simp [Dev.snoop, hm]

@[simp] theorem Dev.snoops_memWf {d : Dev} (hm : Memory.wf d.mem = true) (h slot : Nat) (cs : List Nat) (line sec : Nat) (ret : Bool)
    (m : ReqMsg) :
    Memory.wf (d.snoops h slot cs line sec ret m).2.mem = true :=
  List.foldlRecOn (motive := fun p : List Await × Dev => Memory.wf p.2.mem = true) _ _ hm fun _ hp _ _ => Dev.snoop_memWf hp ..

@[simp] theorem Dev.invSharers_memWf {d : Dev} (hm : Memory.wf d.mem = true) (h slot : Nat) (e : DirEntry) (sec : Nat) (but : List Nat)
    (m : ReqMsg) :
    Memory.wf (d.invSharers h slot e sec but m).2.mem = true := by
  simp [Dev.invSharers, hm]

@[simp] theorem Dev.recallSec_memWf {d : Dev} (hm : Memory.wf d.mem = true) (h slot : Nat) (m : ReqMsg) (line sec : Nat) (ret : Bool) :
    Memory.wf (d.recallSec h slot m line sec ret).2.mem = true := by
  simp [Dev.recallSec, hm]

@[simp] theorem Dev.planSec_memWf {d : Dev} (hm : Memory.wf d.mem = true) (h slot : Nat) (m : ReqMsg) (sec : Nat) :
    Memory.wf (d.planSec h slot m sec).2.mem = true := by
  unfold Dev.planSec
  dsimp only
  (repeat' split) <;> simp [hm]

@[simp] theorem Dev.begin_memWf {d : Dev} (hm : Memory.wf d.mem = true) (h slot : Nat) (t : Txn) :
    Memory.wf (d.begin h slot t).mem = true := by
  unfold Dev.begin
  dsimp only
  rw [Dev.setTxn_mem, Dev.biSnoop_mem]
  exact List.foldlRecOn (motive := fun p : List Await × List Await × List Nat × Dev => Memory.wf p.2.2.2.mem = true) _ _ (by simpa)
    fun p hp sec _ => Dev.planSec_memWf hp ..

@[simp] theorem Dev.homeStore_memWf {d : Dev} (hm : Memory.wf d.mem = true) (line sec : Nat) (x : Sector) (i : SectorMeta) (alloc : Bool)
    :
    Memory.wf (d.homeStore line sec x i alloc).mem = true := by
  simp [Dev.homeStore, hm]

@[simp] theorem Dev.sliceRead_memWf {d : Dev} (hm : Memory.wf d.mem = true) (line sec : Nat) :
    Memory.wf (d.sliceRead line sec).2.mem = true := by
  unfold Dev.sliceRead
  dsimp only
  (repeat' split) <;> simp [hm]

/-! ### Transactions of a home (Machine/HomeTxn.lean) -/

@[simp] theorem Dev.txnData_memWf {d : Dev} (hm : Memory.wf d.mem = true) (t : Txn) (sec : Nat) :
    Memory.wf (d.txnData t sec).2.mem = true := by
  unfold Dev.txnData
  split <;> simp [hm]

@[simp] theorem Dev.fetchSecs_memWf {d : Dev} (hm : Memory.wf d.mem = true) (h slot : Nat) (t : Txn) (secs : List Nat) :
    Memory.wf (d.fetchSecs h slot t secs).2.mem = true :=
  List.foldlRecOn (motive := fun p : List Await × Dev => Memory.wf p.2.mem = true) _ _ hm fun p hp s _ => by
    have he := Dev.txnData_memWf hp t s
    dsimp only
    split <;> simp [he]

@[simp] theorem Dev.writeSec_memWf {d : Dev} (hm : Memory.wf d.mem = true) (h slot : Nat) (m : ReqMsg) (sec : Nat) :
    Memory.wf (d.writeSec h slot m sec).2.mem = true := by
  simp [Dev.writeSec, hm]

@[simp] theorem Dev.giveSec_memWf {d : Dev} (hm : Memory.wf d.mem = true) (h slot : Nat) (t : Txn) (sec : Nat) :
    Memory.wf (d.giveSec h slot t sec).mem = true := by
  unfold Dev.giveSec
  dsimp only
  split
  · simpa
  generalize hd2 : (ite (_ = MState.I) _ _ : Dev) = d2
  have h2 : Memory.wf d2.mem = true := by
    rw [← hd2]
    simp [hm]
  split <;> simp [h2]

@[simp] theorem Dev.doAtomic_memWf {d : Dev} (hm : Memory.wf d.mem = true) (h slot : Nat) (t : Txn) (sec : Nat) :
    Memory.wf (d.doAtomic h slot t sec).mem = true := by
  simp [Dev.doAtomic, hm]

@[simp] theorem Dev.serve_memWf {d : Dev} (hm : Memory.wf d.mem = true) (h slot : Nat) (t : Txn) :
    Memory.wf (d.serve h slot t).mem = true := by
  have hw (l : List Nat) : Memory.wf (l.foldl (fun (p : List Await × Dev) s =>
      (p.1 ++ (p.2.writeSec h slot t.req s).1, (p.2.writeSec h slot t.req s).2)) ([], d.mailboxTrigger t.req)).2.mem = true :=
    List.foldlRecOn (motive := fun p : List Await × Dev => Memory.wf p.2.mem = true) _ _ (by simpa) fun p hp s _ => Dev.writeSec_memWf hp ..
  unfold Dev.serve
  dsimp only
  split
  case h_7 =>
    split
    · rw [Dev.setTxn_mem]
      exact Dev.foldl_memWf (by simpa) _ fun e s he => by simp [he]
    · simp [hm]
  all_goals simp only [Dev.setTxn_mem, Dev.fetchSecs_memWf hm, hm, hw]

@[simp] theorem Dev.deliver_memWf {d : Dev} (hm : Memory.wf d.mem = true) (h slot : Nat) (t : Txn) :
    Memory.wf (d.deliver h slot t).mem = true := by
  unfold Dev.deliver
  dsimp only
  rw [Dev.setTxn_mem]
  split <;> simp +contextual [hm]

@[simp] theorem Dev.recallVictim_memWf {d : Dev} (hm : Memory.wf d.mem = true) (line : Nat) :
    Memory.wf (d.recallVictim line).mem = true := by
  unfold Dev.recallVictim
  dsimp only
  split
  · refine Dev.begin_memWf ?_ ..
    simp [hm]
  · exact hm

@[simp] theorem Dev.serveEvict_memWf {d : Dev} (hm : Memory.wf d.mem = true) (m : ReqMsg) : Memory.wf (d.serveEvict m).mem = true := by
  have hd {f : Dev → Nat → Dev} (hf : ∀ e s, Memory.wf e.mem = true → (f e s).MemOk) :
      Memory.wf ((secsOf m.smask).foldl f d).mem = true := Dev.foldl_memWf hm _ hf
  unfold Dev.serveEvict
  dsimp only
  split
  · rw [Dev.emit_mem]
    exact hd fun e s he => by simp [he]
  · refine Dev.foldl_memWf (hd fun e s he => ?_) _ fun e s he => by simpa
    simp [he]

@[simp] theorem Dev.startReq_memWf {d : Dev} (hm : Memory.wf d.mem = true) (h : Nat) (m : ReqMsg) :
    Memory.wf (d.startReq h m).mem = true := by
  unfold Dev.startReq
  dsimp only
  split
  · simpa
  split
  · simpa
  split
  · simp [hm]
  split
  · simp [hm]
  split
  · simp [hm]
  generalize hd2 : (ite (_ = 0) _ _ : Dev) = d2
  have h2 : Memory.wf d2.mem = true := by
    rw [← hd2]
    simp [hm]
  split
  · split
    next hnew => exact Dev.begin_memWf (Dev.newEntry_mem hnew ▸ h2) ..
    · simp [h2]
  · exact Dev.begin_memWf h2 ..

theorem Dev.homeMove_memWf {d e : Dev} (hm : Memory.wf d.mem = true) {h : Nat} (hmove : d.homeMove h = some e) :
    Memory.wf e.mem = true := by
  unfold Dev.homeMove at hmove
  split at hmove
  · cases hmove
    split
    · split
      next hnew => simp [Dev.newEntry_mem hnew, hm]
      · simp [hm]
    all_goals simp [hm]
  · split at hmove
    · cases hmove
      simp [hm]
    · cases hmove

@[simp] theorem Dev.settleN_memWf {d : Dev} (hm : Memory.wf d.mem = true) (h n : Nat) : Memory.wf (d.settleN h n).mem = true := by
  induction n generalizing d with
  | zero => exact hm
  | succ n ih =>
    unfold Dev.settleN
    split
    next hmove => exact ih (Dev.homeMove_memWf hm hmove)
    · exact hm

@[simp] theorem Dev.settle1_memWf {d : Dev} (hm : Memory.wf d.mem = true) (h : Nat) : Memory.wf (d.settle1 h).mem = true := by
  simp [Dev.settle1, hm]

@[simp] theorem Dev.settle_memWf {d : Dev} (hm : Memory.wf d.mem = true) (h : Nat) : Memory.wf (d.settle h).mem = true := by
  simp +contextual [Dev.settle, hm]

@[simp] theorem Dev.acceptAs_memWf {d : Dev} (hm : Memory.wf d.mem = true) (m m' : ReqMsg) : Memory.wf (d.acceptAs m m').mem = true := by
  simp [Dev.acceptAs, hm]

@[simp] theorem Dev.acceptReq_memWf {d : Dev} (hm : Memory.wf d.mem = true) (m : ReqMsg) : Memory.wf (d.acceptReq m).mem = true := by
  simp [Dev.acceptReq, hm]

theorem Dev.answer_memWf {d : Dev} (hm : Memory.wf d.mem = true) (line : Nat) (a : Await) {f : Nat → Nat → Txn → Dev → Txn × Dev}
    (hf : ∀ h slot t e, Memory.wf e.mem = true → (f h slot t e).2.MemOk) :
    Memory.wf (d.answer line a f).mem = true := by
  unfold Dev.answer
  split
  · split
    · have hf' : ∀ h slot t, Memory.wf (f h slot t d).2.mem = true := fun h slot t => hf h slot t d hm
      simp [hf']
    · exact hm
  · exact hm

/-! ### Engines (Machine/Engine.lean) -/

@[simp] theorem Dev.beginRecall_memWf {d : Dev} (hm : Memory.wf d.mem = true) (line : Nat) : Memory.wf (d.beginRecall line).mem = true := by
  unfold Dev.beginRecall
  dsimp only
  split
  · exact Dev.settle_memWf (Dev.begin_memWf hm ..) _
  · exact hm

@[simp] theorem Dev.retrySuspect_memWf {d : Dev} (hm : Memory.wf d.mem = true) (p : Nat × Nat) :
    Memory.wf (d.retrySuspect p).mem = true := by
  simp [Dev.retrySuspect, hm]

@[simp] theorem Dev.retrySuspects_memWf {d : Dev} (hm : Memory.wf d.mem = true) : Memory.wf d.retrySuspects.mem = true := by
  simp +contextual [Dev.retrySuspects, hm]

@[simp] theorem Dev.upkeepBad_memWf {d : Dev} (hm : Memory.wf d.mem = true) (sector cause : Nat) :
    Memory.wf (d.upkeepBad sector cause).mem = true := by
  simp [Dev.upkeepBad, hm]

@[simp] theorem Dev.engine_memWf {d : Dev} (hm : Memory.wf d.mem = true) {x : Eng Unit} (hx : x.KeepsMem) :
    Memory.wf (d.engine x).mem = true := by
  unfold Dev.engine
  split
  next hok => exact hx hm hok
  · exact hm
  · exact Dev.beginRecall_memWf hm _
  · simpa

theorem engLine_keepsMem (a : Acc) (line : Nat) : (engLine a line).KeepsMem := by
  simp only [engLine, Eng.throw_bind]
  refine .get_bind fun d hd => ?_
  split
  · exact .throw _
  split
  · exact .throw _
  exact .set (by simp [hd])

theorem engCheck_keepsMem (a : Acc) (kind : ReqKind) (sector : Nat) : (engCheck a kind sector).KeepsMem := by
  unfold engCheck
  refine .get_bind fun d hd => ?_
  split
  · exact .bind (.set (by simp [hd])) fun _ => .pure _
  exact .pure _

theorem engOwner_keepsMem (a : Acc) (line sec : Nat) : (engOwner a line sec).KeepsMem := by
  simp only [engOwner, Eng.throw_bind]
  refine .get_bind fun d hd => ?_
  split
  · exact .pure _
  split
  · exact .bind (.set (by simp [hd])) fun _ => .pure _
  split
  · exact .throw _
  split
  · exact .bind (.set (by simp [hd])) fun _ => .pure _
  split
  · exact .bind (.set (by simp [hd])) fun _ => .pure _
  · exact .pure _

theorem engRead_keepsMem (a : Acc) (sector : Nat) : (engRead a sector).KeepsMem := by
  unfold engRead
  split
  · refine .get_bind fun d hd => ?_
    dsimp only
    split <;> exact .pure _
  extract_lets line sec
  refine .bind (engLine_keepsMem _ _) fun _ => .bind (engCheck_keepsMem _ _ _) fun _ => ?_
  split
  · exact .pure _
  refine .bind (engOwner_keepsMem _ _ _) fun _ => ?_
  split
  · exact .pure _
  · exact .pure _
  refine .get_bind fun d hd => ?_
  extract_lets s snooped info e side
  have he : Memory.wf e.mem = true := by
    unfold e
    split
    · split <;> simp [hd, snooped]
    · exact hd
  clear_value e
  rcases hread : e.sliceRead line sec with ⟨hit, d1⟩
  have h1 : Memory.wf d1.mem = true := by
    have hsnd := Dev.sliceRead_memWf he line sec
    rwa [hread] at hsnd
  cases hit with
  | some y => exact .bind (.set (by simp [h1])) fun _ => .pure _
  | none =>
    dsimp only
    split
    · split <;> exact .bind (.set (by simp [h1])) fun _ => .pure _
    · exact .bind (.set (by simp [h1])) fun _ => .pure _

theorem engInvalidate_keepsMem (line sec : Nat) (keep : Bool) : (engInvalidate line sec keep).KeepsMem := by
  unfold engInvalidate
  refine .get_bind fun d hd => ?_
  extract_lets -underBinder +onlyGivenNames e s cs named next
  have hnext : ∀ x, (next x).KeepsMem := fun x => by
    unfold next
    dsimp only
    split <;> exact .set (by simp [hd])
  clear_value next
  split
  · exact .bind (.throw _) fun _ => hnext _
  exact hnext _

theorem engOweAs_keepsMem (a : Acc) (kind : ReqKind) (line : Nat) (w : Await) : (engOweAs a kind line w).KeepsMem := by
  unfold engOweAs
  refine .get_bind fun d hd => ?_
  split
  · exact .set (by simp [hd])
  dsimp only
  split
  · exact .set (by simp [hd])
  · exact .throw _

theorem engOwe_keepsMem (a : Acc) (line : Nat) (w : Await) : (engOwe a line w).KeepsMem := by
  unfold engOwe
  exact engOweAs_keepsMem _ _ _ _

theorem engWrite_keepsMem (a : Acc) (sector : Nat) (x : Sector) (mask : Word64) (poison : Bool) (epoch wclass : Nat) :
    (engWrite a sector x mask poison epoch wclass).KeepsMem := by
  simp only [engWrite, Eng.throw_bind]
  split
  · refine .get_bind fun d hd => ?_
    split
    · exact .pure _
    · exact .bind (.modify fun e he => he) fun _ => .pure _
  refine .bind (engLine_keepsMem _ _) fun _ => .bind (engCheck_keepsMem _ _ _) fun r => ?_
  split
  · exact .pure _
  refine .bind (engInvalidate_keepsMem _ _ _) fun _ => .get_bind fun d hd => ?_
  split
  · exact .bind (.set (by simp [hd])) fun _ => .bind (engOwe_keepsMem _ _ _) fun _ => .pure _
  split
  on_goal 1 =>
    split
    on_goal 2 => exact .throw _
    refine .bind (.set (by simp [hd])) fun _ => ?_
  all_goals
    refine .get_bind fun d1 h1 => ?_
    split
    on_goal 1 => refine .bind (.set (by simp [h1])) fun _ => .bind (engOwe_keepsMem _ _ _) fun _ => ?_
    all_goals
      refine .get_bind fun d2 h2 => ?_
      split <;> exact .bind (.set (by simp [h2])) fun _ => .pure _

theorem engReadUnits_keepsMem (a : SegAcc) (k n : Nat) : (engReadUnits a k n).KeepsMem := by
  induction n generalizing k with
  | zero => exact .pure _
  | succ n ih =>
    unfold engReadUnits
    refine .bind (engRead_keepsMem _ _) fun _ => ?_
    split
    · exact .pure _
    refine .bind (ih _) fun _ => ?_
    split <;> exact .pure _

theorem engReadBytes_keepsMem (a : SegAcc) (off n : Nat) : (engReadBytes a off n).KeepsMem := by
  unfold engReadBytes
  split
  · exact .pure _
  dsimp only
  refine .bind (engReadUnits_keepsMem _ _ _) fun _ => ?_
  split <;> exact .pure _

theorem engWriteUnits_keepsMem (a : SegAcc) (poison : Bool) (epochs : List Nat) (wclass fuel off : Nat) (bs : List Byte) :
    (engWriteUnits a poison epochs wclass fuel off bs).KeepsMem := by
  induction fuel generalizing epochs off bs with
  | zero => exact .pure _
  | succ n ih =>
    unfold engWriteUnits
    split
    · exact .pure _
    split
    · refine .bind (engWrite_keepsMem _ _ _ _ _ _ _) fun _ => ?_
      split
      · exact .pure _
      exact ih _ _ _

theorem engWriteBytes_keepsMem (a : SegAcc) (off : Nat) (bs : List Byte) (poison : Bool) (epoch wclass : Nat) :
    (engWriteBytes a off bs poison epoch wclass).KeepsMem := by
  unfold engWriteBytes
  exact engWriteUnits_keepsMem _ _ _ _ _ _ _

/-! ### Queues (Machine/QueueOps.lean) -/

theorem Dev.withRun_memWf {d : Dev} (hm : Memory.wf d.mem = true) {id : DescId} {ty : Nat} {op : Option Nat} {f : Run → Dev → Dev}
    (hf : ∀ r e, Memory.wf e.mem = true → (f r e).MemOk) :
    Memory.wf (d.withRun id ty op f).mem = true := by
  unfold Dev.withRun
  split
  · split
    · exact hf _ _ (by simpa)
    · exact hm
  · exact hm

theorem recordWrite_keepsMem (x : Queue) (r : Run) (status : Nat) : (recordWrite x r status).KeepsMem := by
  unfold recordWrite
  dsimp only
  exact engWrite_keepsMem _ _ _ _ _ _ _

/-! ### Tables (Machine/TableOps.lean) -/

theorem readDa_keepsMem (ac : SegBy) (da : Word64) (off n : Nat) : (readDa ac da off n).KeepsMem := by
  unfold readDa
  exact engReadBytes_keepsMem _ _ _

theorem shardEntries_keepsMem (ac : SegBy) (w : List Word64) (k n : Nat) : (shardEntries ac w k n).KeepsMem := by
  unfold shardEntries
  refine .bind (readDa_keepsMem _ _ _ _) fun _ => ?_
  split
  · exact .pure _
  split <;> exact .pure _

theorem shardEntry_keepsMem (ac : SegBy) (w : List Word64) (k : Nat) : (shardEntry ac w k).KeepsMem := by
  unfold shardEntry
  refine .bind (shardEntries_keepsMem _ _ _ _) fun _ => ?_
  split <;> exact .pure _

theorem shardSearch_keepsMem (ac : SegBy) (w : List Word64) (r n lo : Nat) (x : Nat × Nat) (hi : Nat) :
    (shardSearch ac w r n lo x hi).KeepsMem := by
  induction n generalizing lo x hi with
  | zero => exact .pure _
  | succ n ih =>
    unfold shardSearch
    split
    · exact .pure _
    dsimp only
    split
    · refine .bind (shardEntries_keepsMem _ _ _ _) fun _ => ?_
      split
      · exact .pure _
      split
      · exact .pure _
      exact ih _ _ _
    refine .bind (shardEntry_keepsMem _ _ _) fun _ => ?_
    split
    · exact .pure _
    split <;> exact ih _ _ _

theorem shardOf_keepsMem (ac : SegBy) (w : List Word64) (me r : Nat) : (shardOf ac w me r).KeepsMem := by
  unfold shardOf
  split
  · exact .pure _
  exact shardSearch_keepsMem _ _ _ _ _ _ _

theorem rowEntry_keepsMem (ac : SegBy) (w : List Word64) (k first r : Nat) : (rowEntry ac w k first r).KeepsMem := by
  unfold rowEntry
  refine .get_bind fun d hd => ?_
  dsimp only
  split
  · split <;> exact .pure _
  split
  · exact .pure _
  refine .bind (.set (by simp [hd])) fun _ => .bind (engReadBytes_keepsMem _ _ _) fun _ => ?_
  split
  · exact .pure _
  split <;> exact .pure _

theorem resolveRow_keepsMem (ac : SegBy) (w : List Word64) (me r : Nat) (fwded : Bool) : (resolveRow ac w me r fwded).KeepsMem := by
  unfold resolveRow
  split
  · exact .pure _
  refine .bind (shardOf_keepsMem _ _ _ _) fun _ => ?_
  split
  · exact .pure _
  refine .get_bind fun d hd => ?_
  split
  · exact .pure _
  exact .bind (rowEntry_keepsMem _ _ _ _ _) fun _ => .pure _

theorem uncounted_keepsMem {α : Type} {x : Eng α} (hx : x.KeepsMem) : (uncounted x).KeepsMem := by
  unfold uncounted
  exact .get_bind fun d _ => .bind hx fun _ => .bind (.modify fun e he => he) fun _ => .pure _

theorem serveRow_keepsMem (ac : SegBy) (t : Nat) (w : List Word64) (r : Nat) (e : RowEnt) (ep : Option Nat) (skipCar : Bool) :
    (serveRow ac t w r e ep skipCar).KeepsMem := by
  unfold serveRow
  refine .get_bind fun d hd => ?_
  extract_lets -underBinder +onlyGivenNames next
  have hnext : ∀ x, (next x).KeepsMem := fun x => by
    unfold next
    extract_lets -underBinder +onlyGivenNames n next3
    have hnext3 : ∀ x, (next3 x).KeepsMem := fun x => by
      unfold next3
      refine .get_bind fun d1 hd1 => ?_
      split
      · refine .bind (.modify fun e he => he) fun _ => .bind (engReadBytes_keepsMem _ _ _) fun _ => ?_
        split
        · exact .pure _
        split
        · exact .pure _
        exact .bind (.modify fun e he => he) fun _ => .pure _
      extract_lets -underBinder +onlyGivenNames next3
      have hnext3 : ∀ x, (next3 x).KeepsMem := fun x => by
        unfold next3
        refine .bind (.modify fun e he => he) fun _ => .bind (engReadBytes_keepsMem _ _ _) fun _ => ?_
        split
        · exact .pure _
        refine .get_bind fun d2 hd2 => ?_
        split
        · split
          · exact .pure _
          dsimp only
          refine .bind (.set (by simp [hd2])) fun _ => ?_
          split <;> exact .pure _
        exact .pure _
      clear_value next3
      split
      · exact .bind (.modify fun e he => he) fun _ => hnext3 _
      exact hnext3 _
    clear_value next3
    split
    · refine .bind (readDa_keepsMem _ _ _ _) fun _ => ?_
      split
      · exact .bind (.pure _) fun _ => hnext3 _
      exact .bind (.modify fun e he => he) fun _ => .bind (.pure _) fun _ => hnext3 _
    exact .bind (.pure _) fun _ => hnext3 _
  clear_value next
  split
  · exact .bind (.throw _) fun _ => hnext _
  exact hnext _

/-! ### GATHER (Machine/Gather.lean) -/

theorem checkGather_keepsMem (w : List Word64) (ctx : Nat) (inlineX : Option Nat) (scratch : Bool) (h : List HostAnswer) :
    (checkGather w ctx inlineX scratch h).KeepsMem := by
  unfold checkGather
  refine .get_bind fun d hd => ?_
  split
  · exact .pure _
  dsimp only
  split
  · exact .pure _
  split
  · exact .pure _
  split
  · exact .pure _
  split
  · exact .pure _
  refine .bind (engReadBytes_keepsMem _ _ _) fun _ => ?_
  split
  · exact .pure _
  refine .bind (engReadBytes_keepsMem _ _ _) fun _ => ?_
  split
  · exact .pure _
  split <;> exact .pure _

theorem bagOffset_keepsMem (r : Run) (ac : SegBy) (b : Nat) : (bagOffset r ac b).KeepsMem := by
  unfold bagOffset
  split
  · exact .pure _
  refine .bind (readDa_keepsMem _ _ _ _) fun _ => ?_
  split <;> exact .pure _

theorem indexAt_keepsMem (r : Run) (ac : SegBy) (p : Nat) : (indexAt r ac p).KeepsMem := by
  unfold indexAt
  dsimp only
  split
  · exact .pure _
  refine .bind (readDa_keepsMem _ _ _ _) fun _ => ?_
  split <;> exact .pure _

theorem resolveBag_keepsMem (r : Run) (ac tac : SegBy) (tb : List Word64) (me p n : Nat) : (resolveBag r ac tac tb me p n).KeepsMem := by
  induction n generalizing p with
  | zero => exact .pure _
  | succ n ih =>
    unfold resolveBag
    refine .bind (indexAt_keepsMem _ _ _) fun _ => ?_
    split
    · exact .pure _
    dsimp only
    split
    · refine .bind (.pure _) fun _ => .bind (ih _) fun _ => ?_
      split <;> exact .pure _
    split
    · refine .bind (.pure _) fun _ => .bind (ih _) fun _ => ?_
      split <;> exact .pure _
    refine .bind (resolveRow_keepsMem _ _ _ _ _) fun _ => .bind (.pure _) fun _ => .bind (ih _) fun _ => ?_
    split <;> exact .pure _

theorem serveIdx_keepsMem (r : Run) (tac : SegBy) (t : Nat) (tb : List Word64) (p : Nat) (x : IdxRes) :
    (serveIdx r tac t tb p x).KeepsMem := by
  unfold serveIdx
  dsimp only
  split
  · exact .pure _
  split
  · exact .pure _
  · exact .pure _
  · exact .pure _
  · split
    · split
      · exact .pure _
      split
      · exact .pure _
      split <;> exact .pure _
    exact .pure _
  · refine .bind (serveRow_keepsMem _ _ _ _ _ _ _) fun _ => ?_
    split <;> exact .pure _

theorem weightAt_keepsMem (r : Run) (ac : SegBy) (p : Nat) : (weightAt r ac p).KeepsMem := by
  unfold weightAt
  split
  · exact .pure _
  dsimp only
  refine .bind (readDa_keepsMem _ _ _ _) fun _ => ?_
  split <;> exact .pure _

theorem outWrite_keepsMem (r : Run) (ac : SegBy) (off : Nat) (bs : List Byte) (poison : Bool) : (outWrite r ac off bs poison).KeepsMem := by
  unfold outWrite
  split
  · refine .get_bind fun d hd => ?_
    dsimp only
    split
    · exact .pure _
    exact .bind (.set (by simp [hd])) fun _ => .pure _
  refine .bind (engWriteBytes_keepsMem _ _ _ _ _ _) fun _ => ?_
  split <;> exact .pure _

theorem bagRows_keepsMem (r : Run) (ac tac : SegBy) (t : Nat) (tb : List Word64) (g : Nat) (xs : List (Nat × IdxRes)) (acc : BagAcc) :
    (bagRows r ac tac t tb g xs acc).KeepsMem := by
  induction xs generalizing acc with
  | nil => exact .pure _
  | cons y ys ih =>
    unfold bagRows
    refine .bind (serveIdx_keepsMem _ _ _ _ _ _) fun _ => ?_
    split
    · exact .pure _
    · exact ih _
    · exact ih _
    · split
      · refine .bind (outWrite_keepsMem _ _ _ _ _) fun _ => ?_
        split
        · exact .pure _
        exact ih _
      exact ih _
    · extract_lets -underBinder +onlyGivenNames next
      have hnext : ∀ x, (next x).KeepsMem := fun x => by
        unfold next
        dsimp only
        split
        · refine .bind (outWrite_keepsMem _ _ _ _ _) fun _ => ?_
          split
          · exact .pure _
          exact ih _
        refine .bind (weightAt_keepsMem _ _ _) fun _ => ?_
        split
        · exact .pure _
        exact ih _
      clear_value next
      split
      · split
        · exact .bind (.modify fun e he => by simp [he]) fun _ => hnext _
        exact hnext _
      exact hnext _

theorem cleanBelow_keepsMem (r : Run) (ac : SegBy) (n : Nat) : (cleanBelow r ac n).KeepsMem := by
  induction n with
  | zero => exact .pure _
  | succ n ih =>
    unfold cleanBelow
    refine .bind (bagOffset_keepsMem _ _ _) fun _ => ?_
    split
    · exact .pure _
    split
    · exact ih
    exact .pure _

theorem cleanAbove_keepsMem (r : Run) (ac : SegBy) (b n : Nat) : (cleanAbove r ac b n).KeepsMem := by
  induction n generalizing b with
  | zero => exact .pure _
  | succ n ih =>
    unfold cleanAbove
    refine .bind (bagOffset_keepsMem _ _ _) fun _ => ?_
    split
    · exact .pure _
    split
    · exact ih _
    exact .pure _

theorem poisonOuts_keepsMem (r : Run) (ac : SegBy) (tb : List Word64) (p n : Nat) : (poisonOuts r ac tb p n).KeepsMem := by
  induction n generalizing p with
  | zero => exact .pure _
  | succ n ih =>
    unfold poisonOuts
    refine .bind (outWrite_keepsMem _ _ _ _ _) fun _ => ?_
    split
    · exact .pure _
    exact ih _

theorem gatherBag_keepsMem (id : DescId) (h : List HostAnswer) : (gatherBag id h).KeepsMem := by
  unfold gatherBag
  refine .get_bind fun d hd => ?_
  split
  · exact .pure _
  split
  · exact .pure _
  split
  · exact .set (by simp [hd])
  dsimp only
  split
  · exact .set (by simp [hd])
  split
  · exact .set (by simp [hd])
  refine .bind (bagOffset_keepsMem _ _ _) fun _ => ?_
  split
  · exact .modify fun e he => by simp [he]
  refine .bind (bagOffset_keepsMem _ _ _) fun _ => ?_
  split
  · exact .modify fun e he => by simp [he]
  split
  · split
    · refine .bind (cleanBelow_keepsMem _ _ _) fun _ => ?_
      split
      · exact .modify fun e he => by simp [he]
      refine .bind (cleanAbove_keepsMem _ _ _ _) fun _ => ?_
      split
      · exact .modify fun e he => by simp [he]
      refine .bind (poisonOuts_keepsMem _ _ _ _ _) fun _ => ?_
      split <;> exact .modify fun e he => by simp [he]
    refine .bind (outWrite_keepsMem _ _ _ _ _) fun _ => ?_
    split <;> exact .modify fun e he => by simp [he]
  split
  · exact .modify fun e he => by simp [he]
  refine .bind (resolveBag_keepsMem _ _ _ _ _ _ _) fun _ => ?_
  split
  · exact .modify fun e he => by simp [he]
  split
  · exact .modify fun e he => by simp [he]
  refine .bind (bagRows_keepsMem _ _ _ _ _ _ _ _) fun _ => ?_
  split
  · exact .modify fun e he => by simp [he]
  split
  · refine .bind (.pure _) fun _ => ?_
    split <;> exact .modify fun e he => by simp [he]
  refine .bind (outWrite_keepsMem _ _ _ _ _) fun _ => ?_
  split <;> exact .modify fun e he => by simp [he]

theorem freeOuts_keepsMem (r : Run) (ac : SegBy) (tb : List Word64) (i n : Nat) : (freeOuts r ac tb i n).KeepsMem := by
  induction n generalizing i with
  | zero => exact .pure _
  | succ n ih =>
    unfold freeOuts
    refine .get_bind fun d hd => .bind (.set (by simp [hd])) fun _ => .bind (outWrite_keepsMem _ _ _ _ _) fun _ => ?_
    split
    · exact .pure _
    · exact ih _

theorem gatherUndef_keepsMem (id : DescId) : (gatherUndef id).KeepsMem := by
  unfold gatherUndef
  refine .get_bind fun d hd => ?_
  split
  · exact .pure _
  split
  · exact .pure _
  dsimp only
  split
  · exact .modify fun e he => he
  split
  · refine .bind (bagOffset_keepsMem _ _ _) fun _ => ?_
    split
    · exact .modify fun e he => he
    exact .bind (freeOuts_keepsMem _ _ _ _ _) fun _ => .modify fun e he => he
  exact .bind (freeOuts_keepsMem _ _ _ _ _) fun _ => .modify fun e he => he

@[simp] theorem Dev.undefOuts_memWf {d : Dev} (hm : Memory.wf d.mem = true) (id : DescId) : Memory.wf (d.undefOuts id).mem = true := by
  simp [Dev.undefOuts, hm, gatherUndef_keepsMem]

@[simp] theorem Dev.gatherBags_memWf {d : Dev} (hm : Memory.wf d.mem = true) (id : DescId) (h : List HostAnswer) (n : Nat) :
    Memory.wf (d.gatherBags id h n).mem = true := by
  induction n generalizing d with
  | zero => exact hm
  | succ n ih => exact ih (Dev.engine_memWf hm (gatherBag_keepsMem id h))

@[simp] theorem Dev.gsubDone_memWf {d0 : Dev} (hm : Memory.wf d0.mem = true) (c : Nat) (id : DescId) :
    Memory.wf (d0.gsubDone c id).mem = true := by
  unfold Dev.gsubDone
  dsimp only
  (repeat' split) <;> simp [hm]

@[simp] theorem Dev.mailboxDone_memWf {d0 : Dev} (hm : Memory.wf d0.mem = true) (m : Nat) (id : DescId) :
    Memory.wf (d0.mailboxDone m id).mem = true := by
  unfold Dev.mailboxDone
  dsimp only
  (repeat' split) <;> simp [hm]

@[simp] theorem Dev.gather_memWf {d : Dev} (hm : Memory.wf d.mem = true) (id : DescId) (n : Nat) (h : List HostAnswer) :
    Memory.wf (d.gather id n h).mem = true := by
  unfold Dev.gather
  dsimp only
  (repeat' split) <;> simp [hm]

/-! ### Table commands (Machine/Tables.lean) -/

theorem shardMapOk_keepsMem (ac : SegBy) (w : List Word64) (me k : Nat) (prev : Option (Nat × Nat)) (n : Nat) :
    (shardMapOk ac w me k prev n).KeepsMem := by
  induction n generalizing k prev with
  | zero => exact .pure _
  | succ n ih =>
    unfold shardMapOk
    refine .bind (shardEntry_keepsMem _ _ _) fun _ => ?_
    split
    · exact .pure _
    · exact .pure _
    · dsimp only
      split
      · split
        · exact ih _ _
        exact .pure _
      split
      · exact ih _ _
      exact .pure _

theorem tableDefineStep_keepsMem (id : DescId) (h : List HostAnswer) : (tableDefineStep id h).KeepsMem := by
  unfold tableDefineStep
  refine .get_bind fun d hd => ?_
  split
  · exact .pure _
  dsimp only
  refine .bind (readDa_keepsMem _ _ _ _) fun _ => ?_
  split
  · exact .modify fun e he => by simp [he]
  split
  · exact .modify fun e he => by simp [he]
  split
  · exact .modify fun e he => by simp [he]
  split
  · refine .bind (.pure _) fun _ => ?_
    split
    · exact .modify fun e he => by simp [he]
    · exact .modify fun e he => by simp [he]
    · split <;> exact .modify fun e he => by simp [he]
  refine .bind (shardMapOk_keepsMem _ _ _ _ _ _) fun _ => ?_
  split
  · exact .modify fun e he => by simp [he]
  · exact .modify fun e he => by simp [he]
  · split <;> exact .modify fun e he => by simp [he]

@[simp] theorem Dev.tableDefine_memWf {d : Dev} (hm : Memory.wf d.mem = true) (id : DescId) (h : List HostAnswer) :
    Memory.wf (d.tableDefine id h).mem = true := by
  refine Dev.withRun_memWf hm fun r e he => ?_
  simp [he, tableDefineStep_keepsMem]

theorem setCarafeBit_keepsMem (ac : SegBy) (w : List Word64) (r : Nat) (e : RowEnt) (da : Word64) (v : Bool) :
    (setCarafeBit ac w r e da v).KeepsMem := by
  unfold setCarafeBit
  exact .get_bind fun d hd => engWriteBytes_keepsMem _ _ _ _ _ _

theorem clearCarafe_keepsMem (ac : SegBy) (w : List Word64) (r : Nat) (e : RowEnt) (da : Word64) : (clearCarafe ac w r e da).KeepsMem := by
  unfold clearCarafe
  dsimp only
  refine .bind (readDa_keepsMem _ _ _ _) fun _ => ?_
  split
  · exact .pure _
  split
  · refine .bind (engWriteBytes_keepsMem _ _ _ _ _ _) fun _ => ?_
    split
    · exact .pure _
    exact setCarafeBit_keepsMem _ _ _ _ _ _
  exact setCarafeBit_keepsMem _ _ _ _ _ _

theorem carafeOp_keepsMem (ac : SegBy) (t : Nat) (w : List Word64) (evict : Bool) (row rep : Nat) :
    (carafeOp ac t w evict row rep).KeepsMem := by
  simp only [carafeOp, Eng.throw_bind]
  refine .get_bind fun d hd => .bind (uncounted_keepsMem ?_) fun _ => ?_
  · exact resolveRow_keepsMem _ _ _ _ _
  · split
    · exact .pure _
    · split
      · refine .bind (clearCarafe_keepsMem _ _ _ _ _) fun _ => ?_
        split <;> exact .pure _
      split
      · exact .pure _
      split
      · exact .throw _
      refine .bind (readDa_keepsMem _ _ _ _) fun _ => ?_
      split
      · exact .pure _
      split
      · exact .pure _
      refine .bind (engReadBytes_keepsMem _ _ _) fun _ => ?_
      split
      · exact .pure _
      split
      · exact .pure _
      refine .bind (engWriteBytes_keepsMem _ _ _ _ _ _) fun _ => ?_
      split
      · exact .pure _
      refine .bind (engWriteBytes_keepsMem _ _ _ _ _ _) fun _ => ?_
      split
      · exact .pure _
      refine .bind (setCarafeBit_keepsMem _ _ _ _ _ _) fun _ => ?_
      split <;> exact .pure _
    · exact .pure _

theorem carafeStep_keepsMem (id : DescId) (h : List HostAnswer) : (carafeStep id h).KeepsMem := by
  unfold carafeStep
  refine .get_bind fun d hd => ?_
  split
  · exact .pure _
  split
  · exact .set (by simp [hd])
  split
  · exact .pure _
  split
  · exact .set (by simp [hd])
  refine .bind (readDa_keepsMem _ _ _ _) fun _ => ?_
  split
  · exact .modify fun e he => by simp [he]
  dsimp only
  split
  · refine .bind (.pure _) fun _ => ?_
    split <;> exact .modify fun e he => by simp [he]
  refine .bind (carafeOp_keepsMem _ _ _ _ _ _) fun _ => ?_
  split <;> exact .modify fun e he => by simp [he]

@[simp] theorem Dev.carafeLoop_memWf {d : Dev} (hm : Memory.wf d.mem = true) (id : DescId) (h : List HostAnswer) (n : Nat) :
    Memory.wf (d.carafeLoop id h n).mem = true := by
  induction n generalizing d with
  | zero => exact hm
  | succ n ih => exact ih (Dev.engine_memWf hm (carafeStep_keepsMem id h))

@[simp] theorem Dev.carafeRefresh_memWf {d : Dev} (hm : Memory.wf d.mem = true) (id : DescId) (n : Nat) (h : List HostAnswer) :
    Memory.wf (d.carafeRefresh id n h).mem = true := by
  refine Dev.withRun_memWf hm fun r e he => ?_
  simp [he]

theorem probeWrite_keepsMem (id : DescId) (h : List HostAnswer) (bs : List Byte) : (probeWrite id h bs).KeepsMem := by
  unfold probeWrite
  refine .get_bind fun d hd => ?_
  split
  · exact .pure _
  dsimp only
  refine .bind (engWriteBytes_keepsMem _ _ _ _ _ _) fun _ => ?_
  split <;> exact .modify fun e he => by simp [he]

@[simp] theorem Dev.shardLoad_memWf {d : Dev} (hm : Memory.wf d.mem = true) (id : DescId) : Memory.wf (d.shardLoad id).mem = true := by
  unfold Dev.shardLoad
  refine Dev.withRun_memWf hm fun r e he => ?_
  dsimp only
  (repeat' split) <;> simp [he, probeWrite_keepsMem]

theorem sketchReadStep_keepsMem (id : DescId) (h : List HostAnswer) : (sketchReadStep id h).KeepsMem := by
  unfold sketchReadStep
  refine .get_bind fun d hd => ?_
  split
  · exact .pure _
  dsimp only
  split
  · exact .set (by simp [hd])
  refine .bind (readDa_keepsMem _ _ _ _) fun _ => ?_
  split
  · exact .modify fun e he => by simp [he]
  split
  · exact .modify fun e he => by simp [he]
  exact probeWrite_keepsMem _ _ _

@[simp] theorem Dev.sketchRead_memWf {d : Dev} (hm : Memory.wf d.mem = true) (id : DescId) (h : List HostAnswer) :
    Memory.wf (d.sketchRead id h).mem = true := by
  refine Dev.withRun_memWf hm fun r e he => ?_
  simp [he, sketchReadStep_keepsMem]

@[simp] theorem Dev.tableRead_memWf {d : Dev} (hm : Memory.wf d.mem = true) (id : DescId) (h : List HostAnswer) :
    Memory.wf (d.tableRead id h).mem = true := by
  unfold Dev.tableRead
  refine Dev.withRun_memWf hm fun r e he => ?_
  split <;> simp [he, probeWrite_keepsMem]

/-! ### Row updates (Machine/UpdateOps.lean) -/

theorem holdSector_keepsMem (a : SegAcc) (k : Nat) : (holdSector a k).KeepsMem := by
  unfold holdSector
  refine .get_bind fun d hd => ?_
  dsimp only
  split
  · exact .set (by simp [hd])
  exact .pure _

theorem holdSectors_keepsMem (a : SegAcc) (ks : List Nat) : (holdSectors a ks).KeepsMem := by
  induction ks with
  | nil => exact .pure _
  | cons k ks ih => exact .bind (holdSector_keepsMem a k) fun _ => ih

theorem applyHome_keepsMem (a : SegAcc) (t : Table) (u : RowUpdate) (e : RowEnt) : (applyHome a t u e).KeepsMem := by
  refine .bind (engReadBytes_keepsMem _ _ _) fun r => ?_
  split
  · exact .pure _
  · have hwrite (w : Eng (Option ErrStatus)) (hw : w.KeepsMem) :
        (holdSectors a (slotUnits e) >>= fun _ => w).KeepsMem := .bind (holdSectors_keepsMem _ _) fun _ => hw
    dsimp only
    split
    · exact .bind (.modify fun x hx => by simpa) fun _ => hwrite _ (engWriteBytes_keepsMem _ _ _ _ _ _)
    · exact hwrite _ (engWriteBytes_keepsMem _ _ _ _ _ _)

/-! ### UPDATE (Machine/Updates.lean) -/

theorem updateIndex_keepsMem (id : DescId) (h : List HostAnswer) : (updateIndex id h).KeepsMem := by
  unfold updateIndex
  refine .get_bind fun d hd => ?_
  split
  · exact .pure _
  extract_lets p next fail bad poisoned ac wd
  split
  · exact .pure _
  split
  · exact .modify fun e he => by simp [he]
  extract_lets tb put
  have hfail : ∀ st, (fail st).KeepsMem := fun st => .modify fun e he => by simp [he]
  have hbad : ∀ st, (bad st).KeepsMem := fun st => .modify fun e he => by simp [he]
  have hpois : poisoned.KeepsMem := .modify fun e he => by simp [he]
  have hput : ∀ x, (put x).KeepsMem := fun x => .modify fun e he => by
    split <;> simp [he]
  clear_value put fail bad poisoned next ac wd
  refine .bind (readDa_keepsMem _ _ _ _) fun _ => ?_
  split
  · exact hfail _
  extract_lets i
  split
  · exact hpois
  split
  · exact .modify fun e he => by simp [he]
  refine .bind (readDa_keepsMem _ _ _ _) fun _ => ?_
  split
  · exact hfail _
  split
  · exact hfail _
  refine .bind (uncounted_keepsMem (resolveRow_keepsMem _ _ _ _ _)) fun _ => ?_
  split
  · exact hfail _
  · exact hbad _
  · exact hpois
  split
  · exact hpois
  split
  · exact .bind (.modify fun e he => he) fun _ => hbad _
  split
  · split
    · exact .bind (.modify fun e he => he) fun _ => hput _
    · exact hput _
  · exact hput _
  · exact .pure _

@[simp] theorem Dev.updateLoop_memWf {d : Dev} (hm : Memory.wf d.mem = true) (id : DescId) (h : List HostAnswer) (n : Nat) :
    Memory.wf (d.updateLoop id h n).mem = true := by
  induction n generalizing d with
  | zero => exact hm
  | succ n ih => exact ih (Dev.engine_memWf hm (updateIndex_keepsMem id h))

theorem shardDevs_keepsMem (ac : SegBy) (w : List Word64) (k n : Nat) : (shardDevs ac w k n).KeepsMem := by
  induction n generalizing k with
  | zero => exact .pure _
  | succ n ih =>
    unfold shardDevs
    refine .bind (shardEntry_keepsMem _ _ _) fun _ => ?_
    split
    · exact .pure _
    · exact .pure _
    · refine .bind (ih _) fun _ => ?_
      split <;> exact .pure _

theorem owners_keepsMem (ac : SegBy) (w : List Word64) (me : Nat) : (owners ac w me).KeepsMem := by
  unfold owners
  split
  · exact .pure _
  exact shardDevs_keepsMem _ _ _ _

theorem stepsReady_keepsMem (ac : SegBy) (t : Nat) : (stepsReady ac t).KeepsMem := by
  unfold stepsReady
  refine .get_bind fun d hd => ?_
  split
  · exact .pure _
  refine .bind (owners_keepsMem _ _ _) fun _ => ?_
  split
  · exact .pure _
  dsimp only
  exact .modify fun e he => by simp [he]

theorem closeStep_keepsMem (id : DescId) (h : List HostAnswer) : (closeStep id h).KeepsMem := by
  unfold closeStep
  refine .get_bind fun d hd => ?_
  split
  · exact .pure _
  split
  · exact .pure _
  split
  · exact .pure _
  dsimp only
  refine .bind (owners_keepsMem _ _ _) fun _ => ?_
  split
  · exact .modify fun e he => by simp [he]
  refine .bind (.modify fun e he => by simp [he]) fun _ => ?_
  exact .bind (stepsReady_keepsMem _ _) fun _ => .modify fun e he => by simp [he]

@[simp] theorem Dev.update_memWf {d : Dev} (hm : Memory.wf d.mem = true) (id : DescId) (h : List HostAnswer) :
    Memory.wf (d.update id h).mem = true := by
  unfold Dev.update
  refine Dev.withRun_memWf hm fun r e he => ?_
  dsimp only
  (repeat' split) <;> simp [he, closeStep_keepsMem]

theorem toMemory_keepsMem (m : ReqMsg) (u : RowUpdate) (a : SegAcc) (e : RowEnt) : (toMemory m u a e).KeepsMem := by
  unfold toMemory
  refine .get_bind fun d hd => ?_
  dsimp only
  split
  · exact .throw _
  · refine .set ?_
    rw [Dev.send_mem, Dev.setTxn_mem]
    exact Dev.foldl_memWf (by simp [hd]) _ fun x k hx => by simp [hx]

theorem migrSees_keepsMem (ac : SegBy) (tb : List Word64) (u : RowUpdate) (e : RowEnt) (at_ : Option Word64) :
    (migrSees ac tb u e at_).KeepsMem := by
  unfold migrSees
  refine .get_bind fun d hd => ?_
  dsimp only
  split
  · exact .bind (.set (by simp [hd])) fun _ => .pure _
  split
  · split
    · exact engWriteBytes_keepsMem _ _ _ _ _ _
    exact .pure _
  exact .pure _

theorem rowHome_keepsMem (m : ReqMsg) (u : RowUpdate) : (rowHome m u).KeepsMem := by
  unfold rowHome
  refine .get_bind fun d hd => ?_
  split
  · exact .set (by simp [hd])
  extract_lets home ac done rest
  have hdone : ∀ r, (done r).KeepsMem := fun r => .modify fun x hx => by split <;> simp [hx]
  clear_value done
  have hrest : ∀ x, (rest x).KeepsMem := fun x => by
    refine .bind (uncounted_keepsMem (resolveRow_keepsMem _ _ _ _ _)) fun r => ?_
    split
    · exact .modify fun x hx => by simp [hx]
    · exact .modify fun x hx => by simp [hx]
    · exact .modify fun x hx => by simp [hx]
    · exact .modify fun x hx => by simp [hx]
    extract_lets a spans line req place
    refine .bind (engLine_keepsMem _ _) fun _ => .bind (.modify fun x hx => by simp [hx]) fun _ =>
      .bind (migrSees_keepsMem _ _ _ _ _) fun o => ?_
    split
    · exact hdone _
    have hplace : ∀ c, (place c).KeepsMem := fun c => by
      unfold place
      split
      · exact hdone _
      split
      · exact .modify fun x hx => by simp [hx]
      · exact .bind (applyHome_keepsMem _ _ _ _) hdone
      refine .bind (.modify fun x hx => hx) fun _ => ?_
      split
      · split
        · exact .bind (applyHome_keepsMem _ _ _ _) hdone
        · exact .bind (engLine_keepsMem _ _) fun _ => toMemory_keepsMem _ _ _ _
      · exact .modify fun x hx => by simp [hx]
    split
    · split
      · exact .bind (clearCarafe_keepsMem _ _ _ _ _) hplace
      · exact .bind (.pure _) hplace
    · exact .bind (.pure _) hplace
  split
  · exact .bind (.throw _) hrest
  · exact hrest ()

theorem granuleHome_keepsMem (m : ReqMsg) (u : RowUpdate) (ent : Nat) : (granuleHome m u ent).KeepsMem := by
  unfold granuleHome
  refine .get_bind fun d hd => ?_
  split
  · exact .set (by simpa)
  · dsimp only
    refine .bind (engLine_keepsMem _ _) fun _ => .bind (.modify fun x hx => by simpa) fun _ => ?_
    split
    · exact .bind (applyHome_keepsMem _ _ _ _) fun r => .modify fun x hx => by simpa
    · exact toMemory_keepsMem _ _ _ _

@[simp] theorem Dev.tryRow_memWf {d : Dev} (hm : Memory.wf d.mem = true) (m : ReqMsg) : Memory.wf (d.tryRow m).mem = true := by
  unfold Dev.tryRow
  split
  · simpa
  · refine Dev.engine_memWf hm ?_
    split
    · exact granuleHome_keepsMem _ _ _
    · exact rowHome_keepsMem _ _

@[simp] theorem Dev.pumpRows_memWf {d : Dev} (hm : Memory.wf d.mem = true) (n : Nat) : Memory.wf (d.pumpRows n).mem = true := by
  induction n generalizing d with
  | zero => exact hm
  | succ n ih =>
    unfold Dev.pumpRows
    extract_lets e
    have he : Memory.wf e.mem = true := Dev.foldl_memWf hm _ fun x m hx => by simp [hx]
    split
    · exact ih he
    · exact he

@[simp] theorem Dev.pumpHost_memWf {d : Dev} (hm : Memory.wf d.mem = true) : Memory.wf d.pumpHost.mem = true :=
  Dev.foldl_memWf hm _ fun e x he => by split <;> simp [he]

@[simp] theorem Dev.pumpHomes_memWf {d : Dev} (hm : Memory.wf d.mem = true) : Memory.wf d.pumpHomes.mem = true :=
  Dev.retrySuspects_memWf (Dev.pumpRows_memWf (Dev.pumpHost_memWf hm) _)

@[simp] theorem Dev.updRow_memWf {d : Dev} (hm : Memory.wf d.mem = true) (m : ReqMsg) : Memory.wf (d.updRow m).mem = true := by
  unfold Dev.updRow
  split <;> simp [hm]

theorem Dev.rowRmw_memWf {d : Dev} (hm : Memory.wf d.mem = true) (m : ReqMsg) (u : RowUpdate) : Memory.wf (d.rowRmw m u).2.mem = true := by
  unfold Dev.rowRmw
  split
  · dsimp only
    split
    · simpa
    · refine Dev.foldl_memWf ?_ _ fun e p he => by simp [he]
      exact List.foldlRecOn (motive := fun p : List (Sector × SectorMeta) × Dev => Memory.wf p.2.mem = true) _ _ hm
        fun p hp s _ => Dev.memRead_memWf hp s
  · exact hm

@[simp] theorem Dev.rowMemDone_memWf {d : Dev} (hm : Memory.wf d.mem = true) (h slot : Nat) (u : RowUpdate) (m : ReqMsg)
    (r : Option ErrStatus) :
    Memory.wf (d.rowMemDone h slot u m r).mem = true := by
  unfold Dev.rowMemDone
  dsimp only
  (repeat' split) <;> simp [hm]

theorem determPeersStep_keepsMem (id : DescId) (h : List HostAnswer) : (determPeersStep id h).KeepsMem := by
  unfold determPeersStep
  refine .get_bind fun d hd => ?_
  split
  · exact .pure _
  dsimp only
  refine .bind (readDa_keepsMem _ _ _ _) fun _ => ?_
  split
  · exact .modify fun e he => by simp [he]
  split
  · exact .modify fun e he => by simp [he]
  refine .bind (.modify fun e he => by simp [he]) fun _ => ?_
  split
  · exact stepsReady_keepsMem _ _
  exact .pure _

@[simp] theorem Dev.determPeers_memWf {d : Dev} (hm : Memory.wf d.mem = true) (id : DescId) (h : List HostAnswer) :
    Memory.wf (d.determPeers id h).mem = true := by
  refine Dev.withRun_memWf hm fun r e he => ?_
  simp [he, determPeersStep_keepsMem]

/-! ### Migration (Machine/Migrate.lean) -/

theorem rowDa_keepsMem (ac : SegBy) (tb : List Word64) (r : Nat) : (rowDa ac tb r).KeepsMem := by
  unfold rowDa
  refine .get_bind fun d hd => ?_
  split
  · exact .pure _
  refine .bind (shardOf_keepsMem _ _ _ _) fun _ => ?_
  split <;> exact .pure _

@[simp] theorem Dev.abandon_memWf {d : Dev} (hm : Memory.wf d.mem = true) (m : Migr) : Memory.wf (d.abandon m).mem = true := by
  unfold Dev.abandon
  dsimp only
  split
  · exact hm
  · rw [Dev.tellAbort_mem]
    refine Dev.engine_memWf (by simpa) ?_
    refine .bind (rowDa_keepsMem _ _ _) fun o => ?_
    split
    · exact .bind (engWriteBytes_keepsMem _ _ _ _ _ _) fun _ => .pure _
    · exact .pure _

@[simp] theorem Dev.failMigr_memWf {d : Dev} (hm : Memory.wf d.mem = true) (id : DescId) (st : Nat) :
    Memory.wf (d.failMigr id st).mem = true := by
  simp +contextual [Dev.failMigr, hm]

theorem migrCopy_keepsMem (id : DescId) (h : List HostAnswer) (m : Migr) : (migrCopy id h m).KeepsMem := by
  simp only [migrCopy, Eng.throw_bind]
  refine .get_bind fun d hd => ?_
  split
  · split
    · exact .throw _
    split
    · split
      · exact .bind (.set (by simp [hd])) fun _ => .pure _
      exact .pure _
    refine .bind (engReadBytes_keepsMem _ _ _) fun _ => ?_
    split
    · exact .modify fun e he => by simp [he]
    refine .bind (.modify fun e he => by simp [he]) fun _ => ?_
    split
    · refine .bind (engWriteUnits_keepsMem _ _ _ _ _ _ _) fun _ => ?_
      split
      · exact .modify fun e he => by simp [he]
      exact .modify fun e he => he
    exact .modify fun e he => by simp [he]
  exact .pure _

theorem migrNext_keepsMem (id : DescId) (h : List HostAnswer) : (migrNext id h).KeepsMem := by
  unfold migrNext
  refine .get_bind fun d hd => ?_
  split
  · exact .pure _
  dsimp only
  split
  · exact .set (by simp [hd])
  split
  · exact .pure _
  split
  · exact migrCopy_keepsMem _ _ _
  split
  · exact .pure _
  refine .bind (readDa_keepsMem _ _ _ _) fun _ => ?_
  split
  · exact .modify fun e he => by simp [he]
  split
  · exact .modify fun e he => by simp [he]
  refine .bind (rowDa_keepsMem _ _ _) fun _ => ?_
  split
  · exact .modify fun e he => by simp [he]
  split
  · exact .modify fun e he => by simp [he]
  refine .bind (engReadBytes_keepsMem _ _ _) fun _ => ?_
  split
  · exact .modify fun e he => by simp [he]
  split
  · exact .modify fun e he => by simp [he]
  split
  · refine .bind (clearCarafe_keepsMem _ _ _ _ _) fun _ => ?_
    split
    · exact .modify fun e he => by simp [he]
    refine .bind (engWriteBytes_keepsMem _ _ _ _ _ _) fun _ => ?_
    split
    · exact .modify fun e he => by simp [he]
    exact .bind (.modify fun e he => he) fun _ => migrCopy_keepsMem _ _ _
  refine .bind (.pure _) fun _ => ?_
  split
  · exact .modify fun e he => by simp [he]
  refine .bind (engWriteBytes_keepsMem _ _ _ _ _ _) fun _ => ?_
  split
  · exact .modify fun e he => by simp [he]
  exact .bind (.modify fun e he => he) fun _ => migrCopy_keepsMem _ _ _

@[simp] theorem Dev.migrLoop_memWf {d : Dev} (hm : Memory.wf d.mem = true) (id : DescId) (h : List HostAnswer) (n : Nat) :
    Memory.wf (d.migrLoop id h n).mem = true := by
  induction n generalizing d with
  | zero => exact hm
  | succ n ih => exact ih (Dev.engine_memWf hm (migrNext_keepsMem id h))

@[simp] theorem Dev.migrate_memWf {d : Dev} (hm : Memory.wf d.mem = true) (id : DescId) (h : List HostAnswer) :
    Memory.wf (d.migrate id h).mem = true := by
  fun_cases Dev.migrate <;> simp [hm]

@[simp] theorem Dev.cremaResume_memWf {d : Dev} (hm : Memory.wf d.mem = true) (id : DescId) : Memory.wf (d.cremaResume id).mem = true := by
  unfold Dev.cremaResume
  split <;> simp [hm, migrCopy_keepsMem]

theorem migrRevoked_keepsMem (ac : SegBy) (tb : List Word64) (me : Nat) (m : Migr) : (migrRevoked ac tb me m).KeepsMem := by
  unfold migrRevoked
  dsimp only
  refine .bind (engCheck_keepsMem _ _ _) fun _ => ?_
  split
  · exact .pure _
  split
  · exact .pure _
  exact engCheck_keepsMem _ _ _

theorem migrCommit_keepsMem (t row : Nat) (h : List HostAnswer) : (migrCommit t row h).KeepsMem := by
  unfold migrCommit
  refine .get_bind fun d hd => ?_
  split
  · split
    · exact .pure _
    split
    · exact .pure _
    extract_lets -underBinder +onlyGivenNames tb ac
    refine .bind (migrRevoked_keepsMem _ _ _ _) fun _ => ?_
    split
    · exact .modify fun e he => by simp [he]
    refine .bind (.modify fun e he => he) fun _ => ?_
    extract_lets -underBinder +onlyGivenNames next
    have hnext : ∀ x, (next x).KeepsMem := fun x => by
      unfold next
      refine .get_bind fun d1 hd1 => ?_
      split
      · exact .pure _
      split
      · exact .pure _
      refine .bind (rowDa_keepsMem _ _ _) fun _ => ?_
      split
      · exact .pure _
      dsimp only
      refine .bind (engWriteBytes_keepsMem _ _ _ _ _ _) fun _ => ?_
      split
      · exact .modify fun e he => by simp [he]
      split
      · exact .modify fun e he => by simp [he]
      exact .bind (.modify fun e he => he) fun _ => .modify fun e he => by simp [he]
    clear_value next
    split
    · exact .bind (migrCopy_keepsMem _ _ _) fun _ => hnext _
    exact hnext _
  exact .pure _

@[simp] theorem Dev.migrationCommit_memWf {d : Dev} (hm : Memory.wf d.mem = true) (t row : Nat) (h : List HostAnswer) :
    Memory.wf (d.migrationCommit t row h).mem = true := by
  simp [Dev.migrationCommit, hm, migrCommit_keepsMem]

@[simp] theorem Dev.migrAnswer_memWf {d : Dev} (hm : Memory.wf d.mem = true) (t row st : Nat) :
    Memory.wf (d.migrAnswer t row st).mem = true := by
  unfold Dev.migrAnswer
  split <;> simp [hm]

theorem shardSpan_keepsMem (ac : SegBy) (w : List Word64) (k : Nat) : (shardSpan ac w k).KeepsMem := by
  unfold shardSpan
  refine .bind (shardEntry_keepsMem _ _ _) fun _ => ?_
  split
  · exact .pure _
  · exact .pure _
  · split
    · exact .pure _
    refine .bind (shardEntry_keepsMem _ _ _) fun _ => ?_
    split <;> exact .pure _

theorem guestAttach_keepsMem (id : DescId) : (guestAttach id).KeepsMem := by
  unfold guestAttach
  refine .get_bind fun d hd => ?_
  split
  · exact .pure _
  dsimp only
  split
  · exact .set (by simp [hd])
  split
  · exact .set (by simp [hd])
  split
  · exact .set (by simp [hd])
  split
  · exact .set (by simp [hd])
  refine .bind (shardSpan_keepsMem _ _ _) fun _ => ?_
  split
  · exact .modify fun e he => by simp [he]
  split
  · exact .modify fun e he => by simp [he]
  split <;> exact .modify fun e he => by simp [he]

@[simp] theorem Dev.guestAttach_memWf {d : Dev} (hm : Memory.wf d.mem = true) (id : DescId) : Memory.wf (d.guestAttach id).mem = true := by
  refine Dev.withRun_memWf hm fun r e he => ?_
  simp [he, guestAttach_keepsMem]

theorem liveGuest_keepsMem (a : SegAcc) (da : Word64) (i n : Nat) : (liveGuest a da i n).KeepsMem := by
  induction n generalizing i with
  | zero => exact .pure _
  | succ n ih =>
    unfold liveGuest
    refine .bind (engReadBytes_keepsMem _ _ _) fun _ => ?_
    split
    · exact .pure _
    dsimp only
    split
    · exact .pure _
    exact ih _

theorem guestDetach_keepsMem (id : DescId) : (guestDetach id).KeepsMem := by
  unfold guestDetach
  refine .get_bind fun d hd => ?_
  split
  · exact .pure _
  dsimp only
  split
  · refine .bind (shardSpan_keepsMem _ _ _) fun _ => ?_
    split
    · exact .modify fun e he => by simp [he]
    refine .bind (liveGuest_keepsMem _ _ _ _) fun _ => ?_
    split <;> exact .modify fun e he => by simp [he]
  · exact .set (by simp [hd])
  · exact .set (by simp [hd])

@[simp] theorem Dev.guestDetach_memWf {d : Dev} (hm : Memory.wf d.mem = true) (id : DescId) : Memory.wf (d.guestDetach id).mem = true := by
  refine Dev.withRun_memWf hm fun r e he => ?_
  simp [he, guestDetach_keepsMem]

/-! ### Kernels (Machine/Kernel.lean) -/

theorem checkKernel_keepsMem (w : List Word64) (ctx : Nat) (h : List HostAnswer) : (checkKernel w ctx h).KeepsMem := by
  unfold checkKernel
  refine .get_bind fun d hd => ?_
  split
  · exact .pure _
  split
  · exact .pure _
  extract_lets -underBinder +onlyGivenNames ac next
  have hnext : ∀ x, (next x).KeepsMem := fun x => by
    unfold next
    split
    · exact .pure _
    dsimp only
    split
    · exact .pure _
    refine .bind (readDa_keepsMem _ _ _ _) fun _ => ?_
    split
    · exact .pure _
    split <;> exact .pure _
  clear_value next
  split
  · refine .bind (readDa_keepsMem _ _ _ _) fun _ => ?_
    split <;> exact .bind (.pure _) fun _ => hnext _
  exact .bind (.pure _) fun _ => hnext _

theorem teamStart_keepsMem (id : DescId) (h : List HostAnswer) : (teamStart id h).KeepsMem := by
  unfold teamStart
  refine .get_bind fun d hd => ?_
  split
  · exact .pure _
  split
  · exact .pure _
  split
  · exact .pure _
  dsimp only
  split
  · refine .bind (.pure _) fun _ => ?_
    split
    · exact .modify fun e he => by simp [he]
    refine .bind (readDa_keepsMem _ _ _ _) fun _ => ?_
    split <;> exact .modify fun e he => by simp [he]
  refine .bind (engWriteBytes_keepsMem _ _ _ _ _ _) fun _ => ?_
  split
  · exact .modify fun e he => by simp [he]
  refine .bind (readDa_keepsMem _ _ _ _) fun _ => ?_
  split <;> exact .modify fun e he => by simp [he]

@[simp] theorem Dev.teamStartCmd_memWf {d : Dev} (hm : Memory.wf d.mem = true) (id : DescId) (h : List HostAnswer) :
    Memory.wf (d.teamStartCmd id h).mem = true := by
  simp [Dev.teamStartCmd, hm, teamStart_keepsMem]

theorem dumpAll_keepsMem (a : SegAcc) (off : Nat) (tm : Team) (cs : List Nat) (rank : Nat) : (dumpAll a off tm cs rank).KeepsMem := by
  induction cs generalizing rank with
  | nil => exact .pure _
  | cons y ys ih =>
    unfold dumpAll
    refine .get_bind fun d hd => .bind (engWriteBytes_keepsMem _ _ _ _ _ _) fun _ => ?_
    split
    · exact .pure _
    exact ih _

theorem teamDone_keepsMem (t : Nat) (h : List HostAnswer) : (teamDone t h).KeepsMem := by
  unfold teamDone
  refine .get_bind fun d hd => ?_
  split
  · exact .pure _
  split
  · exact .pure _
  split
  · exact .pure _
  dsimp only
  split
  · exact .bind (dumpAll_keepsMem _ _ _ _ _) fun _ => .modify fun e he => by simp [he]
  exact .bind (.pure _) fun _ => .modify fun e he => by simp [he]

@[simp] theorem Dev.teamEnd_memWf {d : Dev} (hm : Memory.wf d.mem = true) (t : Nat) : Memory.wf (d.teamEnd t).mem = true := by
  simp [Dev.teamEnd, hm, teamDone_keepsMem]

@[simp] theorem Dev.coreDone_memWf {d : Dev} (hm : Memory.wf d.mem = true) (c : Nat) : Memory.wf (d.coreDone c).mem = true := by
  unfold Dev.coreDone
  split <;> simp [hm]

/-! ### Descriptors (Machine/Descriptor.lean) -/

theorem checkUpdate_keepsMem (w : List Word64) (ctx : Nat) (h : List HostAnswer) : (checkUpdate w ctx h).KeepsMem := by
  unfold checkUpdate
  refine .get_bind fun d hd => ?_
  split
  · exact .pure _
  dsimp only
  split
  · exact .pure _
  split
  · exact .pure _
  split
  · exact .pure _
  refine .bind (readDa_keepsMem _ _ _ _) fun _ => ?_
  split
  · exact .pure _
  split
  · exact .pure _
  split <;> exact .pure _

theorem checkDesc_keepsMem (w : List Word64) (ctx : Nat) (h : List HostAnswer) : (checkDesc w ctx h).KeepsMem := by
  unfold checkDesc
  refine .get_bind fun d hd => ?_
  split
  · exact .pure _
  extract_lets -underBinder +onlyGivenNames ty next
  have hnext : ∀ x, (next x).KeepsMem := fun x => by
    unfold next
    split <;> exact .pure _
  clear_value next
  split
  · exact .pure _
  split
  · refine .bind (checkGather_keepsMem _ _ _ _ _) fun _ => ?_
    split <;> exact .bind (.pure _) fun _ => hnext _
  split
  · exact .bind (checkUpdate_keepsMem _ _ _) fun _ => hnext _
  split
  · refine .bind (checkKernel_keepsMem _ _ _) fun _ => ?_
    split <;> exact .bind (.pure _) fun _ => hnext _
  split
  · exact .bind (.pure _) fun _ => hnext _
  split
  · exact .bind (.pure _) fun _ => hnext _
  split
  · exact .bind (.pure _) fun _ => hnext _
  split
  · exact .bind (.pure _) fun _ => hnext _
  split <;> exact .bind (.pure _) fun _ => hnext _

/-! ### Completion and COPY (Machine/Queues.lean) -/

theorem Dev.cpReg_memWf {d : Dev} (hm : Memory.wf d.mem = true) {src : RegSource} {f : Dev → Dev}
    (hf : ∀ e, Memory.wf e.mem = true → (f e).MemOk) :
    Memory.wf (d.cpReg src f).mem = true := by
  have hf' : ∀ e, Memory.wf e.mem = true → Memory.wf (f e).mem = true := hf
  simp [Dev.cpReg, hm, hf']

theorem fetchStep_keepsMem (q : Nat) (h : List HostAnswer) : (fetchStep q h).KeepsMem := by
  unfold fetchStep
  refine .get_bind fun d hd => ?_
  dsimp only
  refine .bind (engRead_keepsMem _ _) fun _ => ?_
  split
  · exact .modify fun e he => by simp [he]
  split
  · exact .modify fun e he => by simp [he]
  exact .bind (checkDesc_keepsMem _ _ _) fun _ => .modify fun e he => by split <;> simp [he]

@[simp] theorem Dev.fetch_memWf {d : Dev} (hm : Memory.wf d.mem = true) (q : Nat) (h : List HostAnswer) :
    Memory.wf (d.fetch q h).mem = true := by
  simp [Dev.fetch, hm, fetchStep_keepsMem]

@[simp] theorem Dev.descTimeout_memWf {d : Dev} (hm : Memory.wf d.mem = true) (id : DescId) : Memory.wf (d.descTimeout id).mem = true := by
  unfold Dev.descTimeout
  dsimp only
  (repeat' split) <;> simp [hm]

@[simp] theorem Dev.interim_memWf {d : Dev} (hm : Memory.wf d.mem = true) (id : DescId) : Memory.wf (d.interim id).mem = true := by
  unfold Dev.interim
  split
  · split
    · exact Dev.engine_memWf hm (.bind (recordWrite_keepsMem _ _ _) fun _ => .pure _)
    · exact hm
  · exact hm

theorem recordStep_keepsMem (id : DescId) : (recordStep id).KeepsMem := by
  unfold recordStep
  refine .get_bind fun d hd => ?_
  split
  · exact .pure _
  dsimp only
  refine .bind (recordWrite_keepsMem _ _ _) fun _ => ?_
  split
  · exact .modify fun e he => by simp [he]
  split
  · exact .modify fun e he => he
  exact .modify fun e he => by simp [he]

@[simp] theorem Dev.completion_memWf {d : Dev} (hm : Memory.wf d.mem = true) (id : DescId) : Memory.wf (d.completion id).mem = true := by
  unfold Dev.completion
  extract_lets e
  have he : Memory.wf e.mem = true := Dev.undefOuts_memWf (by
    split
    · split
      · split <;> simp [hm]
      · exact hm
    · exact hm) id
  clear_value e
  split
  · exact he
  split
  · split <;> simp [he]
  split
  · split <;> simp [he, recordStep_keepsMem]
  split
  · split <;> simp [he]
  · exact he

theorem copyStep_keepsMem (id : DescId) (h : List HostAnswer) : (copyStep id h).KeepsMem := by
  unfold copyStep
  refine .get_bind fun d hd => ?_
  split
  · exact .pure _
  extract_lets -underBinder +onlyGivenNames off
  split
  · exact .pure _
  split
  · exact .bind (.set (by simp [hd])) fun _ => .pure _
  extract_lets -underBinder +onlyGivenNames sa da dst src fail
  have hfail : ∀ x, (fail x).KeepsMem := fun x => .modify fun e he => by simp [he]
  clear_value fail
  split
  · dsimp only
    split
    · exact hfail _
    exact .bind (.modify fun e he => he) fun _ => .modify fun e he => by simp [he]
  extract_lets -underBinder +onlyGivenNames peer n next
  have hnext : ∀ x, (next x).KeepsMem := fun x => by
    unfold next
    split
    · exact hfail _
    split
    · split
      · exact hfail _
      refine .bind (.modify fun e he => he) fun _ => ?_
      dsimp only
      exact .modify fun e he => by simp [he]
    refine .get_bind fun d1 hd1 => ?_
    refine .bind (.set (e := (d1.overlapFree _ off _).2) (by simp [hd1])) fun _ => .bind (engWriteBytes_keepsMem _ _ _ _ _ _) fun _ => ?_
    split
    · exact hfail _
    exact .modify fun e he => by simp [he]
  clear_value next
  split
  · exact .bind (.pure _) fun _ => hnext _
  exact .bind (engReadBytes_keepsMem _ _ _) fun _ => hnext _

@[simp] theorem Dev.copyLoop_memWf {d : Dev} (hm : Memory.wf d.mem = true) (id : DescId) (h : List HostAnswer) (n : Nat) :
    Memory.wf (d.copyLoop id h n).mem = true := by
  induction n generalizing d with
  | zero => exact hm
  | succ n ih => exact ih (Dev.engine_memWf hm (copyStep_keepsMem id h))

@[simp] theorem Dev.copy_memWf {d : Dev} (hm : Memory.wf d.mem = true) (id : DescId) (n : Nat) (h : List HostAnswer) :
    Memory.wf (d.copy id n h).mem = true := by
  unfold Dev.copy
  refine Dev.withRun_memWf hm fun r e he => ?_
  extract_lets eng e0 e1
  have he0 : Memory.wf e0.mem = true := by simp [e0, he]
  have he1 : Memory.wf e1.mem = true := by
    unfold e1
    split
    · split <;> simp [he0]
    · exact he0
  split
  · split
    · exact hm
    · exact Dev.copyLoop_memWf he1 id h n
  · exact Dev.copyLoop_memWf he id h n

/-! ### Cache commands (Machine/Caches.lean) -/

@[simp] theorem Dev.sliceClean_memWf {d : Dev} (hm : Memory.wf d.mem = true) (n : Nat) (l : CLine) :
    Memory.wf (d.sliceClean n l).mem = true := by
  simp +contextual [Dev.sliceClean, hm]

@[simp] theorem Dev.walkCache_memWf {d : Dev} (hm : Memory.wf d.mem = true) (n code : Nat) : Memory.wf (d.walkCache n code).mem = true := by
  simp +contextual [Dev.walkCache, hm]

theorem Dev.cacheReg_memWf {d : Dev} (hm : Memory.wf d.mem = true) {src : RegSource} {n : Nat} {f : Dev → Dev}
    (hf : ∀ e, Memory.wf e.mem = true → (f e).MemOk) :
    Memory.wf (d.cacheReg src n f).mem = true := by
  have hf' : ∀ e, Memory.wf e.mem = true → Memory.wf (f e).mem = true := hf
  simp [Dev.cacheReg, hm, hf']

theorem askHost_keepsMem (a : Acc) (op line sec : Nat) : (askHost a op line sec).KeepsMem := by
  unfold askHost
  dsimp only
  exact .bind (.modify fun e he => by simp [he]) fun _ => engOweAs_keepsMem _ _ _ _

theorem rangeWriteback_keepsMem (a : Acc) (w : List Word64) (line sec : Nat) : (rangeWriteback a w line sec).KeepsMem := by
  unfold rangeWriteback
  refine .get_bind fun d hd => ?_
  extract_lets -underBinder +onlyGivenNames s next
  have hnext : ∀ x, (next x).KeepsMem := fun x => by
    unfold next
    refine .get_bind fun d1 hd1 => ?_
    dsimp only
    split
    · split
      · exact .bind (.set (by simp [hd1])) fun _ => engOweAs_keepsMem _ _ _ _
      exact .set (by simp [hd1])
    exact .pure _
  clear_value next
  split
  · split
    · split
      · extract_lets -underBinder +onlyGivenNames next2
        have hnext2 : ∀ x, (next2 x).KeepsMem := fun x => .bind (.set (by simp [hd])) fun _ => hnext _
        clear_value next2
        split
        · exact .bind (.throw _) fun _ => hnext2 _
        exact hnext2 _
      exact hnext _
    exact hnext _
  exact hnext _

theorem rangeDrop_keepsMem (line sec : Nat) : (rangeDrop line sec).KeepsMem := by
  unfold rangeDrop
  refine .get_bind fun d hd => ?_
  dsimp only
  split
  · exact .set (by simp [hd])
  exact .pure _

@[simp] theorem Dev.rangePrefetch_memWf {d : Dev} (hm : Memory.wf d.mem = true) (line : Nat) :
    Memory.wf (d.rangePrefetch line).mem = true := by
  simp +contextual [Dev.rangePrefetch, hm]

theorem Dev.preload_memWf {d e : Dev} (hm : Memory.wf d.mem = true) {w : List Word64} {line : Nat} {inRange : Nat → Bool}
    (h : d.preload w line inRange = some e) :
    Memory.wf e.mem = true := by
  unfold Dev.preload at h
  dsimp only at h
  split at h
  · exact Option.some.inj h ▸ hm
  split at h
  · cases h
  split at h
  · cases h
  · rw [← Option.some.inj h]
    refine Dev.foldl_memWf ?_ _ fun e s he => by simp [he]
    simp [hm]

theorem rangeLine_keepsMem (r : Run) (a : Acc) (line : Nat) (inRange : Nat → Bool) : (rangeLine r a line inRange).KeepsMem := by
  unfold rangeLine
  refine .bind (engLine_keepsMem _ _) fun _ => .get_bind fun d hd => ?_
  extract_lets op m res skip secs ask rest
  clear_value op
  have hdrop : ∀ s, Eng.KeepsMem (if crCaches r.w ≠ 2 then do rangeDrop line s; pure (ForInStep.yield PUnit.unit)
      else pure (ForInStep.yield PUnit.unit)) := fun s => by
    split
    · exact .bind (rangeDrop_keepsMem _ _) fun _ => .pure _
    · exact .pure _
  split
  · exact .bind (.set (by simp [hd])) fun _ => .pure _
  split
  · exact .bind (.forIn _ _ fun s _ => .bind (askHost_keepsMem _ _ _ _) fun _ => .pure _) fun _ =>
      .bind (.modify fun e he => by simp [he]) fun _ => .pure _
  split
  · exact .bind (.forIn _ _ fun s _ => .bind (rangeWriteback_keepsMem _ _ _ _) fun _ => .pure _) fun _ => .pure _
  · refine .bind (.forIn _ _ fun s _ => .bind (rangeWriteback_keepsMem _ _ _ _) fun _ => ?_) fun _ => .pure _
    dsimp only
    split
    · exact .bind (engInvalidate_keepsMem _ _ _) fun _ => hdrop s
    · exact hdrop s
  · refine .bind (.forIn _ _ fun s _ => ?_) fun _ => .pure _
    dsimp only
    split
    · exact .bind (engInvalidate_keepsMem _ _ _) fun _ => hdrop s
    · exact hdrop s
  · split
    · exact .bind (.modify fun e he => by simp [he]) fun _ => .pure _
    · exact .pure _
  · split
    · exact .pure _
    split
    · exact .bind (.set (by exact Dev.preload_memWf hd (by assumption))) fun _ => .pure _
    · exact .pure _

theorem rangeStep_keepsMem (id : DescId) (h : List HostAnswer) : (rangeStep id h).KeepsMem := by
  unfold rangeStep
  refine .get_bind fun d hd => ?_
  split
  · exact .pure _
  dsimp only
  split
  · exact .pure _
  refine .bind (rangeLine_keepsMem _ _ _ _) fun _ => ?_
  split
  · exact .pure _
  · exact .modify fun e he => by simp [he]
  · exact .bind (.modify fun e he => by simp [he]) fun _ => .modify fun e he => by simp [he]

@[simp] theorem Dev.rangeLoop_memWf {d : Dev} (hm : Memory.wf d.mem = true) (id : DescId) (h : List HostAnswer) (n : Nat) :
    Memory.wf (d.rangeLoop id h n).mem = true := by
  induction n generalizing d with
  | zero => exact hm
  | succ n ih => exact ih (Dev.engine_memWf hm (rangeStep_keepsMem id h))

@[simp] theorem Dev.rangeWalks_memWf {d : Dev} (hm : Memory.wf d.mem = true) (r : Run) (n : Nat) :
    Memory.wf (d.rangeWalks r n).mem = true := by
  simp +contextual [Dev.rangeWalks, hm]

@[simp] theorem Dev.cacheRange_memWf {d : Dev} (hm : Memory.wf d.mem = true) (id : DescId) (op n : Nat) (h : List HostAnswer) :
    Memory.wf (d.cacheRange id op n h).mem = true := by
  unfold Dev.cacheRange
  dsimp only
  (repeat' split) <;> simp [hm]

@[simp] theorem Dev.ownEnd_memWf {d : Dev} (hm : Memory.wf d.mem = true) (n : Nat) : Memory.wf (d.ownEnd n).mem = true := by
  unfold Dev.ownEnd
  split <;> simp [hm]

@[simp] theorem Dev.walkEnd_memWf {d : Dev} (hm : Memory.wf d.mem = true) : Memory.wf d.walkEnd.mem = true := by
  simp +contextual [Dev.walkEnd, hm]

/-! ### Loads and stores (Machine/CoreMem.lean) -/

@[simp] theorem Dev.l1Uncorr_memWf {d : Dev} (hm : Memory.wf d.mem = true) (c line sec : Nat) (x : CSector) :
    Memory.wf (d.l1Uncorr c line sec x).mem = true := by
  unfold Dev.l1Uncorr
  dsimp only
  (repeat' split) <;> simp [hm]

@[simp] theorem Dev.l1Correct_memWf {d : Dev} (hm : Memory.wf d.mem = true) (c line sec : Nat) (x : CSector) :
    Memory.wf (d.l1Correct c line sec x).mem = true := by
  unfold Dev.l1Correct
  dsimp only
  (repeat' split) <;> simp [hm]

/-! ### Control (Machine/Control.lean) -/

theorem Dev.drainThen_memWf {base d : Dev} (hb : Memory.wf base.mem = true) (hm : Memory.wf d.mem = true) {c : Nat} {go : Dev → Dev}
    (hg : ∀ e, Memory.wf e.mem = true → (go e).MemOk) :
    Memory.wf (Dev.drainThen base d c go).mem = true := by
  unfold Dev.drainThen
  split
  · exact hb
  · split
    · simpa
    · exact hg _ (by simpa)

/-! ### Messages at a home (Machine/Home.lean) -/

@[simp] theorem Dev.homeReq_memWf {d : Dev} (hm : Memory.wf d.mem = true) (k : ReqKind) (m : ReqMsg) :
    Memory.wf (d.homeReq k m).mem = true := by
  simp [Dev.homeReq, hm]

@[simp] theorem Dev.starveReq_memWf {d : Dev} (hm : Memory.wf d.mem = true) (m : ReqMsg) : Memory.wf (d.starveReq m).mem = true := by
  simp [Dev.starveReq, hm]

@[simp] theorem Dev.holdEnd_memWf {d : Dev} (hm : Memory.wf d.mem = true) (holder line : Nat) :
    Memory.wf (d.holdEnd holder line).mem = true := by
  simp [Dev.holdEnd, hm]

@[simp] theorem Dev.takeDirty_memWf {d : Dev} (hm : Memory.wf d.mem = true) (t : Txn) (m : AnsMsg) :
    Memory.wf (d.takeDirty t m).2.mem = true := by
  simp [Dev.takeDirty, hm]

@[simp] theorem Dev.homeAck_memWf {d : Dev} (hm : Memory.wf d.mem = true) (m : AnsMsg) (dirty : Bool) :
    Memory.wf (d.homeAck m dirty).mem = true := by
  unfold Dev.homeAck
  dsimp only
  split
  · simpa
  · exact Dev.answer_memWf (by simpa) _ _ fun h slot t e he => by split <;> simp [he]

@[simp] theorem Dev.homeFwdDone_memWf {d : Dev} (hm : Memory.wf d.mem = true) (m : AnsMsg) : Memory.wf (d.homeFwdDone m).mem = true := by
  unfold Dev.homeFwdDone
  split
  · exact hm
  · exact Dev.answer_memWf (by simp [hm]) _ _ fun _ _ _ _ he => by simp [he]

@[simp] theorem Dev.homeFwdMiss_memWf {d : Dev} (hm : Memory.wf d.mem = true) (m : AnsMsg) : Memory.wf (d.homeFwdMiss m).mem = true :=
  Dev.answer_memWf (by simpa) _ _ fun h slot t e he => by simp [he]

@[simp] theorem Dev.homeCompAck_memWf {d : Dev} (hm : Memory.wf d.mem = true) (m : AnsMsg) : Memory.wf (d.homeCompAck m).mem = true := by
  unfold Dev.homeCompAck
  exact Dev.answer_memWf (by simp [hm]) _ _ fun _ _ _ _ he => he

@[simp] theorem Dev.memRdIn_memWf {d : Dev} (hm : Memory.wf d.mem = true) (m : MemMsg) : Memory.wf (d.memRdIn m).mem = true := by
  unfold Dev.memRdIn
  split <;> simp [hm]

@[simp] theorem Dev.memWrIn_memWf {d : Dev} (hm : Memory.wf d.mem = true) (m : MemMsg) : Memory.wf (d.memWrIn m).mem = true := by
  unfold Dev.memWrIn
  dsimp only
  (repeat' split) <;> simp [hm]

@[simp] theorem Dev.memRmwIn_memWf {d : Dev} (hm : Memory.wf d.mem = true) (m : MemMsg) : Memory.wf (d.memRmwIn m).mem = true := by
  unfold Dev.memRmwIn
  dsimp only
  split
  · simpa
  split
  · simpa
  split
  · simp [Dev.rowRmw_memWf, hm]
  · split <;> simp [hm]

@[simp] theorem Dev.memDataIn_memWf {d : Dev} (hm : Memory.wf d.mem = true) (m : MemMsg) : Memory.wf (d.memDataIn m).mem = true := by
  unfold Dev.memDataIn
  refine Dev.answer_memWf (by simp [hm]) _ _ fun h slot t e he => ?_
  split <;> simp [he]

@[simp] theorem Dev.memCmpIn_memWf {d : Dev} (hm : Memory.wf d.mem = true) (m : MemMsg) : Memory.wf (d.memCmpIn m).mem = true := by
  have hd : Memory.wf (d.taken (.mem m)).mem = true := by simp [hm]
  unfold Dev.memCmpIn
  dsimp only
  split
  · split
    · exact hd
    split
    · simp [hm]
    · refine Dev.answer_memWf hd _ _ fun h slot t e he => ?_
      split
      · simp [he]
      · split <;> simp [he]
  · exact hd

/-! ### The mover (Machine/MoverOps.lean) -/

@[simp] theorem Dev.moverPiece_memWf {d : Dev} (hm : Memory.wf d.mem = true) (c : Nat) (dump : Bool) (key : Nat) :
    Memory.wf (d.moverPiece c dump key).mem = true := by
  simp [Dev.moverPiece, hm]

@[simp] theorem Dev.fillPiece_memWf {d : Dev} (hm : Memory.wf d.mem = true) (c o : Nat) (da : Word64) (bs : List Byte) (poison : Bool) :
    Memory.wf (d.fillPiece c o da bs poison).mem = true := by
  simp [Dev.fillPiece, hm]

/-! ### The host link (Machine/HostLink.lean) -/

@[simp] theorem Dev.returnedData_memWf {d : Dev} (hm : Memory.wf d.mem = true) (t : Txn) (line sec : Nat) (x : Sector) (poison : Bool) :
    Memory.wf (d.returnedData t line sec x poison).mem = true := by
  unfold Dev.returnedData
  split <;> simp [hm]

@[simp] theorem Dev.hostEnter_memWf {d : Dev} (hm : Memory.wf d.mem = true) (q0 : ReqMsg) : Memory.wf (d.hostEnter q0).mem = true := by
  simp [Dev.hostEnter, hm]

@[simp] theorem Dev.hostArrive_memWf {d : Dev} (hm : Memory.wf d.mem = true) (q : ReqMsg) : Memory.wf (d.hostArrive q).mem = true := by
  simp [Dev.hostArrive, hm]

@[simp] theorem Dev.hostReq_memWf {d : Dev} (hm : Memory.wf d.mem = true) (m0 : HostReq) (kind0 : ReqKind)
    (origin : optParam Origin Origin.load) :
    Memory.wf (d.hostReq m0 kind0 origin).mem = true := by
  fun_cases Dev.hostReq <;> simp [hm]

@[simp] theorem Dev.memInv_memWf {d : Dev} (hm : Memory.wf d.mem = true) (m : HostReq) : Memory.wf (d.memInv m).mem = true := by
  unfold Dev.memInv
  split <;> simp [hm]

@[simp] theorem Dev.memSpecRd_memWf {d : Dev} (hm : Memory.wf d.mem = true) (m : HostReq) : Memory.wf (d.memSpecRd m).mem = true := by
  unfold Dev.memSpecRd
  dsimp only
  (repeat' split) <;> simp [hm]

@[simp] theorem Dev.biRsp_memWf {d : Dev} (hm : Memory.wf d.mem = true) (line sec : Nat) (a : BiAnswer) :
    Memory.wf (d.biRsp line sec a).mem = true :=
  Dev.answer_memWf hm _ _ fun h slot t e he => by simpa

@[simp] theorem Dev.go_memWf {d : Dev} (hm : Memory.wf d.mem = true) (line sec : Nat) (grant : MState) (x : Sector) (poison : Bool) :
    Memory.wf (d.go line sec grant x poison).mem = true := by
  unfold Dev.go
  rw [Dev.ackPeers_mem]
  refine Dev.answer_memWf hm _ _ fun _ _ t e he => ?_
  dsimp only
  split
  case h_4 => split <;> simp [he]
  all_goals
    split
    · exact he
    · exact Dev.foldl_memWf he _ fun y i hy => by split <;> simp [hy]

@[simp] theorem Dev.goErr_memWf {d : Dev} (hm : Memory.wf d.mem = true) (line sec : Nat) : Memory.wf (d.goErr line sec).mem = true := by
  unfold Dev.goErr
  rw [Dev.ackPeers_mem]
  exact Dev.answer_memWf hm _ _ fun h slot t e he => by split <;> simp [he]

@[simp] theorem Dev.hostSnoop_memWf {d : Dev} (hm : Memory.wf d.mem = true) (hpa : Nat) (kind : ReqKind) :
    Memory.wf (d.hostSnoop hpa kind).mem = true := by
  simp [Dev.hostSnoop, hm]

@[simp] theorem Dev.biasCmd_memWf {d : Dev} (hm : Memory.wf d.mem = true) (src : RegSource) (device : Bool) (count : Nat) :
    Memory.wf (d.biasCmd src device count).mem = true := by
  simp +contextual [Dev.biasCmd, hm]

/-! ### Messages of peers (Machine/Ingress.lean) -/

theorem Dev.ingress_memWf {d : Dev} (hm : Memory.wf d.mem = true) {m : TMsg} {f : Dev → Dev}
    (hf : ∀ e, Memory.wf e.mem = true → (f e).MemOk) :
    Memory.wf (d.ingress m f).mem = true := by
  have hf' : ∀ e, Memory.wf e.mem = true → Memory.wf (f e).mem = true := hf
  simp [Dev.ingress, hm, hf']

theorem guestWord_keepsMem (ac : SegBy) (tb : List Word64) (r : Nat) : (guestWord ac tb r).KeepsMem := by
  unfold guestWord
  refine .get_bind fun d hd => .bind (rowDa_keepsMem _ _ _) fun _ => ?_
  split
  · exact .pure _
  refine .bind (engReadBytes_keepsMem _ _ _) fun _ => ?_
  split <;> exact .pure _

theorem lookupStep_keepsMem (m : TMsg) : (lookupStep m).KeepsMem := by
  unfold lookupStep
  refine .get_bind fun d hd => ?_
  dsimp only
  split
  · exact .modify fun e he => by simp [he]
  split
  · exact .modify fun e he => by simp [he]
  split
  · exact .modify fun e he => by simp [he]
  split
  · exact .modify fun e he => by simp [he]
  · exact .modify fun e he => by simp [he]
  · refine .bind (resolveRow_keepsMem _ _ _ _ _) fun _ => ?_
    split
    · exact .modify fun e he => by simp [he]
    · exact .modify fun e he => by simp [he]
    · split <;> exact .modify fun e he => by simp [he]
    · split
      · refine .bind (guestWord_keepsMem _ _ _) fun _ => ?_
        split
        · split <;> exact .modify fun e he => by simp [he]
        exact .modify fun e he => by simp [he]
      exact .modify fun e he => by simp [he]
    · refine .bind (serveRow_keepsMem _ _ _ _ _ _ _) fun _ => ?_
      split <;> exact .modify fun e he => by simp [he]

theorem bulkRead_keepsMem (a : SegAcc) (off k n : Nat) : (bulkRead a off k n).KeepsMem := by
  induction k generalizing off n with
  | zero => exact .pure _
  | succ n ih =>
    unfold bulkRead
    split
    · exact .pure _
    refine .bind (engReadBytes_keepsMem _ _ _) fun _ => ?_
    split
    · exact .pure _
    refine .bind (ih _ _) fun _ => ?_
    split <;> exact .pure _

theorem bkrdStep_keepsMem (m : TMsg) : (bkrdStep m).KeepsMem := by
  unfold bkrdStep
  refine .get_bind fun d hd => ?_
  dsimp only
  split
  · exact .modify fun e he => by simp [he]
  split
  · exact .bind (.modify fun e he => he) fun _ => .modify fun e he => by simp [he]
  refine .bind (bulkRead_keepsMem _ _ _ _) fun _ => ?_
  split <;> exact .modify fun e he => by simp [he]

theorem bulkWrite_keepsMem (a : SegAcc) (poison off i n : Nat) (bs : List Byte) : (bulkWrite a poison off i n bs).KeepsMem := by
  induction n generalizing off i bs with
  | zero => exact .pure _
  | succ n ih =>
    unfold bulkWrite
    split
    · exact .pure _
    dsimp only
    refine .bind (engWriteBytes_keepsMem _ _ _ _ _ _) fun _ => ?_
    split
    · exact .pure _
    exact ih _ _ _

theorem bkwrStep_keepsMem (m : TMsg) : (bkwrStep m).KeepsMem := by
  unfold bkwrStep
  refine .get_bind fun d hd => ?_
  dsimp only
  split
  · exact .bind (.modify fun e he => he) fun _ => .modify fun e he => by simp [he]
  refine .bind (bulkWrite_keepsMem _ _ _ _ _ _) fun _ => ?_
  split
  · exact .modify fun e he => by simp [he]
  refine .get_bind fun d1 hd1 => ?_
  split <;> exact .modify fun e he => by simp [he]

theorem updateStep_keepsMem (m : TMsg) : (updateStep m).KeepsMem := by
  unfold updateStep
  refine .get_bind fun d hd => ?_
  dsimp only
  split
  · exact .modify fun e he => by simp [he]
  split
  · exact .modify fun e he => by simp [he]
  refine .bind (uncounted_keepsMem ?_) fun _ => ?_
  · exact resolveRow_keepsMem _ _ _ _ _
  · split
    · exact .modify fun e he => by simp [he]
    · exact .modify fun e he => by simp [he]
    · split <;> exact .modify fun e he => by simp [he]
    · split
      · refine .bind (guestWord_keepsMem _ _ _) fun _ => ?_
        split
        · split <;> exact .modify fun e he => by simp [he]
        exact .modify fun e he => by simp [he]
      exact .modify fun e he => by simp [he]
    · split
      · refine .get_bind fun d1 hd1 => ?_
        split
        · exact .pure _
        exact .set (by simp [hd1])
      exact .modify fun e he => by simp [he]

theorem stependStep_keepsMem (m : TMsg) : (stependStep m).KeepsMem := by
  unfold stependStep
  refine .get_bind fun d hd => ?_
  dsimp only
  split
  · exact .set (by simp [hd])
  split
  · exact .set (by simp [hd])
  refine .bind (.set (by simp [hd])) fun _ => ?_
  exact .bind (stepsReady_keepsMem _ _) fun _ => .modify fun e he => by simp [he]

theorem migcopyStep_keepsMem (m : TMsg) : (migcopyStep m).KeepsMem := by
  unfold migcopyStep
  refine .get_bind fun d hd => ?_
  dsimp only
  split
  · exact .modify fun e he => by simp [he]
  split
  · exact .modify fun e he => by simp [he]
  split
  · exact .modify fun e he => by simp [he]
  refine .bind (guestWord_keepsMem _ _ _) fun _ => ?_
  split
  · exact .modify fun e he => by simp [he]
  split
  · exact .modify fun e he => by simp [he]
  split
  · exact .modify fun e he => by simp [he]
  refine .bind (engWriteBytes_keepsMem _ _ _ _ _ _) fun _ => ?_
  split
  · exact .modify fun e he => by simp [he]
  refine .bind (engWriteBytes_keepsMem _ _ _ _ _ _) fun _ => ?_
  split
  · exact .modify fun e he => by simp [he]
  exact .bind (.modify fun e he => by simp [he]) fun _ => .modify fun e he => by simp [he]

theorem migEndStep_keepsMem (m : TMsg) (commit : Bool) : (migEndStep m commit).KeepsMem := by
  unfold migEndStep
  refine .get_bind fun d hd => ?_
  dsimp only
  split
  · exact .modify fun e he => by simp [he]
  refine .bind (guestWord_keepsMem _ _ _) fun _ => ?_
  split
  · exact .modify fun e he => by simp [he]
  split
  · exact .modify fun e he => by simp [he]
  refine .bind (engWriteBytes_keepsMem _ _ _ _ _ _) fun _ => ?_
  split
  · exact .modify fun e he => by simp [he]
  exact .bind (.modify fun e he => he) fun _ => .modify fun e he => by simp [he]

theorem Dev.answered_memWf {d : Dev} (hm : Memory.wf d.mem = true) {m : TMsg} {f : Tx → Dev → Dev}
    (hf : ∀ t e, Memory.wf e.mem = true → (f t e).MemOk) :
    Memory.wf (d.answered m f).mem = true := by
  unfold Dev.answered
  dsimp only
  split
  · simpa
  · exact hf _ _ (by simpa)

@[simp] theorem Dev.txEnd_memWf {d : Dev} (hm : Memory.wf d.mem = true) (i : Nat) (t : Tx) (st : Nat) (err : Bool) :
    Memory.wf (d.txEnd i t st err).mem = true := by
  unfold Dev.txEnd
  split <;> simp [hm]

@[simp] theorem Dev.lookrsp_memWf {d : Dev} (hm : Memory.wf d.mem = true) (m : TMsg) : Memory.wf (d.lookrsp m).mem = true := by
  unfold Dev.lookrsp
  refine Dev.answered_memWf hm fun t e he => ?_
  dsimp only
  split <;> simp [he]

@[simp] theorem Dev.tarucAck_memWf {d : Dev} (hm : Memory.wf d.mem = true) (m : TMsg) : Memory.wf (d.tarucAck m).mem = true := by
  refine Dev.answered_memWf hm fun r e he => ?_
  simp [he]

@[simp] theorem Dev.tarucErr_memWf {d : Dev} (hm : Memory.wf d.mem = true) (m : TMsg) : Memory.wf (d.tarucErr m).mem = true := by
  refine Dev.answered_memWf hm fun r e he => ?_
  simp [he]

@[simp] theorem Dev.redirect_memWf {d : Dev} (hm : Memory.wf d.mem = true) (m : TMsg) : Memory.wf (d.redirect m).mem = true := by
  unfold Dev.redirect
  refine Dev.answered_memWf hm fun t e he => ?_
  dsimp only
  split <;> simp [he]

@[simp] theorem Dev.peerLimit_memWf {d : Dev} (hm : Memory.wf d.mem = true) (i : Nat) : Memory.wf (d.peerLimit i).mem = true := by
  unfold Dev.peerLimit
  split <;> simp [hm]

theorem bkdataStep_keepsMem (m : TMsg) (i : Nat) (id : DescId) (off dst len : Nat) : (bkdataStep m i id off dst len).KeepsMem := by
  refine .get_bind fun d hd => ?_
  dsimp only
  split
  · exact .set (by simpa)
  split
  · exact .set (by simpa)
  split
  · exact .set (by simpa)
  refine .bind (bulkWrite_keepsMem _ _ _ _ _ _) fun r => ?_
  split <;> exact .modify fun x hx => by simpa

@[simp] theorem Dev.bkdata_memWf {d : Dev} (hm : Memory.wf d.mem = true) (m : TMsg) : Memory.wf (d.bkdata m).mem = true := by
  unfold Dev.bkdata
  extract_lets w i st
  split
  · split
    · exact Dev.answered_memWf hm fun t e he => by simp [he]
    split
    · exact Dev.engine_memWf hm (bkdataStep_keepsMem _ _ _ _ _ _)
    · simp [hm]
    · exact Dev.answered_memWf hm fun t e he => by simp [he]
  · exact Dev.answered_memWf hm fun t e he => he

/-! ### The tiers (Machine/Tiers.lean) -/

@[simp] theorem Dev.upkeepRead_memWf {d : Dev} (hm : Memory.wf d.mem = true) (sector : Nat) (bad : List Nat) (cause : Nat) :
    Memory.wf (d.upkeepRead sector bad cause).mem = true := by
  simp [Dev.upkeepRead, hm]

@[simp] theorem Dev.copyBlock_memWf {d : Dev} (hm : Memory.wf d.mem = true) (k line cause : Nat) :
    Memory.wf (d.copyBlock k line cause).mem = true := by
  simp +contextual [Dev.copyBlock, hm]

@[simp] theorem Dev.remap_memWf {d : Dev} (hm : Memory.wf d.mem = true) (k line p slot : Nat) :
    Memory.wf (d.remap k line p slot).mem = true := by
  simp [Dev.remap, hm]

@[simp] theorem Dev.gapMove_memWf {d : Dev} (hm : Memory.wf d.mem = true) (k p : Nat) : Memory.wf (d.gapMove k p).mem = true := by
  simp [Dev.gapMove, hm]

@[simp] theorem Dev.storeBlock_memWf {d : Dev} (hm : Memory.wf d.mem = true) (k line : Nat) (counts failed : Bool) :
    Memory.wf (d.storeBlock k line counts failed).mem = true := by
  simp [Dev.storeBlock, hm]

@[simp] theorem Dev.blockWrite_memWf {d : Dev} (hm : Memory.wf d.mem = true) (k pulses : Nat) :
    Memory.wf (d.blockWrite k pulses).mem = true := by
  unfold Dev.blockWrite
  split <;> simp [hm]

@[simp] theorem Dev.scrub_memWf {d : Dev} (hm : Memory.wf d.mem = true) (sector : Nat) (found : List Nat) :
    Memory.wf (d.scrub sector found).mem = true := by
  simp [Dev.scrub, hm]

@[simp] theorem Dev.sweep_memWf {d : Dev} (hm : Memory.wf d.mem = true) (k block : Nat) (shifted normal : List Nat) :
    Memory.wf (d.sweep k block shifted normal).mem = true := by
  have hread {l : List (Nat × List Nat)} : Memory.wf (l.foldl (fun (y : Dev) p => y.upkeepRead p.1 p.2 1) d).mem = true :=
    Dev.foldl_memWf hm _ fun e p he => by simp [he]
  unfold Dev.sweep
  dsimp only
  split
  · exact hm
  · rw [Dev.setProg_mem]
    simp [hm, hread]

@[simp] theorem Dev.swapStep_memWf {d : Dev} (hm : Memory.wf d.mem = true) (k hot cold n : Nat) :
    Memory.wf (d.swapStep k hot cold n).mem = true := by
  simp [Dev.swapStep, hm]

@[simp] theorem Dev.wearSwap_memWf {d : Dev} (hm : Memory.wf d.mem = true) (k : Nat) : Memory.wf (d.wearSwap k).mem = true := by
  unfold Dev.wearSwap
  split <;> simp [hm]

@[simp] theorem Dev.wipe_memWf {d : Dev} (hm : Memory.wf d.mem = true) (a b : Nat) : Memory.wf (d.wipe a b).mem = true :=
  Mem.filter_wf _ hm

@[simp] theorem Dev.hdm0Ready_memWf {d : Dev} (hm : Memory.wf d.mem = true) (absent : List Nat) :
    Memory.wf (d.hdm0Ready absent).mem = true := by
  simp [Dev.hdm0Ready, hm]

@[simp] theorem Dev.fullPass_memWf {d : Dev} (hm : Memory.wf d.mem = true) (k : Nat) : Memory.wf (d.fullPass k).mem = true := by
  simp +contextual [Dev.fullPass, hm]

@[simp] theorem Dev.hdm1Ready_memWf {d : Dev} (hm : Memory.wf d.mem = true) (absent : List Nat) :
    Memory.wf (d.hdm1Ready absent).mem = true := by
  unfold Dev.hdm1Ready
  dsimp only
  split
  · exact hm
  · rw [Dev.initProgress_mem]
    refine Dev.foldl_memWf (by simp [hm]) _ fun e k he => ?_
    split <;> split <;> simp [he]

theorem tagLine_keepsMem (a : Acc) (line : Nat) : (tagLine a line).KeepsMem := by
  unfold tagLine
  refine .bind (engLine_keepsMem a line) fun _ => .forM _ fun sec => .bind (engInvalidate_keepsMem line sec false) fun _ => ?_
  refine .get_bind fun d hd => ?_
  dsimp only
  split
  · exact .bind (.set (by simp [hd])) fun _ => engOwe_keepsMem _ _ _
  · exact .set (by simp [hd])

theorem tagGranule_keepsMem (a : Acc) (tag line : Nat) : (tagGranule a tag line).KeepsMem :=
  .bind (tagLine_keepsMem a line) fun _ => .modify fun e he => Dev.foldl_memWf he _ fun x s hx => by simp [hx]

theorem tagStep_keepsMem (id : DescId) : (tagStep id).KeepsMem := by
  refine .get_bind fun d _ => ?_
  split
  · exact .pure _
  dsimp only
  split
  · exact .bind (.forM _ fun line => tagLine_keepsMem _ line) fun _ => .modify fun e he => by simpa
  split
  · exact .pure _
  split
  · exact .bind (tagGranule_keepsMem _ _ _) fun _ => .modify fun e he => by simpa
  · exact .modify fun e he => by simpa

@[simp] theorem Dev.tagLoop_memWf {d : Dev} (hm : Memory.wf d.mem = true) (id : DescId) (n : Nat) :
    Memory.wf (d.tagLoop id n).mem = true := by
  induction n generalizing d with
  | zero => exact hm
  | succ n ih => exact ih (Dev.engine_memWf hm (tagStep_keepsMem id))

@[simp] theorem Dev.tierTag_memWf {d : Dev} (hm : Memory.wf d.mem = true) (id : DescId) (n : Nat) :
    Memory.wf (d.tierTag id n).mem = true := by
  unfold Dev.tierTag
  split <;> simp [hm]

@[simp] theorem Dev.tierGiveBack_memWf {d : Dev} (hm : Memory.wf d.mem = true) (c sector : Nat) (x : CSector) :
    Memory.wf (d.tierGiveBack c sector x).mem = true := by
  simp [Dev.tierGiveBack, hm]

@[simp] theorem Dev.writeAllBack_memWf {d : Dev} (hm : Memory.wf d.mem = true) : Memory.wf d.writeAllBack.mem = true := by
  unfold Dev.writeAllBack
  refine Dev.foldl_memWf (Dev.foldl_memWf hm _ fun e p he => ?_) _ fun e p he => ?_
  · split <;> simp [he]
  · split <;> simp [he]

@[simp] theorem Dev.gpfPhase2_memWf {d : Dev} (hm : Memory.wf d.mem = true) : Memory.wf d.gpfPhase2.mem = true := by
  simp [Dev.gpfPhase2, hm]

/-! ### Margins (Machine/Margins.lean) -/

@[simp] theorem Dev.endSuspect_memWf {d : Dev} (hm : Memory.wf d.mem = true) (q g : Nat) (p : DescId × Nat) :
    Memory.wf (d.endSuspect q g p).mem = true := by
  fun_cases Dev.endSuspect <;> simp [hm]

@[simp] theorem Dev.readBackBad_memWf {d : Dev} (hm : Memory.wf d.mem = true) (q g sector : Nat) :
    Memory.wf (d.readBackBad q g sector).mem = true := by
  simp [Dev.readBackBad, hm]

@[simp] theorem Dev.canaryFail_memWf {d : Dev} (hm : Memory.wf d.mem = true) (q g i : Nat) (suspects : List (DescId × Nat)) (reads : Nat)
    (bad : List Nat) :
    Memory.wf (d.canaryFail q g i suspects reads bad).mem = true := by
  unfold Dev.canaryFail
  extract_lets x d0 first d1 d2 d3 d4 d5
  have h0 : Memory.wf d0.mem = true := by simp [d0, hm]
  have h1 : Memory.wf d1.mem = true := by simp [d1, h0]
  have h2 : Memory.wf d2.mem = true := by unfold d2; split <;> simp [h1]
  have h3 : Memory.wf d3.mem = true := by simp [d3, h2]
  have h4 : Memory.wf d4.mem = true := by
    unfold d4
    rw [Dev.suspectReads_mem]
    exact Dev.foldl_memWf h3 _ fun e n he => by simp [he]
  have h5 : Memory.wf d5.mem = true := by unfold d5; split <;> simp [h4]
  split
  · exact hm
  split
  · exact h0
  · exact Dev.foldl_memWf h5 _ fun e n he => by simp [he]

/-! ### Mailboxes (Machine/Mailbox.lean) -/

theorem mailboxGather_keepsMem (m : Nat) : (mailboxGather m).KeepsMem := by
  unfold mailboxGather
  refine .get_bind fun d hd => ?_
  dsimp only
  split
  · exact .set (by simp [hd])
  refine .bind (checkGather_keepsMem _ _ _ _ _) fun _ => ?_
  split
  · exact .modify fun e he => by simp [he]
  exact .modify fun e he => he

@[simp] theorem Dev.deliverMailbox_memWf {d : Dev} (hm : Memory.wf d.mem = true) (m : Nat) : Memory.wf (d.deliverMailbox m).mem = true := by
  unfold Dev.deliverMailbox
  dsimp only
  (repeat' split) <;> simp [hm, mailboxGather_keepsMem]

theorem replyStep_keepsMem (m : Nat) : (replyStep m).KeepsMem := by
  unfold replyStep
  refine .get_bind fun d hd => ?_
  dsimp only
  split
  · exact .pure _
  exact .bind (engWrite_keepsMem _ _ _ _ _ _ _) fun _ => .modify fun e he => he

@[simp] theorem Dev.replyMailbox_memWf {d : Dev} (hm : Memory.wf d.mem = true) (m : Nat) : Memory.wf (d.replyMailbox m).mem = true := by
  simp [Dev.replyMailbox, hm, replyStep_keepsMem]

/-! ### Resets (Machine/Reset.lean) -/

@[simp] theorem Dev.resetRun_memWf {d : Dev} (hm : Memory.wf d.mem = true) (s : ResetSeq) (r : Run) :
    Memory.wf (d.resetRun s r).mem = true := by
  unfold Dev.resetRun
  dsimp only
  (repeat' split) <;> simp [hm]

@[simp] theorem Dev.hostGone_memWf {d : Dev} (hm : Memory.wf d.mem = true) : Memory.wf d.hostGone.mem = true :=
  Dev.foldl_memWf hm _ fun e p he => by split <;> simp [he]

@[simp] theorem Dev.stopAll_memWf {d : Dev} (hm : Memory.wf d.mem = true) (s : ResetSeq) : Memory.wf (d.stopAll s).mem = true := by
  unfold Dev.stopAll
  extract_lets _ _ _ d1 d2 d3 d4 _ d5 d6 d7
  have h2 : Memory.wf d2.mem = true := Dev.foldl_memWf (by simp [d1, hm]) _ fun e p he => by split <;> simp [he]
  have h3 : Memory.wf d3.mem = true := Dev.foldl_memWf h2 _ fun e r he => by simp [he]
  have h6 : Memory.wf d6.mem = true := Dev.foldl_memWf (by simp [d5, d4, h3]) _ fun e q he => by simp [he]
  have h7 : Memory.wf d7.mem = true := by
    simp only [d7, Dev.mem_ite, Memory.wf_ite, h6]
    split
    · exact Dev.hostGone_memWf (Dev.foldl_memWf h6 _ fun e p he => by simp [he])
    · rfl
  split
  · exact h7
  · exact Dev.foldl_memWf h7 _ fun e p he => by simp [he]

theorem finalRecord_keepsMem (id : DescId) : (finalRecord id).KeepsMem := by
  unfold finalRecord
  refine .get_bind fun d hd => ?_
  split
  · exact .pure _
  dsimp only
  split
  · exact .modify fun e he => he
  split
  · split
    · exact .pure _
    exact .modify fun e he => he
  split
  · exact .pure _
  refine .bind (recordWrite_keepsMem _ _ _) fun _ => ?_
  split
  · exact .modify fun e he => he
  split <;> exact .modify fun e he => he

@[simp] theorem Dev.finalRecords_memWf {d : Dev} (hm : Memory.wf d.mem = true) (s : ResetSeq) :
    Memory.wf (d.finalRecords s).mem = true := by
  simp +contextual [Dev.finalRecords, hm, finalRecord_keepsMem]

@[simp] theorem Dev.poisonBack_memWf {d : Dev} (hm : Memory.wf d.mem = true) (line sec : Nat) :
    Memory.wf (d.poisonBack line sec).mem = true := by
  simp [Dev.poisonBack, hm]

@[simp] theorem Dev.l1Distrust_memWf {d : Dev} (hm : Memory.wf d.mem = true) (bad : Nat → Bool) (c : Nat) :
    Memory.wf (d.l1Distrust bad c).mem = true := by
  simp +contextual [Dev.l1Distrust, hm]

@[simp] theorem Dev.l1GiveUp_memWf {d : Dev} (hm : Memory.wf d.mem = true) (bad : Nat → Bool) (c : Nat) :
    Memory.wf (d.l1GiveUp bad c).mem = true := by
  simp [Dev.l1GiveUp, hm]

@[simp] theorem Dev.sliceEmpty_memWf {d : Dev} (hm : Memory.wf d.mem = true) (bad : Nat → Bool) (n : Nat) :
    Memory.wf (d.sliceEmpty bad n).mem = true := by
  unfold Dev.sliceEmpty
  rw [Dev.updCache_mem]
  exact Dev.foldl_memWf hm _ fun e l he => Dev.foldl_memWf he _ fun y s hy => by simp [hy]

@[simp] theorem Dev.absorb_memWf {d : Dev} (hm : Memory.wf d.mem = true) : Memory.wf d.absorb.mem = true :=
  Dev.foldl_memWf hm _ fun e m he => by
    split
    · simp [he]
    · simp [he]
    · split <;> simp [he]
    · exact he

@[simp] theorem Dev.recallHost_memWf {d : Dev} (hm : Memory.wf d.mem = true) : Memory.wf d.recallHost.mem = true := by
  simp +contextual [Dev.recallHost, hm]

@[simp] theorem Dev.hostWalk_memWf {d : Dev} (hm : Memory.wf d.mem = true) : Memory.wf d.hostWalk.mem = true := by
  show d.hostWalk.MemOk
  unfold Dev.hostWalk
  extract_lets d1 d2 es d3
  have h1 : d1.MemOk := Dev.MemOk.foldl hm _ fun e c he => Dev.MemOk.foldl he _ fun y p hy => by split <;> simp [hy]
  have h2 : d2.MemOk := Dev.MemOk.foldl h1 _ fun e n he => by simp [he]
  have h3 : d3.MemOk := Dev.MemOk.foldl h2 _ fun e x he => by
    split
    · simp [he]
    · exact Dev.MemOk.foldl he _ fun y s hy => by simp [hy]
  exact h3.setHl _

@[simp] theorem Dev.emptyCaches_memWf {d : Dev} (hm : Memory.wf d.mem = true) (s : ResetSeq) : Memory.wf (d.emptyCaches s).mem = true := by
  unfold Dev.emptyCaches
  extract_lets bad d1 d2
  have h1 : Memory.wf d1.mem = true := Dev.foldl_memWf hm _ fun e c he => by simp [he]
  simp [d2, h1]

@[simp] theorem Dev.emptyFirst_memWf {d : Dev} (hm : Memory.wf d.mem = true) (s : ResetSeq) : Memory.wf (d.emptyFirst s).mem = true := by
  simp [Dev.emptyFirst, hm]

@[simp] theorem Dev.endIsolated_memWf {d : Dev} (hm : Memory.wf d.mem = true) (m : ReqMsg) (txid : Nat) :
    Memory.wf (d.endIsolated m txid).mem = true := by
  simp +contextual [Dev.endIsolated, hm]

@[simp] theorem Dev.failHeld_memWf {d : Dev} (hm : Memory.wf d.mem = true) (s : ResetSeq) : Memory.wf (d.failHeld s).mem = true := by
  refine Dev.foldl_memWf hm _ fun e p he => ?_
  dsimp only
  have hstuck {l : List ReqMsg} : Memory.wf (l.foldl (fun (y : Dev) m => y.endIsolated m (txidOf p.1 0)) e).mem = true :=
    Dev.foldl_memWf he _ fun y m hy => by simp [hy]
  split
  · refine Dev.foldl_memWf ?_ _ fun y x hy => by split <;> simp [hy]
    rw [Dev.updHome_mem]
    exact hstuck
  · rw [Dev.memOk_iff, Dev.updHome_mem]
    exact hstuck

@[simp] theorem Dev.holdParts_memWf {d : Dev} (hm : Memory.wf d.mem = true) (s : ResetSeq) : Memory.wf (d.holdParts s).mem = true := by
  unfold Dev.holdParts
  dsimp only
  refine Dev.foldl_memWf (Dev.foldl_memWf ?_ _ fun e n he => ?_) _ fun e h he => Dev.settle_memWf he h
  · exact hm
  · simp [he]

@[simp] theorem Dev.hold_memWf {d : Dev} (hm : Memory.wf d.mem = true) (s : ResetSeq) : Memory.wf (d.hold s).mem = true := by
  unfold Dev.hold
  extract_lets bad d0 d1 d2 d3 d4 d5 d6 d7 _ d8 doms
  have h1 : Memory.wf d1.mem = true := Dev.foldl_memWf (by simp [d0, hm]) _ fun e n he => by simp [he]
  have h2 : Memory.wf d2.mem = true := Dev.failHeld_memWf h1 s
  have h4 : Memory.wf d4.mem = true := by simp [d4, d3, h2]
  have h6 : Memory.wf d6.mem = true := by simp [d6, d5, h4]
  simp [d8, d7, h6]

@[simp] theorem Dev.dirsEmpty_memWf {d : Dev} (hm : Memory.wf d.mem = true) : Memory.wf d.dirsEmpty.mem = true := by
  unfold Dev.dirsEmpty
  split <;> simp [hm]

@[simp] theorem Dev.wholeReset_memWf {d : Dev} (hm : Memory.wf d.mem = true) (cold : Bool) : Memory.wf (d.wholeReset cold).mem = true :=
  Mem.filter_wf _ hm

@[simp] theorem Dev.supplyFail_memWf {d : Dev} (hm : Memory.wf d.mem = true) : Memory.wf d.supplyFail.mem = true := by
  simp [Dev.supplyFail, hm]

@[simp] theorem Dev.wholeTrigger_memWf {d : Dev} (hm : Memory.wf d.mem = true) (t : Trigger) : Memory.wf (d.wholeTrigger t).mem = true := by
  simp [Dev.wholeTrigger, hm]

@[simp] theorem Dev.duringStart_memWf {d : Dev} (hm : Memory.wf d.mem = true) (t : Trigger) : Memory.wf (d.duringStart t).mem = true := by
  simp [Dev.duringStart, hm]

@[simp] theorem Dev.resetSequence_memWf {d : Dev} (hm : Memory.wf d.mem = true) : Memory.wf d.resetSequence.mem = true := by
  unfold Dev.resetSequence
  dsimp only
  (repeat' split) <;> simp [hm]

/-! ### Power states (Machine/Power.lean) -/

@[simp] theorem Dev.exitActive_memWf {d : Dev} (hm : Memory.wf d.mem = true) : Memory.wf d.exitActive.mem = true := by
  simp +contextual [Dev.exitActive, hm]

@[simp] theorem Dev.exitStep_memWf {d : Dev} (hm : Memory.wf d.mem = true) : Memory.wf d.exitStep.mem = true := by
  simp [Dev.exitStep, hm]

/-! ### Registers (Machine/Registers.lean) -/

@[simp] theorem Dev.writeBias_memWf {d : Dev} (hm : Memory.wf d.mem = true) (src : RegSource) (i : Nat) (v mask : Word64) :
    Memory.wf (d.writeBias src i v mask).mem = true := by
  unfold Dev.writeBias
  split <;> simp [hm]

@[simp] theorem Dev.writeChReg_memWf {d : Dev} (hm : Memory.wf d.mem = true) (src : RegSource) (off : Nat) (v mask : Word64) :
    Memory.wf (d.writeChReg src off v mask).mem = true := by
  simp [Dev.writeChReg, hm]

@[simp] theorem Dev.writeReg_memWf {d : Dev} (hm : Memory.wf d.mem = true) (src : RegSource) (addr size : Nat) (value : Word64) :
    Memory.wf (d.writeReg src addr size value).mem = true := by
  simp [Dev.writeReg, hm]

@[simp] theorem Dev.writeRegSector_memWf {d : Dev} (hm : Memory.wf d.mem = true) (sector : Nat) (x : Sector) (mask : Word64) :
    Memory.wf (d.writeRegSector sector x mask).mem = true := by
  simp +contextual [Dev.writeRegSector, hm]

@[simp] theorem Dev.drainRegs_memWf {d : Dev} (hm : Memory.wf d.mem = true) : Memory.wf d.drainRegs.mem = true := by
  simp +contextual [Dev.drainRegs, hm]

/-! ### Store buffers (Machine/Stores.lean) -/

@[simp] theorem Dev.popStore_memWf {d : Dev} (hm : Memory.wf d.mem = true) (c : Nat) : Memory.wf (d.popStore c).mem = true := by
  simp [Dev.popStore, hm]

@[simp] theorem Dev.performStore_memWf {d : Dev} (hm : Memory.wf d.mem = true) (c : Nat) (e : StoreEntry) :
    Memory.wf (d.performStore c e).mem = true := by
  simp [Dev.performStore, hm]

@[simp] theorem Dev.drainNormal_memWf {d : Dev} (hm : Memory.wf d.mem = true) (c : Nat) (e : StoreEntry) :
    Memory.wf (d.drainNormal c e).mem = true := by
  simp [Dev.drainNormal, hm]

@[simp] theorem Dev.drainDevice_memWf {d : Dev} (hm : Memory.wf d.mem = true) (c : Nat) (e : StoreEntry) :
    Memory.wf (d.drainDevice c e).mem = true := by
  simp [Dev.drainDevice, hm]

@[simp] theorem Dev.storeDrain_memWf {d : Dev} (hm : Memory.wf d.mem = true) (c : Nat) : Memory.wf (d.storeDrain c).mem = true := by
  unfold Dev.storeDrain
  dsimp only
  (repeat' split) <;> simp [hm]

/-! ### Answers at a core (Machine/CoreRsp.lean) -/

@[simp] theorem Dev.l1Install_memWf {d : Dev} (hm : Memory.wf d.mem = true) (c : Nat) (m : RspMsg) (side : Bool) :
    Memory.wf (d.l1Install c m side).mem = true := by
  simp [Dev.l1Install, hm]

@[simp] theorem Dev.missDone_memWf {d : Dev} (hm : Memory.wf d.mem = true) (c : Nat) (m : RspMsg) :
    Memory.wf (d.missDone c m).mem = true := by
  fun_cases Dev.missDone <;> simp [hm]

@[simp] theorem Dev.coreData_memWf {d : Dev} (hm : Memory.wf d.mem = true) (m : RspMsg) : Memory.wf (d.coreData m).mem = true := by
  unfold Dev.coreData
  dsimp only
  (repeat' split) <;> simp [hm]

@[simp] theorem Dev.dataIn_memWf {d : Dev} (hm : Memory.wf d.mem = true) (m : RspMsg) : Memory.wf (d.dataIn m).mem = true := by
  simp [Dev.dataIn, hm]

@[simp] theorem Dev.coreCmp_memWf {d : Dev} (hm : Memory.wf d.mem = true) (m : RspMsg) : Memory.wf (d.coreCmp m).mem = true := by
  unfold Dev.coreCmp
  dsimp only
  (repeat' split) <;> simp [hm]

@[simp] theorem Dev.cmpIn_memWf {d : Dev} (hm : Memory.wf d.mem = true) (m : RspMsg) : Memory.wf (d.cmpIn m).mem = true := by
  simp [Dev.cmpIn, hm]

@[simp] theorem Dev.coreErr_memWf {d : Dev} (hm : Memory.wf d.mem = true) (m : RspMsg) : Memory.wf (d.coreErr m).mem = true := by
  unfold Dev.coreErr
  dsimp only
  (repeat' split) <;> simp [hm]

@[simp] theorem Dev.errIn_memWf {d : Dev} (hm : Memory.wf d.mem = true) (m : RspMsg) : Memory.wf (d.errIn m).mem = true := by
  simp [Dev.errIn, hm]

/-! ### The mover of a core (Machine/Mover.lean) -/

@[simp] theorem Dev.moverRegs_memWf {d : Dev} (hm : Memory.wf d.mem = true) (c : Nat) (da : Word64) (dump : Bool) (dpa o n : Nat) :
    Memory.wf (d.moverRegs c da dump dpa o n).mem = true := by
  induction n generalizing d da dpa o with
  | zero => exact hm
  | succ n ih =>
    refine ih ?_ _ _ _
    split
    · simp [hm]
    split <;> simp [hm]

theorem gsubCheck_keepsMem (w : List Word64) (ctx : Nat) : (gsubCheck w ctx).KeepsMem := by
  unfold gsubCheck
  split
  · exact .pure _
  refine .bind (checkGather_keepsMem _ _ _ _ _) fun _ => ?_
  split <;> exact .pure _

@[simp] theorem Dev.amoReg_memWf {d : Dev} (hm : Memory.wf d.mem = true) (c off : Nat) (op : AtomicOp) (narrow : Bool) (reg : Nat)
    (x y : Word64) :
    Memory.wf (d.amoReg c off op narrow reg x y).mem = true := by
  simp [Dev.amoReg, hm]

/-! ### The tile unit (Machine/Tile.lean) -/

@[simp] theorem Dev.tileEnd_memWf {d : Dev} (hm : Memory.wf d.mem = true) (c : Nat) : Memory.wf (d.tileEnd c).mem = true := by
  unfold Dev.tileEnd
  dsimp only
  (repeat' split) <;> simp [hm]

end Sys2Proof.Machine
end

section
/-! Every command keeps the canonical form of tier memory: the instructions of a core, whose issue may leave the block as it was, and
then the arms of `exec`, each by the lemma of its meaning. -/

open Sys2Proof Sys2Proof.Machine

namespace Sys2Proof.Machine

/-! ### Instructions that may stall: the block is what they leave, or what they found -/

@[simp] theorem Dev.amoGo_memWf {base d : Dev} (hb : Memory.wf base.mem = true) (hm : Memory.wf d.mem = true) (c : Nat) (op : AtomicOp)
    (narrow : Bool) (reg : Nat) (da x y : Word64) : Memory.wf (base.amoGo d c op narrow reg da x y).mem = true := by
  unfold Dev.amoGo
  dsimp only
  split
  · simp [hm]
  split
  · exact hb
  split
  · simp [hm]
  · simp [hm]

@[simp] theorem Dev.loadL1_memWf {base d : Dev} (hb : Memory.wf base.mem = true) (hm : Memory.wf d.mem = true) (c : Nat) (w : CoreWait)
    (sector : Nat) : Memory.wf (base.loadL1 d c w sector).mem = true := by
  unfold Dev.loadL1
  extract_lets line sec n k inSide coh d1 x bad d2
  have h1 : Memory.wf d1.mem = true := by unfold d1; split <;> simp [hm]
  have h2 : Memory.wf d2.mem = true := by unfold d2; split <;> simp [h1]
  split
  · exact hb
  split
  · simp [h1]
  split
  · simp [h2]
  split
  · exact hb
  split <;> simp [h2]

@[simp] theorem Dev.loadGo_memWf {base d : Dev} (hb : Memory.wf base.mem = true) (hm : Memory.wf d.mem = true) (c : Nat) (w : CoreWait)
    (sp : Spot) (mask : Word64) : Memory.wf (base.loadGo d c w sp mask).mem = true := by
  unfold Dev.loadGo
  simp [hb, hm]

@[simp] theorem Dev.moverGo_memWf {base d : Dev} (hb : Memory.wf base.mem = true) (hm : Memory.wf d.mem = true) (c : Nat) (dump : Bool)
    (da : Word64) (o len : Nat) : Memory.wf (base.moverGo d c dump da o len).mem = true := by
  unfold Dev.moverGo
  dsimp only
  split
  · simp [hm]
  split
  · simp [hm]
  · simp [hm]
  · simp [hb, hm]

@[simp] theorem Dev.gsubGo_memWf {base d : Dev} (hb : Memory.wf base.mem = true) (hm : Memory.wf d.mem = true) (c o out rec_ : Nat) :
    Memory.wf (base.gsubGo d c o out rec_).mem = true := by
  unfold Dev.gsubGo
  dsimp only
  split
  · simp [hm]
  split
  · simp [hm]
  split
  · exact hb
  split
  · exact hb
  · simp [hb]
  · simp [hb]
  · next hck => simp [gsubCheck_keepsMem _ _ hm hck]

@[simp] theorem Dev.storeGo_memWf {base d : Dev} (hb : Memory.wf base.mem = true) (hm : Memory.wf d.mem = true) (c : Nat) (da : Word64) (size : Nat)
    (mk : Nat → Word64 × Sector) : Memory.wf (base.storeGo d c da size mk).mem = true := by
  unfold Dev.storeGo
  dsimp only
  split <;> simp [hb, hm]

theorem Dev.waitmThen_memWf {base d : Dev} (hb : Memory.wf base.mem = true) (hm : Memory.wf d.mem = true) {c : Nat} {go : Dev → Dev}
    (hg : ∀ e, Memory.wf e.mem = true → (go e).MemOk) : Memory.wf (Dev.waitmThen base d c go).mem = true := by
  unfold Dev.waitmThen
  split
  · exact hb
  · refine Dev.drainThen_memWf hb hm fun e he => ?_
    split
    · simp [he]
    · exact hg _ he

/-! ### What a command goes on to -/

/-- The state an outcome goes on to has its tier memory in canonical form. -/
def MemOkAfter (o : Host.Outcome State Fault Refusal) : Prop := ∀ t, o = .next t → t.memOk

theorem MemOkAfter.goes {s : State} {d : Dev} (h : d.MemOk) : MemOkAfter (s.goes d) := by
  intro t ht
  rw [State.goes_eq] at ht
  cases ht
  exact h

theorem MemOkAfter.homes {s : State} {d : Dev} (h : d.MemOk) : MemOkAfter (s.homes d) :=
  .goes (Dev.pumpHomes_memWf h)

theorem MemOkAfter.timed {s : State} {d : Dev} (hm : Memory.wf s.dev.mem = true) (h : d.MemOk) : MemOkAfter (s.timed d) := by
  refine .goes ?_
  split
  · exact hm
  · exact h

theorem MemOkAfter.issueReg {s : State} (hm : Memory.wf s.dev.mem = true) {c : Nat} {legal : Bool} {ss vw : List Nat} {g : Core → Core} :
    MemOkAfter (s.goes (s.dev.issueReg c legal ss vw g)) :=
  .goes (by simp [hm])

theorem MemOkAfter.issue {s : State} (hm : Memory.wf s.dev.mem = true) {c : Nat} {legal : Bool} {ss vw : List Nat} {run : Dev → Core → Dev}
    (hr : ∀ e k, Memory.wf e.mem = true → (run e k).MemOk) : MemOkAfter (s.goes (s.dev.issue c legal ss vw run)) :=
  .goes (Dev.issue_memWf hm hr)

theorem MemOkAfter.scratchOp {s : State} (hm : Memory.wf s.dev.mem = true) (c : CoreId) (f : Fields) (pOk : Bool) (n : Nat) (ss vw : List Nat)
    (g : Core → Nat → Core) : MemOkAfter (scratchOp c f pOk n ss vw g s) :=
  .issue hm fun e k he => by
    dsimp only
    split <;> simp [he]

theorem MemOkAfter.tileIssue {s : State} (hm : Memory.wf s.dev.mem = true) (c : CoreId) (f : Fields) (legal : Bool) (ss : List Nat)
    (op : UnitOp) (acc : Option Nat) (pre : Core → Option Nat) (xyz : Core → Word64 × Word64 × Word64) :
    MemOkAfter (tileIssue c f legal ss op acc pre xyz s) :=
  .issue hm fun e k he => by
    extract_lets missing held
    split
    · simp [he]
    split
    · simp [he]
    · split <;> simp [he, hm]

theorem MemOkAfter.topIssue {s : State} (hm : Memory.wf s.dev.mem = true) (c : CoreId) (f : Fields) (legal : Bool) (ss : List Nat)
    (op : UnitOp) (acc : Option Nat) (pre : Core → Option Nat) (xyz : Core → Word64 × Word64 × Word64) :
    MemOkAfter (topIssue c f legal ss op acc pre xyz s) :=
  .issue hm fun e k he => by
    extract_lets missing held
    split
    · simp [he]
    split
    · simp [he]
    · split <;> simp [he, hm]

theorem MemOkAfter.load {s : State} (hm : Memory.wf s.dev.mem = true) (c : CoreId) (f : Fields) (size : Nat) (sext : Bool) :
    MemOkAfter (load c f size sext s) :=
  .issue hm fun e k he => by
    dsimp only
    split <;> simp [he, hm]

/-! ### The commands -/

theorem exec_memOk {s : State} (hm : Memory.wf s.dev.mem = true) (i : Instr) : MemOkAfter (exec i s) := by
  cases i
  case add | sub | mul | mulh | mulhu | div | divu | rem | remu | and | or | xor | shl | shr | sar | min | max | minu | maxu | cmpeq |
    cmplt | cmpltu | popc | clz | ctz | li | lih | aadd | aaddi | amovs | smova | aseg | fadd | fsub | fmul | fdiv | fsqrt | fma | fmin
    | fmax | fcmpeq | fcmplt | fcmple | fcvtfi | fcvtif | nop | rdref | rdwave | vadd | vsub | vmul | vmulh | vmin | vmax | vminu |
    vmaxu | vand | vor | vxor | vshl | vshr | vsar | vpopc | vabsd | vadds | vsubs | vcmpeq | vcmplt | vcmpltu | vfadd | vfsub | vfmul |
    vfdiv | vfsqrt | vfma | vfmin | vfmax | vfcmpeq | vfcmplt | vfcmple | vfabs | vfneg | vcvt | vmxenc | vmxdec | vbcast | vredadd |
    vredmin | vredmax | vsel | pand | por | pxor | pnot | pfroms | ptos | pcnt =>
    exact .issueReg hm
  case ld8 | ld16 | ld32 | ld64 | lds8 | lds16 | lds32 =>
    exact .load hm _ _ _ _
  case vlds | vsts | sld64 | sst64 =>
    delta exec
    exact .scratchOp hm _ _ _ _ _ _ _
  case tmma | tl2 | tl1 | tham | tmins | tmaxs | tld | tst | tzero | ttr8 | acczero | accst | accld | accsave | accrestore | accmrg =>
    delta exec
    exact .tileIssue hm _ _ _ _ _ _ _ _
  case tkinit | tkpush | tkpushs | tkout =>
    delta exec
    exact .topIssue hm _ _ _ _ _ _ _ _
  case j | call | jr | bz | bnz | bpany | brk | st8 | st16 | st32 | st64 | vst | vperm | vext | vins | accmode | sfill | sdump | gsub =>
    exact .issue hm fun e k he => by simp [he, hm]
  case vld =>
    exact .issue hm fun e k he => by
      dsimp only
      split <;> simp [he, hm]
  case waits =>
    exact .issue hm fun e k he => by
      dsimp only
      split
      · simp [he]
      · split <;> simp [he, hm]
  case amo =>
    exact .issue hm fun e k he => by split <;> simp [he, hm]
  case drain =>
    exact .issue hm fun e k he => Dev.drainThen_memWf hm he fun d hd => by simp [hd]
  case waitm =>
    exact .issue hm fun e k he => Dev.waitmThen_memWf hm he fun d hd => by simp [hd]
  case endK =>
    exact .issue hm fun e k he => Dev.drainThen_memWf hm he fun d hd => Dev.waitmThen_memWf hm hd fun d1 hd1 => by
      simp [hd1]
  case tbar =>
    exact .issue hm fun e k he => Dev.drainThen_memWf hm he fun d hd => by
      dsimp only
      split
      · simp [hd]
      split
      · simp [hd]
      · simp [hd]
      · simp [hd]
  case canaryFail | refclkLost | refclkReturn | tableDefine | tableRetire | gather | shardLoadFlush | carafeRefresh | sketchDecay |
    shardLoad | sketchRead | tableRead | epochOpen | epochAdvance | update | determPeers | guestAttach | guestDetach | kernel |
    teamStart | coreRetire | storeBufferDrain | tileUnitComplete | snpinv | fwdshared | fwdowned | fwdcurrent | grant | atomrsp | memrd
    | memwr | memrmw | memSpecRd | cacheRangeWriteback | cacheRangeFlush | cacheRangeInvalidate | cacheRangePrefetch | preloadLock |
    unlock | cacheRangeInvalidateAll | cacheRangeWritebackAll | cacheRangeFlushAll | cacheEnableWrite | cacheCommand | cacheWayRestore |
    fence | revoke | generationBump | generationCopyAck | drainMarkerAnswer | qdoorbell | descriptorFetch | interimRecord |
    completionRecord | copy | mailboxDelivery | mailboxReply | hostLinkUp | linkRecovery | dlDown | ideFailure | ideKeyRefresh |
    decoderCommit | cxlReset | gpfPhase1 | gpfPhase2 | biasCmdDevice | biasCmdShared | d3hotWrite | d0Write | flitReceive | nak |
    linkUpAttempt | capx | lenprobe | lenecho | lookrsp | redirect | bkdata | ping | pong | linkEnable | retrain | injectCrc | read |
    write | discover | fnDatagram | neighbourSolicitation | icmpv6Echo | fnLinkUp | dictWinGo | roleKeyWrite | calendarWrite | nvCompact
    | restoreDefaults | sensorSample | faultRaise | faultClear | faultPinDrive | fltSrcClear | faultInject | watchdogHeartbeat |
    warmReset | isolateAgent | resetSequence | crit | directoriesEmpty | resetRelease | nvPulseEnd | bkGoodFall | bkGoodRise |
    throttleNAssert | throttleNRelease | perstRelayN | supplyFail | coldStart | hdm0Ready | hdm1Ready | tierTag | refresh | dramScrub |
    retentionSweep | sweepLate | blockWrite | wearSwap | lifePersist | pwrActive | pwrStandby | pwrDormant | pwrOffReady |
    powerEntryStep | powerExitStep | registerWrite | perstRelayNRelease | tarucPhyTrained | fnLinkDown | duplicateAddressDetection |
    discoverAnswer | percolatorWalkEnd | doeRequest =>
    exact .goes (by simp [hm])
  case biconflict =>
    exact .goes (by split <;> simp [hm])
  case cacheEnable | cacheDisable | pcmdInvalidateAll | pcmdWritebackAll | pcmdFlushAll =>
    exact .goes (Dev.cacheReg_memWf hm fun e he => by simp [he])
  case segValidate | segLimitWrite | qdbEnable | qdbDisable =>
    exact .goes (Dev.cpReg_memWf hm fun e he => by simp [he])
  case lookup =>
    exact .goes (Dev.ingress_memWf hm fun e he => Dev.engine_memWf he (lookupStep_keepsMem _))
  case bkrd =>
    exact .goes (Dev.ingress_memWf hm fun e he => Dev.engine_memWf he (bkrdStep_keepsMem _))
  case tarucUpdate =>
    exact .goes (Dev.ingress_memWf hm fun e he => Dev.engine_memWf he (updateStep_keepsMem _))
  case stepend =>
    exact .goes (Dev.ingress_memWf hm fun e he => Dev.engine_memWf he (stependStep_keepsMem _))
  case migcopy =>
    exact .goes (Dev.ingress_memWf hm fun e he => Dev.engine_memWf he (migcopyStep_keepsMem _))
  case migcommit =>
    exact .goes (Dev.ingress_memWf hm fun e he => Dev.engine_memWf he (migEndStep_keepsMem _ _))
  case migabort =>
    exact .goes (Dev.ingress_memWf hm fun e he => Dev.engine_memWf he (migEndStep_keepsMem _ _))
  case bkwr =>
    exact .goes (Dev.ingress_memWf hm fun e he => Dev.engine_memWf he (bkwrStep_keepsMem _))
  case migrate | waitingCremaResume | migrationCommit | rdshared | rdown | claim | rdcurrent | wrfull | wrpart | evictdirty | evictclean
    | atomic | updrow | data | cmp | err | ack | ackdata | fwddone | fwdmiss | compack | memdata | memcmp | holdEnd | requestStarved |
    memRd | memRdData | memRdFwd | memInv | memClnEvct | memWr | memWrPtl | birsp | snpInv | snpData | snpCur | go | goErr | tarucAck |
    tarucErr | peerAnswerLimit =>
    exact .homes (by simp [hm])
  case canaryReadRound | marginDeadline | issueGateDouble | replanInterval | voltStepSettle | powerLimiterWindow | ageingBeyondRating |
    vreqRepeat | launchStaggerWindow | epochWaitLimit | determStepLimit | descriptorTimeout | mbxWaitLimit | hostAnswerLimit |
    retryTimeout | linkRetrainLimit | lockoutEnd | calendarAdvance | calendarPersist | faultPulseEnd | watchdogExpiry | stopTimeout |
    storeDrainLimit | persistWaitLimit =>
    exact .timed hm (by simp [hm])
  case topkUnitComplete =>
    delta exec
    dsimp only [execTopkUnitComplete]
    split
    · exact .goes hm
    · exact .goes (by split <;> simp [hm])

end Sys2Proof.Machine

namespace Sys2Proof.Proofs

/-- Settles O59: a step is the front command or one reference count, and both keep the form. -/
theorem memoryFormKept : Obligations.MemoryFormKept := by
  intro s t hm hstep
  unfold step at hstep
  split at hstep
  · exact MemOkAfter.goes (s := s) (by simpa [State.memOk] using hm) t hstep
  · next c rest _ => exact exec_memOk (s := { s with pending := rest }) hm c t hstep

end Sys2Proof.Proofs
end

section
/-! What the reports of the tiers' upkeep leave alone: faults, records of the NV store, the life log and events of TIER_STATUS write
what the block says of itself, and neither the cells nor what is kept about them. -/

open Sys2Proof Sys2Proof.Machine

namespace Sys2Proof.Machine

/-- The block without what a report writes. -/
def Dev.unreported (d : Dev) : Dev :=
  { d with out := [], msixPend := [], flt := .reset, pins := .reset, mg := .reset, rst := .reset }

theorem Dev.msixRaise_unreported (d : Dev) (v : Nat) : (d.msixRaise v).unreported = d.unreported := by
  unfold Dev.msixRaise
  dsimp only
  split <;> rfl

theorem Dev.refreshPins_unreported (d : Dev) : d.refreshPins.unreported = d.unreported := by
  unfold Dev.refreshPins
  split <;> rfl

theorem Dev.unreported_ite (c : Prop) [Decidable c] (d e : Dev) :
    (if c then d else e).unreported = if c then d.unreported else e.unreported := apply_ite ..

theorem Dev.collect_unreported (d : Dev) (m : FaultMsg) : (d.collect m).unreported = d.unreported := by
  unfold Dev.collect
  extract_lets q k e first k' d1 d2
  rw [Dev.refreshPins_unreported, Dev.unreported_ite, Dev.msixRaise_unreported, ite_self]
  rfl

theorem Dev.faultRaw_unreported (d : Dev) (m : FaultMsg) : (d.faultRaw m).unreported = d.unreported := by
  unfold Dev.faultRaw
  split
  · extract_lets sl d1 d2
    split
    · split <;> rfl
    · split
      · rfl
      · rw [Dev.refreshPins_unreported, Dev.unreported_ite, Dev.msixRaise_unreported, ite_self]
        rfl
  · split
    · rfl
    · exact Dev.collect_unreported d m

theorem Dev.fault_unreported (d : Dev) (m : FaultMsg) : (d.fault m).unreported = d.unreported :=
  Dev.faultRaw_unreported ..

theorem Dev.nvRecord_unreported (d : Dev) (kind : Nat) : (d.nvRecord kind).unreported = d.unreported := by
  unfold Dev.nvRecord
  split
  · exact foldl_keeps Dev.unreported (nvStores kind) d fun _ _ => rfl
  · rfl

theorem Dev.lifeLog_unreported (d : Dev) (kind subject : Nat) (value : Word64) :
    (d.lifeLog kind subject value).unreported = d.unreported :=
  Dev.nvRecord_unreported ..

theorem Dev.tier_of_unreported {d e : Dev} (h : e.unreported = d.unreported) : e.tier = d.tier := by
  show e.unreported.tier = d.unreported.tier
  rw [h]

theorem Dev.info_of_unreported {d e : Dev} (h : e.unreported = d.unreported) : e.info = d.info := by
  show e.unreported.info = d.unreported.info
  rw [h]

theorem Dev.symErr_of_unreported {d e : Dev} (h : e.unreported = d.unreported) : e.symErr = d.symErr := by
  show e.unreported.symErr = d.unreported.symErr
  rw [h]

@[simp] theorem Dev.msixRaise_tier (d : Dev) (v : Nat) : (d.msixRaise v).tier = d.tier :=
  Dev.tier_of_unreported (d.msixRaise_unreported v)
@[simp] theorem Dev.fault_tier (d : Dev) (m : FaultMsg) : (d.fault m).tier = d.tier := Dev.tier_of_unreported (d.fault_unreported m)
@[simp] theorem Dev.fault_info (d : Dev) (m : FaultMsg) : (d.fault m).info = d.info := Dev.info_of_unreported (d.fault_unreported m)
@[simp] theorem Dev.fault_symErr (d : Dev) (m : FaultMsg) : (d.fault m).symErr = d.symErr :=
  Dev.symErr_of_unreported (d.fault_unreported m)
@[simp] theorem Dev.nvRecord_tier (d : Dev) (n : Nat) : (d.nvRecord n).tier = d.tier := Dev.tier_of_unreported (d.nvRecord_unreported n)
@[simp] theorem Dev.nvRecord_info (d : Dev) (n : Nat) : (d.nvRecord n).info = d.info := Dev.info_of_unreported (d.nvRecord_unreported n)
@[simp] theorem Dev.nvRecord_symErr (d : Dev) (n : Nat) : (d.nvRecord n).symErr = d.symErr :=
  Dev.symErr_of_unreported (d.nvRecord_unreported n)
@[simp] theorem Dev.lifeLog_tier (d : Dev) (n k : Nat) (w : Word64) : (d.lifeLog n k w).tier = d.tier :=
  Dev.tier_of_unreported (d.lifeLog_unreported n k w)
@[simp] theorem Dev.lifeLog_info (d : Dev) (n k : Nat) (w : Word64) : (d.lifeLog n k w).info = d.info :=
  Dev.info_of_unreported (d.lifeLog_unreported n k w)
@[simp] theorem Dev.lifeLog_symErr (d : Dev) (n k : Nat) (w : Word64) : (d.lifeLog n k w).symErr = d.symErr :=
  Dev.symErr_of_unreported (d.lifeLog_unreported n k w)

/-! ### Dies, stacks and progress objects: a read after a write -/

@[simp] theorem Dev.die_setDie (d : Dev) (k : Nat) (x : Die) : (d.setDie k x).die k = x := Map.get_put_same ..

theorem Dev.die_setDie_other (d : Dev) {k j : Nat} (x : Die) (h : j ≠ k) : (d.setDie k x).die j = d.die j :=
  Map.get_put_other _ _ _ _ _ h

@[simp] theorem Dev.die_updDie (d : Dev) (k : Nat) (f : Die → Die) : (d.updDie k f).die k = f (d.die k) := Dev.die_setDie ..

theorem Dev.die_updDie_other (d : Dev) {k j : Nat} (f : Die → Die) (h : j ≠ k) : (d.updDie k f).die j = d.die j :=
  Dev.die_setDie_other d _ h

/-- The dies are kept with the tiers. -/
theorem Dev.die_of_tier {d e : Dev} (h : e.tier = d.tier) (k : Nat) : e.die k = d.die k := by
  rw [Dev.die, h, Dev.die]

@[simp] theorem Dev.die_fault (d : Dev) (m : FaultMsg) (k : Nat) : (d.fault m).die k = d.die k := Dev.die_of_tier (d.fault_tier m) k
@[simp] theorem Dev.die_nvRecord (d : Dev) (n k : Nat) : (d.nvRecord n).die k = d.die k := Dev.die_of_tier (d.nvRecord_tier n) k
@[simp] theorem Dev.die_setProg (d : Dev) (i : Nat) (p : Progress) (k : Nat) : (d.setProg i p).die k = d.die k := rfl

@[simp] theorem Dev.stack_updStack (d : Dev) (s : Nat) (f : Stack → Stack) : (d.updStack s f).stack s = f (d.stack s) :=
  Map.get_put_same ..

theorem Dev.stack_updStack_other (d : Dev) {s j : Nat} (f : Stack → Stack) (h : j ≠ s) : (d.updStack s f).stack j = d.stack j :=
  Map.get_put_other _ _ _ _ _ h

@[simp] theorem Dev.stack_fault (d : Dev) (m : FaultMsg) (s : Nat) : (d.fault m).stack s = d.stack s := by
  rw [Dev.stack, Dev.fault_tier, Dev.stack]

@[simp] theorem Dev.prog_setProg (d : Dev) (i : Nat) (p : Progress) : (d.setProg i p).prog i = p := Map.get_put_same ..

/-! ### Repetitions -/

/-- What the step of one element establishes, and the others keep, holds after a fold through that element; `I` is what every step
may rely on. -/
theorem foldl_establishes {α β : Type} {f : α → β → α} {I P : α → Prop} {l : List β} {b : β} (hb : b ∈ l) {a : α} (ha : I a)
    (hI : ∀ a c, I a → I (f a c)) (hset : ∀ a, I a → P (f a b)) (hkeep : ∀ a c, c ≠ b → I a → P a → P (f a c)) :
    P (l.foldl f a) := by
  have hrest {l : List β} {a : α} (ha : I a) (hP : P a) : I (l.foldl f a) ∧ P (l.foldl f a) :=
    List.foldlRecOn (motive := fun x => I x ∧ P x) l f ⟨ha, hP⟩ fun x ⟨hx, hPx⟩ c _ => by
      refine ⟨hI x c hx, ?_⟩
      by_cases hc : c = b
      · exact hc ▸ hset x hx
      · exact hkeep x c hc hx hPx
  induction l generalizing a with
  | nil => cases hb
  | cons c l ih =>
    rcases List.mem_cons.mp hb with rfl | hb
    · exact (hrest (hI a b ha) (hset a ha)).2
    · exact ih hb (hI a c ha)

end Sys2Proof.Machine
end

section
/-! Readiness of the tiers (07_memory_tiers.md R219, R222, R231, R239, R241, R242): what a wipe leaves, what HDM0_READY and HDM1_READY
make of a stack and of a die, and the course of TIER_TAG. -/

open Sys2Proof Sys2Proof.Machine

namespace Sys2Proof.Machine

/-! ### Leaving entries out -/

/-- An address whose cell is left out reads zero. -/
theorem Mem.read_filter_out {q : Host.Cell → Bool} {k : Nat} (hq : ∀ v, q (k, v) = false) (m : List Host.Cell) :
    Mem.read (m.filter q) k = 0 := by
  induction m with
  | nil => rfl
  | cons c m ih =>
    obtain ⟨i, v⟩ := c
    by_cases hc : q (i, v) = true
    · have hik : i ≠ k := fun h => by simp [h, hq] at hc
      rw [List.filter_cons_of_pos hc, Mem.read, if_neg hik, ih, ite_self]
    · rw [List.filter_cons_of_neg hc, ih]

/-- An address whose cell is kept reads as before. -/
theorem Mem.read_filter_kept {q : Host.Cell → Bool} {k lo : Nat} (hq : ∀ v, q (k, v) = true) {m : List Host.Cell}
    (hm : Mem.wfFrom lo m = true) : Mem.read (m.filter q) k = Mem.read m k := by
  induction m generalizing lo with
  | nil => rfl
  | cons c m ih =>
    obtain ⟨i, v⟩ := c
    simp only [Mem.wfFrom, Bool.and_eq_true, decide_eq_true_eq] at hm
    obtain ⟨-, hrest⟩ := hm
    by_cases hc : q (i, v) = true
    · rw [List.filter_cons_of_pos hc, Mem.read, Mem.read, ih hrest]
    · have hik : i ≠ k := fun h => hc (h ▸ hq v)
      rw [List.filter_cons_of_neg hc, ih hrest, Mem.read, if_neg hik]
      split
      · next hki => exact Mem.read_below hrest (hki.trans (Nat.lt_succ_self i))
      · rfl

/-- A key whose entries are left out has the default. -/
theorem Map.get_filter_out {α : Type} (x : α) {q : Nat × α → Bool} {k : Nat} (hq : ∀ v, q (k, v) = false) (m : Map α) :
    Map.get x (m.filter q) k = x := by
  induction m with
  | nil => rfl
  | cons p m ih =>
    obtain ⟨i, v⟩ := p
    by_cases hp : q (i, v) = true
    · have hik : i ≠ k := fun h => by simp [h, hq] at hp
      rw [List.filter_cons_of_pos hp, Map.get, if_neg hik, ih, ite_self]
    · rw [List.filter_cons_of_neg hp, ih]

/-- Entries below a key are passed by in search of it. -/
theorem Map.get_filter_above {α : Type} (x : α) {q : Nat × α → Bool} {k : Nat} (hq : ∀ i v, k ≤ i → q (i, v) = true) (m : Map α) :
    Map.get x (m.filter q) k = Map.get x m k := by
  induction m with
  | nil => rfl
  | cons p m ih =>
    obtain ⟨i, v⟩ := p
    by_cases hp : q (i, v) = true
    · rw [List.filter_cons_of_pos hp, Map.get, Map.get, ih]
    · have hik : i < k := Nat.lt_of_not_le fun h => hp (hq i v h)
      rw [List.filter_cons_of_neg hp, ih, Map.get, if_neg hik.ne, if_neg hik.le.not_gt]

/-! ### A wipe (R219) -/

theorem Dev.read_wipe_inside (d : Dev) {a b k : Nat} (ha : 64 * a ≤ k) (hb : k < 64 * b) : Mem.read (d.wipe a b).mem k = 0 :=
  Mem.read_filter_out (fun _ => by simp [ha, hb]) d.mem

theorem Dev.read_wipe_outside {d : Dev} (hm : Memory.wf d.mem = true) {a b k : Nat} (hk : k < 64 * a ∨ 64 * b ≤ k) :
    Mem.read (d.wipe a b).mem k = Mem.read d.mem k :=
  Mem.read_filter_kept (fun _ => by simpa using hk) hm

theorem Dev.secInfo_wipe_zero (d : Dev) (b x : Nat) : (d.wipe 0 b).secInfo x = if x < b then .zero else d.secInfo x := by
  split
  · next hx => exact Map.get_filter_out _ (fun _ => by simp [hx]) d.info
  · next hx => exact Map.get_filter_above _ (fun i _ hi => by simpa using (Nat.le_of_not_lt hx).trans hi) d.info

/-! ### HDM0_READY -/

/-- A stack after the training that `absent` did not answer. -/
def Dev.stackTrained (absent : List Nat) (e : Dev) (s : Nat) : Dev :=
  let e1 := e.updStack s fun x => { x with present := !absent.contains s, failed := absent.contains s }
  if absent.contains s then e1.fault (mkFault (controllerSource s) .fatal 0x55 s) else e1

@[simp] theorem Dev.stackTrained_mem (absent : List Nat) (e : Dev) (s : Nat) : (e.stackTrained absent s).mem = e.mem := by
  unfold Dev.stackTrained
  dsimp only
  split <;> simp

theorem Dev.stackTrained_info (absent : List Nat) (e : Dev) (s : Nat) : (e.stackTrained absent s).info = e.info := by
  unfold Dev.stackTrained
  dsimp only
  split
  · rw [Dev.fault_info]; rfl
  · rfl

theorem Dev.stack_stackTrained (absent : List Nat) (e : Dev) (s j : Nat) : (e.stackTrained absent s).stack j =
    if j = s then { e.stack s with present := !absent.contains s, failed := absent.contains s } else e.stack j := by
  have hupd (f : Stack → Stack) : (e.updStack s f).stack j = if j = s then f (e.stack s) else e.stack j := by
    split
    · next h => rw [h, Dev.stack_updStack]
    · next h => rw [Dev.stack_updStack_other _ _ h]
  unfold Dev.stackTrained
  dsimp only
  split
  · rw [Dev.stack_fault, hupd]
  · rw [hupd]

/-- The stacks after training. -/
def Dev.stacksTrained (d : Dev) (absent : List Nat) : Dev := (List.range 8).foldl (Dev.stackTrained absent) d

theorem Dev.stacksTrained_mem (d : Dev) (absent : List Nat) : (d.stacksTrained absent).mem = d.mem :=
  foldl_keeps Dev.mem _ d fun e s => Dev.stackTrained_mem absent e s

theorem Dev.stacksTrained_info (d : Dev) (absent : List Nat) : (d.stacksTrained absent).info = d.info :=
  foldl_keeps Dev.info _ d fun e s => Dev.stackTrained_info absent e s

theorem Dev.stack_stacksTrained (d : Dev) (absent : List Nat) {k : Nat} (hk : k < 8) :
    ((d.stacksTrained absent).stack k).present = !absent.contains k ∧ ((d.stacksTrained absent).stack k).failed = absent.contains k := by
  refine foldl_establishes (I := fun _ => True)
    (P := fun e : Dev => (e.stack k).present = !absent.contains k ∧ (e.stack k).failed = absent.contains k)
    (List.mem_range.mpr hk) trivial (fun _ _ _ => trivial) (fun e _ => ?_) fun e s hs _ he => ?_
  · rw [Dev.stack_stackTrained, if_pos rfl]
    exact ⟨rfl, rfl⟩
  · rwa [Dev.stack_stackTrained, if_neg hs.symm]

/-- What HDM0_READY does, once. -/
theorem Dev.hdm0Ready_eq {d : Dev} (absent : List Nat) (hheld : d.rst.held.contains .mem = false) (hdm0 : d.tier.hdm0 = false) :
    ∃ d1 d2 : Dev, d1.mem = d.mem ∧ d1.info = d.info ∧ d2 = (d1.wipe 0 dramSectors).stacksTrained absent ∧
      d.hdm0Ready absent = ({ d2 with tier := { d2.tier with hdm0 := true, initStep := Nat.max d2.tier.initStep 5, scrubPos := 0 } }
        : Dev).initProgress 0x40 (48 * 8 * 2 ^ 30) := by
  refine ⟨if d.tier.hdm1 then d else d.tierSettings, _, ?_, ?_, rfl, ?_⟩
  · split <;> rfl
  · split <;> rfl
  · rw [Dev.hdm0Ready, if_neg (by rw [hheld, hdm0]; exact Bool.false_ne_true)]
    rfl

/-! ### HDM1_READY -/

/-- What the obligation says of a die. -/
def Die.found (x : Die) : Bool × Bool × Option (Nat × Nat × Nat) := (x.present, x.failed, x.swap)

/-- A die after the training that `absent` did not answer; a swap in progress is shown to go on from its journal (R231). -/
def Dev.dieAnswered (absent : List Nat) (share : Nat) (e : Dev) (k : Nat) : Dev :=
  let e1 := e.updDie k fun x => { x with present := !absent.contains k, failed := absent.contains k, sweepShare := share }
  match (e1.die k).swap with
  | some (_, _, n) => e1.setProg 0x44
    { state := 1, position := 2 * n, total := 2 * regionBlocks, queue := 0xFFFF, tag := 0, start := e1.stamp }
  | none => e1

/-- A die that answered and whose last pass is not fresh is read whole. -/
def Dev.dieTrained (absent : List Nat) (keep : Bool) (share : Nat) (e : Dev) (k : Nat) : Dev :=
  let e2 := e.dieAnswered absent share k
  if absent.contains k then e2.fault (mkFault (dieSource k) .fatal 0x55 (0x80 + k))
  else if keep && !e2.passFresh k then e2.fullPass k else e2

theorem Dev.dieAnswered_cells (absent : List Nat) (share : Nat) (e : Dev) (k : Nat) : (e.dieAnswered absent share k).mem = e.mem ∧
    (e.dieAnswered absent share k).info = e.info ∧ (e.dieAnswered absent share k).symErr = e.symErr := by
  unfold Dev.dieAnswered
  dsimp only
  split <;> exact ⟨rfl, rfl, rfl⟩

theorem Dev.found_updDie (e : Dev) (k j : Nat) (f : Die → Die) :
    ((e.updDie k f).die j).found = if j = k then (f (e.die k)).found else (e.die j).found := by
  split
  · next h => rw [h, Dev.die_updDie]
  · next h => rw [Dev.die_updDie_other e f h]

theorem Dev.found_dieAnswered (absent : List Nat) (share : Nat) (e : Dev) (k j : Nat) : ((e.dieAnswered absent share k).die j).found =
    if j = k then (!absent.contains k, absent.contains k, (e.die k).swap) else (e.die j).found := by
  unfold Dev.dieAnswered
  dsimp only
  split
  · rw [Dev.die_setProg, Dev.found_updDie]; rfl
  · rw [Dev.found_updDie]; rfl

theorem Dev.passEnd_cells (e : Dev) (k : Nat) :
    (e.passEnd k).mem = e.mem ∧ (e.passEnd k).info = e.info ∧ (e.passEnd k).symErr = e.symErr := by
  unfold Dev.passEnd
  rw [Dev.nvRecord_mem, Dev.nvRecord_info, Dev.nvRecord_symErr]
  exact ⟨rfl, rfl, rfl⟩

theorem Dev.found_passEnd (e : Dev) (k j : Nat) : ((e.passEnd k).die j).found = (e.die j).found := by
  unfold Dev.passEnd
  rw [Dev.die_nvRecord, Dev.found_updDie]
  split
  · next h => rw [h]; rfl
  · rfl

/-- The full pass finds nothing where no symbol is in error. -/
theorem Dev.fullPass_clean {e : Dev} (h : e.symErr = []) (k : Nat) : e.fullPass k = e.passEnd k := by
  rw [Dev.fullPass, h]
  rfl

theorem Dev.dieTrained_cells {absent : List Nat} {keep : Bool} {share : Nat} {e : Dev} {k : Nat} (h : keep = false ∨ e.symErr = []) :
    (e.dieTrained absent keep share k).mem = e.mem ∧ (e.dieTrained absent keep share k).info = e.info ∧
      (e.dieTrained absent keep share k).symErr = e.symErr := by
  obtain ⟨hmem, hinfo, herr⟩ := e.dieAnswered_cells absent share k
  unfold Dev.dieTrained
  dsimp only
  split
  · rw [Dev.fault_mem, Dev.fault_info, Dev.fault_symErr]
    exact ⟨hmem, hinfo, herr⟩
  split
  · next hpass =>
    have hclean : (e.dieAnswered absent share k).symErr = [] := by
      rcases h with rfl | h
      · cases hpass
      · rw [herr, h]
    obtain ⟨hmem', hinfo', herr'⟩ := (e.dieAnswered absent share k).passEnd_cells k
    rw [Dev.fullPass_clean hclean]
    exact ⟨hmem'.trans hmem, hinfo'.trans hinfo, herr'.trans herr⟩
  · exact ⟨hmem, hinfo, herr⟩

theorem Dev.found_dieTrained {absent : List Nat} {keep : Bool} {share : Nat} {e : Dev} {k : Nat} (h : keep = false ∨ e.symErr = [])
    (j : Nat) : ((e.dieTrained absent keep share k).die j).found =
      if j = k then (!absent.contains k, absent.contains k, (e.die k).swap) else (e.die j).found := by
  rw [← Dev.found_dieAnswered absent share]
  unfold Dev.dieTrained
  dsimp only
  split
  · rw [Dev.die_fault]
  split
  · next hpass =>
    have hclean : (e.dieAnswered absent share k).symErr = [] := by
      rcases h with rfl | h
      · cases hpass
      · rw [(e.dieAnswered_cells absent share k).2.2, h]
    rw [Dev.fullPass_clean hclean, Dev.found_passEnd]
  · rfl

/-- The dies after training. -/
def Dev.diesTrained (d : Dev) (absent : List Nat) (keep : Bool) (share : Nat) : Dev :=
  (List.range 64).foldl (Dev.dieTrained absent keep share) d

/-- What the training of the dies keeps when no symbol is in error, or nothing is to be kept. -/
theorem Dev.diesTrained_cells {d : Dev} {absent : List Nat} {keep : Bool} {share : Nat} (h : keep = false ∨ d.symErr = []) :
    (d.diesTrained absent keep share).mem = d.mem ∧ (d.diesTrained absent keep share).info = d.info := by
  have hall := List.foldlRecOn (motive := fun e : Dev => e.mem = d.mem ∧ e.info = d.info ∧ e.symErr = d.symErr) (List.range 64)
    (Dev.dieTrained absent keep share) ⟨rfl, rfl, rfl⟩ fun e ⟨hmem, hinfo, herr⟩ k _ => by
      obtain ⟨hmem', hinfo', herr'⟩ := Dev.dieTrained_cells (absent := absent) (share := share) (k := k) (herr ▸ h)
      exact ⟨hmem'.trans hmem, hinfo'.trans hinfo, herr'.trans herr⟩
  exact ⟨hall.1, hall.2.1⟩

theorem Dev.found_diesTrained {d : Dev} {absent : List Nat} {keep : Bool} {share : Nat} (h : keep = false ∨ d.symErr = []) {k : Nat}
    (hk : k < 64) : ((d.diesTrained absent keep share).die k).found = (!absent.contains k, absent.contains k, (d.die k).swap) := by
  refine foldl_establishes (I := fun e : Dev => (keep = false ∨ e.symErr = []) ∧ (e.die k).swap = (d.die k).swap)
    (P := fun e : Dev => (e.die k).found = (!absent.contains k, absent.contains k, (d.die k).swap)) (List.mem_range.mpr hk) ⟨h, rfl⟩
    (fun e j ⟨he, hswap⟩ => ⟨(Dev.dieTrained_cells he).2.2 ▸ he, ?_⟩) (fun e ⟨he, hswap⟩ => ?_) fun e j hj ⟨he, _⟩ hfound => ?_
  · refine (congrArg (·.2.2) (Dev.found_dieTrained he k)).trans (Eq.trans ?_ hswap)
    split
    · next hkj => rw [hkj]
    · rfl
  · rw [Dev.found_dieTrained he, if_pos rfl, hswap]
  · rw [Dev.found_dieTrained he, if_neg hj.symm, hfound]

/-- The block with the settings that apply at tier initialisation, unless DRAM came first and took them. -/
def Dev.settled (d : Dev) : Dev := if d.tier.hdm0 then d else d.tierSettings

theorem Dev.settled_cells (d : Dev) : d.settled.mem = d.mem ∧ d.settled.info = d.info ∧ d.settled.symErr = d.symErr := by
  unfold Dev.settled
  split <;> exact ⟨rfl, rfl, rfl⟩

/-- The settings write two entries of the tiers' record. -/
theorem Dev.tierSettings_tier (d : Dev) : ∃ remap base : Nat, d.tierSettings.tier = { d.tier with remapSize := remap, devBase := base } :=
  ⟨_, _, rfl⟩

theorem Dev.die_settled (d : Dev) (k : Nat) : d.settled.die k = d.die k := by
  unfold Dev.settled
  split
  · rfl
  · obtain ⟨remap, base, htier⟩ := d.tierSettings_tier
    rw [Dev.die, htier, Dev.die]

/-- The dies trained, over contents that are retained or not. -/
def Dev.resistiveUp (d : Dev) (absent : List Nat) : Dev :=
  (if d.retain then d.settled else d.settled.wipe (resDpa / 64) (0x380000000000 / 64)).diesTrained absent d.retain d.settled.sweepShareSet

/-- What HDM1_READY does, once. -/
theorem Dev.hdm1Ready_eq {d : Dev} (absent : List Nat) (hheld : d.rst.held.contains .mem = false) (hdm1 : d.tier.hdm1 = false) :
    d.hdm1Ready absent = ({ d.resistiveUp absent with tier :=
      { (d.resistiveUp absent).tier with hdm1 := true, retained := d.retain, initStep := 7 } } : Dev).initProgress 0x41
        (384 * 64 * 2 ^ 30) := by
  rw [Dev.hdm1Ready, if_neg (by rw [hheld, hdm1]; exact Bool.false_ne_true)]
  rfl

/-! ### The clauses about readiness -/

theorem isDram_iff (a : Nat) : isDram a = true ↔ a < 64 * dramSectors := decide_eq_true_iff

theorem isRes_iff (a : Nat) : isRes a = true ↔ 64 * (resDpa / 64) ≤ a ∧ a < 64 * (0x380000000000 / 64) := by
  rw [isRes, Bool.and_eq_true, decide_eq_true_iff, decide_eq_true_iff]
  rfl

theorem Dev.prog_initProgress_state (d : Dev) (i total : Nat) : ((d.initProgress i total).prog i).state = 4 := by
  rw [Dev.initProgress, Dev.prog_setProg]

/-- Both commands wait for a memory domain out of reset. -/
theorem Dev.hdmReady_held {d : Dev} (h : d.rst.held.contains .mem = true) (absent : List Nat) :
    d.hdm0Ready absent = d ∧ d.hdm1Ready absent = d := by
  constructor
  · rw [Dev.hdm0Ready, h, Bool.true_or, if_pos rfl]
  · rw [Dev.hdm1Ready, h, Bool.true_or, if_pos rfl]

theorem Dev.hdm0Ready_ready {d : Dev} (absent : List Nat) (hheld : d.rst.held.contains .mem = false) (hdm0 : d.tier.hdm0 = false) :
    (d.hdm0Ready absent).tier.hdm0 = true ∧ (d.hdm0Ready absent).tier.scrubPos = 0 ∧ ((d.hdm0Ready absent).prog 0x40).state = 4 := by
  obtain ⟨d1, d2, -, -, -, heq⟩ := Dev.hdm0Ready_eq absent hheld hdm0
  rw [heq, Dev.prog_initProgress_state]
  exact ⟨rfl, rfl, rfl⟩

/-- DRAM starts with zero contents, tag 0 and no poison; everything else stays. -/
theorem Dev.hdm0Ready_cells {d : Dev} (absent : List Nat) (hheld : d.rst.held.contains .mem = false) (hdm0 : d.tier.hdm0 = false) :
    (∀ a, isDram a = true → Mem.read (d.hdm0Ready absent).mem a = 0) ∧
      (Memory.wf d.mem = true → ∀ a, 0x6000000000 ≤ a → Mem.read (d.hdm0Ready absent).mem a = Mem.read d.mem a) ∧
      ∀ x, (d.hdm0Ready absent).secInfo x = if x < dramSectors then .zero else d.secInfo x := by
  obtain ⟨d1, d2, hmem, hinfo, htrained, heq⟩ := Dev.hdm0Ready_eq absent hheld hdm0
  have hcells : (d.hdm0Ready absent).mem = (d1.wipe 0 dramSectors).mem := by
    rw [heq, ← Dev.stacksTrained_mem (d1.wipe 0 dramSectors) absent, ← htrained]
    rfl
  have hkept : (d.hdm0Ready absent).info = (d1.wipe 0 dramSectors).info := by
    rw [heq, ← Dev.stacksTrained_info (d1.wipe 0 dramSectors) absent, ← htrained]
    rfl
  refine ⟨fun a ha => ?_, fun hm a ha => ?_, fun x => ?_⟩
  · rw [hcells]
    exact d1.read_wipe_inside (Nat.zero_le a) ((isDram_iff a).mp ha)
  · rw [hcells, Dev.read_wipe_outside (hmem ▸ hm) (.inr ha), hmem]
  · rw [Dev.secInfo, hkept]
    exact (d1.secInfo_wipe_zero dramSectors x).trans (by rw [Dev.secInfo, hinfo, Dev.secInfo])

theorem Dev.hdm0Ready_stack {d : Dev} (absent : List Nat) (hheld : d.rst.held.contains .mem = false) (hdm0 : d.tier.hdm0 = false)
    {k : Nat} (hk : k < 8) : ((d.hdm0Ready absent).stack k).present = !absent.contains k ∧
      ((d.hdm0Ready absent).stack k).failed = absent.contains k := by
  obtain ⟨d1, d2, -, -, htrained, heq⟩ := Dev.hdm0Ready_eq absent hheld hdm0
  have hstack : (d.hdm0Ready absent).stack k = ((d1.wipe 0 dramSectors).stacksTrained absent).stack k := by
    rw [heq, ← htrained]
    rfl
  rw [hstack]
  exact Dev.stack_stacksTrained _ absent hk

theorem Dev.hdm1Ready_ready {d : Dev} (absent : List Nat) (hheld : d.rst.held.contains .mem = false) (hdm1 : d.tier.hdm1 = false) :
    (d.hdm1Ready absent).tier.hdm1 = true ∧ (d.hdm1Ready absent).tier.retained = d.retain ∧
      (d.hdm1Ready absent).tier.initStep = 7 ∧ ((d.hdm1Ready absent).prog 0x41).state = 4 := by
  rw [Dev.hdm1Ready_eq absent hheld hdm1, Dev.prog_initProgress_state]
  exact ⟨rfl, rfl, rfl, rfl⟩

/-- The flags that HDM1_READY sets last are beside cells and dies. -/
theorem Dev.hdm1Ready_trained {d : Dev} (absent : List Nat) (hheld : d.rst.held.contains .mem = false) (hdm1 : d.tier.hdm1 = false) :
    (d.hdm1Ready absent).mem = (d.resistiveUp absent).mem ∧ (d.hdm1Ready absent).info = (d.resistiveUp absent).info ∧
      ∀ k, ((d.hdm1Ready absent).die k).found = ((d.resistiveUp absent).die k).found := by
  rw [Dev.hdm1Ready_eq absent hheld hdm1]
  exact ⟨rfl, rfl, fun k => rfl⟩

/-- Retained contents without an error stay as they are. -/
theorem Dev.hdm1Ready_retained {d : Dev} (absent : List Nat) (hheld : d.rst.held.contains .mem = false) (hdm1 : d.tier.hdm1 = false)
    (hkeep : d.retain = true) (hclean : d.symErr = []) :
    (d.hdm1Ready absent).mem = d.mem ∧ (d.hdm1Ready absent).info = d.info := by
  obtain ⟨hmem, hinfo, -⟩ := Dev.hdm1Ready_trained absent hheld hdm1
  obtain ⟨hmem0, hinfo0, herr0⟩ := d.settled_cells
  obtain ⟨hmem1, hinfo1⟩ := Dev.diesTrained_cells (absent := absent) (keep := d.retain) (share := d.settled.sweepShareSet)
    (.inr (herr0.trans hclean))
  rw [hmem, hinfo, Dev.resistiveUp, if_pos hkeep]
  exact ⟨hmem1.trans hmem0, hinfo1.trans hinfo0⟩

/-- Contents that are not to be retained are zero, and the other tier keeps its own. -/
theorem Dev.hdm1Ready_wiped {d : Dev} (absent : List Nat) (hheld : d.rst.held.contains .mem = false) (hdm1 : d.tier.hdm1 = false)
    (hkeep : d.retain = false) (hm : Memory.wf d.mem = true) (a : Nat) :
    Mem.read (d.hdm1Ready absent).mem a = if isRes a then 0 else Mem.read d.mem a := by
  obtain ⟨hmem, -, -⟩ := Dev.hdm1Ready_trained absent hheld hdm1
  obtain ⟨hmem0, -, -⟩ := d.settled_cells
  rw [hmem, Dev.resistiveUp, if_neg (ne_true_of_eq_false hkeep), (Dev.diesTrained_cells (.inl hkeep)).1]
  split
  · next ha =>
    obtain ⟨hlo, hhi⟩ := (isRes_iff a).mp ha
    exact d.settled.read_wipe_inside hlo hhi
  · next ha =>
    rw [isRes_iff, not_and_or, Nat.not_le, Nat.not_lt] at ha
    rw [Dev.read_wipe_outside (hmem0 ▸ hm) ha, hmem0]

theorem Dev.hdm1Ready_die {d : Dev} (absent : List Nat) (hheld : d.rst.held.contains .mem = false) (hdm1 : d.tier.hdm1 = false)
    (hclean : d.retain = false ∨ d.symErr = []) {k : Nat} (hk : k < 64) :
    ((d.hdm1Ready absent).die k).found = (!absent.contains k, absent.contains k, (d.die k).swap) := by
  obtain ⟨-, -, hfound⟩ := Dev.hdm1Ready_trained absent hheld hdm1
  obtain ⟨-, -, herr0⟩ := d.settled_cells
  rw [hfound, Dev.resistiveUp]
  split
  · next hkeep => rw [Dev.found_diesTrained (.inr (herr0.trans (hclean.resolve_left (ne_false_of_eq_true hkeep)))) hk, Dev.die_settled]
  · next hkeep =>
    rw [Dev.found_diesTrained (.inl (eq_false_of_ne_true hkeep)) hk, ← d.die_settled k]
    rfl

/-! ### TIER_TAG (R222) -/

/-- A sequence of steps ended: its first part did, and the rest from there. -/
theorem Eng.ok_of_bind_ok {α β : Type} {x : Eng α} {f : α → Eng β} {d e : Dev} {b : β} (h : (x >>= f) d = .ok (b, e)) :
    ∃ a d1, x d = .ok (a, d1) ∧ f a d1 = .ok (b, e) := by
  change (x d >>= fun p => f p.1 p.2) = .ok (b, e) at h
  cases hx : x d with
  | error => rw [hx] at h; cases h
  | ok p => rw [hx] at h; exact ⟨p.1, p.2, rfl, h⟩

theorem Dev.noteWrite_info (d : Dev) (sector : Nat) : (d.noteWrite sector).info = d.info := by
  unfold Dev.noteWrite
  split <;> rfl

theorem Dev.secData_noteWrite (d : Dev) (sector x : Nat) : (d.noteWrite sector).secData x = d.secData x := by
  rw [Dev.secData, Dev.noteWrite_mem, Dev.secData]

theorem Dev.secInfo_noteWrite (d : Dev) (sector x : Nat) : (d.noteWrite sector).secInfo x = d.secInfo x := by
  rw [Dev.secInfo, Dev.noteWrite_info, Dev.secInfo]

/-- A sector of a granule after TIER_TAG. -/
def Dev.tagged (tag line : Nat) (e : Dev) (s : Nat) : Dev :=
  (e.putSec (4 * line + s) 0 { SectorMeta.zero with tag := tag }).noteWrite (4 * line + s)

/-- Each sector of a granule holds zero and the new tag once its turn came; the other sectors' turns leave it. -/
theorem tagGranule_sector {a : Acc} {tag line : Nat} {d e : Dev} (hm : Memory.wf d.mem = true) (h : tagGranule a tag line d = .ok ((), e))
    {k : Nat} (hk : k < 4) : e.secData (4 * line + k) = 0 ∧ e.secInfo (4 * line + k) = { SectorMeta.zero with tag := tag } := by
  obtain ⟨⟨⟩, d1, hline, hfold⟩ := Eng.ok_of_bind_ok h
  have he : e = (List.range 4).foldl (Dev.tagged tag line) d1 := by
    cases hfold
    rfl
  rw [he]
  refine foldl_establishes (I := fun e : Dev => Memory.wf e.mem = true)
    (P := fun e : Dev => e.secData (4 * line + k) = 0 ∧ e.secInfo (4 * line + k) = { SectorMeta.zero with tag := tag })
    (List.mem_range.mpr hk) (tagLine_keepsMem a line hm hline) (fun e s he => ?_) (fun e he => ?_) fun e s hs he hP => ?_
  · rw [Dev.tagged, Dev.noteWrite_mem]
    exact Dev.putSec_memWf he ..
  · rw [Dev.tagged, Dev.secData_noteWrite, Dev.secInfo_noteWrite, Dev.secData_putSec he, Dev.secInfo_putSec]
    exact ⟨rfl, rfl⟩
  · have hne : 4 * line + k ≠ 4 * line + s := by omega
    rwa [Dev.tagged, Dev.secData_noteWrite, Dev.secInfo_noteWrite, Dev.secData_putSec_other he _ _ hne, Dev.secInfo_putSec_other _ _ _ hne]

/-- A TIER_TAG that has passed its range ends with OK. -/
theorem tagStep_at_end {d : Dev} {id : DescId} {r : Run} (hrun : d.run id = some r) (hclear : r.count ttClear ≠ 0)
    (howes : d.owes id true = false) (hpos : ttLen r.w / 256 ≤ r.pos) : d.engine (tagStep id) = d.endRun id stOk := by
  refine Dev.engine_ok ?_
  rw [tagStep, Eng.get_bind, hrun]
  dsimp only
  rw [if_neg hclear, howes, if_neg Bool.false_ne_true, if_neg hpos.not_gt, Eng.modify_apply]

/-- Only the TIER_TAG in turn goes on; a tier that is not ready ends it. -/
theorem Dev.tierTag_cases {d : Dev} {r : Run} (htag : d.tagHead = some r) (id : DescId) (n : Nat) :
    (r.id ≠ id → d.tierTag id n = d) ∧ (r.id = id → d.tierReady (ttDpa r.w) = false → d.tierTag id n = d.endRun id stTier) ∧
      (r.id = id → d.tierReady (ttDpa r.w) = true → r.stage ≠ .admitted → d.tierTag id n = d.tagLoop id n) := by
  rw [Dev.tierTag, htag]
  dsimp only
  refine ⟨fun hid => if_pos hid, fun hid hready => ?_, fun hid hready hstage => ?_⟩
  · rw [if_neg (not_not.mpr hid), hready, Bool.not_false, if_pos rfl]
  · rw [if_neg (not_not.mpr hid), hready, Bool.not_true, if_neg Bool.false_ne_true, if_neg hstage]

end Sys2Proof.Machine

namespace Sys2Proof.Proofs

/-- Settles O50: readiness by what the wipe and the training of stacks and dies leave, TIER_TAG by its cases and the sectors of one
granule. -/
theorem tierReadiness : Obligations.TierReadiness := by
  refine ⟨fun s absent => ⟨fun hheld => ?_, fun hheld hdm0 => ?_, fun hheld hdm1 => ?_⟩, fun s id n r htag => ?_,
    fun a tag line d e hm h k hk => tagGranule_sector hm h hk, fun d id r hrun hclear howes hpos => tagStep_at_end hrun hclear howes hpos⟩
  · obtain ⟨h0, h1⟩ := Dev.hdmReady_held hheld absent
    exact ⟨State.goes_of_eq h0, State.goes_of_eq h1⟩
  · obtain ⟨htier, hscrub, hprog⟩ := Dev.hdm0Ready_ready absent hheld hdm0
    obtain ⟨hzero, hother, hinfo⟩ := Dev.hdm0Ready_cells absent hheld hdm0
    exact ⟨_, State.goes_of_eq rfl, htier, hscrub, hprog, hzero, hother, hinfo, fun k hk => Dev.hdm0Ready_stack absent hheld hdm0 hk⟩
  · obtain ⟨htier, hretained, hstep, hprog⟩ := Dev.hdm1Ready_ready absent hheld hdm1
    refine ⟨_, State.goes_of_eq rfl, htier, hretained, hstep, hprog, Dev.hdm1Ready_retained absent hheld hdm1,
      Dev.hdm1Ready_wiped absent hheld hdm1, fun hclean k hk => ?_⟩
    have hfound := Dev.hdm1Ready_die absent hheld hdm1 hclean hk
    rw [Die.found, Prod.mk.injEq, Prod.mk.injEq] at hfound
    exact hfound
  · obtain ⟨hother, hunready, hturn⟩ := Dev.tierTag_cases htag id n
    exact ⟨fun hid => State.goes_of_eq (hother hid), fun hid hready => State.goes_of_eq (hunready hid hready),
      fun hid hready hstage => ⟨State.goes_of_eq (hturn hid hready hstage), rfl, rfl⟩⟩

end Sys2Proof.Proofs
end

section
/-! Upkeep of the tiers (07_memory_tiers.md R223, R225 to R231, R234): refresh, scrub, retention sweep, block writes and the move of a
region's gap, region swaps, late sweeps, life. -/

open Sys2Proof Sys2Proof.Machine

namespace Sys2Proof.Machine

/-! ### Refresh (R223) -/

/-- A group is passed by while its stack refreshes itself, or before its interval has ended. -/
theorem Dev.refresh_early {d : Dev} {s g : Nat} (h : (d.stack s).selfRefresh = true ∨ Map.get 0 (d.stack s).refreshed g ≠ 0 ∧
    (d.now - Map.get 0 (d.stack s).refreshAt g).toNat < d.refreshInterval s g) : d.refresh s g = d := by
  rw [Dev.refresh]
  refine if_pos ?_
  rw [Bool.or_eq_true, Bool.and_eq_true, bne_iff_ne, decide_eq_true_iff]
  exact h

/-- A group that is due is refreshed, and its count and time noted. -/
theorem Dev.refresh_due {d : Dev} {s g : Nat} (hself : (d.stack s).selfRefresh = false) (hdue : Map.get 0 (d.stack s).refreshed g = 0 ∨
    d.refreshInterval s g ≤ (d.now - Map.get 0 (d.stack s).refreshAt g).toNat) : d.refresh s g = d.setStack s { d.stack s with
      refreshed := Map.put (d.stack s).refreshed g (Map.get 0 (d.stack s).refreshed g + 1)
      refreshAt := Map.put (d.stack s).refreshAt g d.now } := by
  rw [Dev.refresh]
  refine if_neg ?_
  rw [hself, Bool.false_or, Bool.and_eq_true, bne_iff_ne, decide_eq_true_iff, not_and_or, not_not, Nat.not_lt]
  exact hdue

/-! ### Sectors that upkeep reads (R224, R225, R239) -/

/-- No symbol is found where none is in error. -/
theorem Dev.badSymbols_none {d : Dev} {sector : Nat} (h : Map.get 0 d.symErr sector = 0) : d.badSymbols sector [] = [] := by
  rw [Dev.badSymbols, h]
  rfl

/-- What the obligation says of a corrected sector. -/
def Dev.corrections (d : Dev) : List Host.Cell × Map SectorMeta × Map Nat × Word64 := (d.mem, d.info, d.symErr, d.tier.corrected)

theorem Dev.corrections_updStack (d : Dev) (s : Nat) (f : Stack → Stack) : (d.updStack s f).corrections = d.corrections := rfl

theorem Dev.corrections_correctSec (d : Dev) (sector : Nat) :
    (d.correctSec sector).corrections = (d.mem, d.info, Map.put d.symErr sector 0, d.tier.corrected + 1) := by
  rw [Dev.correctSec]
  dsimp only
  split
  · rw [Dev.corrections_updStack]; rfl
  · rfl

theorem Dev.corrections_repairRow (d : Dev) (s sector : Nat) : (d.repairRow s sector).corrections = d.corrections := by
  rw [Dev.repairRow]
  dsimp only
  split
  · rw [Dev.corrections, Dev.lifeLog_mem, Dev.lifeLog_info, Dev.lifeLog_symErr, Dev.lifeLog_tier, Dev.nvRecord_mem, Dev.nvRecord_info,
      Dev.nvRecord_symErr, Dev.nvRecord_tier]
    rfl
  · rfl

/-! ### The scrub of DRAM -/

/-- The block after a scrubbed sector's symbols in error. -/
def Dev.scrubRead (d : Dev) (sector : Nat) (bad : List Nat) : Dev :=
  let s := d.controllerOf (64 * sector)
  if bad.isEmpty then d
  else if 2 < bad.length then d.upkeepBad sector 1
  else
    let again : Bool := bad.any (Map.get [] (d.stack s).errLast sector).contains
    let e := (d.correctSec sector).updStack s fun x => { x with errNow := Map.put x.errNow sector bad }
    if again then e.repairRow s sector else e

/-- The scrub's place moves on. -/
def Dev.scrubAt (d : Dev) (pos : Nat) : Dev := { d with tier := { d.tier with scrubPos := pos } }

/-- The scrub's place and its progress are beside cells and counts. -/
theorem Dev.scrubAt_setProg (d : Dev) (pos i : Nat) (p : Progress) : ((d.scrubAt pos).setProg i p).tier.scrubPos = pos ∧
    ((d.scrubAt pos).setProg i p).tier.drams = d.tier.drams ∧ ((d.scrubAt pos).setProg i p).corrections = d.corrections :=
  ⟨rfl, rfl, rfl⟩

theorem Dev.scrub_eq {d : Dev} (errs : List Nat) (hdm0 : d.tier.hdm0 = true) (hin : d.tier.scrubPos + 1 < dramSectors) :
    ∃ p : Progress, p.position = d.tier.scrubPos + 1 ∧ d.scrub d.tier.scrubPos errs =
      ((d.scrubRead d.tier.scrubPos (d.badSymbols d.tier.scrubPos errs)).scrubAt (d.tier.scrubPos + 1)).setProg 0x42 p := by
  have hgo : ¬(decide (dramSectors ≤ d.tier.scrubPos) || decide (d.tier.scrubPos ≠ d.tier.scrubPos) || !d.tier.hdm0) = true := by
    rw [hdm0, decide_eq_false (by omega), decide_eq_false (not_not.mpr rfl)]
    exact Bool.false_ne_true
  rw [Dev.scrub, if_neg hgo]
  dsimp only
  rw [if_neg hin.ne, if_neg hin.ne, if_neg hin.ne]
  exact ⟨_, rfl, rfl⟩

/-- Only the sector at the scrub's place is scrubbed. -/
theorem Dev.scrub_elsewhere {d : Dev} {a : Nat} (errs : List Nat) (h : a ≠ d.tier.scrubPos) : d.scrub a errs = d := by
  rw [Dev.scrub]
  refine if_pos ?_
  rw [decide_eq_true h, Bool.or_true, Bool.true_or]

/-- What the code corrects is corrected and counted, and the data stays. -/
theorem Dev.corrections_scrubRead {d : Dev} {sector : Nat} {bad : List Nat} (hbad : bad ≠ []) (hlen : bad.length ≤ 2) :
    (d.scrubRead sector bad).corrections = (d.mem, d.info, Map.put d.symErr sector 0, d.tier.corrected + 1) := by
  rw [Dev.scrubRead, if_neg (by rwa [List.isEmpty_iff]), if_neg hlen.not_gt]
  dsimp only
  split
  · rw [Dev.corrections_repairRow, Dev.corrections_updStack, Dev.corrections_correctSec]
  · rw [Dev.corrections_updStack, Dev.corrections_correctSec]

/-- What the scrub does at its place: up to two symbols in error cost no data, none leaves the sector as it is, one or two are
corrected and counted. -/
theorem Dev.scrub_corrects {d : Dev} (errs : List Nat) (hdm0 : d.tier.hdm0 = true) (hin : d.tier.scrubPos + 1 < dramSectors)
    {a : Nat} (ha : d.tier.scrubPos = a) {bad : List Nat} (hbads : d.badSymbols a errs = bad) {e : Dev} (he : d.scrub a errs = e) :
    e.tier.scrubPos = a + 1 ∧ (e.prog 0x42).position = a + 1 ∧
      (bad.length ≤ 2 → e.mem = d.mem ∧ e.info = d.info ∧ e.tier.corrected = d.tier.corrected + (if bad = [] then 0 else 1) ∧
        (bad ≠ [] → Map.get 0 e.symErr a = 0) ∧ (bad = [] → e.symErr = d.symErr ∧ e.tier.drams = d.tier.drams)) := by
  subst ha hbads he
  obtain ⟨p, hpos, hscrub⟩ := Dev.scrub_eq errs hdm0 hin
  generalize hbads : d.badSymbols d.tier.scrubPos errs = bad at hscrub ⊢
  obtain ⟨hat, hdrams, hcorr⟩ := (d.scrubRead d.tier.scrubPos bad).scrubAt_setProg (d.tier.scrubPos + 1) 0x42 p
  rw [← hscrub] at hat hdrams hcorr
  refine ⟨hat, by rw [hscrub, Dev.prog_setProg, hpos], fun hlen => ?_⟩
  by_cases hbad : bad = []
  · have hsame : d.scrubRead d.tier.scrubPos bad = d := by rw [hbad]; rfl
    rw [hsame] at hdrams hcorr
    simp only [Dev.corrections, Prod.mk.injEq] at hcorr
    obtain ⟨hmem, hinfo, herr, hcount⟩ := hcorr
    rw [if_pos hbad, add_zero]
    exact ⟨hmem, hinfo, hcount, fun h => absurd hbad h, fun _ => ⟨herr, hdrams⟩⟩
  · rw [Dev.corrections_scrubRead hbad hlen] at hcorr
    simp only [Dev.corrections, Prod.mk.injEq] at hcorr
    obtain ⟨hmem, hinfo, herr, hcount⟩ := hcorr
    rw [if_neg hbad, herr, Map.get_put_same]
    exact ⟨hmem, hinfo, hcount, fun _ => rfl, fun h => absurd h hbad⟩

/-! ### The retention sweep (R228, R229) -/

theorem Dev.overtemp_cool {d : Dev} {k : Nat} (h : (d.die k).temp ≤ 950) : d.overtemp k = d := by
  rw [Dev.overtemp]
  refine if_neg ?_
  rw [decide_eq_false h.not_gt, Bool.false_and]
  exact Bool.false_ne_true

/-- A block is read once in a pass. -/
theorem Dev.sweep_again {d : Dev} {k block : Nat} (h : block ∈ (d.die k).swept) : d.sweep k block [] [] = d := by
  rw [Dev.sweep]
  refine if_pos ?_
  rw [List.contains_iff_mem.mpr h, Bool.or_true]

/-- A block without error is passed: it is only noted as read. -/
theorem Dev.sweep_clean {d : Dev} {k block : Nat} (hres : isRes (lineDpa block) = true) (hctl : d.controllerOf (lineDpa block) = 8 + k)
    (hdm1 : d.tier.hdm1 = true) (hclean : ∀ j, j < 4 → Map.get 0 d.symErr (4 * block + j) = 0) (htemp : (d.die k).temp ≤ 950)
    (hnew : block ∉ (d.die k).swept) (hmore : (d.die k).swept.length + 1 ≠ dieBlocks) : ∃ p : Progress,
      d.sweep k block [] [] = (d.updDie k fun y => { y with swept := y.swept ++ [block] }).setProg 0x43 p := by
  have hgo : ¬(!isRes (lineDpa block) || decide (d.controllerOf (lineDpa block) ≠ 8 + k) || !d.tier.hdm1 ||
      (d.die k).swept.contains block) = true := by
    rw [hres, decide_eq_false (not_not.mpr hctl), hdm1, Bool.eq_false_iff.mpr fun h => hnew (List.contains_iff_mem.mp h)]
    exact Bool.false_ne_true
  have hsecs : ((List.range 4).map fun s => (4 * block + s, d.badSymbols (4 * block + s) (symsOf [] s))) =
      (List.range 4).map fun s => (4 * block + s, []) :=
    List.map_congr_left fun j hj => congrArg (Prod.mk _) (Dev.badSymbols_none (hclean j (List.mem_range.mp hj)))
  have hnone : ((List.range 4).map fun s => (4 * block + s, ([] : List Nat))).any (fun p => !p.2.isEmpty) = false := rfl
  have hcool : (d.updDie k fun y => { y with swept := y.swept ++ [block] }).overtemp k =
      d.updDie k fun y => { y with swept := y.swept ++ [block] } := Dev.overtemp_cool (by rwa [Dev.die_updDie])
  rw [Dev.sweep, if_neg hgo]
  dsimp only
  rw [hsecs, hnone, List.isEmpty_nil, Bool.not_true, Bool.or_false, Bool.not_false, if_pos rfl, hcool, Dev.die_updDie,
    if_neg (by rwa [List.length_append])]
  exact ⟨_, rfl⟩

/-! ### Block writes (R226, R230) -/

theorem Dev.upkeepRead_clean {d : Dev} (h : d.symErr = []) (sector cause : Nat) :
    d.upkeepRead sector (d.badSymbols sector []) cause = d := by
  rw [Dev.badSymbols_none (by rw [h]; rfl)]
  rfl

/-- A copy of a block without error is only queued. -/
theorem Dev.copyBlock_clean {d : Dev} (h : d.symErr = []) (k line cause : Nat) : d.copyBlock k line cause = d.queueBlock k line false := by
  have hread : (List.range 4).foldl (fun (e : Dev) s => e.upkeepRead (4 * line + s) (e.badSymbols (4 * line + s) []) cause) d = d :=
    List.foldlRecOn (motive := fun e => e = d) _ _ rfl fun e he s _ => by rw [he, Dev.upkeepRead_clean h]
  rw [Dev.copyBlock, hread]

/-- A die that stores a block. -/
def Dev.stored (d : Dev) (k p : Nat) (rest : List (Nat × Bool)) : Dev :=
  ({ d with wq := Map.put d.wq k rest } : Dev).updDie k fun y => y.wear p 1

theorem Dev.blockWrite_stored {d : Dev} {k n block : Nat} {counts : Bool} {rest : List (Nat × Bool)}
    (hq : Map.get [] d.wq k = (block, counts) :: rest) (hn : n ≤ 3) : d.blockWrite k n =
      let p := (d.blockPlace k block).1
      if counts = false then d.stored k p rest
      else if d.gapWrites ≤ ((d.die k).gap p).since + 1 then (d.stored k p rest).gapMove k p
      else (d.stored k p rest).updDie k fun x =>
        { x with gaps := Map.put x.gaps p { (d.die k).gap p with since := ((d.die k).gap p).since + 1 } } := by
  have hgap : ((d.stored k (d.blockPlace k block).1 rest).die k).gap (d.blockPlace k block).1 = (d.die k).gap (d.blockPlace k block).1 := by
    rw [Dev.stored, Dev.die_updDie]
    rfl
  rw [Dev.blockWrite, hq]
  dsimp only
  rw [Dev.storeBlock, decide_eq_false hn.not_gt]
  dsimp only
  cases counts with
  | false => rfl
  | true =>
    rw [← hgap]
    rfl

/-- The gap of the region moves, and the block beside it is queued to be stored. -/
theorem Dev.gapMove_stored {d : Dev} (h : d.symErr = []) (k p : Nat) (rest : List (Nat × Bool)) :
    ∃ moved, (d.stored k p rest).gapMove k p =
      ((d.stored k p rest).updDie k fun y => { y with gaps := Map.put y.gaps p (y.gap p).move }).queueBlock k moved false := by
  rw [Dev.gapMove, Dev.copyBlock_clean (d := (d.stored k p rest).setDie k _) h]
  exact ⟨_, rfl⟩

@[simp] theorem Dev.die_queueBlock (d : Dev) (k line : Nat) (counts : Bool) (j : Nat) : (d.queueBlock k line counts).die j = d.die j := rfl

theorem Dev.wq_setProg (d : Dev) (i : Nat) (p : Progress) : (d.setProg i p).wq = d.wq := rfl

theorem Dev.wq_queueBlock (d : Dev) (k line : Nat) (counts : Bool) :
    Map.get [] (d.queueBlock k line counts).wq k = insertNew (line, counts) (Map.get [] d.wq k) := Map.get_put_same ..

theorem mem_insertNew {α : Type} [DecidableEq α] {a x : α} {l : List α} : a ∈ insertNew x l ↔ a = x ∨ a ∈ l := by
  rw [insertNew]
  split
  · next hx => exact ⟨.inr, fun h => h.elim (· ▸ hx) id⟩
  · rw [List.mem_append, List.mem_singleton, or_comm]

/-- A block enters a queue whose oldest was taken. -/
theorem Dev.queueBlock_taken (d : Dev) (t : Tier) (k line : Nat) (counts : Bool) (rest : List (Nat × Bool)) :
    ({ d with wq := Map.put d.wq k rest, tier := t } : Dev).queueBlock k line counts =
      { d with wq := Map.put d.wq k (insertNew (line, counts) rest), tier := t } := by
  rw [Dev.queueBlock]
  dsimp only
  rw [Map.put_put, Map.get_put_same]

/-- A block is stored with its wear and, when its write counts, moves the gap that is due. -/
theorem Dev.blockWrite_gapMove {d : Dev} {k n block : Nat} {rest : List (Nat × Bool)}
    (hq : Map.get [] d.wq k = (block, true) :: rest) (hn : n ≤ 3) {p : Nat} (hp : (d.blockPlace k block).1 = p)
    (hdue : d.gapWrites ≤ ((d.die k).gap p).since + 1) (hclean : d.symErr = []) : ∃ moved,
      d.blockWrite k n = { d with
        wq := Map.put d.wq k (insertNew (moved, false) rest)
        tier := (d.blockWrite k n).tier } ∧
      (d.blockWrite k n).die k = { (d.die k).wear p 1 with gaps := Map.put (d.die k).gaps p ((d.die k).gap p).move } := by
  subst hp
  obtain ⟨moved, hmove⟩ := Dev.gapMove_stored hclean k (d.blockPlace k block).1 rest
  have hwrite : d.blockWrite k n = _ := (Dev.blockWrite_stored hq hn).trans
    ((if_neg Bool.true_eq_false_eq_False).trans ((if_pos hdue).trans hmove))
  refine ⟨moved, ?_, ?_⟩
  · rw [hwrite]
    exact Dev.queueBlock_taken d _ k moved false rest
  · rw [hwrite, Dev.die_queueBlock, Dev.die_updDie, Dev.stored, Dev.die_updDie]
    rfl

/-! ### Region swaps (R231) -/

/-- A swap begins once it is due. -/
theorem Dev.wearSwap_idle {d : Dev} {k : Nat} (hswap : (d.die k).swap = none) :
    d.wearSwap k = if d.swapDue k then
      (d.updDie k fun x => { x with swap := some (x.hottest, x.coldest, 0) }).setProg 0x44
        { state := 1, position := 0, total := 2 * regionBlocks, queue := 0xFFFF, tag := 0, start := d.stamp } else d := by
  rw [Dev.wearSwap, hswap]

theorem Dev.wearSwap_begins {d : Dev} {k : Nat} (hswap : (d.die k).swap = none) (hdue : d.swapDue k = true) :
    (d.wearSwap k).die k = { d.die k with swap := some ((d.die k).hottest, (d.die k).coldest, 0) } ∧
      ((d.wearSwap k).prog 0x44).state = 1 ∧ (d.wearSwap k).mem = d.mem := by
  rw [Dev.wearSwap_idle hswap, if_pos hdue, Dev.die_setProg, Dev.die_updDie, Dev.prog_setProg]
  exact ⟨rfl, rfl, rfl⟩

theorem Dev.wearSwap_busy {d : Dev} {k hot cold n : Nat} (hswap : (d.die k).swap = some (hot, cold, n)) :
    d.wearSwap k = d.swapStep k hot cold n := by
  rw [Dev.wearSwap, hswap]

/-- A die after a pair of blocks of its swap. -/
def Die.swapNext (x : Die) (hot cold n : Nat) : Die :=
  if n + 1 = regionBlocks then
    { x with regionMap := Map.put (Map.put x.regionMap (x.logicalOf hot) (some cold)) (x.logicalOf cold) (some hot), swap := none }
  else { x with swap := some (hot, cold, n + 1) }

/-- Both blocks of the pair are queued, the journal moves on, and the progress is shown. -/
theorem Dev.swapStep_eq {d : Dev} (hclean : d.symErr = []) (k hot cold n : Nat) : ∃ p : Progress,
    p.position = 2 * (n + 1) ∧ p.state = (if n + 1 = regionBlocks then 4 else 1) ∧ d.swapStep k hot cold n =
      (((d.setDie k ((d.die k).swapNext hot cold n)).queueBlock k (d.lineAt k ((d.die k).logicalOf hot) n) false).queueBlock k
        (d.lineAt k ((d.die k).logicalOf cold) n) false).setProg 0x44 p := by
  rw [Dev.swapStep]
  dsimp only
  rw [Dev.copyBlock_clean (d := d.setDie k _) hclean, Dev.copyBlock_clean (d := (d.setDie k _).queueBlock _ _ _) hclean]
  exact ⟨_, rfl, rfl, rfl⟩

/-- After its last pair of blocks the two regions have changed places, and no other has. -/
theorem Die.phys_swapNext {x : Die} {hot cold n : Nat} (hne : x.logicalOf hot ≠ x.logicalOf cold) (hlast : n + 1 = regionBlocks) :
    (x.swapNext hot cold n).phys (x.logicalOf hot) = cold ∧ (x.swapNext hot cold n).phys (x.logicalOf cold) = hot ∧
      ∀ r, r ≠ x.logicalOf hot → r ≠ x.logicalOf cold → (x.swapNext hot cold n).phys r = x.phys r := by
  rw [Die.swapNext, if_pos hlast]
  refine ⟨?_, ?_, fun r hr hr' => ?_⟩
  · rw [Die.phys, Map.get_put_other _ _ _ _ _ hne, Map.get_put_same, Option.getD_some]
  · rw [Die.phys, Map.get_put_same, Option.getD_some]
  · rw [Die.phys, Map.get_put_other _ _ _ _ _ hr', Map.get_put_other _ _ _ _ _ hr, Die.phys]

/-! ### A late sweep (R229) -/

/-- The block with the die's sweep share at 20 %, and the event shown. -/
def Dev.sweepHurried (d : Dev) (k : Nat) : Dev :=
  let e := d.updDie k fun y => { y with sweepShare := 20 }
  { e with tier := { e.tier with sweepLate := true } }

theorem Dev.die_sweepHurried (d : Dev) (k : Nat) : (d.sweepHurried k).die k = { d.die k with sweepShare := 20 } := Map.get_put_same ..

theorem Dev.sweepLate_eq {d : Dev} {k : Nat} (h : (d.sweepInterval k).isSome = true) : d.sweepLate k =
    (if d.tier.sweepLate then d.sweepHurried k else (d.sweepHurried k).msixRaise 0).fault (mkFault (dieSource k) .alert 0x50 k) := by
  rw [Dev.sweepLate, if_neg (by rw [Option.isNone_eq_false_iff.mpr h]; exact Bool.false_ne_true)]
  rfl

/-- Whether or not the event is new, the die hurries and the cells stay. -/
theorem Dev.sweepLate_effect {d : Dev} {k : Nat} (h : (d.sweepInterval k).isSome = true) :
    (d.sweepLate k).tier = (d.sweepHurried k).tier ∧ (d.sweepLate k).mem = d.mem := by
  rw [Dev.sweepLate_eq h, Dev.fault_tier, Dev.fault_mem]
  split
  · exact ⟨rfl, rfl⟩
  · rw [Dev.msixRaise_tier, Dev.msixRaise_mem]
    exact ⟨rfl, rfl⟩

/-! ### Life (R234) -/

/-- The end of life is a value, free at times. -/
theorem Dev.endOfLife_eq (d : Dev) : ∃ (eol : Word64) (n : Nat), d.endOfLife = (eol, { d with fresh := n }) := by
  rw [Dev.endOfLife]
  dsimp only
  split
  · split
    · exact ⟨_, _, rfl⟩
    · exact ⟨_, _, rfl⟩
  · exact ⟨_, _, rfl⟩

/-- The most worn region of every die, as the history keeps it. -/
def Dev.lifeSample (d : Dev) : Map Nat := (List.range 64).foldl (fun (m : Map Nat) i => Map.put m i (d.die i).maxWrites) []

theorem Dev.get_lifeSample (d : Dev) {k : Nat} (hk : k < 64) : Map.get 0 d.lifeSample k = (d.die k).maxWrites := by
  rw [Dev.lifeSample, Map.get_foldl_put_range, if_pos hk]

/-- Life is recorded whether or not wear is reported. -/
theorem Dev.lifePersist_records (d : Dev) : d.lifePersist.tier.lifeSaved = d.regionCounts ∧
    d.lifePersist.tier.lifeHist = (d.mg.seconds.toNat, d.lifeSample) :: d.tier.lifeHist.take 30 ∧
    d.lifePersist.tier.dies = d.tier.dies ∧ d.lifePersist.mem = d.mem := by
  obtain ⟨eol, n, heol⟩ := d.endOfLife_eq
  rw [Dev.lifePersist, heol]
  dsimp only
  split
  · rw [Dev.fault_tier, Dev.fault_mem, Dev.lifeLog_tier, Dev.lifeLog_mem, Dev.nvRecord_tier, Dev.nvRecord_mem]
    exact ⟨rfl, rfl, rfl, rfl⟩
  · rw [Dev.nvRecord_tier, Dev.nvRecord_mem]
    exact ⟨rfl, rfl, rfl, rfl⟩

end Sys2Proof.Machine

namespace Sys2Proof.Proofs

/-- A pair of blocks of a swap that is under way. -/
theorem wearSwap_pair {d : Dev} {k hot cold n : Nat} (hswap : (d.die k).swap = some (hot, cold, n))
    (hne : (d.die k).logicalOf hot ≠ (d.die k).logicalOf cold) (hclean : d.symErr = []) : let x := d.die k; let e := d.wearSwap k
    e.mem = d.mem ∧ (e.prog 0x44).position = 2 * (n + 1) ∧
      (d.lineAt k (x.logicalOf hot) n, false) ∈ Map.get [] e.wq k ∧ (d.lineAt k (x.logicalOf cold) n, false) ∈ Map.get [] e.wq k ∧
      (n + 1 ≠ regionBlocks → e.die k = { x with swap := some (hot, cold, n + 1) } ∧ (e.prog 0x44).state = 1) ∧
      (n + 1 = regionBlocks → (e.die k).swap = none ∧ (e.die k).phys (x.logicalOf hot) = cold ∧
        (e.die k).phys (x.logicalOf cold) = hot ∧ (e.prog 0x44).state = 4 ∧
        ∀ r, r ≠ x.logicalOf hot → r ≠ x.logicalOf cold → (e.die k).phys r = x.phys r) := by
  obtain ⟨p, hpos, hstate, hstep⟩ := Dev.swapStep_eq hclean k hot cold n
  dsimp only
  rw [Dev.wearSwap_busy hswap, hstep, Dev.prog_setProg, Dev.die_setProg, Dev.die_queueBlock, Dev.die_queueBlock, Dev.die_setDie,
    Dev.wq_setProg, Dev.wq_queueBlock, Dev.wq_queueBlock, Dev.setProg_mem, Dev.queueBlock_mem, Dev.queueBlock_mem, Dev.setDie_mem]
  refine ⟨rfl, hpos, mem_insertNew.mpr (.inr (mem_insertNew.mpr (.inl rfl))), mem_insertNew.mpr (.inl rfl), fun hmore => ?_,
    fun hlast => ?_⟩
  · exact ⟨if_neg hmore, hstate.trans (if_neg hmore)⟩
  · obtain ⟨hhot, hcold, hother⟩ := Die.phys_swapNext hne hlast
    refine ⟨?_, hhot, hcold, hstate.trans (if_pos hlast), hother⟩
    rw [Die.swapNext, if_pos hlast]

/-- Settles O51: upkeep operation by operation; where no symbol is in error, a read of upkeep leaves the block as it is. -/
theorem tierUpkeep : Obligations.TierUpkeep := by
  refine ⟨fun s st g => ⟨fun hself => ?_, fun hcount hearly => ?_, fun hself hdue => ?_⟩, fun s errs hdm0 hin => ?_,
    fun s a errs ha => State.goes_of_eq (Dev.scrub_elsewhere errs ha), fun s k block hres hctl hdm1 hclean htemp => ?_,
    fun s k n block counts rest hq hn => ?_, fun s k n hq => State.goes_of_eq (by rw [Dev.blockWrite, hq]),
    fun s k => ⟨fun hswap hdue => ?_, fun hswap hdue => ?_, fun hot cold n hswap hne hclean => ?_, fun hnone => ?_,
      fun hsome hlate => ?_, fun hsome hlate => ?_⟩, fun s => ?_⟩
  · exact State.goes_of_eq (Dev.refresh_early (.inl hself))
  · exact State.goes_of_eq (Dev.refresh_early (.inr ⟨hcount, hearly⟩))
  · exact State.goes_of_eq (Dev.refresh_due hself hdue)
  · exact ⟨_, State.goes_of_eq rfl, Dev.scrub_corrects errs hdm0 hin rfl rfl rfl⟩
  · refine ⟨fun hread => State.goes_of_eq (Dev.sweep_again hread), fun hnew hmore => ?_⟩
    obtain ⟨p, hp⟩ := Dev.sweep_clean hres hctl hdm1 hclean htemp hnew hmore
    exact ⟨p, State.goes_of_eq hp⟩
  · have hstored := Dev.blockWrite_stored hq hn
    refine ⟨fun hcounts => State.goes_of_eq (hstored.trans (if_pos hcounts)), fun hcounts hearly => ?_, fun hcounts hdue hclean => ?_⟩
    · exact State.goes_of_eq (hstored.trans ((if_neg (ne_false_of_eq_true hcounts)).trans (if_neg hearly.not_ge)))
    · subst hcounts
      obtain ⟨moved, heq, hdie⟩ := Dev.blockWrite_gapMove hq hn rfl hdue hclean
      exact ⟨_, moved, State.goes_of_eq rfl, heq, by rw [hdie]; rfl, by rw [hdie, Die.gap, Map.get_put_same], by rw [hdie]; rfl⟩
  · exact State.goes_of_eq ((Dev.wearSwap_idle hswap).trans (if_neg (ne_true_of_eq_false hdue)))
  · obtain ⟨hdie, hprog, hmem⟩ := Dev.wearSwap_begins hswap hdue
    exact ⟨_, State.goes_of_eq rfl, hdie, hprog, hmem⟩
  · exact ⟨_, State.goes_of_eq rfl, wearSwap_pair hswap hne hclean⟩
  · exact State.goes_of_eq (if_pos (Option.isNone_iff_eq_none.mpr hnone))
  · exact State.goes_of_eq ((Dev.sweepLate_eq hsome).trans (by rw [if_pos hlate]; rfl))
  · obtain ⟨htier, hmem⟩ := Dev.sweepLate_effect hsome
    have hdie := (Dev.die_of_tier htier k.val).trans (s.dev.die_sweepHurried k.val)
    exact ⟨_, State.goes_of_eq rfl, congrArg Tier.sweepLate htier, hdie, hmem⟩
  · obtain ⟨hsaved, hhist, hdies, hmem⟩ := s.dev.lifePersist_records
    exact ⟨_, State.goes_of_eq rfl, hsaved, ⟨_, hhist, fun k hk => s.dev.get_lifeSample hk⟩, hdies, hmem⟩

end Sys2Proof.Proofs
end

section
/-! What an L1 answers when its home snoops it (R264, R265, Table 8.8). -/

open Sys2Proof Sys2Proof.Machine

namespace Sys2Proof.Machine

/-! ### What setting a sector of a cache changes -/

/-- A sector set in a cache changes caches alone, and reads caches and cores alone. -/
theorem Dev.cacheSet_writes (d : Dev) (n line sec : Nat) (x : CSector) : ∃ ks, ∀ e : Dev, e.caches = d.caches → e.cores = d.cores →
    e.cacheSet n line sec x = { e with caches := ks } := by
  have hread (e : Dev) (hcaches : e.caches = d.caches) (hcores : e.cores = d.cores) : e.findWay n line = d.findWay n line ∧
      e.sideLine n line = d.sideLine n line ∧ (∀ key, e.wayLine n key = d.wayLine n key) ∧ e.cache n = d.cache n := by
    have hcache : e.cache n = d.cache n := by rw [Dev.cache, hcaches]; rfl
    exact ⟨(Dev.SameCache.of_parts n hcaches hcores).findWay line, by rw [Dev.sideLine, hcache]; rfl,
      fun key => by rw [Dev.wayLine, hcache]; rfl, hcache⟩
  refine ⟨(d.cacheSet n line sec x).caches, fun e hcaches hcores => ?_⟩
  obtain ⟨hway, hside, hline, hcache⟩ := hread e hcaches hcores
  simp only [Dev.cacheSet, hway, hside, hline, Dev.updCache, Dev.setCache, hcache, hcaches]
  cases d.findWay n line with
  | none => rfl
  | some key => dsimp only; split_ifs <;> rfl

/-- So does a sector dropped from one. -/
theorem Dev.cacheDrop_writes (d : Dev) (n line sec : Nat) : ∃ ks, ∀ e : Dev, e.caches = d.caches → e.cores = d.cores →
    e.cacheDrop n line sec = { e with caches := ks } := by
  obtain ⟨ks, hset⟩ := d.cacheSet_writes n line sec .none
  refine ⟨if (d.cacheSec n line sec).st = .I then d.caches else ks, fun e hcaches hcores => ?_⟩
  rw [Dev.cacheDrop, (Dev.SameCache.of_parts n hcaches hcores).cacheSec]
  split
  · rw [← hcaches]
  · exact hset e hcaches hcores

section
variable {d e : Dev} {n line sec : Nat} {x : CSector}

theorem Dev.cacheSet_eq (d : Dev) (n line sec : Nat) (x : CSector) : ∃ ks, d.cacheSet n line sec x = { d with caches := ks } :=
  (d.cacheSet_writes n line sec x).imp fun _ h => h d rfl rfl

theorem Dev.cacheDrop_eq (d : Dev) (n line sec : Nat) : ∃ ks, d.cacheDrop n line sec = { d with caches := ks } :=
  (d.cacheDrop_writes n line sec).imp fun _ h => h d rfl rfl

@[simp] theorem Dev.cacheDrop_cores (d : Dev) (n line sec : Nat) : (d.cacheDrop n line sec).cores = d.cores := by
  obtain ⟨ks, h⟩ := d.cacheDrop_eq n line sec
  rw [h]

@[simp] theorem Dev.cacheSet_net (d : Dev) (n line sec : Nat) (x : CSector) : (d.cacheSet n line sec x).net = d.net := by
  obtain ⟨ks, h⟩ := d.cacheSet_eq n line sec x
  rw [h]

@[simp] theorem Dev.cacheDrop_net (d : Dev) (n line sec : Nat) : (d.cacheDrop n line sec).net = d.net := by
  obtain ⟨ks, h⟩ := d.cacheDrop_eq n line sec
  rw [h]

theorem Dev.cacheSet_caches (hcaches : e.caches = d.caches) (hcores : e.cores = d.cores) :
    (e.cacheSet n line sec x).caches = (d.cacheSet n line sec x).caches := by
  obtain ⟨ks, h⟩ := d.cacheSet_writes n line sec x
  rw [h e hcaches hcores, h d rfl rfl]

theorem Dev.cacheDrop_caches (hcaches : e.caches = d.caches) (hcores : e.cores = d.cores) :
    (e.cacheDrop n line sec).caches = (d.cacheDrop n line sec).caches := by
  obtain ⟨ks, h⟩ := d.cacheDrop_writes n line sec
  rw [h e hcaches hcores, h d rfl rfl]

end

/-! ### The copy a core holds (R265) -/

section
variable {d : Dev} {c line sec : Nat} {x : CSector}

theorem sector_line (line : Nat) {sec : Nat} (hsec : sec < 4) : (4 * line + sec) / 4 = line := by omega

theorem sector_sec (line : Nat) {sec : Nat} (hsec : sec < 4) : (4 * line + sec) % 4 = sec := by omega

theorem Dev.heldCopy_cached (hsec : sec < 4) (hx : d.cacheSec (l1No c) line sec = x) (hst : x.st ≠ .I) : d.heldCopy c line sec = x := by
  simp [Dev.heldCopy, Dev.ownerCopy, sector_line line hsec, sector_sec line hsec, hx, hst]

theorem Dev.heldCopy_absent (hsec : sec < 4) (hx : d.cacheSec (l1No c) line sec = x) (hst : x.st = .I) (hevict : (d.core c).evict = []) :
    d.heldCopy c line sec = .none := by
  simp [Dev.heldCopy, Dev.ownerCopy, sector_line line hsec, sector_sec line hsec, hx, hst, hevict]

theorem Dev.reread_idle (hwait : (d.core c).wait = .none) (sector : Nat) : d.reread c sector = d := by
  rw [Dev.reread, hwait]

theorem Dev.l1Lose_idle (hwait : (d.core c).wait = .none) : d.l1Lose c line sec = d.cacheDrop (l1No c) line sec := by
  refine Dev.reread_idle ?_ _
  rwa [Dev.core, Dev.cacheDrop_cores]

/-- A cached sector takes its new state in the cache. -/
theorem Dev.setHeld_cached (hwait : (d.core c).wait = .none) (hx : d.cacheSec (l1No c) line sec = x) (hst : x.st ≠ .I) (st : MState) :
    d.setHeld c line sec st =
      if st = .I then d.cacheDrop (l1No c) line sec else d.cacheSet (l1No c) line sec { x with st := st } := by
  simp [Dev.setHeld, hx, hst, Dev.l1Lose_idle hwait]

theorem Dev.setHeld_net (hwait : (d.core c).wait = .none) (hx : d.cacheSec (l1No c) line sec = x) (hst : x.st ≠ .I) (st : MState) :
    (d.setHeld c line sec st).net = d.net := by
  rw [Dev.setHeld_cached hwait hx hst]
  split
  · exact d.cacheDrop_net ..
  · exact d.cacheSet_net ..

@[simp] theorem Dev.resend_net (d : Dev) (c sector : Nat) : (d.resend c sector).net = d.net := rfl

@[simp] theorem Dev.resend_caches (d : Dev) (c sector : Nat) : (d.resend c sector).caches = d.caches := rfl

theorem Dev.send_net (d : Dev) (m : Msg) : (d.send m).net = d.net ++ [m] := rfl

end

/-! ### The snoop comes in -/

section
variable {d : Dev} {m : SnpMsg} {x : CSector}

section
variable (horder : d.snpInOrder m = true) (hcore : m.core < 0x110) (hpart : d.partHeld m.core = false)
include horder hcore hpart

/-- A snoop of a held sector waits (R268). -/
theorem Dev.snoopIn_waits (hheld : Map.get none (d.core m.core).held (4 * m.line + m.sec) ≠ none) :
    d.snoopIn m = (d.taken (.snp m)).setCore m.core { d.core m.core with waitSnp := (d.core m.core).waitSnp ++ [m] } := by
  have hpart' : (d.taken (.snp m)).partHeld m.core = false := hpart
  have hheld' : (Map.get none ((d.taken (.snp m)).core m.core).held (4 * m.line + m.sec)).isSome = true := Option.isSome_iff_ne_none.mpr hheld
  rw [Dev.snoopIn, horder]
  simp only [Bool.not_true, Bool.false_eq_true, if_false, if_neg (show ¬0x400 ≤ m.core by omega), hpart', hheld', if_true]
  rfl

/-- Any other is answered at once. -/
theorem Dev.snoopIn_answers (hheld : Map.get none (d.core m.core).held (4 * m.line + m.sec) = none) :
    d.snoopIn m = (d.taken (.snp m)).snpAnswerAt m := by
  have hpart' : (d.taken (.snp m)).partHeld m.core = false := hpart
  have hheld' : (Map.get none ((d.taken (.snp m)).core m.core).held (4 * m.line + m.sec)).isSome = false :=
    Option.isSome_eq_false_iff.mpr (Option.isNone_iff_eq_none.mpr hheld)
  rw [Dev.snoopIn, horder]
  simp only [Bool.not_true, Bool.false_eq_true, if_false, if_neg (show ¬0x400 ≤ m.core by omega), hpart', hheld']

end

/-! ### The answers (Table 8.8) -/

/-- SNPINV of a cached sector: its copy ends, and dirty data goes back where asked. -/
theorem Dev.snpInvAt_cached (hsec : m.sec < 4) (hwait : (d.core m.core).wait = .none) (hx : d.cacheSec (l1No m.core) m.line m.sec = x)
    (hst : x.st ≠ .I) : ∃ a : AnsMsg, (d.snpInvAt m).net = d.net ++ [.ans a] ∧
      (d.snpInvAt m).caches = (d.cacheDrop (l1No m.core) m.line m.sec).caches ∧ a.src = m.core ∧ a.line = m.line ∧ a.sec = m.sec ∧
      a.txid = m.txid ∧ (m.ret = true ∧ (x.st = .O ∨ x.st = .M) → a.kind = .ackData ∧ a.data = x.data) ∧
      (m.ret = false ∨ x.st = .S ∨ x.st = .E → a.kind = .ack) := by
  have hheld := (Dev.setHeld_cached hwait hx hst .I).trans (if_pos rfl)
  have hcaches : (d.snpInvAt m).caches = (d.cacheDrop (l1No m.core) m.line m.sec).caches := by
    rw [Dev.snpInvAt, Dev.send_caches, Dev.resend_caches, hheld]
  let dirty : Bool := m.ret && (x.st = .O || x.st = .M)
  let a := mkAns (if dirty then .ackData else .ack) m.core m.txid m.line m.sec
  have hnet : (d.snpInvAt m).net = d.net ++ [.ans (if dirty then { a with data := x.data, info := x.info } else a)] := by
    rw [Dev.snpInvAt, Dev.send_net, Dev.resend_net, hheld, Dev.cacheDrop_net, Dev.heldCopy_cached hsec hx hst]
  refine ⟨_, hnet, hcaches, ?_⟩
  by_cases hdirty : m.ret = true ∧ (x.st = .O ∨ x.st = .M)
  · obtain ⟨hret, hom⟩ := hdirty
    rcases hom with h | h <;> simp [dirty, a, hret, h, mkAns]
  · have hclean : (m.ret && (decide (x.st = .O) || decide (x.st = .M))) = false := by simpa using hdirty
    simp [dirty, a, hclean, hdirty, mkAns]

section
variable {gives keeps : MState → MState}

/-- A forward of a sector that is not held, or only shared, is missed. -/
theorem Dev.fwdAt_miss (hsec : m.sec < 4) (hevict : (d.core m.core).evict = []) (hx : d.cacheSec (l1No m.core) m.line m.sec = x)
    (hst : x.st = .I ∨ x.st = .S) : d.fwdAt m gives keeps = d.send (.ans (mkAns .fwdMiss m.core m.txid m.line m.sec)) := by
  have hmiss : (d.heldCopy m.core m.line m.sec).st = .I ∨ (d.heldCopy m.core m.line m.sec).st = .S := by
    rcases hst with hI | hS
    · rw [Dev.heldCopy_absent hsec hx hI hevict]; exact .inl rfl
    · rw [Dev.heldCopy_cached hsec hx (by rw [hS]; decide)]; exact .inr hS
  exact if_pos (by simpa using hmiss)

/-- A forward of an owned sector sends its data on and tells the home what the owner keeps. -/
theorem Dev.fwdAt_owned (hsec : m.sec < 4) (hwait : (d.core m.core).wait = .none) (hctx : m.ctx = 0)
    (hx : d.cacheSec (l1No m.core) m.line m.sec = x) (hst : x.st = .E ∨ x.st = .O ∨ x.st = .M) : ∃ (r : RspMsg) (a : AnsMsg),
      (d.fwdAt m gives keeps).net = d.net ++ [.rsp r, .ans a] ∧
      (d.fwdAt m gives keeps).caches = (if keeps x.st = .I then d.cacheDrop (l1No m.core) m.line m.sec
        else d.cacheSet (l1No m.core) m.line m.sec { x with st := keeps x.st }).caches ∧
      r.kind = .data ∧ r.dst = m.req ∧ r.st = gives x.st ∧ r.data = x.data ∧ r.sec = m.sec ∧
      a.kind = .fwdDone ∧ a.st = keeps x.st ∧ a.src = m.core := by
  have hI : x.st ≠ .I := by rcases hst with h | h | h <;> rw [h] <;> decide
  have hS : x.st ≠ .S := by rcases hst with h | h | h <;> rw [h] <;> decide
  let r : RspMsg := { mkRsp .data m.req m.txid m.line m.sec with st := gives x.st, data := x.data, info := x.info, origin := m.origin }
  let a : AnsMsg := { mkAns .fwdDone m.core m.txid m.line m.sec with st := keeps x.st }
  have hfwd : d.fwdAt m gives keeps =
      (((d.send (.rsp r)).setHeld m.core m.line m.sec (keeps x.st)).resend m.core (4 * m.line + m.sec)).send (.ans a) := by
    simp [Dev.fwdAt, Dev.heldCopy_cached hsec hx hI, hI, hS, hctx, r, a]
  have hcore : ((d.send (.rsp r)).core m.core).wait = .none := hwait
  have hx' : (d.send (.rsp r)).cacheSec (l1No m.core) m.line m.sec = x := hx
  refine ⟨r, a, ?_, ?_, rfl, rfl, rfl, rfl, rfl, rfl, rfl, rfl⟩
  · rw [hfwd, Dev.send_net, Dev.resend_net, Dev.setHeld_net hcore hx' hI, Dev.send_net, List.append_assoc]
    rfl
  · rw [hfwd, Dev.send_caches, Dev.resend_caches, Dev.setHeld_cached hcore hx' hI]
    split
    · exact Dev.cacheDrop_caches rfl rfl
    · exact Dev.cacheSet_caches rfl rfl

end

end

end Sys2Proof.Machine

namespace Sys2Proof.Proofs

/-- The forward of a kind gives and keeps what Table 8.8 says. -/
theorem forward_answered {s : State} {m : SnpMsg} {x : CSector} {c : SnpMsg → Instr} {gives keeps : MState → MState}
    (hgo : exec (c m) s = s.goes ((s.dev.taken (.snp m)).fwdAt m gives keeps))
    (hsec : m.sec < 4) (hevict : (s.dev.core m.core).evict = []) (hctx : m.ctx = 0) (hwait : (s.dev.core m.core).wait = .none)
    (hx : s.dev.cacheSec (l1No m.core) m.line m.sec = x) :
    (x.st = .I ∨ x.st = .S → ∃ a : AnsMsg, exec (c m) s = .next ((s.withDev (s.dev.taken (.snp m))).sends (.ans a)) ∧
      a.kind = .fwdMiss ∧ a.src = m.core ∧ a.line = m.line ∧ a.sec = m.sec) ∧
    (x.st = .E ∨ x.st = .O ∨ x.st = .M → ∃ (e : Dev) (r : RspMsg) (a : AnsMsg), exec (c m) s = .next (s.withDev e) ∧
      e.net = (s.dev.taken (.snp m)).net ++ [.rsp r, .ans a] ∧
      e.caches = (if keeps x.st = .I then s.dev.cacheDrop (l1No m.core) m.line m.sec
        else s.dev.cacheSet (l1No m.core) m.line m.sec { x with st := keeps x.st }).caches ∧
      r.kind = .data ∧ r.dst = m.req ∧ r.st = gives x.st ∧ r.data = x.data ∧ r.sec = m.sec ∧
      a.kind = .fwdDone ∧ a.st = keeps x.st ∧ a.src = m.core) := by
  have hx' : (s.dev.taken (.snp m)).cacheSec (l1No m.core) m.line m.sec = x := hx
  refine ⟨fun hst => ⟨_, hgo.trans (State.goes_of_eq (Dev.fwdAt_miss hsec hevict hx' hst)), rfl, rfl, rfl, rfl⟩, fun hst => ?_⟩
  obtain ⟨r, a, hnet, hcaches, hanswers⟩ := Dev.fwdAt_owned (d := s.dev.taken (.snp m)) (gives := gives) (keeps := keeps) hsec hwait hctx hx' hst
  refine ⟨_, r, a, hgo.trans (State.goes_of_eq rfl), hnet, hcaches.trans ?_, hanswers⟩
  split
  · exact Dev.cacheDrop_caches (Dev.taken_caches ..) (Dev.taken_cores ..)
  · exact Dev.cacheSet_caches (Dev.taken_caches ..) (Dev.taken_cores ..)

/-- Settles O31: a held sector's snoop waits, SNPINV ends the copy, and each forward gives and keeps by its kind. -/
theorem snoopsAnswered : Obligations.SnoopsAnswered := by
  intro s m x d n k sector horder hcore hpart hsec hsb hevict hctx hx
  have hsame {kind : SnpKind} (hk : m.kind = kind) : ({ m with kind := kind } : SnpMsg) = m := by rw [← hk]
  refine ⟨fun hheld hk => ?_, fun hfree hwait => ⟨fun hk hst => ?_, fun p hp => ?_⟩⟩
  · have hgo : exec (.snpinv m) s = s.goes (d.snoopIn { m with kind := .inv }) := rfl
    rw [hgo, hsame hk, Dev.snoopIn_waits horder hcore hpart hheld]
    rfl
  · have hgo : exec (.snpinv m) s = s.goes (d.snoopIn { m with kind := .inv }) := rfl
    rw [hsame hk, Dev.snoopIn_answers horder hcore hpart hfree, Dev.snpAnswerAt, hk] at hgo
    obtain ⟨a, hnet, hcaches, hanswer⟩ := Dev.snpInvAt_cached (d := d.taken (.snp m)) hsec hwait hx hst
    exact ⟨_, a, hgo, hnet, hcaches.trans (Dev.cacheDrop_caches (Dev.taken_caches ..) (Dev.taken_cores ..)), hanswer⟩
  · have hforward {c : SnpMsg → Instr} {kind : SnpKind} {gives keeps : MState → MState} (hk : m.kind = kind)
        (hexec : exec (c m) s = s.goes (d.snoopIn { m with kind := kind }))
        (hat : (d.taken (.snp m)).snpAnswerAt m = (d.taken (.snp m)).fwdAt m gives keeps) :=
      forward_answered (c := c) (gives := gives) (keeps := keeps)
        (hexec.trans (by rw [hsame hk, Dev.snoopIn_answers horder hcore hpart hfree, hat])) hsec hevict hctx hwait hx
    simp only [List.mem_cons, List.not_mem_nil, or_false] at hp
    rcases hp with rfl | rfl | rfl
    · exact fun hk => hforward hk rfl (by rw [Dev.snpAnswerAt, hk])
    · exact fun hk => hforward hk rfl (by rw [Dev.snpAnswerAt, hk])
    · exact fun hk => hforward hk rfl (by rw [Dev.snpAnswerAt, hk])

end Sys2Proof.Proofs
end

section
/-! A home at rest and its moves (R260-R263): what leaves the homes as they stand, the moves of a home that holds one transaction or takes
in one request, and where they end. -/

open Sys2Proof Sys2Proof.Machine

namespace Sys2Proof.Machine

/-! ### Waiting row updates (R267) -/

theorem sumUnits_eq_zero {xs : List Nat} : sumUnits xs = 0 ↔ ∀ x ∈ xs, x = 0 := by
  rw [sumUnits, ← List.sum_eq_foldl, List.sum_eq_zero_iff]

theorem Map.mem_put {α : Type} {m : Map α} {k : Nat} {v : α} {p : Nat × α} (h : p ∈ Map.put m k v) : p = (k, v) ∨ p ∈ m := by
  induction m with
  | nil => simpa [Map.put] using h
  | cons q rest ih =>
    rw [Map.put] at h
    split_ifs at h
    · exact (List.mem_cons.mp h).imp_right (List.mem_cons_of_mem _)
    · exact List.mem_cons.mp h
    · rcases List.mem_cons.mp h with rfl | h
      · exact .inr (List.mem_cons_self ..)
      · exact (ih h).imp_right (List.mem_cons_of_mem _)

/-- No row update waits where no listed home has one in its queue. -/
theorem Dev.rowsWaiting_eq_zero {d : Dev} : d.rowsWaiting = 0 ↔ ∀ p ∈ d.homes, ∀ w ∈ p.2.queue, w.req.kind ≠ .updRow := by
  simp only [Dev.rowsWaiting, sumUnits_eq_zero, List.forall_mem_map, List.length_eq_zero_iff, List.filter_eq_nil_iff, decide_eq_true_eq]

theorem Dev.rowsWaiting_setHome {d : Dev} {h : Nat} {x : Home} (hd : d.rowsWaiting = 0) (hx : ∀ w ∈ x.queue, w.req.kind ≠ .updRow) :
    (d.setHome h x).rowsWaiting = 0 := by
  rw [Dev.rowsWaiting_eq_zero] at hd ⊢
  intro p hp
  rcases Map.mem_put hp with rfl | hp
  · exact hx
  · exact hd p hp

/-! ### Blocks whose homes stand alike -/

/-- The homes stand alike in both blocks, nothing sets them going in one alone, and no request of the host was sent between. -/
structure Dev.SameHomes (d e : Dev) : Prop where
  homes : e.homes = d.homes
  hl : e.hl = d.hl
  inject : e.flt.inject = d.flt.inject
  suspects : e.tier.suspects = d.tier.suspects
  net : ∀ m, Msg.req m ∈ e.net → Msg.req m ∈ d.net ∨ m.src ≠ hostAgent

namespace Dev.SameHomes

theorem refl (d : Dev) : d.SameHomes d := ⟨rfl, rfl, rfl, rfl, fun _ => .inl⟩

theorem trans {d e f : Dev} (h : d.SameHomes e) (h' : e.SameHomes f) : d.SameHomes f :=
  ⟨h'.homes.trans h.homes, h'.hl.trans h.hl, h'.inject.trans h.inject, h'.suspects.trans h.suspects,
    fun m hm => (h'.net m hm).elim (h.net m) .inr⟩

theorem send {m : Msg} (d : Dev) (hm : ∀ q, m = .req q → q.src ≠ hostAgent) : d.SameHomes (d.send m) := by
  refine ⟨rfl, rfl, rfl, rfl, fun q hq => ?_⟩
  rcases List.mem_append.mp hq with h | h
  · exact .inl h
  · exact .inr (hm q (List.mem_singleton.mp h).symm)

theorem send_snp (d : Dev) (m : SnpMsg) : d.SameHomes (d.send (.snp m)) := send d fun _ h => Msg.noConfusion h

theorem send_ans (d : Dev) (m : AnsMsg) : d.SameHomes (d.send (.ans m)) := send d fun _ h => Msg.noConfusion h

theorem send_rsp (d : Dev) (m : RspMsg) : d.SameHomes (d.send (.rsp m)) := send d fun _ h => Msg.noConfusion h

theorem send_mem (d : Dev) (m : MemMsg) : d.SameHomes (d.send (.mem m)) := send d fun _ h => Msg.noConfusion h

theorem emit (d : Dev) (o : Out) : d.SameHomes (d.emit o) := ⟨rfl, rfl, rfl, rfl, fun _ => .inl⟩

theorem mem_eraseFirst {α : Type} [DecidableEq α] {x y : α} {l : List α} (h : y ∈ eraseFirst x l) : y ∈ l := by
  induction l with
  | nil => exact h
  | cons z zs ih =>
    rw [eraseFirst] at h
    split_ifs at h
    · exact List.mem_cons_of_mem _ h
    · exact (List.mem_cons.mp h).elim (· ▸ List.mem_cons_self ..) (List.mem_cons_of_mem _ ∘ ih)

theorem taken (d : Dev) (m : Msg) : d.SameHomes (d.taken m) := ⟨rfl, rfl, rfl, rfl, fun _ h => .inl (mem_eraseFirst h)⟩

theorem foldl {α : Type} {f : Dev → α → Dev} (hf : ∀ (d : Dev) a, d.SameHomes (f d a)) (l : List α) (d : Dev) : d.SameHomes (l.foldl f d) := by
  induction l generalizing d with
  | nil => exact refl d
  | cons a l ih => exact (hf d a).trans (ih _)

theorem homesQuiet {d e : Dev} (h : d.SameHomes e) (hq : d.homesQuiet) : e.homesQuiet := by
  obtain ⟨hrows, hnet, hsus⟩ := hq
  refine ⟨?_, fun m hm => (h.net m hm).elim (hnet m) id, h.suspects.trans hsus⟩
  rw [Dev.rowsWaiting, h.homes]
  exact hrows

theorem homeIdle {d e : Dev} (h : d.SameHomes e) {k : Nat} {txns : Map (Option Txn)} (hi : d.homeIdle k txns) : e.homeIdle k txns := by
  obtain ⟨htxns, hqueue, hclosed, hheld, hbusy, hgpf, hinject, hquiet⟩ := hi
  have hhome : e.home k = d.home k := by rw [Dev.home, h.homes]; rfl
  exact ⟨hhome ▸ htxns, hhome ▸ hqueue, hhome ▸ hclosed, hhome ▸ hheld, h.hl ▸ hbusy, h.hl ▸ hgpf, h.inject.trans hinject,
    h.homesQuiet hquiet⟩

end Dev.SameHomes

/-! ### Directory and transactions -/

/-- A directory entry written changes the directory alone. -/
theorem Dev.setEntry_eq (d : Dev) (e : DirEntry) : ∃ dir, d.setEntry e = { d with dir := dir } := by
  rw [Dev.setEntry]
  split <;> exact ⟨_, rfl⟩

theorem Dev.updSector_eq (d : Dev) (line sec : Nat) (f : DirSector → DirSector) : ∃ dir, d.updSector line sec f = { d with dir := dir } :=
  d.setEntry_eq _

theorem Dev.SameHomes.setEntry (d : Dev) (e : DirEntry) : d.SameHomes (d.setEntry e) := by
  obtain ⟨dir, h⟩ := d.setEntry_eq e
  rw [h]
  exact ⟨rfl, rfl, rfl, rfl, fun _ => .inl⟩

theorem Dev.SameHomes.updSector (d : Dev) (line sec : Nat) (f : DirSector → DirSector) : d.SameHomes (d.updSector line sec f) :=
  .setEntry d _

/-- A transaction enters or changes in its slot: the home alone changes. -/
theorem Dev.setTxn_some (d : Dev) (h slot : Nat) (t : Txn) :
    d.setTxn h slot (some t) = d.updHome h fun x => { x with txns := Map.put x.txns slot (some t) } := rfl

/-- It ends: its line's directory entry is looked at again. -/
theorem Dev.setTxn_none {d : Dev} {h slot : Nat} {t : Txn} (ht : d.txn h slot = some t) : d.setTxn h slot none =
    (d.updHome h fun x => { x with txns := Map.put x.txns slot none }).setEntry
      ((d.updHome h fun x => { x with txns := Map.put x.txns slot none }).dirEntry t.req.line) := by
  unfold Dev.setTxn
  rw [ht]

section
variable {d : Dev} {h : Nat} {txns : Map (Option Txn)} {t : Txn}

/-- An idle home stays so whatever its transactions are. -/
theorem Dev.homeIdle.updTxns (hi : d.homeIdle h txns) (f : Map (Option Txn) → Map (Option Txn)) :
    (d.updHome h fun x => { x with txns := f x.txns }).homeIdle h (f txns) := by
  obtain ⟨htxns, hqueue, hclosed, hheld, hbusy, hgpf, hinject, hrows, hnet, hsus⟩ := hi
  refine ⟨?_, ?_, ?_, ?_, hbusy, hgpf, hinject, Dev.rowsWaiting_setHome hrows (by simp [hqueue]), hnet, hsus⟩ <;> simp [*]

theorem Dev.homeIdle.setTxn (hi : d.homeIdle h txns) (slot : Nat) (t : Txn) :
    (d.setTxn h slot (some t)).homeIdle h (Map.put txns slot (some t)) :=
  hi.updTxns fun m => Map.put m slot (some t)

theorem Dev.homeIdle.quiet (hi : d.homeIdle h txns) : d.homesQuiet := hi.2.2.2.2.2.2.2

theorem Dev.homeIdle.notBusy (hi : d.homeIdle h txns) : d.hl.busy = false := hi.2.2.2.2.1

theorem Dev.homeIdle.inject (hi : d.homeIdle h txns) : d.flt.inject = 0 := hi.2.2.2.2.2.2.1

theorem Dev.homeIdle.txn (hi : d.homeIdle h [(0, some t)]) : d.txn h 0 = some t := by
  rw [Dev.txn, hi.1]; rfl

theorem Dev.homeIdle.free (hi : d.homeIdle h [(0, some t)]) : (d.setTxn h 0 none).homeIdle h [(0, none)] := by
  rw [Dev.setTxn_none hi.txn]
  exact (Dev.SameHomes.setEntry ..).homeIdle (hi.updTxns fun m => Map.put m 0 none)

theorem Dev.txn_freed (hi : d.homeIdle h [(0, none)]) : d.txn h 0 = none := by
  rw [Dev.txn, hi.1]; rfl

/-- The transaction of a line at its home. -/
theorem Dev.homeIdle.lineTxn {line : Nat} (hi : d.homeIdle (d.homeOf (lineDpa line)) [(0, some t)]) (hline : t.req.line = line) :
    d.lineTxn line = some (d.homeOf (lineDpa line), 0, t) := by
  rw [Dev.lineTxn, hi.1]
  simp [hline]

theorem Dev.homeIdle.lineBusy {line : Nat} (hi : d.homeIdle (d.homeOf (lineDpa line)) [(0, some t)]) (hline : t.req.line = line) :
    d.lineBusy line = true := by
  rw [Dev.lineBusy, hi.1]
  simpa using hline

theorem Dev.homeIdle.lineIdle {line : Nat} (hi : d.homeIdle (d.homeOf (lineDpa line)) txns) (hfree : txns = [] ∨ txns = [(0, none)]) :
    d.lineBusy line = false := by
  rw [Dev.lineBusy, hi.1]
  rcases hfree with rfl | rfl <;> rfl

/-! ### The moves of an idle home -/

/-- With one transaction that needs no entry, the home moves with it or not at all. -/
theorem Dev.homeIdle.homeMove (hi : d.homeIdle h [(0, some t)]) (hentry : t.stage ≠ .entry) : d.homeMove h =
    if t.await.isEmpty then some (match t.stage with
      | .recall => d.serve h 0 t
      | .fetch => d.deliver h 0 t
      | _ => d.setTxn h 0 none)
    else none := by
  obtain ⟨htxns, hqueue, -⟩ := hi
  have hreq : d.readyReq h = none := by rw [Dev.readyReq, Home.heads, hqueue]; rfl
  have hslot : d.readySlot h = if t.await.isEmpty then some (0, t) else none := by
    rw [Dev.readySlot, htxns]
    simp [hentry]
  rw [Dev.homeMove, hslot, hreq]
  cases t.await.isEmpty with
  | false => rfl
  | true => cases hstage : t.stage <;> simp_all

theorem Dev.homeIdle.waits (hi : d.homeIdle h [(0, some t)]) (hentry : t.stage ≠ .entry) (hawait : t.await ≠ []) : d.homeMove h = none := by
  rw [hi.homeMove hentry, if_neg (by simpa using hawait)]

theorem Dev.homeIdle.serves (hi : d.homeIdle h [(0, some t)]) (hstage : t.stage = .recall) (hawait : t.await = []) :
    d.homeMove h = some (d.serve h 0 t) := by
  rw [hi.homeMove (by rw [hstage]; decide), hawait, hstage]; rfl

theorem Dev.homeIdle.delivers (hi : d.homeIdle h [(0, some t)]) (hstage : t.stage = .fetch) (hawait : t.await = []) :
    d.homeMove h = some (d.deliver h 0 t) := by
  rw [hi.homeMove (by rw [hstage]; decide), hawait, hstage]; rfl

theorem Dev.homeIdle.closes (hi : d.homeIdle h [(0, some t)]) (hstage : t.stage = .close) (hawait : t.await = []) :
    d.homeMove h = some (d.setTxn h 0 none) := by
  rw [hi.homeMove (by rw [hstage]; decide), hawait, hstage]; rfl

/-- Without a transaction it stands. -/
theorem Dev.homeIdle.stands (hi : d.homeIdle h txns) (hfree : txns = [] ∨ txns = [(0, none)]) : d.homeMove h = none := by
  obtain ⟨htxns, hqueue, -⟩ := hi
  have hslot : d.readySlot h = none := by
    rw [Dev.readySlot, htxns]
    rcases hfree with rfl | rfl <;> rfl
  have hreq : d.readyReq h = none := by rw [Dev.readyReq, Home.heads, hqueue]; rfl
  rw [Dev.homeMove, hslot, hreq]

end

/-! ### Where the moves end -/

/-- Home h goes from d to e in n moves and then has none left. -/
inductive Dev.Settles (h : Nat) : Nat → Dev → Dev → Prop
  | done {d : Dev} : d.homeMove h = none → Settles h 0 d d
  | move {n : Nat} {d d' e : Dev} : d.homeMove h = some d' → Settles h n d' e → Settles h (n + 1) d e

theorem Dev.Settles.settleN {h n : Nat} {d e : Dev} (hs : Dev.Settles h n d e) {k : Nat} (hk : n ≤ k) : d.settleN h k = e := by
  induction hs generalizing k with
  | done hnone => cases k with
    | zero => rfl
    | succ k => rw [Dev.settleN, hnone]
  | move hsome _ ih => cases k with
    | zero => omega
    | succ k =>
      rw [Dev.settleN, hsome]
      exact ih (by omega)

/-- A home settles there, when no bias command runs. -/
theorem Dev.Settles.settle {h n : Nat} {d e : Dev} (hs : Dev.Settles h n d e) (hn : n ≤ 16) (hbusy : e.hl.busy = false) : d.settle h = e := by
  have h1 : d.settle1 h = e := hs.settleN (by omega)
  rw [Dev.settle, h1]
  simp [hbusy]

/-- A command whose home settles at rest ends there. -/
theorem Dev.Settles.homes {h n : Nat} {d e : Dev} (hs : Dev.Settles h n d e) {txns : Map (Option Txn)} (hi : e.homeIdle h txns) (s : State)
    (hn : n ≤ 16 := by decide) : s.homes (d.settle h) = .next (s.withDev e) := by
  rw [hs.settle hn hi.notBusy, State.homes, pumpHomes_quiet e hi.quiet]
  rfl

theorem State.homes_quiet {s : State} {d : Dev} (h : d.homesQuiet) : s.homes d = .next (s.withDev d) := by
  rw [State.homes, pumpHomes_quiet d h]
  rfl

end Sys2Proof.Machine
end

section
/-! A line's directory entry (R253-R256): blocks that show the same directory, and an entry written while its line is busy. -/

open Sys2Proof Sys2Proof.Machine

namespace Sys2Proof.Machine

/-! ### Blocks that show the same directory -/

/-- The same directory entries, found by the same homes. -/
structure Dev.SameDir (d e : Dev) : Prop where
  dir : e.dir = d.dir
  ilvDram : e.ilvDram = d.ilvDram
  ilvRes : e.ilvRes = d.ilvRes

namespace Dev.SameDir
variable {d e f : Dev}

theorem refl (d : Dev) : d.SameDir d := ⟨rfl, rfl, rfl⟩

theorem symm (h : d.SameDir e) : e.SameDir d := ⟨h.dir.symm, h.ilvDram.symm, h.ilvRes.symm⟩

theorem trans (h : d.SameDir e) (h' : e.SameDir f) : d.SameDir f :=
  ⟨h'.dir.trans h.dir, h'.ilvDram.trans h.ilvDram, h'.ilvRes.trans h.ilvRes⟩

/-- The block d with another's directory and interleave. -/
def withDir (d e : Dev) : Dev := { d with dir := e.dir, ilvDram := e.ilvDram, ilvRes := e.ilvRes }

theorem with_eq (h : d.SameDir e) : withDir d e = d := by
  rw [withDir, h.dir, h.ilvDram, h.ilvRes]

theorem homeOf (h : d.SameDir e) (dpa : Nat) : e.homeOf dpa = d.homeOf dpa := by
  rw [← h.with_eq]
  rfl

theorem dirWay (h : d.SameDir e) (line : Nat) : e.dirWay line = d.dirWay line := by
  rw [← h.with_eq]
  rfl

theorem dirEntry (h : d.SameDir e) (line : Nat) : e.dirEntry line = d.dirEntry line := by
  simp only [Dev.dirEntry, h.dirWay, Dev.dirAt, h.dir]

/-- An entry is written alike where its line is busy in both or in neither. -/
theorem setEntry (h : d.SameDir e) {x : DirEntry} (hbusy : e.lineBusy x.line = d.lineBusy x.line) : (d.setEntry x).SameDir (e.setEntry x) := by
  rw [Dev.setEntry, Dev.setEntry, h.dirWay, hbusy]
  split
  · exact ⟨by rw [h.dir], h.ilvDram, h.ilvRes⟩
  · exact h

end Dev.SameDir

/-! ### Entries -/

@[simp] theorem DirEntry.tidy_sector (e : DirEntry) (sec : Nat) : e.tidy.sector sec = e.sector sec := by
  rw [DirEntry.tidy]
  split <;> rfl

@[simp] theorem DirEntry.tidy_line (e : DirEntry) : e.tidy.line = e.line := by
  rw [DirEntry.tidy]
  split <;> rfl

/-- Some sector of the entry is shared. -/
def DirEntry.anyShared (e : DirEntry) : Bool := (List.range 4).any fun s => (e.sector s).ds = .S || (e.sector s).ds = .O

theorem DirEntry.tidy_shared {e : DirEntry} (h : e.anyShared = true) : e.tidy = e := if_pos h

theorem DirEntry.tidy_unshared {e : DirEntry} (h : e.anyShared = false) : e.tidy = { e with bcast := false, shr := [] } :=
  if_neg (ne_true_of_eq_false h)

theorem DirEntry.tidy_tidy (e : DirEntry) (v : Bool) : ({ e.tidy with v := v } : DirEntry).tidy = { e.tidy with v := v } := by
  cases h : e.anyShared with
  | true => rw [DirEntry.tidy_shared h]; exact DirEntry.tidy_shared h
  | false => rw [DirEntry.tidy_unshared h]; exact DirEntry.tidy_unshared h

@[simp] theorem DirEntry.used_setV (e : DirEntry) (v : Bool) : ({ e with v := v } : DirEntry).used = e.used := rfl

/-- An entry with sector sec changed by f. -/
def DirEntry.mapSec (e : DirEntry) (sec : Nat) (f : DirSector → DirSector) : DirEntry :=
  { e with sec := Map.put e.sec sec (f (e.sector sec)) }

theorem Dev.updSector_mapSec (d : Dev) (line sec : Nat) (f : DirSector → DirSector) :
    d.updSector line sec f = d.setEntry ((d.dirEntry line).mapSec sec f) := rfl

@[simp] theorem DirEntry.mapSec_line (e : DirEntry) (sec : Nat) (f : DirSector → DirSector) : (e.mapSec sec f).line = e.line := rfl

@[simp] theorem DirEntry.mapSec_sector (e : DirEntry) (sec : Nat) (f : DirSector → DirSector) : (e.mapSec sec f).sector sec = f (e.sector sec) :=
  Map.get_put_same ..

/-- A change that keeps every DS leaves the same to tidy away. -/
theorem DirEntry.tidy_mapSec_tidy (e : DirEntry) (sec : Nat) {g : DirSector → DirSector} (hg : ∀ y, (g y).ds = y.ds) (v : Bool) :
    (({ e.tidy with v := v } : DirEntry).mapSec sec g).tidy = { (e.mapSec sec g).tidy with v := v } := by
  have hds (e : DirEntry) (s : Nat) : ((e.mapSec sec g).sector s).ds = (e.sector s).ds := by
    by_cases hs : s = sec
    · rw [hs, DirEntry.mapSec_sector, hg]
    · exact congrArg DirSector.ds (Map.get_put_other _ _ _ _ _ hs)
  have hshared (e : DirEntry) : (e.mapSec sec g).anyShared = e.anyShared := by simp only [DirEntry.anyShared, hds]
  cases h : e.anyShared with
  | true => rw [DirEntry.tidy_shared h, DirEntry.tidy_shared ((hshared e).trans h)]; exact DirEntry.tidy_shared ((hshared e).trans h)
  | false => rw [DirEntry.tidy_unshared h, DirEntry.tidy_unshared ((hshared e).trans h)]; exact DirEntry.tidy_unshared ((hshared e).trans h)

section
variable (d : Dev) (line sec : Nat) (f : DirSector → DirSector)

@[simp] theorem Dev.updSector_net : (d.updSector line sec f).net = d.net := by obtain ⟨dir, h⟩ := d.updSector_eq line sec f; rw [h]

@[simp] theorem Dev.updSector_out : (d.updSector line sec f).out = d.out := by obtain ⟨dir, h⟩ := d.updSector_eq line sec f; rw [h]

@[simp] theorem Dev.updSector_coh : (d.updSector line sec f).coh = d.coh := by obtain ⟨dir, h⟩ := d.updSector_eq line sec f; rw [h]

@[simp] theorem Dev.updSector_caches : (d.updSector line sec f).caches = d.caches := by obtain ⟨dir, h⟩ := d.updSector_eq line sec f; rw [h]

@[simp] theorem Dev.updSector_cores : (d.updSector line sec f).cores = d.cores := by obtain ⟨dir, h⟩ := d.updSector_eq line sec f; rw [h]

@[simp] theorem Dev.updSector_homes : (d.updSector line sec f).homes = d.homes := by obtain ⟨dir, h⟩ := d.updSector_eq line sec f; rw [h]

@[simp] theorem Dev.updSector_hostMem : (d.updSector line sec f).hostMem = d.hostMem := by obtain ⟨dir, h⟩ := d.updSector_eq line sec f; rw [h]

end

/-! ### The way of a line -/

section
variable {d e : Dev} {line sec k : Nat}

theorem Dev.dirWay_holds (hk : d.dirWay line = some k) : (d.dirAt k).v = true ∧ (d.dirAt k).line = line := by
  simpa using List.find?_some hk

theorem Dev.dirEntry_of_way (hk : d.dirWay line = some k) : d.dirEntry line = d.dirAt k := by rw [Dev.dirEntry, hk]

@[simp] theorem Dev.dirEntry_line (d : Dev) (line : Nat) : (d.dirEntry line).line = line := by
  cases hk : d.dirWay line with
  | none => rw [Dev.dirEntry, hk]
  | some k => rw [Dev.dirEntry_of_way hk, (Dev.dirWay_holds hk).2]

section
variable (d : Dev) (h slot : Nat) (t : Txn)

@[simp] theorem Dev.setTxn_net : (d.setTxn h slot (some t)).net = d.net := rfl

@[simp] theorem Dev.setTxn_out : (d.setTxn h slot (some t)).out = d.out := rfl

@[simp] theorem Dev.setTxn_dir : (d.setTxn h slot (some t)).dir = d.dir := rfl

@[simp] theorem Dev.setTxn_caches : (d.setTxn h slot (some t)).caches = d.caches := rfl

@[simp] theorem Dev.setTxn_hostMem : (d.setTxn h slot (some t)).hostMem = d.hostMem := rfl

end

theorem Dev.updSector_congr {d : Dev} {line sec : Nat} {f g : DirSector → DirSector}
    (h : f ((d.dirEntry line).sector sec) = g ((d.dirEntry line).sector sec)) : d.updSector line sec f = d.updSector line sec g := by
  rw [Dev.updSector_mapSec, Dev.updSector_mapSec, DirEntry.mapSec, DirEntry.mapSec, h]

/-- A sector is written alike where its line is busy in both or in neither. -/
theorem Dev.SameDir.updSector {d e : Dev} (h : d.SameDir e) {line : Nat} (hbusy : e.lineBusy line = d.lineBusy line) (sec : Nat)
    (f : DirSector → DirSector) : (d.updSector line sec f).SameDir (e.updSector line sec f) := by
  rw [Dev.updSector_mapSec, Dev.updSector_mapSec, h.dirEntry]
  exact h.setEntry (by rw [DirEntry.mapSec_line, Dev.dirEntry_line, hbusy])

/-- A line whose way's entry is replaced by another of the line keeps its way. -/
theorem Dev.dirWay_put {x : DirEntry} (hk : d.dirWay line = some k) (hv : x.v = true) (hline : x.line = line) :
    ({ d with dir := Map.put d.dir k x } : Dev).dirWay line = some k ∧ ({ d with dir := Map.put d.dir k x } : Dev).dirEntry line = x := by
  have hat : ({ d with dir := Map.put d.dir k x } : Dev).dirAt k = x := Map.get_put_same ..
  have hpred (j : Nat) : ((({ d with dir := Map.put d.dir k x } : Dev).dirAt j).v &&
      decide ((({ d with dir := Map.put d.dir k x } : Dev).dirAt j).line = line)) = ((d.dirAt j).v && decide ((d.dirAt j).line = line)) := by
    by_cases hj : j = k
    · obtain ⟨hv', hline'⟩ := Dev.dirWay_holds hk
      rw [hj, hat, hv, hline, hv', hline']
    · have : ({ d with dir := Map.put d.dir k x } : Dev).dirAt j = d.dirAt j := Map.get_put_other _ _ _ _ _ hj
      rw [this]
  have hway : ({ d with dir := Map.put d.dir k x } : Dev).dirWay line = some k := by
    rw [← hk, Dev.dirWay, Dev.dirWay, funext hpred]
    rfl
  exact ⟨hway, (Dev.dirEntry_of_way hway).trans hat⟩

theorem Dev.setEntry_noWay {x : DirEntry} (hk : d.dirWay x.line = none) : d.setEntry x = d := by rw [Dev.setEntry, hk]

theorem Dev.setEntry_way {x : DirEntry} (hk : d.dirWay x.line = some k) :
    d.setEntry x = { d with dir := Map.put d.dir k { x.tidy with v := x.tidy.used || d.lineBusy x.line } } := by
  rw [Dev.setEntry, hk]

/-- An entry written while its line is busy stays, and reads as written. -/
theorem Dev.setEntry_busy {x : DirEntry} (hk : d.dirWay x.line = some k) (hbusy : d.lineBusy x.line = true) :
    d.setEntry x = { d with dir := Map.put d.dir k { x.tidy with v := true } } ∧ (d.setEntry x).dirWay x.line = some k ∧
      (d.setEntry x).dirEntry x.line = { x.tidy with v := true } := by
  have hset := Dev.setEntry_way hk
  rw [hbusy, Bool.or_true] at hset
  have hput := Dev.dirWay_put (x := { x.tidy with v := true }) hk rfl x.tidy_line
  rw [hset]
  exact ⟨rfl, hput⟩

/-- While its line is busy the sector reads as written, where the line has an entry. -/
theorem Dev.dirEntry_updSector {f : DirSector → DirSector} (hk : d.dirWay line = some k) (hbusy : d.lineBusy line = true) :
    (d.updSector line sec f).dirEntry line = { ((d.dirEntry line).mapSec sec f).tidy with v := true } := by
  have h := Dev.setEntry_busy (d := d) (k := k) (x := (d.dirEntry line).mapSec sec f) (by simpa using hk) (by simpa using hbusy)
  rw [DirEntry.mapSec_line, Dev.dirEntry_line] at h
  exact h.2.2

/-- A sector written while its line is busy, and the entry looked at again once it is not: as though written then. -/
theorem Dev.setEntry_updSector {b : Dev} {f : DirSector → DirSector} (hbusy : d.lineBusy line = true)
    (he : (d.updSector line sec f).SameDir e) (hb : d.SameDir b) (hfree : e.lineBusy line = b.lineBusy line) :
    (e.setEntry (e.dirEntry line)).dir = (b.updSector line sec f).dir := by
  rw [Dev.updSector_mapSec b, hb.dirEntry]
  cases hk : d.dirWay line with
  | none =>
    rw [Dev.updSector_mapSec, Dev.setEntry_noWay (by simpa using hk)] at he
    rw [Dev.setEntry_noWay (by simpa [he.dirWay] using hk), Dev.setEntry_noWay (by simpa [hb.dirWay] using hk), he.dir, hb.dir]
  | some k =>
    have hx : ((d.dirEntry line).mapSec sec f).line = line := by simp
    obtain ⟨hset, hway, hentry⟩ := Dev.setEntry_busy (d := d) (k := k) (x := (d.dirEntry line).mapSec sec f) (by rwa [hx]) (by rwa [hx])
    rw [← Dev.updSector_mapSec, hx] at hway hentry
    rw [← Dev.updSector_mapSec] at hset
    have hek : e.dirWay line = some k := (he.dirWay line).trans hway
    rw [he.dirEntry, hentry, Dev.setEntry_way (by simpa using hek), Dev.setEntry_way (k := k) (by simpa [hb.dirWay] using hk)]
    rw [DirEntry.tidy_tidy, DirEntry.used_setV, he.dir, hb.dir, hset]
    simp only [Map.put_put, DirEntry.tidy_line, hx, hfree]

/-- Two writes of a sector of a busy line, the second keeping DS, are one. -/
theorem Dev.updSector_updSector {f g : DirSector → DirSector} (hbusy : d.lineBusy line = true) (he : (d.updSector line sec f).SameDir e)
    (hstill : e.lineBusy line = true) (hg : ∀ y, (g y).ds = y.ds) :
    (d.updSector line sec fun y => g (f y)).SameDir (e.updSector line sec g) := by
  cases hk : d.dirWay line with
  | none =>
    rw [Dev.updSector_mapSec, Dev.setEntry_noWay (by simpa using hk)] at he
    rw [Dev.updSector_mapSec, Dev.updSector_mapSec, Dev.setEntry_noWay (by simpa using hk), Dev.setEntry_noWay (by simpa [he.dirWay] using hk)]
    exact he
  | some k =>
    have hx (q : DirSector → DirSector) : ((d.dirEntry line).mapSec sec q).line = line := by simp
    obtain ⟨hset, hway, hentry⟩ := Dev.setEntry_busy (d := d) (k := k) (x := (d.dirEntry line).mapSec sec f) (by rwa [hx]) (by rwa [hx])
    obtain ⟨hset', -, -⟩ := Dev.setEntry_busy (d := d) (k := k) (x := (d.dirEntry line).mapSec sec fun y => g (f y)) (by rwa [hx]) (by rwa [hx])
    rw [← Dev.updSector_mapSec, hx] at hway hentry
    rw [← Dev.updSector_mapSec] at hset hset'
    have hek : e.dirWay line = some k := (he.dirWay line).trans hway
    have hmap : (((d.dirEntry line).mapSec sec f).mapSec sec g) = (d.dirEntry line).mapSec sec fun y => g (f y) := by
      rw [DirEntry.mapSec, DirEntry.mapSec_sector]
      simp only [DirEntry.mapSec, Map.put_put]
    obtain ⟨hsete, -, -⟩ := Dev.setEntry_busy (d := e) (k := k) (x := (e.dirEntry line).mapSec sec g) (by simpa using hek) (by simpa using hstill)
    rw [← Dev.updSector_mapSec, he.dirEntry, hentry, DirEntry.tidy_mapSec_tidy _ _ hg, hmap, he.dir, hset, Map.put_put] at hsete
    rw [hsete, hset']
    exact ⟨rfl, he.ilvDram.trans (by rw [hset]), he.ilvRes.trans (by rw [hset])⟩

end

end Sys2Proof.Machine
end

section
/-! A request that starts at an idle home (R260-R263): what its first actions are, and the writes of the home copy, which leave the homes
as they stand. -/

open Sys2Proof Sys2Proof.Machine

namespace Sys2Proof.Machine

/-! ### Writes of the home copy leave the homes -/

namespace Dev.SameHomes

theorem setCache (d : Dev) (n : Nat) (x : Cache) : d.SameHomes (d.setCache n x) := ⟨rfl, rfl, rfl, rfl, fun _ => .inl⟩

theorem sideRemove (d : Dev) (line : Nat) : d.SameHomes (d.sideRemove line) := setCache ..

theorem queued (d : Dev) (wq : Map (List (Nat × Bool))) : d.SameHomes { d with wq := wq } := ⟨rfl, rfl, rfl, rfl, fun _ => .inl⟩

theorem putSec (d : Dev) (sector : Nat) (x : Sector) (i : SectorMeta) : d.SameHomes (d.putSec sector x i) :=
  ⟨d.putSec_homes .., d.putSec_hl .., by rw [d.putSec_flt], by rw [d.putSec_tier], fun _ h => .inl (by rwa [d.putSec_net] at h)⟩

theorem noteWrite (d : Dev) (sector : Nat) : d.SameHomes (d.noteWrite sector) := by
  unfold Dev.noteWrite
  split <;> exact ⟨rfl, rfl, rfl, rfl, fun _ => .inl⟩

theorem cacheSet (d : Dev) (n line sec : Nat) (x : CSector) : d.SameHomes (d.cacheSet n line sec x) := by
  obtain ⟨ks, h⟩ := d.cacheSet_eq n line sec x
  rw [h]
  exact ⟨rfl, rfl, rfl, rfl, fun _ => .inl⟩

theorem cacheDrop (d : Dev) (n line sec : Nat) : d.SameHomes (d.cacheDrop n line sec) := by
  obtain ⟨ks, h⟩ := d.cacheDrop_eq n line sec
  rw [h]
  exact ⟨rfl, rfl, rfl, rfl, fun _ => .inl⟩

theorem putHost (d : Dev) (hpa : Nat) (bs : List Byte) : d.SameHomes (d.putHost hpa bs) := by
  induction bs generalizing d hpa with
  | nil => exact refl d
  | cons b bs ih =>
    have hbyte : d.SameHomes { d with hostMem := Map.put d.hostMem hpa b } := ⟨rfl, rfl, rfl, rfl, fun _ => .inl⟩
    exact hbyte.trans (ih _ (hpa + 1))

theorem sliceWriteBack (d : Dev) (line sec : Nat) (x : CSector) : d.SameHomes (d.sliceWriteBack line sec x) := by
  unfold Dev.sliceWriteBack
  dsimp only
  split
  · exact ((putHost ..).trans (updSector ..)).trans (emit ..)
  · exact ((putSec ..).trans (noteWrite ..)).trans ⟨rfl, rfl, rfl, rfl, fun _ => .inl⟩

theorem sliceRelease (d : Dev) (l : CLine) : d.SameHomes (d.sliceRelease l) := by
  unfold Dev.sliceRelease
  refine foldl (fun e s => ?_) ..
  have hwritten : e.SameHomes (if (l.sector s).st = .M then e.sliceWriteBack l.line s (l.sector s)
      else if (l.sector s).st = .E && isHost (lineDpa l.line) then e.emit (.d2h .cleanEvict l.line s (l.sector s).data 0 false) else e) := by
    split_ifs
    · exact sliceWriteBack ..
    · exact emit ..
    · exact refl e
  dsimp only
  split
  · exact hwritten.trans (updSector ..)
  · exact hwritten

theorem allocWay {d : Dev} {n : Nat} (hn : n < 256) (line : Nat) : d.SameHomes (d.allocWay n line).2 := by
  unfold Dev.allocWay
  split
  · exact refl d
  · refine .trans ?_ (setCache ..)
    split_ifs
    · exact sliceRelease ..
    · exact refl d

theorem cacheFill {d : Dev} {n : Nat} (hn : n < 256) (line sec : Nat) (x : CSector) : d.SameHomes (d.cacheFill n line sec x) := by
  have halloc := allocWay (d := d) hn line
  unfold Dev.cacheFill
  split
  · exact setCache ..
  · split <;> rename_i heq <;> rw [heq] at halloc
    · exact halloc.trans (setCache ..)
    · exact halloc

end Dev.SameHomes

theorem field_lt (x lo n : Nat) : field x lo n < 2 ^ n := Nat.mod_lt _ (Nat.two_pow_pos n)

/-- There are 64 homes. -/
theorem Dev.homeOf_lt (d : Dev) (dpa : Nat) : d.homeOf dpa < 64 := by
  have h6 (x lo : Nat) : field x lo 6 < 2 ^ 6 := field_lt x lo 6
  unfold Dev.homeOf
  dsimp only
  split
  · exact Nat.xor_lt_two_pow (Nat.xor_lt_two_pow (Nat.xor_lt_two_pow (Nat.xor_lt_two_pow (Nat.xor_lt_two_pow (Nat.xor_lt_two_pow (Nat.xor_lt_two_pow
      (h6 ..) (h6 ..)) (h6 ..)) (h6 ..)) (h6 ..)) (h6 ..)) (h6 ..)) ((field_lt ..).trans (by decide))
  · split
    · have h4 (x lo : Nat) : field x lo 4 < 2 ^ 4 := field_lt x lo 4
      have hlow (u : Nat) := Nat.xor_lt_two_pow (Nat.xor_lt_two_pow (Nat.xor_lt_two_pow (Nat.xor_lt_two_pow (Nat.xor_lt_two_pow
        (h4 u 8) (h4 u 12)) (h4 u 16)) (h4 u 20)) (h4 u 24)) ((field_lt u 28 2).trans (by decide : 2 ^ 2 < 2 ^ 4))
      have hhigh := field_lt ((if isDram dpa then dpa else dpa - resDpa) % 2 ^ 32) 30 2
      have := hlow ((if isDram dpa then dpa else dpa - resDpa) % 2 ^ 32)
      omega
    · exact Nat.xor_lt_two_pow (Nat.xor_lt_two_pow (Nat.xor_lt_two_pow (h6 ..) (h6 ..)) (h6 ..)) (h6 ..)

theorem Dev.takeInject_none {d : Dev} (hinject : d.flt.inject = 0) (parts : List Nat) (checker : Nat) : d.takeInject parts checker = (0, d) := by
  rw [Dev.takeInject, hinject]
  rfl

/-- The home copy written leaves the homes, where no injection waits for the slice. -/
theorem Dev.SameHomes.homeStore {d : Dev} (hinject : d.flt.inject = 0) (line sec : Nat) (x : Sector) (i : SectorMeta) (alloc : Bool) :
    d.SameHomes (d.homeStore line sec x i alloc) := by
  have hside : d.SameHomes (d.sideRemove line) := .setCache ..
  have hn : (d.sideRemove line).sliceNo line < 256 := (Dev.homeOf_lt ..).trans (by decide)
  have hslice : d.sliceNo line < 256 := (Dev.homeOf_lt ..).trans (by decide)
  unfold Dev.homeStore
  dsimp only
  rw [Dev.takeInject_none (hside.inject.trans hinject)]
  split_ifs
  · exact hside.trans (.cacheSet ..)
  · exact (hside.trans (.cacheFill hslice ..)).trans ((Dev.SameHomes.putSec ..).trans (.noteWrite ..))
  · exact (hside.trans (.cacheFill hslice ..)).trans (.sliceWriteBack ..)
  · exact hside.trans (.cacheFill hslice ..)
  · exact hside.trans ((Dev.SameHomes.putSec ..).trans (.noteWrite ..))
  · exact hside.trans (.sliceWriteBack ..)

end Sys2Proof.Machine
end

section
/-! A home begins a request by snooping the owner of its sector, and takes evictions (R252, R260-R263). -/

open Sys2Proof Sys2Proof.Machine

namespace Sys2Proof.Machine

/-! ### The start of a request -/

/-- The block with home h's record written out as it reads. -/
def Dev.opened (d : Dev) (h : Nat) : Dev := d.setHome h (d.home h)

/-- The transaction of a request before its first action. -/
def entryTxn (m : ReqMsg) : Txn :=
  { req := m, stage := .entry, await := [], post := [], got := [], fwded := [], desc := none, suspect := false }

/-- The COMPACKs a caching core will owe (R263). -/
def Dev.compsOf (d : Dev) (m : ReqMsg) : List Await :=
  if isCore m.src && (m.kind = .rdShared || m.kind = .rdOwn || m.kind = .claim) && !d.partHeld m.src
    then (secsOf m.smask).map Await.comp else []

/-- A transaction on one sector after its first action. -/
def Txn.begun (t : Txn) (p : Plan) (comps : List Await) (sec : Nat) : Txn :=
  { t with stage := .recall, await := p.pre, post := p.post ++ comps, fwded := if p.fwd then [sec] else [] }

theorem secsOf_secMask : ∀ {sec : Nat}, sec < 4 → secsOf (secMask sec) = [sec] := by decide

/-- Request m of one sector is the next of its idle home, its checks passed and its directory entry readable. -/
structure Dev.Opens (d : Dev) (h : Nat) (m : ReqMsg) (sec : Nat) : Prop where
  idle : d.homeIdle h []
  sec_lt : sec < 4
  smask : m.smask = secMask sec
  check : d.checkSec m sec = none
  clean : ∀ k, d.dirWay m.line = some k → (d.dirAt k).err = 0

section
variable {d : Dev} {h sec : Nat} {m : ReqMsg}

theorem Dev.homeIdle.opened {txns : Map (Option Txn)} (hi : d.homeIdle h txns) : (d.opened h).homeIdle h txns := hi.updTxns id

theorem Dev.Opens.opened (ho : d.Opens h m sec) : (d.opened h).Opens h m sec :=
  ⟨ho.idle.opened, ho.sec_lt, ho.smask, ho.check, ho.clean⟩

theorem Dev.Opens.taken (ho : d.Opens h m sec) (x : Msg) : (d.taken x).Opens h m sec :=
  ⟨(Dev.SameHomes.taken d x).homeIdle ho.idle, ho.sec_lt, ho.smask, ho.check, ho.clean⟩

theorem Dev.Opens.secs (ho : d.Opens h m sec) : secsOf m.smask = [sec] := by rw [ho.smask, secsOf_secMask ho.sec_lt]

theorem Dev.Opens.dirRead (ho : d.Opens h m sec) : d.dirRead m.line = (true, d) := by
  rw [Dev.dirRead]
  cases hk : d.dirWay m.line with
  | none => rfl
  | some k => simp [ho.clean k hk]

theorem Dev.Opens.checks (ho : d.Opens h m sec) : ((secsOf m.smask).findSome? fun s => d.checkSec m s) = none := by
  simp [ho.secs, ho.check]

/-- The first slot is taken first. -/
theorem Dev.freeSlot_first (htxn : d.txn h 0 = none) : d.freeSlot h = some 0 := by
  have h0 : (d.txn h 0).isNone = true := by rw [htxn]; rfl
  rw [Dev.freeSlot, List.range_succ_eq_map]
  exact List.find?_cons_of_pos h0

theorem Dev.txn_unused (htxns : (d.home h).txns = []) (slot : Nat) : d.txn h slot = none := by rw [Dev.txn, htxns]; rfl

/-- The home's one waiting request starts. -/
theorem Dev.homeIdle.starts (hi : d.homeIdle (d.homeOf (lineDpa m.line)) []) (hkind : m.kind ≠ .updRow) :
    (d.enqueue m).homeMove (d.homeOf (lineDpa m.line)) =
      some ((d.opened (d.homeOf (lineDpa m.line))).startReq (d.homeOf (lineDpa m.line)) m) := by
  obtain ⟨htxns, hqueue, hclosed, hheld, hbusy, hgpf, -⟩ := hi
  have hhome : (d.enqueue m).home (d.homeOf (lineDpa m.line)) =
      { d.home (d.homeOf (lineDpa m.line)) with queue := [{ req := m, starved := false }] } := by
    rw [Dev.enqueue, Dev.home_updHome, hqueue]
    rfl
  have hslot : (d.enqueue m).readySlot (d.homeOf (lineDpa m.line)) = none := by rw [Dev.readySlot, hhome, htxns]; rfl
  have hfree : ((d.enqueue m).freeSlot (d.homeOf (lineDpa m.line))).isSome = true := by
    rw [Dev.freeSlot_first (Dev.txn_unused (by rw [hhome, htxns]) 0)]; rfl
  have hline : (d.enqueue m).lineBusy m.line = false ∧ (d.enqueue m).homeHeld m.line = false ∧ (d.enqueue m).d2hStopped m.line = false := by
    refine ⟨?_, ?_, ?_⟩
    · change ((d.enqueue m).home (d.homeOf (lineDpa m.line))).txns.any _ = false
      rw [hhome, htxns]; rfl
    · change ((List.range 4).any fun s => (Map.get none ((d.enqueue m).home (d.homeOf (lineDpa m.line))).held (4 * m.line + s)).isSome) = false
      rw [hhome, hheld]; rfl
    · change (decide (d.hl.gpf ≠ 0) && _) = false
      rw [hgpf]; rfl
  obtain ⟨hbusyLine, hheldLine, hstopped⟩ := hline
  have hreq : (d.enqueue m).readyReq (d.homeOf (lineDpa m.line)) = some { req := m, starved := false } := by
    rw [Dev.readyReq, hhome, Home.heads]
    simp [hkind, hbusyLine, hheldLine, hstopped, hclosed, hfree]
  have hback : ((d.enqueue m).updHome (d.homeOf (lineDpa m.line)) fun x => { x with queue := eraseFirst { req := m, starved := false } x.queue }) =
      d.opened (d.homeOf (lineDpa m.line)) := by
    rw [Dev.updHome, hhome, Dev.enqueue, Dev.updHome, Dev.setHome, Dev.setHome, Dev.opened, Dev.setHome, Map.put_put]
    simp [eraseFirst, ← hqueue]
  rw [Dev.homeMove, hslot, hreq]
  exact congrArg (fun e : Dev => some (e.startReq (d.homeOf (lineDpa m.line)) m)) hback

/-- No write of the host to a line it holds dirty. -/
def Dev.notOwned (d : Dev) (m : ReqMsg) (sec : Nat) : Prop :=
  m.src = hostAgent → m.kind = .wrFull → ((d.dirEntry m.line).sector sec).hs ≠ 2 ∧ m.mval = .I

theorem Dev.Opens.owned_false (ho : d.Opens h m sec) (howned : d.notOwned m sec) :
    (decide (m.src = hostAgent) && decide (m.kind = .wrFull) && (secsOf m.smask).all fun s => decide (((d.dirEntry m.line).sector s).hs = 2)) =
      false := by
  rw [ho.secs, Bool.and_eq_false_imp]
  intro hhost
  obtain ⟨hsrc, hkind⟩ : m.src = hostAgent ∧ m.kind = .wrFull := by simpa using hhost
  simpa using (howned hsrc hkind).1

theorem Dev.txn_setTxn (d : Dev) (h slot : Nat) (t : Txn) : (d.setTxn h slot (some t)).txn h slot = some t := by
  rw [Dev.setTxn_some, Dev.txn, Dev.home_updHome, Map.get_put_same]

/-- It begins in the first slot, where its line has the entry it needs. -/
theorem Dev.Opens.begins (ho : d.Opens h m sec) (howned : d.notOwned m sec) (hevict : m.kind ≠ .evictDirty ∧ m.kind ≠ .evictClean)
    (hentry : m.kind.tracks = true ∨ m.kind = .atomic ∧ isHost (lineDpa m.line) = true → ∃ k, d.dirWay m.line = some k) :
    d.startReq h m = d.begin h 0 (entryTxn m) := by
  have hslot := Dev.freeSlot_first (Dev.txn_unused ho.idle.1 0)
  have hinj := Dev.takeInject_none ho.idle.inject [homeSource h] 3
  have hway : ((m.kind.tracks || decide (m.kind = .atomic) && isHost (lineDpa m.line) ||
      decide (m.src = hostAgent) && decide (m.kind = .wrFull) && decide (m.mval ≠ .I)) && (d.dirWay m.line).isNone) = false := by
    rw [Bool.and_eq_false_imp]
    intro hneeds
    have hhost : (decide (m.src = hostAgent) && decide (m.kind = .wrFull) && decide (m.mval ≠ .I)) = false := by
      rw [Bool.and_eq_false_imp]
      intro hwrites
      obtain ⟨hsrc, hkind⟩ : m.src = hostAgent ∧ m.kind = .wrFull := by simpa using hwrites
      simpa using (howned hsrc hkind).2
    rw [hhost, Bool.or_false] at hneeds
    obtain ⟨k, hk⟩ := hentry (by simpa using hneeds)
    rw [hk]
    rfl
  unfold Dev.startReq
  rw [ho.dirRead]
  dsimp only
  rw [ho.checks]
  dsimp only
  rw [ho.owned_false howned, hslot]
  dsimp only
  rw [hinj]
  dsimp only
  rw [if_pos (Eq.refl 0), hway]
  simp [hevict, entryTxn]

/-- An eviction is served at once. -/
theorem Dev.Opens.evicts (ho : d.Opens h m sec) (hevict : m.kind = .evictDirty ∨ m.kind = .evictClean) : d.startReq h m = d.serveEvict m := by
  unfold Dev.startReq
  rw [ho.dirRead]
  dsimp only
  rw [ho.checks]
  dsimp only
  rw [ho.owned_false fun _ hk => by simp [hk] at hevict]
  simp [hevict]

/-- The first actions of a request of one sector that asks nothing of the host. -/
theorem Dev.begin_one {t : Txn} {slot : Nat} {p : Plan} {e : Dev} (hsec : sec < 4) (hmask : t.req.smask = secMask sec)
    (hplan : (d.setTxn h slot (some t)).planSec h slot t.req sec = (p, e)) (hbi : Await.bi sec ∉ p.pre ++ p.post) :
    d.begin h slot t = e.setTxn h slot (some (t.begun p (d.compsOf t.req) sec)) := by
  have hsecs : secsOf t.req.smask = [sec] := by rw [hmask, secsOf_secMask hsec]
  have hnone : [sec].filter (fun s => (p.pre ++ p.post).contains (Await.bi s)) = [] := by simpa using hbi
  unfold Dev.begin Dev.compsOf
  simp only [hsecs, List.foldl_cons, List.foldl_nil, hplan, List.nil_append, hnone]
  rfl

/-! ### Requests of a core -/

/-- The block as a request at its idle home finds it. -/
def Dev.arrived (d : Dev) (m : ReqMsg) : Dev := (d.taken (.req m)).opened (d.homeOf (lineDpa m.line))

theorem Dev.starts.opens (hs : d.starts m sec) : (d.arrived m).Opens (d.homeOf (lineDpa m.line)) m sec := by
  obtain ⟨hidle, hsec, hmask, -, -, -, hcheck, hclean⟩ := hs
  exact ((Dev.Opens.mk hidle hsec hmask hcheck hclean).taken _).opened

theorem Dev.acceptReq_idle {txns : Map (Option Txn)} (hi : d.homeIdle (d.homeOf (lineDpa m.line)) txns) (horder : d.reqInOrder m = true) :
    d.acceptReq m = ((d.taken (.req m)).enqueue m).settle (d.homeOf (lineDpa m.line)) := by
  obtain ⟨-, hqueue, hclosed, -⟩ := hi
  rw [Dev.acceptReq, Dev.acceptAs]
  simp [horder, hclosed, Dev.homeFull, hqueue]

theorem Dev.starts.accepts (hs : d.starts m sec) : d.acceptReq m = ((d.taken (.req m)).enqueue m).settle (d.homeOf (lineDpa m.line)) :=
  Dev.acceptReq_idle hs.1 hs.2.2.2.1

theorem Dev.starts.notHost (hs : d.starts m sec) : m.src ≠ hostAgent := by
  obtain ⟨-, -, -, -, hcore, -⟩ := hs
  intro hsrc
  rw [hsrc] at hcore
  exact absurd hcore (by decide)

theorem Dev.starts.notOwned (hs : d.starts m sec) : (d.arrived m).notOwned m sec := fun hsrc => absurd hsrc hs.notHost

/-- The home's first move with a request that arrives. -/
theorem Dev.starts.moves (hs : d.starts m sec) (hkind : m.kind ≠ .updRow) :
    ((d.taken (.req m)).enqueue m).homeMove (d.homeOf (lineDpa m.line)) = some ((d.arrived m).startReq (d.homeOf (lineDpa m.line)) m) :=
  Dev.homeIdle.starts (d := d.taken (.req m)) ((Dev.SameHomes.taken d _).homeIdle hs.1) hkind

/-- A request whose first action sends snoops waits for their answers. -/
theorem State.starts_waits {s : State} {p : Plan} {e : Dev} (hs : s.dev.starts m sec) (hkind : m.kind ≠ .updRow)
    (hevict : m.kind ≠ .evictDirty ∧ m.kind ≠ .evictClean) (hentry : ∃ k, s.dev.dirWay m.line = some k)
    (hplan : ((s.dev.arrived m).setTxn (s.dev.homeOf (lineDpa m.line)) 0 (some (entryTxn m))).planSec (s.dev.homeOf (lineDpa m.line)) 0 m sec =
      (p, e))
    (hsame : ((s.dev.arrived m).setTxn (s.dev.homeOf (lineDpa m.line)) 0 (some (entryTxn m))).SameHomes e)
    (hbi : Await.bi sec ∉ p.pre ++ p.post) (hpre : p.pre ≠ []) :
    s.homes (s.dev.acceptReq m) = .next (s.withDev
      (e.setTxn (s.dev.homeOf (lineDpa m.line)) 0 (some ((entryTxn m).begun p (s.dev.compsOf m) sec)))) := by
  have hopens := hs.opens
  have hbegin : (s.dev.arrived m).startReq (s.dev.homeOf (lineDpa m.line)) m =
      e.setTxn (s.dev.homeOf (lineDpa m.line)) 0 (some ((entryTxn m).begun p (s.dev.compsOf m) sec)) :=
    (hopens.begins hs.notOwned hevict fun _ => hentry).trans (Dev.begin_one hopens.sec_lt hopens.smask hplan hbi)
  have hidle := (hsame.homeIdle (hopens.idle.setTxn 0 (entryTxn m))).setTxn 0 ((entryTxn m).begun p (s.dev.compsOf m) sec)
  rw [hs.accepts]
  refine Dev.Settles.homes (n := 1) (.move ((hs.moves hkind).trans (congrArg some hbegin)) (.done ?_)) hidle s
  exact Dev.homeIdle.waits hidle nofun hpre

/-! ### First actions on a sector another core owns -/

/-- A home's snoop for a request. -/
def snoopMsg (kind : SnpKind) (core h slot : Nat) (m : ReqMsg) (sec : Nat) (ret : Bool) : SnpMsg :=
  { kind := kind, core := core, txid := txidOf h slot, line := m.line, sec := sec, ret := ret, req := m.src, ctx := m.ctx, origin := m.origin }

/-- The owner is asked to forward the sector (R262). -/
theorem Dev.planSec_forwards {slot o : Nat} {snp : SnpKind} (hown : d.ownedBy m.line sec o) (hsrc : m.src ≠ o)
    (hkind : (m.kind, snp) ∈ [(ReqKind.rdShared, SnpKind.fwdShared), (.rdOwn, .fwdOwned), (.claim, .fwdOwned), (.rdCurrent, .fwdCurrent)]) :
    d.planSec h slot m sec = ({ Plan.none with pre := [.fwd o sec], fwd := true }, d.send (.snp (snoopMsg snp o h slot m sec false))) := by
  obtain ⟨-, hds, howner, -, hheld⟩ := hown
  have hseen : (d.dirEntry m.line).dsFor sec m.src = .E := by simp [DirEntry.dsFor, hds, howner, Ne.symm hsrc]
  have hsnoop : d.snoop h slot snp o m.line sec false true m =
      ([if snp = .inv then .ack o sec else .fwd o sec], d.send (.snp (snoopMsg snp o h slot m sec false))) := by
    simp [Dev.snoop, hheld, snoopMsg]
  simp only [List.mem_cons, Prod.mk.injEq, List.not_mem_nil, or_false] at hkind
  obtain ⟨hk, rfl⟩ | ⟨hk, rfl⟩ | ⟨hk, rfl⟩ | ⟨hk, rfl⟩ := hkind <;> simp [Dev.planSec, hk, hseen, howner, hsnoop, hds]

/-- For a write the owner gives the sector up, with its data where asked (R262). -/
theorem Dev.planSec_recalls {slot o : Nat} {ret : Bool} (hown : d.ownedBy m.line sec o) (hhost : isHost (lineDpa m.line) = false)
    (hkind : (m.kind, ret) ∈ [(ReqKind.wrFull, false), (.wrPart, true), (.atomic, true)]) :
    d.planSec h slot m sec = ({ Plan.none with pre := [.ack o sec] },
      (d.send (.snp (snoopMsg .inv o h slot m sec ret))).updSector m.line sec fun y => { y with ds := .I, own := 0x3FF }) := by
  obtain ⟨-, hds, howner, hhs, hheld⟩ := hown
  have hsnoop : d.snoop h slot .inv o m.line sec ret true m = ([.ack o sec], d.send (.snp (snoopMsg .inv o h slot m sec ret))) := by
    simp [Dev.snoop, hheld, snoopMsg]
  have hrecall : d.recallSec h slot m m.line sec ret = ([.ack o sec],
      (d.send (.snp (snoopMsg .inv o h slot m sec ret))).updSector m.line sec fun y => { y with ds := .I, own := 0x3FF }) := by
    simp [Dev.recallSec, hds, howner, hsnoop]
  simp only [List.mem_cons, Prod.mk.injEq, List.not_mem_nil, or_false] at hkind
  obtain ⟨hk, rfl⟩ | ⟨hk, rfl⟩ | ⟨hk, rfl⟩ := hkind <;> simp [Dev.planSec, hk, hrecall, hhs, hhost, Plan.none]

/-! ### Evictions -/

/-- A home's ACK to the core that evicts (R263). -/
def evictAck (m : ReqMsg) (sec : Nat) : AnsMsg :=
  { kind := .ack, src := mgmtAgent, toCore := some m.src, txid := 0, line := m.line, sec := sec, st := .I, data := 0, info := .zero }

theorem Dev.serveEvict_dirty (hsec : sec < 4) (hmask : m.smask = secMask sec) (hsrc : m.src ≠ hostAgent) (hkind : m.kind = .evictDirty)
    (hown : d.ownedBy m.line sec m.src) : d.serveEvict m =
      ((d.homeStore m.line sec (m.payOf sec).data (m.payOf sec).info true).updSector m.line sec fun y => { y with ds := .I, own := 0x3FF }).send
        (.ans (evictAck m sec)) := by
  obtain ⟨-, hds, howner, -⟩ := hown
  have hsecs : secsOf m.smask = [sec] := by rw [hmask, secsOf_secMask hsec]
  simp [Dev.serveEvict, hsecs, hkind, hsrc, hds, howner, evictAck]

theorem Dev.serveEvict_clean (hsec : sec < 4) (hmask : m.smask = secMask sec) (hsrc : m.src ≠ hostAgent) (hkind : m.kind = .evictClean)
    (hown : d.ownedBy m.line sec m.src) : d.serveEvict m =
      (d.updSector m.line sec fun y => { y with ds := .I, own := 0x3FF }).send (.ans (evictAck m sec)) := by
  obtain ⟨-, hds, howner, -⟩ := hown
  have hsecs : secsOf m.smask = [sec] := by rw [hmask, secsOf_secMask hsec]
  simp [Dev.serveEvict, hsecs, hkind, hsrc, hds, howner, evictAck]

/-- An eviction is done with its home's first move. -/
theorem State.starts_evicts {s : State} {e : Dev} (hs : s.dev.starts m sec) (hevict : m.kind = .evictDirty ∨ m.kind = .evictClean)
    (hserve : (s.dev.arrived m).serveEvict m = e) (hsame : (s.dev.arrived m).SameHomes e) :
    s.homes (s.dev.acceptReq m) = .next (s.withDev e) := by
  have hopens := hs.opens
  have hidle := hsame.homeIdle hopens.idle
  have hkind : m.kind ≠ .updRow := by obtain hk | hk := hevict <;> rw [hk] <;> decide
  rw [hs.accepts]
  exact Dev.Settles.homes (n := 1) (.move ((hs.moves hkind).trans (congrArg some ((hopens.evicts hevict).trans hserve)))
    (.done (hidle.stands (.inl rfl)))) hidle s

end

end Sys2Proof.Machine

namespace Sys2Proof.Proofs

section
variable {s : State} {q : ReqMsg} {sec o : Nat}

/-- The home asks the owner to forward. -/
theorem request_forwards {kind : ReqKind} {c : ReqMsg → Instr} {snp : SnpKind} {keeps : Bool} (hs : s.dev.starts q sec)
    (hown : s.dev.ownedBy q.line sec o) (hsrc : q.src ≠ o) (hkind : q.kind = kind)
    (hmem : (kind, snp, keeps) ∈ [(ReqKind.rdShared, SnpKind.fwdShared, true), (.rdOwn, .fwdOwned, true), (.claim, .fwdOwned, true),
      (.rdCurrent, .fwdCurrent, false)]) (hexec : exec (c q) s = s.homes (s.dev.homeReq kind q)) :
    ∃ (e : Dev) (n : SnpMsg), exec (c q) s = .next (s.withDev e) ∧ n.kind = snp ∧ n.core = o ∧ n.line = q.line ∧
      n.sec = sec ∧ n.req = q.src ∧ e.net = (s.dev.taken (.req q)).net ++ [.snp n] ∧ e.dir = s.dev.dir ∧
      e.txn (s.dev.homeOf (lineDpa q.line)) 0 =
        some { req := q, stage := .recall, await := [.fwd o sec], post := if keeps then [.comp sec] else []
               got := [], fwded := [sec], desc := none, suspect := false } := by
  obtain ⟨-, hsec, hmask, -, hcore, hheld, -⟩ := id hs
  have hpost : s.dev.compsOf q = if keeps then [Await.comp sec] else [] := by
    simp only [List.mem_cons, Prod.mk.injEq, List.not_mem_nil, or_false] at hmem
    obtain ⟨rfl, -, rfl⟩ | ⟨rfl, -, rfl⟩ | ⟨rfl, -, rfl⟩ | ⟨rfl, -, rfl⟩ := hmem <;>
      simp [Dev.compsOf, hkind, hcore, hheld, hmask, secsOf_secMask hsec]
  have hkinds : q.kind ≠ .updRow ∧ q.kind ≠ .evictDirty ∧ q.kind ≠ .evictClean ∧
      (q.kind, snp) ∈ [(ReqKind.rdShared, SnpKind.fwdShared), (.rdOwn, .fwdOwned), (.claim, .fwdOwned), (.rdCurrent, .fwdCurrent)] := by
    simp only [List.mem_cons, Prod.mk.injEq, List.not_mem_nil, or_false] at hmem
    obtain ⟨rfl, rfl, -⟩ | ⟨rfl, rfl, -⟩ | ⟨rfl, rfl, -⟩ | ⟨rfl, rfl, -⟩ := hmem <;> simp [hkind]
  obtain ⟨hrow, hdirty, hclean, hpair⟩ := hkinds
  have hown' : ((s.dev.arrived q).setTxn (s.dev.homeOf (lineDpa q.line)) 0 (some (entryTxn q))).ownedBy q.line sec o := hown
  have hrun := State.starts_waits hs hrow ⟨hdirty, hclean⟩ hown.1 (Dev.planSec_forwards hown' hsrc hpair)
    (.send_snp ..) (by simp [Plan.none]) (by simp)
  rw [hexec, Dev.homeReq, ← hkind]
  refine ⟨_, snoopMsg snp o (s.dev.homeOf (lineDpa q.line)) 0 q sec false, hrun, rfl, rfl, rfl, rfl, rfl, rfl, rfl, ?_⟩
  rw [Dev.txn_setTxn, hpost]
  rfl

/-- The home asks the owner to give the sector up. -/
theorem request_recalls {kind : ReqKind} {c : ReqMsg → Instr} {ret : Bool} (hs : s.dev.starts q sec) (hown : s.dev.ownedBy q.line sec o)
    (hhost : isHost (lineDpa q.line) = false) (hkind : q.kind = kind)
    (hmem : (kind, ret) ∈ [(ReqKind.wrFull, false), (.wrPart, true), (.atomic, true)])
    (hexec : exec (c q) s = s.homes (s.dev.homeReq kind q)) :
    ∃ (e : Dev) (n : SnpMsg), exec (c q) s = .next (s.withDev e) ∧ n.kind = .inv ∧ n.core = o ∧ n.line = q.line ∧ n.sec = sec ∧
      n.ret = ret ∧ e.net = (s.dev.taken (.req q)).net ++ [.snp n] ∧
      let t : Txn := { req := q, stage := .recall, await := [.ack o sec], post := [], got := [], fwded := [], desc := none, suspect := false }
      e.txn (s.dev.homeOf (lineDpa q.line)) 0 = some t ∧
        e.dir = ((s.dev.setTxn (s.dev.homeOf (lineDpa q.line)) 0 (some t)).updSector q.line sec fun y => { y with ds := .I, own := 0x3FF }).dir := by
  have hkinds : q.kind ≠ .updRow ∧ q.kind ≠ .evictDirty ∧ q.kind ≠ .evictClean ∧ s.dev.compsOf q = [] := by
    simp only [List.mem_cons, Prod.mk.injEq, List.not_mem_nil, or_false] at hmem
    obtain ⟨rfl, -⟩ | ⟨rfl, -⟩ | ⟨rfl, -⟩ := hmem <;> simp [Dev.compsOf, hkind]
  obtain ⟨hrow, hdirty, hclean, hcomps⟩ := hkinds
  have hown' : ((s.dev.arrived q).setTxn (s.dev.homeOf (lineDpa q.line)) 0 (some (entryTxn q))).ownedBy q.line sec o := hown
  have hrun := State.starts_waits hs hrow ⟨hdirty, hclean⟩ hown.1 (Dev.planSec_recalls hown' hhost (by rwa [hkind]))
    ((Dev.SameHomes.send_snp ..).trans (.updSector ..)) (by simp [Plan.none]) (by simp)
  rw [hexec, Dev.homeReq, ← hkind]
  refine ⟨_, snoopMsg .inv o (s.dev.homeOf (lineDpa q.line)) 0 q sec ret, hrun, rfl, rfl, rfl, rfl, rfl, ?_, ?_, ?_⟩
  · rw [Dev.setTxn_net, Dev.updSector_net]
    rfl
  · rw [Dev.txn_setTxn, hcomps]
    rfl
  · have hsent := (Dev.SameHomes.send_snp _ (snoopMsg .inv o (s.dev.homeOf (lineDpa q.line)) 0 q sec ret)).homeIdle
      (hs.opens.idle.setTxn 0 (entryTxn q))
    have hidle := hs.1.setTxn 0 { entryTxn q with stage := .recall, await := [.ack o sec] }
    have hsame : (s.dev.setTxn (s.dev.homeOf (lineDpa q.line)) 0 (some { entryTxn q with stage := .recall, await := [.ack o sec] })).SameDir
        (((s.dev.arrived q).setTxn (s.dev.homeOf (lineDpa q.line)) 0 (some (entryTxn q))).send
          (.snp (snoopMsg .inv o (s.dev.homeOf (lineDpa q.line)) 0 q sec ret))) := ⟨rfl, rfl, rfl⟩
    have hbusy := (hsent.lineBusy (line := q.line) rfl).trans (hidle.lineBusy (line := q.line) rfl).symm
    rw [Dev.setTxn_dir]
    exact (hsame.updSector hbusy sec fun y => { y with ds := .I, own := 0x3FF }).dir

/-- An eviction of the owner is answered. -/
theorem request_evicts (hs : s.dev.starts q sec) (hown : s.dev.ownedBy q.line sec q.src) :
    (q.kind = .evictDirty → ∃ d1 : Dev, (s.dev.taken (.req q)).sameBut d1 ∧ exec (.evictdirty q) s = .next (s.withDev
      (((d1.homeStore q.line sec (q.payOf sec).data (q.payOf sec).info true).updSector q.line sec fun y =>
        { y with ds := .I, own := 0x3FF }).send (.ans (evictAck q sec))))) ∧
    (q.kind = .evictClean → ∃ d1 : Dev, (s.dev.taken (.req q)).sameBut d1 ∧ exec (.evictclean q) s = .next (s.withDev
      ((d1.updSector q.line sec fun y => { y with ds := .I, own := 0x3FF }).send (.ans (evictAck q sec))))) := by
  obtain ⟨-, hsec, hmask, -⟩ := id hs
  have hown' : (s.dev.arrived q).ownedBy q.line sec q.src := hown
  refine ⟨fun hkind => ⟨s.dev.arrived q, rfl, ?_⟩, fun hkind => ⟨s.dev.arrived q, rfl, ?_⟩⟩
  · have hrun := State.starts_evicts hs (.inl hkind) (Dev.serveEvict_dirty hsec hmask hs.notHost hkind hown')
      ((Dev.SameHomes.homeStore hs.opens.idle.inject ..).trans ((Dev.SameHomes.updSector ..).trans (.send_ans ..)))
    rw [← hrun]
    exact congrArg (fun k => s.homes (s.dev.acceptReq { q with kind := k })) hkind.symm
  · have hrun := State.starts_evicts hs (.inr hkind) (Dev.serveEvict_clean hsec hmask hs.notHost hkind hown')
      ((Dev.SameHomes.updSector ..).trans (.send_ans ..))
    rw [← hrun]
    exact congrArg (fun k => s.homes (s.dev.acceptReq { q with kind := k })) hkind.symm

end

/-- Settles O30: the first move of the idle home is the request's first action on its sector, which asks the owner and waits; an
eviction is served whole in that move. -/
theorem homeRequests : Obligations.HomeRequests := by
  unfold Obligations.HomeRequests
  refine ⟨fun s q sec o => ?_, fun s q sec => request_evicts⟩
  intro d h d0 hs hown hsrc
  refine ⟨fun p hp => ?_, fun p hp => ?_⟩
  · simp only [List.mem_cons, List.not_mem_nil, or_false] at hp
    obtain rfl | rfl | rfl | rfl := hp <;> exact fun hkind => request_forwards hs hown hsrc hkind (by decide) rfl
  · simp only [List.mem_cons, List.not_mem_nil, or_false] at hp
    obtain rfl | rfl | rfl := hp <;> exact fun hkind hhost => request_recalls hs hown hhost hkind (by decide) rfl

end Sys2Proof.Proofs
end

section
/-! Answers that reach a home (R260, R262, R263): what the line's transaction takes from each, and what the last one lets it do. -/

open Sys2Proof Sys2Proof.Machine

namespace Sys2Proof.Machine

/-! ### The home copy in memory -/

theorem isHost_of_isTier {dpa : Nat} (h : isTier dpa = true) : isHost dpa = false := by
  have hbound : dpa < 0x380000000000 := by
    rcases Bool.or_eq_true .. ▸ h with hdram | hres
    · exact (of_decide_eq_true hdram).trans (by norm_num)
    · exact of_decide_eq_true (Bool.and_eq_true .. ▸ hres).2
  have hnot : ¬hostDpa ≤ dpa := by
    unfold hostDpa
    omega
  rw [isHost, decide_eq_false hnot, Bool.false_and]

section
variable {d : Dev} {line sec : Nat}

/-- A write to the resistive tier queues its block and changes nothing else. -/
theorem Dev.noteWrite_eq (d : Dev) (sector : Nat) : ∃ wq, d.noteWrite sector = { d with wq := wq } := by
  unfold Dev.noteWrite
  split <;> exact ⟨_, rfl⟩

theorem Dev.waySec_sideRemove (d : Dev) (line l sec : Nat) : (d.sideRemove line).waySec (d.sliceNo line) l sec = d.waySec (d.sliceNo line) l sec := by
  simp only [Dev.waySec, Dev.findWay, Dev.wayLine, Dev.sideRemove, Dev.cache_updCache]
  rfl

/-- A home copy absent from the slice's ways is written to memory. -/
theorem Dev.homeStore_memory (hinject : d.flt.inject = 0) (hway : (d.waySec (d.sliceNo line) line sec).st = .I)
    (htier : isTier (lineDpa line) = true) (x : Sector) (i : SectorMeta) : ∃ wq,
    d.homeStore line sec x i false = { (d.sideRemove line).putSec (4 * line + sec) x i with wq := wq } := by
  obtain ⟨wq, hnote⟩ := ((d.sideRemove line).putSec (4 * line + sec) x i).noteWrite_eq (4 * line + sec)
  refine ⟨wq, ?_⟩
  rw [← hnote]
  unfold Dev.homeStore
  dsimp only
  rw [Dev.takeInject_none (d := d.sideRemove line) hinject]
  simp [Dev.waySec_sideRemove, hway, htier]

end

/-! ### An answer and its transaction -/

section
variable {d : Dev} {line : Nat} {t : Txn} {a : Await} {f : Nat → Nat → Txn → Dev → Txn × Dev}

theorem Dev.answer_dropped (hline : d.lineTxn line = none) : d.answer line a f = d := by rw [Dev.answer, hline]

theorem Dev.answer_taken (hi : d.homeIdle (d.homeOf (lineDpa line)) [(0, some t)]) (hline : t.req.line = line) (hwaits : t.waits a = true) :
    d.answer line a f = ((f (d.homeOf (lineDpa line)) 0 (t.got1 a) d).2.setTxn (d.homeOf (lineDpa line)) 0
      (some (f (d.homeOf (lineDpa line)) 0 (t.got1 a) d).1)).settle (d.homeOf (lineDpa line)) := by
  rw [Dev.answer, hi.lineTxn hline]
  exact if_pos hwaits

end

section
variable {s : State} {d e : Dev} {line : Nat} {t t' : Txn} {a : Await} {f : Nat → Nat → Txn → Dev → Txn × Dev}

/-- An answer lets its home go on to where it settles. -/
theorem State.answer_settles {n : Nat} {e' : Dev} {txns : Map (Option Txn)} (hi : d.homeIdle (d.homeOf (lineDpa line)) [(0, some t)])
    (hline : t.req.line = line) (hwaits : t.waits a = true) (hf : f (d.homeOf (lineDpa line)) 0 (t.got1 a) d = (t', e))
    (hs : Dev.Settles (d.homeOf (lineDpa line)) n (e.setTxn (d.homeOf (lineDpa line)) 0 (some t')) e')
    (hi' : e'.homeIdle (d.homeOf (lineDpa line)) txns) (hn : n ≤ 16 := by decide) : s.homes (d.answer line a f) = .next (s.withDev e') := by
  rw [Dev.answer_taken hi hline hwaits, hf]
  exact hs.homes hi' s hn

/-- One of several answers is taken. -/
theorem State.answer_waits (hi : d.homeIdle (d.homeOf (lineDpa line)) [(0, some t)]) (hline : t.req.line = line) (hwaits : t.waits a = true)
    (hf : f (d.homeOf (lineDpa line)) 0 (t.got1 a) d = (t', e)) (hsame : d.SameHomes e) (hstage : t'.stage ≠ .entry) (hawait : t'.await ≠ []) :
    s.homes (d.answer line a f) = .next (s.withDev (e.setTxn (d.homeOf (lineDpa line)) 0 (some t'))) := by
  have hidle := (hsame.homeIdle hi).setTxn 0 t'
  exact State.answer_settles (n := 0) hi hline hwaits hf (.done (hidle.waits hstage hawait)) hidle

end

end Sys2Proof.Machine
end

section
/-! The answers of O32: every answer a transaction waits for, the last of them, and the one that ends an eviction. -/

open Sys2Proof Sys2Proof.Machine

namespace Sys2Proof.Machine

/-! ### What a home does when nothing more is awaited -/

section
variable {d : Dev} {h slot sec : Nat} {t : Txn}

/-- The sectors of a transaction that the home itself serves. -/
def Txn.served (t : Txn) : List Nat := (secsOf t.req.smask).filter fun s => !t.fwded.contains s

theorem Txn.served_one (hsec : sec < 4) (hmask : t.req.smask = secMask sec) (hfwded : t.fwded = []) : t.served = [sec] := by
  simp [Txn.served, hmask, secsOf_secMask hsec, hfwded]

theorem Txn.served_forwarded (hsec : sec < 4) (hmask : t.req.smask = secMask sec) (hfwded : t.fwded = [sec]) : t.served = [] := by
  simp [Txn.served, hmask, secsOf_secMask hsec, hfwded]

/-- A read asks for the sectors it serves. -/
theorem Dev.serve_reads (hkind : t.req.kind = .rdShared ∨ t.req.kind = .rdOwn ∨ t.req.kind = .rdCurrent) :
    d.serve h slot t = (d.fetchSecs h slot t t.served).2.setTxn h slot
      (some { t with stage := .fetch, await := (d.fetchSecs h slot t t.served).1 }) := by
  unfold Dev.serve
  dsimp only
  obtain hk | hk | hk := hkind <;> rw [hk] <;> rfl

/-- A read delivers them. -/
theorem Dev.deliver_reads (hkind : t.req.kind = .rdShared ∨ t.req.kind = .rdOwn ∨ t.req.kind = .claim ∨ t.req.kind = .rdCurrent) :
    d.deliver h slot t = (t.served.foldl (fun e s => e.giveSec h slot t s) d).setTxn h slot
      (some { t with stage := .close, await := t.post, post := [] }) := by
  unfold Dev.deliver
  dsimp only
  obtain hk | hk | hk | hk := hkind <;> rw [hk] <;> rfl

/-- A home's read of a sector from its controller. -/
def fetchMsg (h slot : Nat) (m : ReqMsg) (sec : Nat) : MemMsg :=
  { kind := .rd, txid := txidOf h slot, line := m.line, sec := sec, data := 0, info := .zero, req := some { m with upd := none }, old := 0
    refused := none }

theorem Dev.txnData_absent (hgot : t.got = []) (habsent : (d.cacheSec (d.sliceNo t.req.line) t.req.line sec).st = .I) :
    d.txnData t sec = (none, d) := by
  rw [Dev.txnData, hgot]
  simp [Dev.sliceRead, habsent]

/-- A sector absent from the slice is asked of its controller. -/
theorem Dev.fetchSecs_absent (hdata : d.txnData t sec = (none, d)) (hhost : isHost (lineDpa t.req.line) = false) :
    d.fetchSecs h slot t [sec] =
      ([.mem sec], ({ d with coh := { d.coh with misses := d.coh.misses + 1 } } : Dev).send (.mem (fetchMsg h slot t.req sec))) := by
  simp only [Dev.fetchSecs, List.foldl_cons, List.foldl_nil, hdata, hhost, Bool.false_eq_true, if_false]
  rfl

/-- A home's write of a sector at its controller. -/
def storeMsg (h slot : Nat) (m : ReqMsg) (sec : Nat) : MemMsg :=
  { kind := .wr, txid := txidOf h slot, line := m.line, sec := sec, data := (m.payOf sec).data, info := (m.payOf sec).info, req := some m, old := 0
    refused := none }

/-- A write of a sector absent from the slice goes on to memory. -/
theorem Dev.serve_writes (hsec : sec < 4) (hmask : t.req.smask = secMask sec) (hkind : t.req.kind = .wrFull) (hfwded : t.fwded = [])
    (hsrc : t.req.src ≠ hostAgent) (habsent : (d.waySec (d.sliceNo t.req.line) t.req.line sec).st = .I)
    (hhost : isHost (lineDpa t.req.line) = false) :
    d.serve h slot t = ((d.sideRemove t.req.line).send (.mem (storeMsg h slot t.req sec))).setTxn h slot
      (some { t with stage := .fetch, await := [.cmp sec] }) := by
  have hserved : (secsOf t.req.smask).filter (fun s => !t.fwded.contains s) = [sec] := Txn.served_one hsec hmask hfwded
  have htrigger : d.mailboxTrigger t.req = d := by simp [Dev.mailboxTrigger, hsrc]
  have hway : ((d.sideRemove t.req.line).waySec ((d.sideRemove t.req.line).sliceNo t.req.line) t.req.line sec).st = .I :=
    (congrArg CSector.st (d.waySec_sideRemove ..)).trans habsent
  have hwrite : d.writeSec h slot t.req sec = ([.cmp sec], (d.sideRemove t.req.line).send (.mem (storeMsg h slot t.req sec))) := by
    simp [Dev.writeSec, hhost, hway, storeMsg]
  unfold Dev.serve
  dsimp only
  rw [hkind]
  dsimp only
  rw [hserved, htrigger, List.foldl_cons, List.foldl_nil, hwrite]
  rfl

end

/-! ### The directory after a forward -/

section
variable {d e : Dev} {m : AnsMsg} {q : ReqMsg}

/-- The directory names the requester that a forward made the owner (Table 8.6). -/
theorem Dev.fwdEntry_owned (hkind : q.kind = .rdOwn ∨ q.kind = .claim) (hsrc : q.src ≠ hostAgent) (hpoison : m.info.poison = false) :
    d.fwdEntry q m = d.updSector m.line m.sec fun y => { y with ds := .E, own := q.src } := by
  obtain hk | hk := hkind <;> simp [Dev.fwdEntry, hk, hsrc, hpoison]

/-- An owner that had nothing to forward is gone from the directory, alike where the directory is. -/
theorem Dev.SameDir.ownerGone (h : d.SameDir e) {line : Nat} (hbusy : e.lineBusy line = d.lineBusy line) (sec own : Nat) :
    (e.ownerGone line sec own).dir = (d.ownerGone line sec own).dir := by
  unfold Dev.ownerGone
  dsimp only
  rw [h.dirEntry]
  exact (h.updSector hbusy ..).dir

theorem Dev.ownerGone_fwdMiss (d : Dev) (line sec own : Nat) : (d.ownerGone line sec own).coh.fwdMiss = d.coh.fwdMiss + 1 := by
  unfold Dev.ownerGone
  dsimp only
  rw [Dev.updSector_coh]

theorem Dev.ownerGone_eq (d : Dev) (line sec own : Nat) : ∃ dir coh, d.ownerGone line sec own = { d with dir := dir, coh := coh } := by
  unfold Dev.ownerGone
  dsimp only
  obtain ⟨dir, hdir⟩ := d.updSector_eq line sec fun y => { y with
    ds := if (decide (((d.dirEntry line).sector sec).ds = .O) && ((d.dirEntry line).bcast || !((d.dirEntry line).sharers [own]).isEmpty)) then .S else .I
    own := 0x3FF }
  rw [hdir]
  exact ⟨_, _, rfl⟩

@[simp] theorem Dev.ownerGone_net (d : Dev) (line sec own : Nat) : (d.ownerGone line sec own).net = d.net := by
  obtain ⟨dir, coh, h⟩ := d.ownerGone_eq line sec own
  rw [h]

theorem Dev.SameHomes.ownerGone (d : Dev) (line sec own : Nat) : d.SameHomes (d.ownerGone line sec own) := by
  obtain ⟨dir, coh, h⟩ := d.ownerGone_eq line sec own
  rw [h]
  exact ⟨rfl, rfl, rfl, rfl, fun _ => .inl⟩

theorem Dev.cacheSec_ownerGone (d : Dev) (line sec own n l k : Nat) : (d.ownerGone line sec own).cacheSec n l k = d.cacheSec n l k := by
  obtain ⟨dir, coh, h⟩ := d.ownerGone_eq line sec own
  rw [h]
  rfl

end

/-! ### The commands -/

section
variable {s : State} {m : AnsMsg}

theorem taken_idle {x : Msg} {h : Nat} {txns : Map (Option Txn)} (hi : s.dev.homeIdle h txns) : (s.dev.taken x).homeIdle h txns :=
  (Dev.SameHomes.taken _ _).homeIdle hi

theorem AnsMsg.withKind {k : AnsKind} (h : m.kind = k) : { m with kind := k } = m := by rw [← h]

theorem exec_ack (hk : m.kind = .ack) (hto : m.toCore = none) : exec (.ack m) s =
    s.homes ((s.dev.taken (.ans m)).answer m.line (.ack m.src m.sec) fun _ _ t e => (t, e)) := by
  refine (congrArg (fun x => s.homes (s.dev.homeAck x false)) (AnsMsg.withKind hk)).trans ?_
  rw [Dev.homeAck, hto]
  rfl

theorem exec_ackdata (hk : m.kind = .ackData) (hto : m.toCore = none) : exec (.ackdata m) s =
    s.homes ((s.dev.taken (.ans m)).answer m.line (.ack m.src m.sec) fun _ _ t e => e.takeDirty t m) := by
  refine (congrArg (fun x => s.homes (s.dev.homeAck x true)) (AnsMsg.withKind hk)).trans ?_
  rw [Dev.homeAck, hto]
  rfl

/-- FWDDONE takes its effect once no data of the same owner is on its way. -/
theorem exec_fwddone (hk : m.kind = .fwdDone) (howed : s.dev.dataOwed m.line m.sec = false) : exec (.fwddone m) s =
    s.homes ((s.dev.taken (.ans m)).answer m.line (.fwd m.src m.sec) fun _ _ t e =>
      (if m.info.poison then t.got1 (.comp m.sec) else t, e.fwdEntry t.req m)) := by
  refine (congrArg (fun x => s.homes (s.dev.homeFwdDone x)) (AnsMsg.withKind hk)).trans ?_
  rw [Dev.homeFwdDone, howed]
  rfl

theorem exec_fwdmiss (hk : m.kind = .fwdMiss) : exec (.fwdmiss m) s =
    s.homes ((s.dev.taken (.ans m)).answer m.line (.fwd m.src m.sec) fun h _ t e =>
      ({ t with fwded := t.fwded.filter (· ≠ m.sec) },
        if e.partHeld m.src then e.isoLose h m.src m.line m.sec else e.ownerGone m.line m.sec m.src)) :=
  congrArg (fun x => s.homes (s.dev.homeFwdMiss x)) (AnsMsg.withKind hk)

theorem exec_compack (hk : m.kind = .compAck) : exec (.compack m) s =
    s.homes ((s.dev.taken (.ans m)).answer m.line (.comp m.sec) fun _ _ t e => (t, e)) :=
  congrArg (fun x => s.homes (s.dev.homeCompAck x)) (AnsMsg.withKind hk)

end

end Sys2Proof.Machine

namespace Sys2Proof.Proofs

section
variable {s : State} {m : AnsMsg} {t : Txn}

/-- An answer that no transaction waits for is dropped. -/
theorem answers_dropped (hquiet : s.dev.homesQuiet) (hto : m.toCore = none) (hline : s.dev.lineTxn m.line = none)
    (howed : s.dev.dataOwed m.line m.sec = false) :
    ∀ p ∈ ([(.ack, .ack), (.ackData, .ackdata), (.fwdDone, .fwddone), (.fwdMiss, .fwdmiss), (.compAck, .compack)] :
      List (AnsKind × (AnsMsg → Instr))), m.kind = p.1 → exec (p.2 m) s = .next (s.withDev (s.dev.taken (.ans m))) := by
  have hdropped {a : Await} {f : Nat → Nat → Txn → Dev → Txn × Dev} :
      s.homes ((s.dev.taken (.ans m)).answer m.line a f) = .next (s.withDev (s.dev.taken (.ans m))) := by
    rw [Dev.answer_dropped (d := s.dev.taken (.ans m)) hline]
    exact State.homes_quiet ((Dev.SameHomes.taken ..).homesQuiet hquiet)
  intro p hp
  simp only [List.mem_cons, List.not_mem_nil, or_false] at hp
  obtain rfl | rfl | rfl | rfl | rfl := hp
  · exact fun hk => (exec_ack hk hto).trans hdropped
  · exact fun hk => (exec_ackdata hk hto).trans hdropped
  · exact fun hk => (exec_fwddone hk howed).trans hdropped
  · exact fun hk => (exec_fwdmiss hk).trans hdropped
  · exact fun hk => (exec_compack hk).trans hdropped

variable (hi : s.dev.homeIdle (s.dev.homeOf (lineDpa m.line)) [(0, some t)]) (hline : t.req.line = m.line)
include hi hline

/-! ### One of several answers -/

theorem ack_awaited (hto : m.toCore = none) (hk : m.kind = .ack) (hw : t.waitsOn (.ack m.src m.sec)) :
    exec (.ack m) s = .next (s.withDev
      ((s.dev.taken (.ans m)).setTxn (s.dev.homeOf (lineDpa m.line)) 0 (some (t.got1 (.ack m.src m.sec))))) := by
  obtain ⟨hwaits, hmore, hstage⟩ := hw
  rw [exec_ack hk hto]
  exact State.answer_waits (taken_idle hi) hline hwaits rfl (.refl _) hstage hmore

theorem compack_awaited (hk : m.kind = .compAck) (hw : t.waitsOn (.comp m.sec)) :
    exec (.compack m) s = .next (s.withDev
      ((s.dev.taken (.ans m)).setTxn (s.dev.homeOf (lineDpa m.line)) 0 (some (t.got1 (.comp m.sec))))) := by
  obtain ⟨hwaits, hmore, hstage⟩ := hw
  rw [exec_compack hk]
  exact State.answer_waits (taken_idle hi) hline hwaits rfl (.refl _) hstage hmore

/-- The transaction with the data an owner gave up. -/
def withDirty (t : Txn) (m : AnsMsg) : Txn := { t with got := { sec := m.sec, data := m.data, info := m.info } :: t.got }

omit hi hline in
/-- Dirty data of a sector that the slice has not goes to memory. -/
theorem takeDirty_memory {d : Dev} (hinject : d.flt.inject = 0) (htier : isTier (lineDpa m.line) = true)
    (hway : (d.waySec (d.sliceNo m.line) m.line m.sec).st = .I) (hkinds : t.req.kind ≠ .atomic ∧ t.req.kind ≠ .snpInv ∧ t.req.kind ≠ .snpData) :
    ∃ wq, d.takeDirty t m =
      (withDirty t m, { (d.sideRemove m.line).putSec (4 * m.line + m.sec) m.data m.info with wq := wq }) := by
  obtain ⟨hatomic, hinv, hdata⟩ := hkinds
  obtain ⟨wq, hstore⟩ := Dev.homeStore_memory hinject hway htier m.data m.info
  refine ⟨wq, ?_⟩
  rw [← hstore]
  simp [Dev.takeDirty, withDirty, hatomic, hinv, hdata]

theorem ackdata_awaited (hto : m.toCore = none) (hk : m.kind = .ackData) (hw : t.waitsOn (.ack m.src m.sec)) (htier : isTier (lineDpa m.line) = true)
    (hway : (s.dev.waySec (s.dev.sliceNo m.line) m.line m.sec).st = .I)
    (hkinds : t.req.kind ≠ .atomic ∧ t.req.kind ≠ .snpInv ∧ t.req.kind ≠ .snpData) :
    ∃ e : Dev, exec (.ackdata m) s = .next (s.withDev e) ∧ e.net = (s.dev.taken (.ans m)).net ∧ e.dir = s.dev.dir ∧
      e.mem = Mem.writeBytes s.dev.mem (64 * (4 * m.line + m.sec)) (Sector.bytes m.data) ∧
      e.txn (s.dev.homeOf (lineDpa m.line)) 0 = some (withDirty (t.got1 (.ack m.src m.sec)) m) := by
  obtain ⟨hwaits, hmore, hstage⟩ := hw
  obtain ⟨wq, htake⟩ := takeDirty_memory (t := t.got1 (.ack m.src m.sec)) (d := s.dev.taken (.ans m)) hi.inject htier hway hkinds
  have hstored := Dev.SameHomes.putSec ((s.dev.taken (.ans m)).sideRemove m.line) (4 * m.line + m.sec) m.data m.info
  have hsame := ((Dev.SameHomes.sideRemove (s.dev.taken (.ans m)) m.line).trans hstored).trans (.queued _ wq)
  rw [exec_ackdata hk hto]
  refine ⟨_, State.answer_waits (taken_idle hi) hline hwaits htake hsame hstage hmore, ?_, ?_, ?_, Dev.txn_setTxn ..⟩
  · rfl
  · rfl
  · have hmem : (((s.dev.taken (.ans m)).sideRemove m.line).putSec (4 * m.line + m.sec) m.data m.info).mem =
        Mem.writeBytes s.dev.mem (64 * (4 * m.line + m.sec)) (Sector.bytes m.data) := by
      rw [Dev.putSec_mem, Dev.sideRemove_mem, Dev.taken_mem]
    rw [Dev.setTxn_mem, ← hmem]

theorem fwddone_awaited (hk : m.kind = .fwdDone) (hw : t.waitsOn (.fwd m.src m.sec)) (hkind : t.req.kind = .rdOwn ∨ t.req.kind = .claim)
    (hsrc : t.req.src ≠ hostAgent) (hpoison : m.info.poison = false) (howed : s.dev.dataOwed m.line m.sec = false) :
    ∃ e : Dev, exec (.fwddone m) s = .next (s.withDev e) ∧ e.net = (s.dev.taken (.ans m)).net ∧
      e.dir = (s.dev.updSector m.line m.sec fun y => { y with ds := .E, own := t.req.src }).dir ∧
      e.txn (s.dev.homeOf (lineDpa m.line)) 0 = some (t.got1 (.fwd m.src m.sec)) := by
  obtain ⟨hwaits, hmore, hstage⟩ := hw
  have hentry := Dev.fwdEntry_owned (d := s.dev.taken (.ans m)) (q := t.req) hkind hsrc hpoison
  have hdir : s.dev.SameDir (s.dev.taken (.ans m)) := ⟨rfl, rfl, rfl⟩
  rw [exec_fwddone hk howed]
  refine ⟨_, State.answer_waits (taken_idle hi) hline hwaits (congrArg₂ Prod.mk (if_neg (by simp [hpoison])) hentry) (.updSector ..) hstage hmore,
    ?_, ?_, Dev.txn_setTxn ..⟩
  · rw [Dev.setTxn_net, Dev.updSector_net]
  · rw [Dev.setTxn_dir]
    exact (hdir.updSector rfl ..).dir

theorem fwdmiss_awaited (hk : m.kind = .fwdMiss) (hw : t.waitsOn (.fwd m.src m.sec)) (hheld : s.dev.partHeld m.src = false) :
    ∃ e : Dev, exec (.fwdmiss m) s = .next (s.withDev e) ∧ e.net = (s.dev.taken (.ans m)).net ∧
      e.dir = (s.dev.ownerGone m.line m.sec m.src).dir ∧ e.coh.fwdMiss = s.dev.coh.fwdMiss + 1 ∧
      e.txn (s.dev.homeOf (lineDpa m.line)) 0 =
        some { t.got1 (.fwd m.src m.sec) with fwded := t.fwded.filter (· ≠ m.sec) } := by
  obtain ⟨hwaits, hmore, hstage⟩ := hw
  have hgone : (if (s.dev.taken (.ans m)).partHeld m.src = true then
      (s.dev.taken (.ans m)).isoLose (s.dev.homeOf (lineDpa m.line)) m.src m.line m.sec
    else (s.dev.taken (.ans m)).ownerGone m.line m.sec m.src) = (s.dev.taken (.ans m)).ownerGone m.line m.sec m.src :=
    if_neg (ne_true_of_eq_false hheld)
  have hdir : s.dev.SameDir (s.dev.taken (.ans m)) := ⟨rfl, rfl, rfl⟩
  rw [exec_fwdmiss hk]
  refine ⟨_, State.answer_waits (taken_idle hi) hline hwaits (congrArg (Prod.mk _) hgone) (.ownerGone ..) hstage hmore, ?_, ?_, ?_, Dev.txn_setTxn ..⟩
  · rw [Dev.setTxn_net, Dev.ownerGone_net]
  · rw [Dev.setTxn_dir]
    exact hdir.ownerGone rfl ..
  · exact Dev.ownerGone_fwdMiss ..

end

end Sys2Proof.Proofs
end

section
/-! The last answer a transaction waits for lets its line go on (R260, R262), and an ACK ends an eviction (R263). -/

open Sys2Proof Sys2Proof.Machine

namespace Sys2Proof.Machine

/-! ### Where a line goes when nothing more is awaited -/

section
variable {d : Dev} {h sec : Nat} {t : Txn}

/-- The last answer taken. -/
theorem Txn.got1_last {a : Await} (hawait : t.await = [a]) (hpost : eraseFirst a t.post = t.post) : t.got1 a = { t with await := [] } := by
  simp [Txn.got1, hawait, hpost, eraseFirst]

theorem Txn.waits_last {a : Await} (hawait : t.await = [a]) : t.waits a = true := by simp [Txn.waits, hawait]

/-- A freed slot changes the homes and has its line's directory entry looked at again. -/
theorem Dev.setTxn_none_self {slot : Nat} (ht : d.txn h slot = some t) : d.setTxn h slot none =
    ({ d with homes := (d.setTxn h slot none).homes } : Dev).setEntry (d.dirEntry t.req.line) := by
  have hnone := Dev.setTxn_none ht
  obtain ⟨dir, hdir⟩ := (d.updHome h fun x => { x with txns := Map.put x.txns slot none }).setEntry_eq
    ((d.updHome h fun x => { x with txns := Map.put x.txns slot none }).dirEntry t.req.line)
  have hhomes : (d.setTxn h slot none).homes = (d.updHome h fun x => { x with txns := Map.put x.txns slot none }).homes := by rw [hnone, hdir]
  rw [hhomes]
  exact hnone

/-- All sectors forwarded: the line waits for its COMPACK. -/
theorem Dev.homeIdle.forwarded (hi : d.homeIdle h [(0, some t)]) (hstage : t.stage = .recall) (hawait : t.await = []) (hsec : sec < 4)
    (hmask : t.req.smask = secMask sec) (hkind : t.req.kind = .rdOwn) (hfwded : t.fwded = [sec]) (hpost : t.post ≠ []) :
    let t2 : Txn := { t with stage := .fetch, await := [] }
    let t3 : Txn := { t with stage := .close, await := t.post, post := [] }
    Dev.Settles h 2 d ((d.setTxn h 0 (some t2)).setTxn h 0 (some t3)) ∧ ((d.setTxn h 0 (some t2)).setTxn h 0 (some t3)).homeIdle h [(0, some t3)] := by
  intro t2 t3
  have hserve : d.serve h 0 t = d.setTxn h 0 (some t2) := by
    rw [Dev.serve_reads (.inr (.inl hkind)), Txn.served_forwarded hsec hmask hfwded]
    rfl
  have hdeliver : (d.setTxn h 0 (some t2)).deliver h 0 t2 = (d.setTxn h 0 (some t2)).setTxn h 0 (some t3) := by
    rw [Dev.deliver_reads (t := t2) (.inr (.inl hkind)), Txn.served_forwarded (t := t2) hsec hmask hfwded]
    rfl
  have hidle := (hi.setTxn 0 t2).setTxn 0 t3
  exact ⟨.move ((hi.serves hstage hawait).trans (congrArg some hserve))
    (.move (((hi.setTxn 0 t2).delivers rfl rfl).trans (congrArg some hdeliver)) (.done (Dev.homeIdle.waits hidle Stage.noConfusion hpost))), hidle⟩

/-- A read of the home copy goes on to memory. -/
theorem Dev.homeIdle.fetches (hi : d.homeIdle h [(0, some t)]) (hstage : t.stage = .recall) (hawait : t.await = []) (hsec : sec < 4)
    (hmask : t.req.smask = secMask sec) (hkind : t.req.kind = .rdCurrent) (hfwded : t.fwded = []) (hgot : t.got = [])
    (habsent : (d.cacheSec (d.sliceNo t.req.line) t.req.line sec).st = .I) (hhost : isHost (lineDpa t.req.line) = false) :
    let t2 : Txn := { t with stage := .fetch, await := [.mem sec] }
    ∃ e : Dev, Dev.Settles h 1 d e ∧ e.homeIdle h [(0, some t2)] ∧ e.txn h 0 = some t2 ∧ e.net = d.net ++ [.mem (fetchMsg h 0 t.req sec)] := by
  intro t2
  have hserve : d.serve h 0 t =
      (({ d with coh := { d.coh with misses := d.coh.misses + 1 } } : Dev).send (.mem (fetchMsg h 0 t.req sec))).setTxn h 0 (some t2) := by
    rw [Dev.serve_reads (.inr (.inr hkind)), Txn.served_one hsec hmask hfwded, Dev.fetchSecs_absent (Dev.txnData_absent hgot habsent) hhost]
  have hsame : d.SameHomes { d with coh := { d.coh with misses := d.coh.misses + 1 } } := ⟨rfl, rfl, rfl, rfl, fun _ => .inl⟩
  have hidle := ((hsame.trans (.send_mem _ (fetchMsg h 0 t.req sec))).homeIdle hi).setTxn 0 t2
  exact ⟨_, .move ((hi.serves hstage hawait).trans (congrArg some hserve)) (.done (Dev.homeIdle.waits hidle Stage.noConfusion (List.cons_ne_nil _ _))),
    hidle, Dev.txn_setTxn .., rfl⟩

/-- A write goes on to memory. -/
theorem Dev.homeIdle.writes (hi : d.homeIdle h [(0, some t)]) (hstage : t.stage = .recall) (hawait : t.await = []) (hsec : sec < 4)
    (hmask : t.req.smask = secMask sec) (hkind : t.req.kind = .wrFull) (hfwded : t.fwded = []) (hsrc : t.req.src ≠ hostAgent)
    (habsent : (d.waySec (d.sliceNo t.req.line) t.req.line sec).st = .I) (hhost : isHost (lineDpa t.req.line) = false) :
    let t2 : Txn := { t with stage := .fetch, await := [.cmp sec] }
    ∃ e : Dev, Dev.Settles h 1 d e ∧ e.homeIdle h [(0, some t2)] ∧ e.txn h 0 = some t2 ∧ e.net = d.net ++ [.mem (storeMsg h 0 t.req sec)] ∧
      e.mem = d.mem := by
  intro t2
  have hserve := Dev.serve_writes (h := h) (slot := 0) hsec hmask hkind hfwded hsrc habsent hhost
  have hidle := (((Dev.SameHomes.sideRemove d t.req.line).trans (.send_mem _ (storeMsg h 0 t.req sec))).homeIdle hi).setTxn 0 t2
  refine ⟨_, .move ((hi.serves hstage hawait).trans (congrArg some hserve)) (.done (Dev.homeIdle.waits hidle Stage.noConfusion (List.cons_ne_nil _ _))),
    hidle, Dev.txn_setTxn .., rfl, ?_⟩
  rw [Dev.setTxn_mem, Dev.send_mem, Dev.sideRemove_mem]

end

end Sys2Proof.Machine

namespace Sys2Proof.Proofs

section
variable {s : State} {m : AnsMsg} {t : Txn}

/-- The line's home holds the one transaction t, on the sector of m, of a core. -/
structure LastAnswer (s : State) (m : AnsMsg) (t : Txn) : Prop where
  idle : s.dev.homeIdle (s.dev.homeOf (lineDpa m.line)) [(0, some t)]
  line : t.req.line = m.line
  sec_lt : m.sec < 4
  smask : t.req.smask = secMask m.sec
  core : isCore t.req.src = true
  tier : isTier (lineDpa m.line) = true
  got : t.got = []

theorem LastAnswer.notHost (hl : LastAnswer s m t) : t.req.src ≠ hostAgent := by
  intro hsrc
  exact absurd (hsrc ▸ hl.core) (by decide)

theorem LastAnswer.tier_line (hl : LastAnswer s m t) : isHost (lineDpa t.req.line) = false := by
  rw [hl.line]
  exact isHost_of_isTier hl.tier

theorem fwddone_last (hl : LastAnswer s m t) (hk : m.kind = .fwdDone) (hstage : t.stage = .recall) (hkind : t.req.kind = .rdOwn)
    (hawait : t.await = [.fwd m.src m.sec]) (hpost : t.post = [.comp m.sec]) (hfwded : t.fwded = [m.sec]) (hpoison : m.info.poison = false)
    (howed : s.dev.dataOwed m.line m.sec = false) :
    ∃ e : Dev, exec (.fwddone m) s = .next (s.withDev e) ∧ e.net = (s.dev.taken (.ans m)).net ∧
      e.dir = (s.dev.updSector m.line m.sec fun y => { y with ds := .E, own := t.req.src }).dir ∧
      e.txn (s.dev.homeOf (lineDpa m.line)) 0 = some { t with stage := .close, await := [.comp m.sec], post := [] } := by
  have hgot : t.got1 (.fwd m.src m.sec) = { t with await := [] } := Txn.got1_last hawait (by simp [hpost, eraseFirst])
  have hentry := Dev.fwdEntry_owned (d := s.dev.taken (.ans m)) (q := t.req) (.inl hkind) hl.notHost hpoison
  have hdir : s.dev.SameDir (s.dev.taken (.ans m)) := ⟨rfl, rfl, rfl⟩
  have hidle := ((Dev.SameHomes.updSector (s.dev.taken (.ans m)) m.line m.sec fun y => { y with ds := .E, own := t.req.src }).homeIdle
    (taken_idle hl.idle)).setTxn 0 { t with await := [] }
  obtain ⟨hsettles, hidle'⟩ := hidle.forwarded hstage rfl hl.sec_lt hl.smask hkind hfwded (by simp [hpost])
  rw [exec_fwddone hk howed]
  refine ⟨_, State.answer_settles (taken_idle hl.idle) hl.line (Txn.waits_last hawait)
    (congrArg₂ Prod.mk ((if_neg (by simp [hpoison])).trans hgot) hentry) hsettles hidle', ?_, ?_, ?_⟩
  · rw [Dev.setTxn_net, Dev.setTxn_net, Dev.setTxn_net, Dev.updSector_net]
  · rw [Dev.setTxn_dir, Dev.setTxn_dir, Dev.setTxn_dir]
    exact (hdir.updSector rfl ..).dir
  · rw [Dev.txn_setTxn, hpost]

theorem fwdmiss_last (hl : LastAnswer s m t) (hk : m.kind = .fwdMiss) (hstage : t.stage = .recall) (hkind : t.req.kind = .rdCurrent)
    (hawait : t.await = [.fwd m.src m.sec]) (hpost : t.post = []) (hfwded : t.fwded = [m.sec]) (hheld : s.dev.partHeld m.src = false)
    (habsent : (s.dev.cacheSec (s.dev.sliceNo m.line) m.line m.sec).st = .I) :
    ∃ (e : Dev) (w : MemMsg), exec (.fwdmiss m) s = .next (s.withDev e) ∧ e.net = (s.dev.taken (.ans m)).net ++ [.mem w] ∧ w.kind = .rd ∧
      w.line = m.line ∧ w.sec = m.sec ∧
      e.txn (s.dev.homeOf (lineDpa m.line)) 0 = some { t with stage := .fetch, await := [.mem m.sec], fwded := [] } := by
  have hgot : ({ t.got1 (.fwd m.src m.sec) with fwded := (t.got1 (.fwd m.src m.sec)).fwded.filter (· ≠ m.sec) } : Txn) =
      { t with await := [], fwded := [] } := by
    rw [Txn.got1_last hawait (by simp [hpost, eraseFirst])]
    simp [hfwded]
  obtain ⟨dir, coh, hdev⟩ := (s.dev.taken (.ans m)).ownerGone_eq m.line m.sec m.src
  have hgone := (if_neg (ne_true_of_eq_false hheld) : (if (s.dev.taken (.ans m)).partHeld m.src = true then
      (s.dev.taken (.ans m)).isoLose (s.dev.homeOf (lineDpa m.line)) m.src m.line m.sec
    else (s.dev.taken (.ans m)).ownerGone m.line m.sec m.src) = (s.dev.taken (.ans m)).ownerGone m.line m.sec m.src).trans hdev
  have hidle := ((hdev ▸ Dev.SameHomes.ownerGone (s.dev.taken (.ans m)) m.line m.sec m.src).homeIdle (taken_idle hl.idle)).setTxn 0
    { t with await := [], fwded := [] }
  obtain ⟨e, hsettles, hidle', htxn, hnet⟩ := hidle.fetches hstage rfl hl.sec_lt hl.smask hkind rfl hl.got (by rw [hl.line]; exact habsent)
    hl.tier_line
  rw [exec_fwdmiss hk]
  exact ⟨e, _, State.answer_settles (taken_idle hl.idle) hl.line (Txn.waits_last hawait) (congrArg₂ Prod.mk hgot hgone) hsettles hidle', hnet, rfl,
    hl.line, rfl, htxn⟩

theorem compack_last (hl : LastAnswer s m t) (hk : m.kind = .compAck) (hstage : t.stage = .close) (hawait : t.await = [.comp m.sec])
    (hpost : t.post = []) : ∃ e : Dev, exec (.compack m) s = .next (s.withDev e) ∧ e.txn (s.dev.homeOf (lineDpa m.line)) 0 = none ∧
      e = (({ s.dev.taken (.ans m) with homes := e.homes } : Dev).setEntry ((s.dev.taken (.ans m)).dirEntry m.line)) := by
  have hgot : t.got1 (.comp m.sec) = { t with await := [] } := Txn.got1_last hawait (by simp [hpost, eraseFirst])
  have hidle := (taken_idle (x := .ans m) hl.idle).setTxn 0 { t with await := [] }
  have hfree := hidle.free
  have hself := Dev.setTxn_none_self hidle.txn
  rw [show ({ t with await := [] } : Txn).req.line = m.line from hl.line] at hself
  rw [exec_compack hk]
  refine ⟨_, State.answer_settles (n := 1) (taken_idle hl.idle) hl.line (Txn.waits_last hawait) (congrArg₂ Prod.mk hgot rfl)
    (.move (hidle.closes hstage rfl) (.done (hfree.stands (.inr rfl)))) hfree, Dev.txn_freed hfree, ?_⟩
  exact hself

theorem write_goes_on (hl : LastAnswer s m t) (hstage : t.stage = .recall) (hkind : t.req.kind = .wrFull) (hawait : t.await = [.ack m.src m.sec])
    (hpost : t.post = []) (hfwded : t.fwded = []) (hto : m.toCore = none)
    (habsent : (s.dev.waySec (s.dev.sliceNo m.line) m.line m.sec).st = .I) :
    (m.kind = .ack → ∃ (e : Dev) (w : MemMsg), exec (.ack m) s = .next (s.withDev e) ∧ e.net = (s.dev.taken (.ans m)).net ++ [.mem w] ∧
      w.kind = .wr ∧ w.line = m.line ∧ w.sec = m.sec ∧ w.data = (t.req.payOf m.sec).data ∧ e.mem = s.dev.mem ∧
      e.txn (s.dev.homeOf (lineDpa m.line)) 0 = some { t with stage := .fetch, await := [.cmp m.sec] }) ∧
    (m.kind = .ackData → ∃ (e : Dev) (w : MemMsg), exec (.ackdata m) s = .next (s.withDev e) ∧
      e.net = (s.dev.taken (.ans m)).net ++ [.mem w] ∧ w.kind = .wr ∧ w.data = (t.req.payOf m.sec).data ∧
      e.mem = Mem.writeBytes s.dev.mem (64 * (4 * m.line + m.sec)) (Sector.bytes m.data)) := by
  have hgot : t.got1 (.ack m.src m.sec) = { t with await := [] } := Txn.got1_last hawait (by simp [hpost, eraseFirst])
  have hidle0 := taken_idle (x := .ans m) hl.idle
  refine ⟨fun hk => ?_, fun hk => ?_⟩
  · obtain ⟨e, hsettles, hidle', htxn, hnet, hmem⟩ := (hidle0.setTxn 0 { t with await := [] }).writes hstage rfl hl.sec_lt hl.smask hkind hfwded
      hl.notHost (by rw [hl.line]; exact habsent) hl.tier_line
    rw [exec_ack hk hto]
    exact ⟨e, _, State.answer_settles hidle0 hl.line (Txn.waits_last hawait) (congrArg₂ Prod.mk hgot rfl) hsettles hidle', hnet, rfl, hl.line, rfl,
      rfl, hmem.trans (by rw [Dev.setTxn_mem, Dev.taken_mem]), htxn⟩
  · obtain ⟨wq, htake⟩ := takeDirty_memory (t := { t with await := [] }) (d := s.dev.taken (.ans m)) hl.idle.inject hl.tier habsent (by simp [hkind])
    rw [← hgot] at htake
    have hline' : (withDirty (t.got1 (.ack m.src m.sec)) m).req.line = m.line := hl.line
    have habsent' : ((s.dev.taken (.ans m)).sideRemove m.line).waySec (s.dev.sliceNo m.line) m.line m.sec = s.dev.waySec (s.dev.sliceNo m.line) m.line m.sec :=
      Dev.waySec_sideRemove (s.dev.taken (.ans m)) ..
    have hmemory : (((s.dev.taken (.ans m)).sideRemove m.line).putSec (4 * m.line + m.sec) m.data m.info).mem =
        Mem.writeBytes s.dev.mem (64 * (4 * m.line + m.sec)) (Sector.bytes m.data) := by
      rw [Dev.putSec_mem, Dev.sideRemove_mem, Dev.taken_mem]
    have hstored := Dev.SameHomes.putSec ((s.dev.taken (.ans m)).sideRemove m.line) (4 * m.line + m.sec) m.data m.info
    have hsame := ((Dev.SameHomes.sideRemove (s.dev.taken (.ans m)) m.line).trans hstored).trans (.queued _ wq)
    obtain ⟨e, hsettles, hidle', htxn, hnet, hmem⟩ := ((hsame.homeIdle hidle0).setTxn 0 (withDirty (t.got1 (.ack m.src m.sec)) m)).writes hstage (congrArg Txn.await hgot) hl.sec_lt
      hl.smask hkind hfwded hl.notHost (by rw [hline']; exact (congrArg CSector.st habsent').trans habsent) hl.tier_line
    rw [exec_ackdata hk hto]
    refine ⟨e, _, State.answer_settles hidle0 hl.line (Txn.waits_last hawait) htake hsettles hidle', hnet, rfl, rfl, ?_⟩
    rw [hmem, Dev.setTxn_mem, ← hmemory]

/-- An ACK to a core takes the sector out of its eviction buffer. -/
theorem ack_evicted {c : Nat} {x : CSector} {rest : List (Nat × CSector)} (hquiet : s.dev.homesQuiet) (hk : m.kind = .ack) (hto : m.toCore = some c)
    (hevict : (s.dev.core c).evict = (4 * m.line + m.sec, x) :: rest) :
    exec (.ack m) s = .next ((s.withDev (s.dev.taken (.ans m))).withCore c { s.dev.core c with evict := rest }) := by
  have hdropped : s.dev.homeAck m false = (s.dev.taken (.ans m)).setCore c { s.dev.core c with evict := rest } := by
    have hcore : (s.dev.taken (.ans m)).core c = s.dev.core c := rfl
    rw [Dev.homeAck, hto]
    dsimp only
    rw [Dev.updCore, hcore, hevict]
    simp [eraseFirst]
  have hsame : s.dev.SameHomes ((s.dev.taken (.ans m)).setCore c { s.dev.core c with evict := rest }) :=
    (Dev.SameHomes.taken ..).trans ⟨rfl, rfl, rfl, rfl, fun _ => .inl⟩
  refine (congrArg (fun x => s.homes (s.dev.homeAck x false)) (AnsMsg.withKind hk)).trans ?_
  dsimp only
  rw [hdropped]
  exact State.homes_quiet (hsame.homesQuiet hquiet)

end

/-- Settles O32: each answer is looked up in the home's one transaction; what it was the last of goes on by the stages of R260. -/
theorem homeAnswers : Obligations.HomeAnswers := by
  unfold Obligations.HomeAnswers
  refine ⟨fun s m => answers_dropped, fun s m t hi hline hto => ⟨?_, ?_, ?_, ?_, ?_⟩, ?_, fun s m c x rest => ack_evicted⟩
  · exact ack_awaited hi hline hto
  · exact fun hk hw htier hway ha hi' hd => ackdata_awaited hi hline hto hk hw htier hway ⟨ha, hi', hd⟩
  · exact fwddone_awaited hi hline
  · exact fwdmiss_awaited hi hline
  · exact compack_awaited hi hline
  · intro s m t d h q d0 hi hline hsec hmask hcore hto htier hgot _
    have hl : LastAnswer s m t := ⟨hi, hline, hsec, hmask, hcore, htier, hgot⟩
    exact ⟨fwddone_last hl, fwdmiss_last hl, compack_last hl, fun hstage hkind hawait hpost hfwded =>
      write_goes_on hl hstage hkind hawait hpost hfwded hto⟩

end Sys2Proof.Proofs
end

section
/-! A request of the host enters its idle home (R386, R390), and the stages of one that asks nothing of any L1 (R262, R269). -/

open Sys2Proof Sys2Proof.Machine

namespace Sys2Proof.Machine

/-! ### From the link to the home -/

/-- The request that a command of the host becomes. -/
def Dev.hostReqAt (d : Dev) (m : HostReq) (kind : ReqKind) (origin : Origin) (dpa : Nat) : ReqMsg :=
  { hostToReq m kind dpa with origin := origin, issue := d.issueStamp 0 }

section
variable {d : Dev} {m : HostReq} {q : ReqMsg} {dpa : Nat} {kind : ReqKind} {origin : Origin}

/-- A request of the host goes straight into the queue of its idle home. -/
theorem Dev.hostIn_idle {txns : Map (Option Txn)} (hi : d.homeIdle (d.homeOf (lineDpa q.line)) txns) : d.hostIn q = d.enqueue q := by
  obtain ⟨-, hqueue, -, -, -, -, -, -, hnet, -⟩ := hi
  have hfull : d.homeFull q.line = false := by simp [Dev.homeFull, hqueue]
  unfold Dev.hostIn
  dsimp only
  rw [hfull, if_neg]
  rw [Bool.false_or, List.any_eq_true]
  rintro ⟨x, hx, hbehind⟩
  cases x <;> simp_all

theorem sector_lt (dpa : Nat) : dpa / 64 % 4 < 4 := Nat.mod_lt _ (by decide)

/-- The request enters through the bias of its page, which is SHARED (R390). -/
theorem Dev.hostReq_arrives (hmay : d.hostMay m.hpa dpa) : d.hostReq m kind origin = d.hostEnter (d.hostReqAt m kind origin dpa) := by
  obtain ⟨hstate, hasI, hpower, hdpa, howned, -, -, hidle, -⟩ := hmay
  have hwaited : d.biAwaited (dpa / 256) (dpa / 64 % 4) = none := by
    rw [Dev.biAwaited, Dev.lineTxn, hidle.1]
    rfl
  have harrive : d.hostArrive (d.hostReqAt m kind origin dpa) = d.hostEnter (d.hostReqAt m kind origin dpa) := by
    simp [Dev.hostArrive, hpower]
  rw [← harrive]
  unfold Dev.hostReq
  simp only [hasI, hstate, hdpa, howned, Bool.false_and, Bool.false_eq_true, if_false, ne_eq, not_true_eq_false]
  split
  · exact congrArg (fun o => match o with
      | some t => (d.returnedData t (dpa / 256) (dpa / 64 % 4) m.data m.poison).emit (.memCmp m.tag m.mval)
      | none => d.hostArrive (d.hostReqAt m kind origin dpa)) hwaited
  · rfl

theorem Dev.hostMay.notOwned (hmay : d.hostMay m.hpa dpa) :
    (isDram (lineDpa (dpa / 256)) && decide (d.ownedFrom ≤ lineDpa (dpa / 256))) = false := by
  obtain ⟨-, -, -, -, -, hown, -⟩ := hmay
  rw [Bool.and_eq_false_imp]
  exact fun hdram => decide_eq_false (Nat.not_le.mpr (hown hdram))

theorem Dev.hostMay.unowned (hmay : d.hostMay m.hpa dpa) : ((d.dirEntry (dpa / 256)).sector (dpa / 64 % 4)).ds = .I := by
  obtain ⟨-, -, -, -, -, -, -, -, -, -, -, -, -, hds⟩ := hmay
  exact hds

/-- Outside the device-owned pages a request enters as it is. -/
theorem Dev.hostEnter_open (howned : (isDram (lineDpa q.line) && decide (d.ownedFrom ≤ lineDpa q.line)) = false)
    (hbias : d.biasOf (q.line / 2 ^ 13) = 1) : d.hostEnter q =
      if q.kind = .memInvS ∧ q.mval = .I then d.emit (.memCmp q.tag .I) else (d.hostQueue q false).settle (d.homeOf (lineDpa q.line)) := by
  unfold Dev.hostEnter
  dsimp only
  rw [howned, hbias]
  simp

/-- A command of the host that is no MemInv with I waits at its home. -/
theorem Dev.hostReq_enters (hmay : d.hostMay m.hpa dpa) (hinv : kind = .memInvS → m.mval ≠ .I) :
    d.hostReq m kind origin = (d.enqueue (d.hostReqAt m kind origin dpa)).settle (d.homeOf (lineDpa (dpa / 256))) := by
  have hnot := hmay.notOwned
  rw [Dev.hostReq_arrives hmay]
  obtain ⟨-, -, -, -, -, -, hbias, hidle, -⟩ := hmay
  have hqueue : d.hostQueue (d.hostReqAt m kind origin dpa) false = d.enqueue (d.hostReqAt m kind origin dpa) := by
    have hb : d.biasOf ((d.hostReqAt m kind origin dpa).line / 2 ^ 13) = 1 := hbias
    unfold Dev.hostQueue
    dsimp only
    rw [hb, ← Dev.hostIn_idle (q := d.hostReqAt m kind origin dpa) hidle]
    simp
  rw [← hqueue, Dev.hostEnter_open (q := d.hostReqAt m kind origin dpa) hnot hbias]
  exact if_neg fun ⟨hk, hv⟩ => hinv hk hv

/-- MemInv with I completes as it arrives. -/
theorem Dev.hostReq_memInvI (hmay : d.hostMay m.hpa dpa) (hmval : m.mval = .I) :
    d.hostReq m .memInvS origin = d.emit (.memCmp m.tag .I) := by
  have hnot := hmay.notOwned
  rw [Dev.hostReq_arrives hmay]
  obtain ⟨-, -, -, -, -, -, hbias, -⟩ := hmay
  rw [Dev.hostEnter_open (q := d.hostReqAt m .memInvS origin dpa) hnot hbias]
  exact if_pos ⟨rfl, hmval⟩

theorem Dev.hostReq_down (hstate : d.hl.state ≠ 2) : d.hostReq m kind origin = d := by
  simp [Dev.hostReq, hstate]

/-- The host's request is the next of its idle home. -/
theorem Dev.hostMay.opens (hmay : d.hostMay m.hpa dpa) :
    (d.opened (d.homeOf (lineDpa (dpa / 256)))).Opens (d.homeOf (lineDpa (dpa / 256))) (d.hostReqAt m kind origin dpa) (dpa / 64 % 4) := by
  obtain ⟨-, -, -, -, -, -, -, hidle, htier, hready, -, -, ⟨k, hway, herr⟩, -⟩ := hmay
  have hcheck : d.checkSec (d.hostReqAt m kind origin dpa) (dpa / 64 % 4) = none := by
    have hline : (d.hostReqAt m kind origin dpa).line = dpa / 256 := rfl
    have hsrc : (d.hostReqAt m kind origin dpa).src = hostAgent := rfl
    unfold Dev.checkSec
    rw [hline, hsrc]
    dsimp only
    rw [htier, hready, isHost_of_isTier htier]
    simp
  refine Dev.Opens.opened ⟨hidle, sector_lt dpa, rfl, hcheck, fun k' hk' => ?_⟩
  obtain rfl : k = k' := Option.some.inj (hway.symm.trans hk')
  exact herr

end

end Sys2Proof.Machine
end

section
/-! The last stages of a transaction that waits for nothing more: served, delivered, and its line free again (R260, R263). -/

open Sys2Proof Sys2Proof.Machine

namespace Sys2Proof.Machine

/-! ### The freed line -/

/-- The block once the transaction t, which waits for nothing more, has left the first slot of home h. -/
def Dev.closed (d : Dev) (h : Nat) (t : Txn) : Dev := (d.setTxn h 0 (some t)).setTxn h 0 none

section
variable {b d e : Dev} {h line sec : Nat} {t : Txn} {txns : Map (Option Txn)} {f : DirSector → DirSector}

/-- A line that goes free changes the homes and the directory alone. -/
theorem Dev.closed_eq (d : Dev) (h : Nat) (t : Txn) : ∃ homes dir, d.closed h t = { d with homes := homes, dir := dir } := by
  rw [Dev.closed, Dev.setTxn_none_self (Dev.txn_setTxn ..)]
  obtain ⟨dir, hdir⟩ := Dev.setEntry_eq
    { d.setTxn h 0 (some t) with homes := ((d.setTxn h 0 (some t)).setTxn h 0 none).homes } ((d.setTxn h 0 (some t)).dirEntry t.req.line)
  rw [hdir]
  exact ⟨_, _, rfl⟩

@[simp] theorem Dev.closed_net (d : Dev) (h : Nat) (t : Txn) : (d.closed h t).net = d.net := by
  obtain ⟨homes, dir, heq⟩ := d.closed_eq h t
  rw [heq]

@[simp] theorem Dev.closed_out (d : Dev) (h : Nat) (t : Txn) : (d.closed h t).out = d.out := by
  obtain ⟨homes, dir, heq⟩ := d.closed_eq h t
  rw [heq]

@[simp] theorem Dev.closed_hostMem (d : Dev) (h : Nat) (t : Txn) : (d.closed h t).hostMem = d.hostMem := by
  obtain ⟨homes, dir, heq⟩ := d.closed_eq h t
  rw [heq]

theorem Dev.cacheSec_closed (d : Dev) (h : Nat) (t : Txn) (n l k : Nat) : (d.closed h t).cacheSec n l k = d.cacheSec n l k := by
  obtain ⟨homes, dir, heq⟩ := d.closed_eq h t
  rw [heq]
  rfl

theorem Dev.homeIdle.closed (hi : d.homeIdle h txns) (htxns : txns = [] ∨ ∃ t', txns = [(0, t')]) (t : Txn) :
    (d.closed h t).homeIdle h [(0, none)] := by
  have hset := hi.setTxn 0 t
  have hone : Map.put txns 0 (some t) = [(0, some t)] := by obtain rfl | ⟨t', rfl⟩ := htxns <;> rfl
  rw [hone] at hset
  exact hset.free

/-- The directory entry is looked at in a block whose line is free. -/
theorem Dev.closed_setEntry {t' : Txn} (hh : d.homeOf (lineDpa line) = h) (hi : d.homeIdle h [(0, some t')]) (hline : t.req.line = line) :
    ∃ d' : Dev, d.SameDir d' ∧ d'.lineBusy line = false ∧ (d.closed h t).dir = (d'.setEntry (d'.dirEntry line)).dir := by
  subst hh
  have hset := hi.setTxn 0 t
  refine ⟨(d.setTxn (d.homeOf (lineDpa line)) 0 (some t)).updHome (d.homeOf (lineDpa line)) fun x => { x with txns := Map.put x.txns 0 none },
    ⟨rfl, rfl, rfl⟩, ?_, ?_⟩
  · exact (hset.updTxns fun m => Map.put m 0 none).lineIdle (.inr rfl)
  · rw [Dev.closed, Dev.setTxn_none (Dev.txn_setTxn ..), hline]

/-- Nothing was written to the entry: it is looked at again. -/
theorem Dev.closed_dir_same {t' : Txn} (hh : d.homeOf (lineDpa line) = h) (hi : d.homeIdle h [(0, some t')]) (hline : t.req.line = line)
    (hb : b.SameDir d) (hfree : b.lineBusy line = false) : (d.closed h t).dir = (b.setEntry (b.dirEntry line)).dir := by
  obtain ⟨d', hsame, hfree', hdir⟩ := Dev.closed_setEntry hh hi hline
  have hsame' := hb.trans hsame
  rw [hdir, hsame'.dirEntry]
  exact (hsame'.setEntry (by rw [Dev.dirEntry_line, hfree, hfree'])).dir

/-- What was written to the entry of the busy line stands as though written once. -/
theorem Dev.closed_dir_written {t' : Txn} (hh : e.homeOf (lineDpa line) = h) (hi : e.homeIdle h [(0, some t')]) (hline : t.req.line = line)
    (hbusy : d.lineBusy line = true) (he : (d.updSector line sec f).SameDir e) (hb : d.SameDir b) (hfree : b.lineBusy line = false) :
    (e.closed h t).dir = (b.updSector line sec f).dir := by
  obtain ⟨e', hsame, hfree', hdir⟩ := Dev.closed_setEntry hh hi hline
  rw [hdir]
  exact Dev.setEntry_updSector hbusy (he.trans hsame) hb (hfree'.trans hfree.symm)

end

/-! ### The last moves -/

section
variable {b c e : Dev} {h : Nat} {t t2 t3 : Txn}

/-- Delivered, the transaction leaves its line. -/
theorem Dev.homeIdle.finishes (hi : c.homeIdle h [(0, some t2)]) (hstage : t2.stage = .fetch) (hawait : t2.await = [])
    (hdeliver : c.deliver h 0 t2 = e.setTxn h 0 (some t3)) (hclose : t3.stage = .close ∧ t3.await = []) (hsame : c.SameHomes e) :
    Dev.Settles h 2 c (e.closed h t3) ∧ (e.closed h t3).homeIdle h [(0, none)] := by
  obtain ⟨hstage3, hawait3⟩ := hclose
  have hidle3 := (hsame.homeIdle hi).setTxn 0 t3
  have hfree := (hsame.homeIdle hi).closed (.inr ⟨_, rfl⟩) t3
  exact ⟨.move ((hi.delivers hstage hawait).trans (congrArg some hdeliver))
    (.move (Dev.homeIdle.closes hidle3 hstage3 hawait3) (.done (hfree.stands (.inr rfl)))), hfree⟩

/-- Served without another wait, it is delivered and leaves its line. -/
theorem Dev.homeIdle.passes (hi : b.homeIdle h [(0, some t)]) (hstage : t.stage = .recall) (hawait : t.await = [])
    (hserve : b.serve h 0 t = c.setTxn h 0 (some t2)) (hfetch : t2.stage = .fetch ∧ t2.await = []) (hsame : b.SameHomes c)
    (hdeliver : (c.setTxn h 0 (some t2)).deliver h 0 t2 = e.setTxn h 0 (some t3)) (hclose : t3.stage = .close ∧ t3.await = [])
    (hsame' : (c.setTxn h 0 (some t2)).SameHomes e) :
    Dev.Settles h 3 b (e.closed h t3) ∧ (e.closed h t3).homeIdle h [(0, none)] := by
  obtain ⟨hsettles, hfree⟩ := Dev.homeIdle.finishes ((hsame.homeIdle hi).setTxn 0 t2) hfetch.1 hfetch.2 hdeliver hclose hsame'
  exact ⟨.move ((hi.serves hstage hawait).trans (congrArg some hserve)) hsettles, hfree⟩

end

end Sys2Proof.Machine
end

section
/-! The host's requests for the sector of an idle line (R269, R272, R387, R389). -/

open Sys2Proof Sys2Proof.Machine

namespace Sys2Proof.Machine

/-! ### A request that asks nothing of any L1 -/

section
variable {d : Dev} {h slot sec : Nat} {q : ReqMsg} {t : Txn}

/-- Requests of the host that leave an unowned sector's directory entry as it is until they are delivered. -/
def silentKinds : List ReqKind := [.rdShared, .rdOwn, .claim, .rdCurrent, .memInvS]

theorem Dev.planSec_silent (hsrc : q.src = hostAgent) (hhost : isHost (lineDpa q.line) = false) (hds : ((d.dirEntry q.line).sector sec).ds = .I)
    (hkind : q.kind ∈ silentKinds) : d.planSec h slot q sec = (.none, d) := by
  have hseen (a : Nat) : (d.dirEntry q.line).dsFor sec a = .I := by simp [DirEntry.dsFor, hds]
  simp only [silentKinds, List.mem_cons, List.not_mem_nil, or_false] at hkind
  obtain hk | hk | hk | hk | hk := hkind <;> simp [Dev.planSec, hk, hseen, hds, hsrc, hhost, Plan.none]

/-- A write's recall finds no owner; the directory's sector is written all the same. -/
theorem Dev.planSec_write (hsrc : q.src = hostAgent) (hds : ((d.dirEntry q.line).sector sec).ds = .I)
    (hkind : q.kind = .wrFull ∨ q.kind = .wrPart) :
    d.planSec h slot q sec = (.none, d.updSector q.line sec fun y => { y with ds := .I, own := 0x3FF }) := by
  have hrecall (ret : Bool) : d.recallSec h slot q q.line sec ret = ([], d.updSector q.line sec fun y => { y with ds := .I, own := 0x3FF }) := by
    simp [Dev.recallSec, hds]
  obtain hk | hk := hkind <;> simp [Dev.planSec, hk, hrecall, hsrc, Plan.none]

/-- A transaction that waits for nothing before it is served. -/
def servedTxn (q : ReqMsg) : Txn := { entryTxn q with stage := .recall }

theorem Dev.compsOf_host (hsrc : q.src = hostAgent) : d.compsOf q = [] := by
  have : isCore q.src = false := by rw [hsrc]; decide
  simp [Dev.compsOf, this]

/-- A request of one sector begun in an opened block, when its first action asks nothing. -/
theorem Dev.begin_silent {e : Dev} (hsec : sec < 4) (hmask : q.smask = secMask sec) (hsrc : q.src = hostAgent)
    (hplan : (d.setTxn h 0 (some (entryTxn q))).planSec h 0 q sec = (.none, e)) :
    d.begin h 0 (entryTxn q) = e.setTxn h 0 (some (servedTxn q)) := by
  rw [Dev.begin_one (t := entryTxn q) hsec hmask hplan List.not_mem_nil]
  show e.setTxn h 0 (some ((entryTxn q).begun .none (d.compsOf q) sec)) = _
  rw [Dev.compsOf_host hsrc]
  rfl

end

section
variable {s : State} {m : HostReq} {dpa : Nat} {kind : ReqKind} {origin : Origin}

/-- The block once the host's request has begun. -/
def Dev.hostBegun (d : Dev) (m : HostReq) (kind : ReqKind) (origin : Origin) (dpa : Nat) : Dev :=
  ((d.opened (d.homeOf (lineDpa (dpa / 256)))).setTxn (d.homeOf (lineDpa (dpa / 256))) 0 (some (entryTxn (d.hostReqAt m kind origin dpa)))).setTxn
    (d.homeOf (lineDpa (dpa / 256))) 0 (some (servedTxn (d.hostReqAt m kind origin dpa)))

theorem Dev.hostMay.begun_idle {d : Dev} (hmay : d.hostMay m.hpa dpa) : (d.hostBegun m kind origin dpa).homeIdle (d.homeOf (lineDpa (dpa / 256)))
    [(0, some (servedTxn (d.hostReqAt m kind origin dpa)))] := by
  obtain ⟨-, -, -, -, -, -, -, hidle, -⟩ := hmay
  exact (hidle.opened.setTxn 0 _).setTxn 0 _

/-- The request of the host runs from its first move. -/
theorem State.hostReq_starts (hmay : s.dev.hostMay m.hpa dpa) (hinv : kind = .memInvS → m.mval ≠ .I) (hrow : kind ≠ .updRow) {n : Nat} {b e : Dev}
    {txns : Map (Option Txn)}
    (hstart : (s.dev.opened (s.dev.homeOf (lineDpa (dpa / 256)))).startReq (s.dev.homeOf (lineDpa (dpa / 256))) (s.dev.hostReqAt m kind origin dpa) = b)
    (hsettles : Dev.Settles (s.dev.homeOf (lineDpa (dpa / 256))) n b e) (hidle : e.homeIdle (s.dev.homeOf (lineDpa (dpa / 256))) txns)
    (hn : n + 1 ≤ 16 := by decide) : s.homes (s.dev.hostReq m kind origin) = .next (s.withDev e) := by
  rw [Dev.hostReq_enters hmay hinv]
  obtain ⟨-, -, -, -, -, -, -, hhome, -⟩ := hmay
  refine Dev.Settles.homes (n := n + 1) (.move ?_ hsettles) hidle s hn
  exact (Dev.homeIdle.starts (m := s.dev.hostReqAt m kind origin dpa) hhome hrow).trans (congrArg some hstart)

theorem State.hostReq_silent (hmay : s.dev.hostMay m.hpa dpa) (hkind : kind ∈ silentKinds) (hinv : kind = .memInvS → m.mval ≠ .I) {n : Nat} {e : Dev}
    {txns : Map (Option Txn)} (hsettles : Dev.Settles (s.dev.homeOf (lineDpa (dpa / 256))) n (s.dev.hostBegun m kind origin dpa) e)
    (hidle : e.homeIdle (s.dev.homeOf (lineDpa (dpa / 256))) txns) (hn : n + 1 ≤ 16 := by decide) :
    s.homes (s.dev.hostReq m kind origin) = .next (s.withDev e) := by
  have hopens := hmay.opens (kind := kind) (origin := origin)
  obtain ⟨-, -, -, -, -, -, -, -, -, -, hhost, -, ⟨k, hway, -⟩, hds⟩ := id hmay
  have hkinds : kind ≠ .updRow ∧ kind ≠ .wrFull ∧ kind ≠ .evictDirty ∧ kind ≠ .evictClean := by
    refine ⟨?_, ?_, ?_, ?_⟩ <;> rintro rfl <;> exact absurd hkind (by decide)
  obtain ⟨hrow, hfull, hdirty, hclean⟩ := hkinds
  refine State.hostReq_starts hmay hinv hrow ?_ hsettles hidle hn
  rw [hopens.begins (fun _ hk => absurd hk hfull) ⟨hdirty, hclean⟩ fun _ => ⟨k, hway⟩]
  exact Dev.begin_silent hopens.sec_lt hopens.smask rfl (Dev.planSec_silent rfl hhost hds hkind)

end

/-! ### Served from the slice -/

section
variable {d : Dev} {h slot line sec : Nat} {t : Txn} {x : CSector}

theorem Dev.cacheSec_of_way {n : Nat} (hway : d.waySec n line sec = x) (hst : x.st ≠ .I) : d.cacheSec n line sec = x := by
  simp [Dev.cacheSec, hway, hst]

theorem Dev.txnData_slice (hgot : t.got = []) (hx : d.cacheSec (d.sliceNo t.req.line) t.req.line sec = x) (hst : x.st ≠ .I) (herr : x.err = 0) :
    d.txnData t sec = (some (x.data, x.info), d) := by
  rw [Dev.txnData, hgot]
  simp [Dev.sliceRead, hx, hst, herr]

/-- The block with one more hit counted. -/
def Dev.countHit (d : Dev) : Dev := { d with coh := { d.coh with hits := d.coh.hits + 1 } }

theorem Dev.SameHomes.countHit (d : Dev) : d.SameHomes d.countHit := ⟨rfl, rfl, rfl, rfl, fun _ => .inl⟩

theorem Dev.fetchSecs_found {p : Sector × SectorMeta} (hdata : d.txnData t sec = (some p, d)) : d.fetchSecs h slot t [sec] = ([], d.countHit) := by
  simp only [Dev.fetchSecs, List.foldl_cons, List.foldl_nil, hdata]
  rfl

/-- What the host gets of a sector it reads, and what the directory then records of it (Table 8.9). -/
def Dev.giveHost (d : Dev) (m : ReqMsg) (sec : Nat) (x : CSector) (suspect : Bool) : Dev :=
  match m.kind with
  | .rdShared => (d.updSector m.line sec fun y => { y with hs := 1 }).emit (.memData m.tag .S x.data (x.info.poison || suspect))
  | .rdOwn => (d.updSector m.line sec fun y => { y with ds := .I, own := 0x3FF, hs := 2 }).emit (.memData m.tag .A x.data (x.info.poison || suspect))
  | .claim => (d.updSector m.line sec fun y => { y with ds := .I, own := 0x3FF, hs := 2 }).emit (.memCmp m.tag .A)
  | _ => d.emit (.memData m.tag .I x.data (x.info.poison || suspect))

theorem Dev.giveSec_host (hsrc : t.req.src = hostAgent) (hgot : t.got = []) (hway : d.waySec (d.sliceNo t.req.line) t.req.line sec = x)
    (hst : x.st ≠ .I) (herr : x.err = 0) : d.giveSec h slot t sec = d.giveHost t.req sec x t.suspect := by
  have hx := Dev.cacheSec_of_way hway hst
  have hdata := Dev.txnData_slice hgot hx hst herr
  unfold Dev.giveSec Dev.giveHost
  dsimp only
  rw [if_neg (by simp [hsrc]), hdata]
  dsimp only
  rw [hx, hway, if_neg hst, if_neg hst]
  cases hk : t.req.kind <;> simp [hsrc]

end

end Sys2Proof.Machine
end

section
/-! The host's reads, invalidations, evictions and writes at the home (R269, R272; Table 8.9). -/

open Sys2Proof Sys2Proof.Machine

namespace Sys2Proof.Machine

section
variable {d : Dev} {h slot sec : Nat} {t : Txn} {q : ReqMsg} {x : CSector} {b : Bool}

theorem Dev.emit_out (d : Dev) (o : Out) : (d.emit o).out = o :: d.out := rfl

/-- A claim of the host reads nothing. -/
theorem Dev.serve_claim (hsrc : t.req.src = hostAgent) (hkind : t.req.kind = .claim) :
    d.serve h slot t = d.setTxn h slot (some { t with stage := .fetch, await := [] }) := by
  unfold Dev.serve
  dsimp only
  rw [hkind]
  dsimp only
  rw [if_pos hsrc]
  rfl

/-- So does a request served by its stage alone. -/
theorem Dev.serve_plain (hkind : t.req.kind = .memInvS ∨ t.req.kind = .snpInv ∨ t.req.kind = .snpData ∨ t.req.kind = .snpCur) :
    d.serve h slot t = d.setTxn h slot (some { t with stage := .fetch, await := [] }) := by
  unfold Dev.serve
  dsimp only
  obtain hk | hk | hk | hk := hkind <;> rw [hk]

/-- A shared copy of the host is noted (Table 8.9). -/
theorem Dev.deliver_memInvS (hsec : sec < 4) (hmask : t.req.smask = secMask sec) (hfwded : t.fwded = []) (hkind : t.req.kind = .memInvS) :
    d.deliver h slot t = ((d.updSector t.req.line sec fun y => { y with hs := 1 }).emit (.memCmp t.req.tag .S)).setTxn h slot
      (some { t with stage := .close, await := t.post, post := [] }) := by
  have hserved : (secsOf t.req.smask).filter (fun s => !t.fwded.contains s) = [sec] := Txn.served_one hsec hmask hfwded
  unfold Dev.deliver
  dsimp only
  rw [hkind, hserved]
  rfl

/-- A clean eviction of the host (Table 8.9). -/
theorem Dev.serveEvict_host {m : ReqMsg} (hsec : sec < 4) (hmask : m.smask = secMask sec) (hsrc : m.src = hostAgent) (hkind : m.kind = .evictClean) :
    d.serveEvict m = (d.updSector m.line sec fun y => { y with hs := 0 }).emit (.memCmp m.tag m.mval) := by
  have hsecs : secsOf m.smask = [sec] := by rw [hmask, secsOf_secMask hsec]
  simp [Dev.serveEvict, hsecs, hkind, hsrc]

theorem Dev.SameHomes.giveHost (d : Dev) (q : ReqMsg) (sec : Nat) (x : CSector) (b : Bool) : d.SameHomes (d.giveHost q sec x b) := by
  unfold Dev.giveHost
  split
  · exact (Dev.SameHomes.updSector ..).trans (.emit ..)
  · exact (Dev.SameHomes.updSector ..).trans (.emit ..)
  · exact (Dev.SameHomes.updSector ..).trans (.emit ..)
  · exact .emit ..

end

end Sys2Proof.Machine

namespace Sys2Proof.Proofs

section
variable {s : State} {m : HostReq} {dpa : Nat} {kind : ReqKind} {origin : Origin} {x : CSector}

/-- The transaction of a host's request as its sectors are delivered. -/
def deliverTxn (q : ReqMsg) : Txn := { servedTxn q with stage := .fetch }

/-- The transaction as it leaves its line. -/
def closeTxn (q : ReqMsg) : Txn := { servedTxn q with stage := .close }

/-- The block c stands, for the home of line's requests, as d with a transaction under way. -/
structure Underway (d c : Dev) (q : ReqMsg) : Prop where
  idle : c.homeIdle (d.homeOf (lineDpa q.line)) [(0, some (deliverTxn q))]
  out : c.out = d.out
  net : c.net = d.net
  dir : d.SameDir c

section
variable {d c : Dev} {q : ReqMsg} {b : Bool}

/-- An answer to the host goes out and the directory stays. -/
theorem Underway.answers (hu : Underway d c q) (hfree : d.lineBusy q.line = false) (o : Out) :
    ((c.emit o).closed (d.homeOf (lineDpa q.line)) (closeTxn q)).out = o :: d.out ∧
      ((c.emit o).closed (d.homeOf (lineDpa q.line)) (closeTxn q)).net = d.net ∧
      ((c.emit o).closed (d.homeOf (lineDpa q.line)) (closeTxn q)).dir = (d.setEntry (d.dirEntry q.line)).dir := by
  obtain ⟨hidle, hout, hnet, hdir⟩ := hu
  have hsame : d.SameDir (c.emit o) := hdir.trans ⟨rfl, rfl, rfl⟩
  refine ⟨?_, ?_, ?_⟩
  · rw [Dev.closed_out, ← hout]
    rfl
  · rw [Dev.closed_net, ← hnet]
    rfl
  · exact Dev.closed_dir_same (hsame.homeOf _) ((Dev.SameHomes.emit c o).homeIdle hidle) rfl hsame hfree

/-- An answer to the host goes out and the directory notes what it keeps. -/
theorem Underway.answers_written (hu : Underway d c q) (hfree : d.lineBusy q.line = false) (sec : Nat) (f : DirSector → DirSector) (o : Out) :
    (((c.updSector q.line sec f).emit o).closed (d.homeOf (lineDpa q.line)) (closeTxn q)).out = o :: d.out ∧
      (((c.updSector q.line sec f).emit o).closed (d.homeOf (lineDpa q.line)) (closeTxn q)).net = d.net ∧
      (((c.updSector q.line sec f).emit o).closed (d.homeOf (lineDpa q.line)) (closeTxn q)).dir = (d.updSector q.line sec f).dir := by
  obtain ⟨hidle, hout, hnet, hdir⟩ := hu
  have hwritten := (Dev.SameHomes.updSector c q.line sec f).trans (.emit _ o)
  refine ⟨?_, ?_, ?_⟩
  · rw [Dev.closed_out, ← hout, ← c.updSector_out q.line sec f]
    rfl
  · rw [Dev.closed_net, ← hnet, ← c.updSector_net q.line sec f]
    rfl
  · have hbusy : c.lineBusy q.line = true := by
      rw [← hdir.homeOf] at hidle
      exact hidle.lineBusy rfl
    have hhome : ((c.updSector q.line sec f).emit o).homeOf (lineDpa q.line) = d.homeOf (lineDpa q.line) := by
      obtain ⟨dir, hupd⟩ := c.updSector_eq q.line sec f
      rw [hupd, ← hdir.homeOf]
      rfl
    exact Dev.closed_dir_written hhome (hwritten.homeIdle hidle) rfl hbusy ⟨rfl, rfl, rfl⟩ hdir.symm hfree

end

/-- The host's request is given the sector that the slice holds. -/
theorem host_served (hmay : s.dev.hostMay m.hpa dpa) (hx : s.dev.waySec (s.dev.sliceNo (dpa / 256)) (dpa / 256) (dpa / 64 % 4) = x) (hst : x.st ≠ .I)
    (herr : x.err = 0) (hkind : kind ∈ [ReqKind.rdShared, .rdOwn, .rdCurrent, .claim]) : ∃ c : Dev, Underway s.dev c (s.dev.hostReqAt m kind origin dpa) ∧
      s.homes (s.dev.hostReq m kind origin) = .next (s.withDev ((c.giveHost (s.dev.hostReqAt m kind origin dpa) (dpa / 64 % 4) x false).closed
        (s.dev.homeOf (lineDpa (dpa / 256))) (closeTxn (s.dev.hostReqAt m kind origin dpa)))) := by
  have hidle := hmay.begun_idle (kind := kind) (origin := origin)
  obtain ⟨c, hserve, hsame, hout, hnet, hdir, hway⟩ : ∃ c : Dev,
      (s.dev.hostBegun m kind origin dpa).serve (s.dev.homeOf (lineDpa (dpa / 256))) 0 (servedTxn (s.dev.hostReqAt m kind origin dpa)) =
        c.setTxn (s.dev.homeOf (lineDpa (dpa / 256))) 0 (some (deliverTxn (s.dev.hostReqAt m kind origin dpa))) ∧
      (s.dev.hostBegun m kind origin dpa).SameHomes c ∧ c.out = s.dev.out ∧ c.net = s.dev.net ∧ s.dev.SameDir c ∧
      c.waySec (s.dev.sliceNo (dpa / 256)) (dpa / 256) (dpa / 64 % 4) = x := by
    have hx' : (s.dev.hostBegun m kind origin dpa).waySec (s.dev.sliceNo (dpa / 256)) (dpa / 256) (dpa / 64 % 4) = x := hx
    by_cases hclaim : kind = .claim
    · exact ⟨_, Dev.serve_claim rfl hclaim, .refl _, rfl, rfl, ⟨rfl, rfl, rfl⟩, hx'⟩
    · have hread : kind = .rdShared ∨ kind = .rdOwn ∨ kind = .rdCurrent := by simpa [hclaim] using hkind
      have hdata := Dev.txnData_slice (d := s.dev.hostBegun m kind origin dpa) (t := servedTxn (s.dev.hostReqAt m kind origin dpa)) rfl
        (Dev.cacheSec_of_way hx' hst) hst herr
      refine ⟨(s.dev.hostBegun m kind origin dpa).countHit, ?_, .countHit _, rfl, rfl, ⟨rfl, rfl, rfl⟩, hx'⟩
      rw [Dev.serve_reads hread, Txn.served_one (sector_lt dpa) rfl rfl, Dev.fetchSecs_found hdata]
      rfl
  have hdeliver : (c.setTxn (s.dev.homeOf (lineDpa (dpa / 256))) 0 (some (deliverTxn (s.dev.hostReqAt m kind origin dpa)))).deliver
      (s.dev.homeOf (lineDpa (dpa / 256))) 0 (deliverTxn (s.dev.hostReqAt m kind origin dpa)) =
      ((c.setTxn (s.dev.homeOf (lineDpa (dpa / 256))) 0 (some (deliverTxn (s.dev.hostReqAt m kind origin dpa)))).giveHost
        (s.dev.hostReqAt m kind origin dpa) (dpa / 64 % 4) x false).setTxn (s.dev.homeOf (lineDpa (dpa / 256))) 0
        (some (closeTxn (s.dev.hostReqAt m kind origin dpa))) := by
    have hreads : kind = .rdShared ∨ kind = .rdOwn ∨ kind = .claim ∨ kind = .rdCurrent :=
      (by decide : ∀ k ∈ [ReqKind.rdShared, .rdOwn, .rdCurrent, .claim], k = .rdShared ∨ k = .rdOwn ∨ k = .claim ∨ k = .rdCurrent) kind hkind
    have hslice : c.sliceNo (dpa / 256) = s.dev.sliceNo (dpa / 256) := hdir.homeOf _
    have hway' : c.waySec (c.sliceNo (dpa / 256)) (dpa / 256) (dpa / 64 % 4) = x := by rw [hslice, hway]
    have hgive : (c.setTxn (s.dev.homeOf (lineDpa (dpa / 256))) 0 (some (deliverTxn (s.dev.hostReqAt m kind origin dpa)))).giveSec
        (s.dev.homeOf (lineDpa (dpa / 256))) 0 (deliverTxn (s.dev.hostReqAt m kind origin dpa)) (dpa / 64 % 4) =
        (c.setTxn (s.dev.homeOf (lineDpa (dpa / 256))) 0 (some (deliverTxn (s.dev.hostReqAt m kind origin dpa)))).giveHost
          (s.dev.hostReqAt m kind origin dpa) (dpa / 64 % 4) x false :=
      Dev.giveSec_host (t := deliverTxn (s.dev.hostReqAt m kind origin dpa)) rfl rfl hway' hst herr
    rw [Dev.deliver_reads hreads, Txn.served_one (sector_lt dpa) rfl rfl, List.foldl_cons, List.foldl_nil, hgive]
    rfl
  obtain ⟨hsettles, hfree⟩ := hidle.passes rfl rfl hserve ⟨rfl, rfl⟩ hsame hdeliver ⟨rfl, rfl⟩ (.giveHost ..)
  have hsilent : kind ∈ silentKinds := (by decide : ∀ k ∈ [ReqKind.rdShared, .rdOwn, .rdCurrent, .claim], k ∈ silentKinds) kind hkind
  refine ⟨_, ⟨(hsame.homeIdle hidle).setTxn 0 _, hout, hnet, hdir.trans ⟨rfl, rfl, rfl⟩⟩, State.hostReq_silent hmay hsilent ?_ hsettles hfree⟩
  rintro rfl
  exact absurd hkind (by decide)

theorem line_free (hmay : s.dev.hostMay m.hpa dpa) : s.dev.lineBusy (dpa / 256) = false := by
  obtain ⟨-, -, -, -, -, -, -, hidle, -⟩ := hmay
  exact hidle.lineIdle (.inl rfl)

/-- The host's reads by what they ask for. -/
theorem host_reads {gets : MetaValue} {hs : Option Nat} (hmay : s.dev.hostMay m.hpa dpa)
    (hx : s.dev.waySec (s.dev.sliceNo (dpa / 256)) (dpa / 256) (dpa / 64 % 4) = x) (hst : x.st ≠ .I) (herr : x.err = 0)
    (hkind : (kind, gets, hs) ∈ [(ReqKind.rdCurrent, MetaValue.I, (none : Option Nat)), (.rdShared, .S, some 1), (.rdOwn, .A, some 2)]) :
    ∃ e : Dev, s.homes (s.dev.hostReq m kind origin) = .next (s.withDev e) ∧ e.out = .memData m.tag gets x.data x.info.poison :: s.dev.out ∧
      e.net = s.dev.net ∧ e.dir = match hs with
        | none => (s.dev.setEntry (s.dev.dirEntry (dpa / 256))).dir
        | some v => (s.dev.updSector (dpa / 256) (dpa / 64 % 4) fun y => { y with hs := v, own := if v = 2 then 0x3FF else y.own }).dir := by
  have hfree := line_free hmay
  simp only [List.mem_cons, Prod.mk.injEq, List.not_mem_nil, or_false] at hkind
  obtain ⟨rfl, rfl, rfl⟩ | ⟨rfl, rfl, rfl⟩ | ⟨rfl, rfl, rfl⟩ := hkind
  · obtain ⟨c, hu, hrun⟩ := host_served (kind := .rdCurrent) (origin := origin) hmay hx hst herr (by decide)
    have hgive : c.giveHost (s.dev.hostReqAt m .rdCurrent origin dpa) (dpa / 64 % 4) x false = c.emit (.memData m.tag .I x.data x.info.poison) :=
      congrArg (fun p => c.emit (.memData m.tag .I x.data p)) (Bool.or_false _)
    rw [hgive] at hrun
    exact ⟨_, hrun, hu.answers hfree _⟩
  · obtain ⟨c, hu, hrun⟩ := host_served (kind := .rdShared) (origin := origin) hmay hx hst herr (by decide)
    have hgive : c.giveHost (s.dev.hostReqAt m .rdShared origin dpa) (dpa / 64 % 4) x false =
        (c.updSector (dpa / 256) (dpa / 64 % 4) fun y => { y with hs := 1 }).emit (.memData m.tag .S x.data x.info.poison) :=
      congrArg (fun p => Dev.emit _ (.memData m.tag .S x.data p)) (Bool.or_false _)
    rw [hgive] at hrun
    exact ⟨_, hrun, hu.answers_written hfree ..⟩
  · obtain ⟨c, hu, hrun⟩ := host_served (kind := .rdOwn) (origin := origin) hmay hx hst herr (by decide)
    have hgive : c.giveHost (s.dev.hostReqAt m .rdOwn origin dpa) (dpa / 64 % 4) x false =
        (c.updSector (dpa / 256) (dpa / 64 % 4) fun y => { y with ds := .I, own := 0x3FF, hs := 2 }).emit
          (.memData m.tag .A x.data x.info.poison) :=
      congrArg (fun p => Dev.emit _ (.memData m.tag .A x.data p)) (Bool.or_false _)
    rw [hgive] at hrun
    obtain ⟨hout, hnet, hdir⟩ := hu.answers_written hfree (dpa / 64 % 4) (fun y => { y with ds := .I, own := 0x3FF, hs := 2 })
      (.memData m.tag .A x.data x.info.poison)
    refine ⟨_, hrun, hout, hnet, hdir.trans (congrArg Dev.dir ?_)⟩
    exact Dev.updSector_congr (congrArg (fun ds => DirSector.mk ds 0x3FF 2) hmay.unowned.symm)

/-- MemInv with A or S: a claim, or a shared copy noted. -/
theorem host_claims (hmay : s.dev.hostMay m.hpa dpa) (hx : s.dev.waySec (s.dev.sliceNo (dpa / 256)) (dpa / 256) (dpa / 64 % 4) = x)
    (hst : x.st ≠ .I) (herr : x.err = 0) : ∃ e : Dev, s.homes (s.dev.hostReq m .claim) = .next (s.withDev e) ∧
      e.out = .memCmp m.tag .A :: s.dev.out ∧ e.net = s.dev.net ∧
      e.dir = (s.dev.updSector (dpa / 256) (dpa / 64 % 4) fun y => { y with ds := .I, own := 0x3FF, hs := 2 }).dir := by
  obtain ⟨c, hu, hrun⟩ := host_served (kind := .claim) (origin := .load) hmay hx hst herr (by decide)
  exact ⟨_, hrun, hu.answers_written (line_free hmay) ..⟩

theorem host_shares (hmay : s.dev.hostMay m.hpa dpa) (hmval : m.mval ≠ .I) : ∃ e : Dev, s.homes (s.dev.hostReq m .memInvS) = .next (s.withDev e) ∧
      e.out = .memCmp m.tag .S :: s.dev.out ∧ e.net = s.dev.net ∧
      e.dir = (s.dev.updSector (dpa / 256) (dpa / 64 % 4) fun y => { y with hs := 1 }).dir := by
  have hidle := hmay.begun_idle (kind := .memInvS) (origin := .load)
  have hserve := Dev.serve_plain (d := s.dev.hostBegun m .memInvS .load dpa) (h := s.dev.homeOf (lineDpa (dpa / 256))) (slot := 0)
    (t := servedTxn (s.dev.hostReqAt m .memInvS .load dpa)) (.inl rfl)
  have hdeliver := Dev.deliver_memInvS (d := (s.dev.hostBegun m .memInvS .load dpa).setTxn (s.dev.homeOf (lineDpa (dpa / 256))) 0
    (some (deliverTxn (s.dev.hostReqAt m .memInvS .load dpa)))) (h := s.dev.homeOf (lineDpa (dpa / 256))) (slot := 0)
    (t := deliverTxn (s.dev.hostReqAt m .memInvS .load dpa)) (sector_lt dpa) rfl rfl rfl
  obtain ⟨hsettles, hfree⟩ := hidle.passes rfl rfl hserve ⟨rfl, rfl⟩ (.refl _) hdeliver ⟨rfl, rfl⟩ ((Dev.SameHomes.updSector ..).trans (.emit ..))
  have hu : Underway s.dev ((s.dev.hostBegun m .memInvS .load dpa).setTxn (s.dev.homeOf (lineDpa (dpa / 256))) 0
      (some (deliverTxn (s.dev.hostReqAt m .memInvS .load dpa)))) (s.dev.hostReqAt m .memInvS .load dpa) :=
    ⟨hidle.setTxn 0 _, rfl, rfl, ⟨rfl, rfl, rfl⟩⟩
  exact ⟨_, State.hostReq_silent hmay (by decide) (fun _ => hmval) hsettles hfree, hu.answers_written (line_free hmay) ..⟩

/-- MemClnEvct: the directory forgets the host's copy. -/
theorem host_evicts (hmay : s.dev.hostMay m.hpa dpa) : ∃ e : Dev, s.homes (s.dev.hostReq m .evictClean) = .next (s.withDev e) ∧
    e.out = .memCmp m.tag m.mval :: s.dev.out ∧ e.net = s.dev.net ∧
    e.dir = (s.dev.updSector (dpa / 256) (dpa / 64 % 4) fun y => { y with hs := 0 }).dir := by
  have hopens := hmay.opens (kind := .evictClean) (origin := .load)
  have hserve := Dev.serveEvict_host (d := s.dev.opened (s.dev.homeOf (lineDpa (dpa / 256)))) (m := s.dev.hostReqAt m .evictClean .load dpa)
    (sector_lt dpa) rfl rfl rfl
  have hidle := ((Dev.SameHomes.updSector _ (dpa / 256) (dpa / 64 % 4) fun y => { y with hs := 0 }).trans (.emit _ (.memCmp m.tag m.mval))).homeIdle
    hopens.idle
  have hsame : s.dev.SameDir (s.dev.opened (s.dev.homeOf (lineDpa (dpa / 256)))) := ⟨rfl, rfl, rfl⟩
  refine ⟨_, State.hostReq_starts (kind := .evictClean) hmay (fun hk => ReqKind.noConfusion hk) ReqKind.noConfusion
    ((hopens.evicts (.inr rfl)).trans hserve) (.done (hidle.stands (.inl rfl))) hidle, ?_, ?_, ?_⟩
  · rw [Dev.emit_out, Dev.updSector_out]
    rfl
  · rw [Dev.emit_net, Dev.updSector_net]
    rfl
  · rw [Dev.emit_dir]
    exact (hsame.updSector ((hopens.idle.lineIdle (.inl rfl)).trans (line_free hmay).symm) ..).dir

end

end Sys2Proof.Proofs
end

section
/-! The host's writes of a sector that the slice holds (R262, R273), its early reads (R287) and its conflicts (R272). -/

open Sys2Proof Sys2Proof.Machine

namespace Sys2Proof.Machine

/-! ### A write into the slice -/

section
variable {d : Dev} {h slot sec n line : Nat} {t : Txn} {x : CSector}

theorem Dev.aimInject_none (hinject : d.flt.inject = 0) (agent home : Nat) : d.aimInject agent home = d := by
  unfold Dev.aimInject
  rw [hinject]
  rfl

/-- A home copy in the slice's ways is written there. -/
theorem Dev.homeStore_slice (hinject : d.flt.inject = 0) (hway : (d.waySec (d.sliceNo line) line sec).st ≠ .I) (y : Sector) (i : SectorMeta) (alloc : Bool) :
    d.homeStore line sec y i alloc = (d.sideRemove line).cacheSet (d.sliceNo line) line sec { st := .M, data := y, info := i, err := 0 } := by
  unfold Dev.homeStore
  dsimp only
  rw [Dev.takeInject_none (d := d.sideRemove line) hinject]
  simp [Dev.waySec_sideRemove, hway]

/-- What a write of the host leaves in the slice. -/
def ReqMsg.merged (m : ReqMsg) (sec : Nat) (x : CSector) : CSector :=
  let p := mergeWrite x.data x.info (m.payOf sec).data (if m.kind = .wrFull then BitVec.allOnes 64 else m.maskOf sec) (m.payOf sec).info.poison
  { st := .M, data := p.1, info := p.2, err := 0 }

/-- The block with the home copy written. -/
def Dev.merge (d : Dev) (m : ReqMsg) (sec : Nat) (x : CSector) : Dev :=
  ((d.sideRemove m.line).sideRemove m.line).cacheSet (d.sliceNo m.line) m.line sec (ReqMsg.merged m sec x)

theorem Dev.SameHomes.merge (d : Dev) (m : ReqMsg) (sec : Nat) (x : CSector) : d.SameHomes (d.merge m sec x) :=
  ((Dev.SameHomes.sideRemove ..).trans (.sideRemove ..)).trans (.cacheSet ..)

theorem Dev.merge_eq (d : Dev) (m : ReqMsg) (sec : Nat) (x : CSector) : ∃ ks, d.merge m sec x = { d with caches := ks } := by
  obtain ⟨ks, hset⟩ := ((d.sideRemove m.line).sideRemove m.line).cacheSet_eq (d.sliceNo m.line) m.line sec (ReqMsg.merged m sec x)
  exact ⟨ks, hset⟩

theorem Dev.serve_merges (hsec : sec < 4) (hmask : t.req.smask = secMask sec) (hkind : t.req.kind = .wrFull ∨ t.req.kind = .wrPart)
    (hfwded : t.fwded = []) (hbox : t.req.line < mailboxLine 0) (hhost : isHost (lineDpa t.req.line) = false) (hinject : d.flt.inject = 0)
    (hway : d.waySec (d.sliceNo t.req.line) t.req.line sec = x) (hst : x.st ≠ .I) :
    d.serve h slot t = (d.merge t.req sec x).setTxn h slot (some { t with stage := .fetch, await := [] }) := by
  have hserved : (secsOf t.req.smask).filter (fun s => !t.fwded.contains s) = [sec] := Txn.served_one hsec hmask hfwded
  have htrigger : d.mailboxTrigger t.req = d := by simp [Dev.mailboxTrigger, hbox]
  have hwrite : d.writeSec h slot t.req sec = ([], d.merge t.req sec x) := by
    have hway' : (d.sideRemove t.req.line).waySec ((d.sideRemove t.req.line).sliceNo t.req.line) t.req.line sec = x :=
      (d.waySec_sideRemove ..).trans hway
    have haim := Dev.aimInject_none (d := d.sideRemove t.req.line) hinject t.req.src ((d.sideRemove t.req.line).homeOf (lineDpa t.req.line))
    unfold Dev.writeSec
    dsimp only
    rw [hhost, hway', haim, if_neg Bool.false_ne_true, if_pos (bne_iff_ne.mpr hst)]
    obtain ⟨y, i, hmerge⟩ : ∃ y i, mergeWrite x.data x.info (t.req.payOf sec).data
        (if t.req.kind = .wrFull then BitVec.allOnes 64 else t.req.maskOf sec) (t.req.payOf sec).info.poison = (y, i) := ⟨_, _, rfl⟩
    have hstore := Dev.homeStore_slice (d := d.sideRemove t.req.line) (sec := sec) hinject (by rwa [hway']) y i false
    have hmerged : ReqMsg.merged t.req sec x = { st := .M, data := y, info := i, err := 0 } := by
      unfold ReqMsg.merged
      dsimp only
      rw [hmerge]
    rw [hmerge]
    dsimp only
    rw [hstore, Dev.merge, hmerged]
    rfl
  unfold Dev.serve
  dsimp only
  obtain hk | hk := hkind <;> rw [hk, hserved, htrigger, List.foldl_cons, List.foldl_nil, hwrite] <;> rfl

/-- The write completes (Table 8.9). -/
theorem Dev.deliver_write (hsec : sec < 4) (hmask : t.req.smask = secMask sec) (hkind : t.req.kind = .wrFull ∨ t.req.kind = .wrPart)
    (hfwded : t.fwded = []) (hsrc : t.req.src = hostAgent) :
    d.deliver h slot t = ((d.updSector t.req.line sec fun y => if t.req.kind = .wrFull then { y with hs := t.req.mval.hs } else y).emit
      (.memCmp t.req.tag t.req.mval)).setTxn h slot (some { t with stage := .close, await := t.post, post := [] }) := by
  have hserved : (secsOf t.req.smask).filter (fun s => !t.fwded.contains s) = [sec] := Txn.served_one hsec hmask hfwded
  have hsecs : secsOf t.req.smask = [sec] := by rw [hmask, secsOf_secMask hsec]
  unfold Dev.deliver
  dsimp only
  obtain hk | hk := hkind <;> rw [hk, hserved, hsecs, if_pos hsrc] <;> rfl

theorem Dev.cacheSec_merge (m : ReqMsg) (hway : d.waySec (d.sliceNo m.line) m.line sec = x) (hst : x.st ≠ .I) :
    (d.merge m sec x).cacheSec (d.sliceNo m.line) m.line sec = ReqMsg.merged m sec x := by
  refine Dev.cacheSec_cacheSet_way ?_ MState.noConfusion
  have htwice : ((d.sideRemove m.line).sideRemove m.line).waySec (d.sliceNo m.line) m.line sec = d.waySec (d.sliceNo m.line) m.line sec :=
    (Dev.waySec_sideRemove (d.sideRemove m.line) ..).trans (Dev.waySec_sideRemove ..)
  rw [htwice, hway]
  exact hst

theorem Dev.cacheSec_updSector (d : Dev) (l k : Nat) (f : DirSector → DirSector) : (d.updSector l k f).cacheSec n line sec = d.cacheSec n line sec := by
  obtain ⟨dir, hdir⟩ := d.updSector_eq l k f
  rw [hdir]
  rfl

theorem Dev.cacheSec_emit (d : Dev) (o : Out) : (d.emit o).cacheSec n line sec = d.cacheSec n line sec := rfl

theorem Dev.cacheSec_setTxn (d : Dev) (h slot : Nat) (t : Txn) : (d.setTxn h slot (some t)).cacheSec n line sec = d.cacheSec n line sec := rfl

end

/-! ### The request of a write -/

theorem hostToReq_payOf (m : HostReq) (kind : ReqKind) (dpa : Nat) : (hostToReq m kind dpa).payOf (dpa / 64 % 4) =
    { sec := dpa / 64 % 4, data := m.data, info := { SectorMeta.zero with poison := m.poison } } := by
  simp [ReqMsg.payOf, hostToReq]

/-- The block once the host's write has begun. -/
def Dev.writeBegun (d : Dev) (m : HostReq) (kind : ReqKind) (dpa : Nat) : Dev :=
  (((d.opened (d.homeOf (lineDpa (dpa / 256)))).setTxn (d.homeOf (lineDpa (dpa / 256))) 0 (some (entryTxn (d.hostReqAt m kind .load dpa)))).updSector
    (dpa / 256) (dpa / 64 % 4) fun y => { y with ds := .I, own := 0x3FF }).setTxn (d.homeOf (lineDpa (dpa / 256))) 0
      (some (servedTxn (d.hostReqAt m kind .load dpa)))

theorem Dev.writeBegun_eq (d : Dev) (m : HostReq) (kind : ReqKind) (dpa : Nat) : ∃ homes dir, d.writeBegun m kind dpa = { d with homes := homes, dir := dir } := by
  obtain ⟨dir, hdir⟩ := ((d.opened (d.homeOf (lineDpa (dpa / 256)))).setTxn (d.homeOf (lineDpa (dpa / 256))) 0
    (some (entryTxn (d.hostReqAt m kind .load dpa)))).updSector_eq (dpa / 256) (dpa / 64 % 4) fun y => { y with ds := .I, own := 0x3FF }
  rw [Dev.writeBegun, hdir]
  exact ⟨_, _, rfl⟩

theorem Dev.hostMay.writeBegun_idle {d : Dev} {m : HostReq} {kind : ReqKind} {dpa : Nat} (hmay : d.hostMay m.hpa dpa) :
    (d.writeBegun m kind dpa).homeIdle (d.homeOf (lineDpa (dpa / 256))) [(0, some (servedTxn (d.hostReqAt m kind .load dpa)))] := by
  obtain ⟨-, -, -, -, -, -, -, hidle, -⟩ := hmay
  exact ((Dev.SameHomes.updSector ..).homeIdle (hidle.opened.setTxn 0 _)).setTxn 0 _

theorem hostToReq_maskOf (m : HostReq) (kind : ReqKind) (dpa : Nat) : (hostToReq m kind dpa).maskOf (dpa / 64 % 4) = m.bmask := by
  have hsec := sector_lt dpa
  show ((BitVec.setWidth 256 m.bmask) <<< (64 * (dpa / 64 % 4))).extractLsb' (64 * (dpa / 64 % 4)) 64 = m.bmask
  ext i hi
  have hin : 64 * (dpa / 64 % 4) + i < 256 := by omega
  simp [hin, hi]

end Sys2Proof.Machine

namespace Sys2Proof.Proofs

section
variable {s : State} {m : HostReq} {dpa : Nat} {kind : ReqKind} {x : CSector}

/-- A write of the host leaves its bytes in the slice. -/
theorem host_writes (hmay : s.dev.hostMay m.hpa dpa) (hx : s.dev.waySec (s.dev.sliceNo (dpa / 256)) (dpa / 256) (dpa / 64 % 4) = x) (hst : x.st ≠ .I)
    (hmval : m.mval = .I) (hhs : ((s.dev.dirEntry (dpa / 256)).sector (dpa / 64 % 4)).hs = 0) (hkind : kind = .wrFull ∨ kind = .wrPart) :
    ∃ e : Dev, s.homes (s.dev.hostReq m kind) = .next (s.withDev e) ∧ e.out = .memCmp m.tag .I :: s.dev.out ∧ e.net = s.dev.net ∧
      e.cacheSec (s.dev.sliceNo (dpa / 256)) (dpa / 256) (dpa / 64 % 4) = ReqMsg.merged (s.dev.hostReqAt m kind .load dpa) (dpa / 64 % 4) x := by
  have hopens := hmay.opens (kind := kind) (origin := .load)
  have hds := hmay.unowned
  obtain ⟨-, -, -, -, -, -, -, -, -, -, hhost, hbox, ⟨k, hway, -⟩, -⟩ := id hmay
  have hkinds : kind ≠ .updRow ∧ kind ≠ .memInvS ∧ kind ≠ .evictDirty ∧ kind ≠ .evictClean := by
    obtain rfl | rfl := hkind <;> exact ⟨ReqKind.noConfusion, ReqKind.noConfusion, ReqKind.noConfusion, ReqKind.noConfusion⟩
  obtain ⟨hrow, hinv, hdirty, hclean⟩ := hkinds
  have hclean2 : ((s.dev.dirEntry (dpa / 256)).sector (dpa / 64 % 4)).hs ≠ 2 := by rw [hhs]; decide
  have hstart : (s.dev.opened (s.dev.homeOf (lineDpa (dpa / 256)))).startReq (s.dev.homeOf (lineDpa (dpa / 256))) (s.dev.hostReqAt m kind .load dpa) =
      s.dev.writeBegun m kind dpa :=
    (hopens.begins (fun _ _ => ⟨hclean2, hmval⟩) ⟨hdirty, hclean⟩ fun _ => ⟨k, hway⟩).trans
      (Dev.begin_silent hopens.sec_lt hopens.smask rfl (Dev.planSec_write rfl hds hkind))
  have hidle := hmay.writeBegun_idle (kind := kind)
  obtain ⟨homes, dir, hbegun⟩ := s.dev.writeBegun_eq m kind dpa
  obtain ⟨ks, hmerge⟩ := (s.dev.writeBegun m kind dpa).merge_eq (s.dev.hostReqAt m kind .load dpa) (dpa / 64 % 4) x
  have hslice : (s.dev.writeBegun m kind dpa).sliceNo (dpa / 256) = s.dev.sliceNo (dpa / 256) := by rw [hbegun]; rfl
  have hx' : (s.dev.writeBegun m kind dpa).waySec ((s.dev.writeBegun m kind dpa).sliceNo (dpa / 256)) (dpa / 256) (dpa / 64 % 4) = x := by
    rw [hslice, hbegun]
    exact hx
  have hserve := Dev.serve_merges (h := s.dev.homeOf (lineDpa (dpa / 256))) (slot := 0) (t := servedTxn (s.dev.hostReqAt m kind .load dpa)) (sector_lt dpa)
    rfl hkind rfl hbox hhost hidle.inject hx' hst
  have hdeliver := Dev.deliver_write (d := ((s.dev.writeBegun m kind dpa).merge (s.dev.hostReqAt m kind .load dpa) (dpa / 64 % 4) x).setTxn
    (s.dev.homeOf (lineDpa (dpa / 256))) 0 (some (deliverTxn (s.dev.hostReqAt m kind .load dpa)))) (h := s.dev.homeOf (lineDpa (dpa / 256))) (slot := 0)
    (t := deliverTxn (s.dev.hostReqAt m kind .load dpa)) (sector_lt dpa) rfl hkind rfl rfl
  obtain ⟨hsettles, hfree⟩ := hidle.passes rfl rfl hserve ⟨rfl, rfl⟩ (.merge ..) hdeliver ⟨rfl, rfl⟩ ((Dev.SameHomes.updSector ..).trans (.emit ..))
  refine ⟨_, State.hostReq_starts hmay (fun hk => absurd hk hinv) hrow hstart hsettles hfree, ?_, ?_, ?_⟩
  · rw [Dev.closed_out, Dev.emit_out, Dev.updSector_out, Dev.setTxn_out, hmerge, hbegun]
    show Out.memCmp m.tag m.mval :: s.dev.out = _
    rw [hmval]
  · rw [Dev.closed_net, Dev.emit_net, Dev.updSector_net, Dev.setTxn_net, hmerge, hbegun]
  · have hmerged := Dev.cacheSec_merge (s.dev.hostReqAt m kind .load dpa) hx' hst
    rw [show (s.dev.writeBegun m kind dpa).sliceNo (s.dev.hostReqAt m kind .load dpa).line = s.dev.sliceNo (dpa / 256) from hslice] at hmerged
    rw [Dev.cacheSec_closed, Dev.cacheSec_emit, Dev.cacheSec_updSector, Dev.cacheSec_setTxn]
    exact hmerged

theorem merged_full (d : Dev) (m : HostReq) (dpa : Nat) (x : CSector) :
    (ReqMsg.merged (d.hostReqAt m .wrFull .load dpa) (dpa / 64 % 4) x).data = if m.poison then 0 else m.data := by
  have hpay : (d.hostReqAt m .wrFull .load dpa).payOf (dpa / 64 % 4) = _ := hostToReq_payOf m .wrFull dpa
  have hkind : (d.hostReqAt m .wrFull .load dpa).kind = .wrFull := rfl
  unfold ReqMsg.merged
  dsimp only
  rw [hpay, if_pos hkind]
  simp only [mergeWrite, decide_true, if_true]

theorem merged_part (d : Dev) (m : HostReq) (dpa : Nat) (x : CSector) :
    (ReqMsg.merged (d.hostReqAt m .wrPart .load dpa) (dpa / 64 % 4) x).data = (mergeWrite x.data x.info m.data m.bmask m.poison).1 := by
  have hpay : (d.hostReqAt m .wrPart .load dpa).payOf (dpa / 64 % 4) = _ := hostToReq_payOf m .wrPart dpa
  have hmask : (d.hostReqAt m .wrPart .load dpa).maskOf (dpa / 64 % 4) = m.bmask := hostToReq_maskOf m .wrPart dpa
  unfold ReqMsg.merged
  dsimp only
  rw [hpay, hmask]
  rfl

end

/-- An early read of the host brings the sector into the side buffer. -/
theorem host_reads_early {s : State} {m : HostReq} {dpa : Nat} (hup : s.dev.hl.state = 2) (hdpa : s.dev.hostToDpa m.hpa = some dpa)
    (howned : s.dev.ownedRegion dpa = false) (hfree : s.dev.lineBusy (dpa / 256) = false) (habsent : (s.dev.sliceSec (dpa / 256) (dpa / 64 % 4)).st = .I)
    (hpf : (s.dev.cache (s.dev.sliceNo (dpa / 256))).pfEn = true) (hready : s.dev.tierReady dpa = true) (hclean : Map.get 0 s.dev.symErr (dpa / 64) = 0) :
    exec (.memSpecRd m) s = .next (s.withDev (s.dev.sideFill (s.dev.sliceNo (dpa / 256)) 32 (dpa / 256) (dpa / 64 % 4)
      { st := .E, data := s.dev.secData (dpa / 64), info := s.dev.secInfo (dpa / 64), err := 0 })) := by
  have hread : s.dev.memRead (dpa / 64) = (s.dev.secData (dpa / 64), s.dev.secInfo (dpa / 64), s.dev) := by
    simp [Dev.memRead, hclean]
  have hdev : s.dev.memSpecRd m = s.dev.sideFill (s.dev.sliceNo (dpa / 256)) 32 (dpa / 256) (dpa / 64 % 4)
      { st := .E, data := s.dev.secData (dpa / 64), info := s.dev.secInfo (dpa / 64), err := 0 } := by
    unfold Dev.memSpecRd
    rw [hdpa]
    dsimp only
    rw [howned, hfree, habsent, hpf, hready, hread, hup]
    rfl
  exact congrArg s.goes hdev

/-- With the link down no request of the host arrives. -/
theorem host_link_down {s : State} {m : HostReq} (hdown : s.dev.hl.state ≠ 2) (hquiet : s.dev.homesQuiet) :
    ∀ c ∈ ([.memRd, .memRdData, .memRdFwd, .memInv, .memClnEvct, .memWr, .memWrPtl, .memSpecRd] : List (HostReq → Instr)),
      exec (c m) s = .next s := by
  have hreq (kind : ReqKind) (origin : Origin) : s.homes (s.dev.hostReq m kind origin) = .next s := by
    rw [Dev.hostReq_down hdown]
    exact State.homes_quiet hquiet
  have hinv : s.homes (s.dev.memInv m) = .next s := by
    unfold Dev.memInv
    split <;> exact hreq ..
  have hspec : s.dev.memSpecRd m = s.dev := if_pos hdown
  intro c hc
  simp only [List.mem_cons, List.not_mem_nil, or_false] at hc
  obtain rfl | rfl | rfl | rfl | rfl | rfl | rfl | rfl := hc
  · exact hreq ..
  · exact hreq ..
  · exact hreq ..
  · exact hinv
  · exact hreq ..
  · exact hreq ..
  · exact hreq ..
  · exact congrArg s.goes hspec

/-- A read command of the host, by the kind of request it becomes. -/
theorem host_read_command {s : State} {m : HostReq} {dpa : Nat} {x : CSector} {c : HostReq → Instr} {kind : ReqKind} {origin : Origin} {gets : MetaValue}
    {hs : Option Nat} (hexec : exec (c m) s = s.homes (s.dev.hostReq m kind origin)) (hmay : s.dev.hostMay m.hpa dpa)
    (hx : s.dev.waySec (s.dev.sliceNo (dpa / 256)) (dpa / 256) (dpa / 64 % 4) = x) (hst : x.st ≠ .I) (herr : x.err = 0)
    (hkind : (kind, gets, hs) ∈ [(ReqKind.rdCurrent, MetaValue.I, (none : Option Nat)), (.rdShared, .S, some 1), (.rdOwn, .A, some 2)]) :
    ∃ e : Dev, exec (c m) s = .next (s.withDev e) ∧ e.out = .memData m.tag gets x.data x.info.poison :: s.dev.out ∧
      e.net = s.dev.net ∧ e.dir = match hs with
        | none => (s.dev.setEntry (s.dev.dirEntry (dpa / 256))).dir
        | some v => (s.dev.updSector (dpa / 256) (dpa / 64 % 4) fun y => { y with hs := v, own := if v = 2 then 0x3FF else y.own }).dir := by
  rw [hexec]
  exact host_reads hmay hx hst herr hkind

/-- MemInv becomes a claim or a shared copy's note, or nothing. -/
theorem exec_memInv {s : State} {m : HostReq} (hasI : s.dev.hostAsI = false) :
    exec (.memInv m) s = s.homes (s.dev.hostReq m (if m.mval = .A then .claim else .memInvS)) := by
  show s.homes (s.dev.memInv m) = _
  unfold Dev.memInv
  rw [hasI]
  cases m.mval <;> rfl

/-- Settles O35: each command enters its idle home as a request that asks nothing of an L1, so the home's moves serve it, deliver it and
free its line; what the directory's entry was written while the line was busy stands as though written once. -/
theorem hostRequests : Obligations.HostRequests := by
  unfold Obligations.HostRequests
  refine ⟨?_, fun s m dpa => host_reads_early, fun s m => ⟨fun dpa hdpa => ?_, host_link_down⟩⟩
  · intro s m dpa x d line sec n hmay hx hst herr
    have hasI : s.dev.hostAsI = false := by
      obtain ⟨-, hasI, -⟩ := hmay
      exact hasI
    have hread (v : MetaValue) (hv : m.mval = v) : exec (.memRd m) s = s.homes (s.dev.hostReq m (readKind v)) := by rw [← hv]; rfl
    have hdata (v : MetaValue) (hv : m.mval = v) : exec (.memRdData m) s = s.homes (s.dev.hostReq m (if v = .I then .rdCurrent else .rdShared)) := by
      rw [← hv]; rfl
    refine ⟨fun p hp => ?_, fun hmval => ?_, fun hmval => ?_, fun hmval => ?_, host_evicts hmay, fun hmval hhs => ⟨?_, ?_⟩⟩
    · simp only [List.mem_cons, List.not_mem_nil, or_false] at hp
      obtain rfl | rfl | rfl | rfl | rfl | rfl | rfl | rfl | rfl := hp
      · exact fun hv => host_read_command (gets := .I) (hs := none) (hread _ hv) hmay hx hst herr (by decide)
      · exact fun hv => host_read_command (gets := .S) (hs := (some 1)) (hread _ hv) hmay hx hst herr (by decide)
      · exact fun hv => host_read_command (gets := .A) (hs := (some 2)) (hread _ hv) hmay hx hst herr (by decide)
      · exact fun hv => host_read_command (gets := .I) (hs := none) (hdata _ hv) hmay hx hst herr (by decide)
      · exact fun hv => host_read_command (gets := .S) (hs := (some 1)) (hdata _ hv) hmay hx hst herr (by decide)
      · exact fun hv => host_read_command (gets := .S) (hs := (some 1)) (hdata _ hv) hmay hx hst herr (by decide)
      · exact fun _ => host_read_command (gets := .I) (hs := none) (c := .memRdFwd) (kind := .rdCurrent) (origin := .dump) rfl hmay hx hst herr (by decide)
      · exact fun _ => host_read_command (gets := .I) (hs := none) (c := .memRdFwd) (kind := .rdCurrent) (origin := .dump) rfl hmay hx hst herr (by decide)
      · exact fun _ => host_read_command (gets := .I) (hs := none) (c := .memRdFwd) (kind := .rdCurrent) (origin := .dump) rfl hmay hx hst herr (by decide)
    · have hquiet : (d.emit (.memCmp m.tag .I)).homesQuiet := by
        obtain ⟨-, -, -, -, -, -, -, hidle, -⟩ := hmay
        exact hidle.quiet
      rw [exec_memInv hasI, hmval, if_neg MetaValue.noConfusion, Dev.hostReq_memInvI hmay hmval]
      exact State.homes_quiet hquiet
    · rw [exec_memInv hasI, hmval, if_neg MetaValue.noConfusion]
      exact host_shares hmay (by rw [hmval]; exact MetaValue.noConfusion)
    · rw [exec_memInv hasI, hmval, if_pos rfl]
      exact host_claims hmay hx hst herr
    · obtain ⟨e, hrun, hout, hnet, hsec⟩ := host_writes hmay hx hst hmval hhs (.inl rfl)
      exact ⟨e, hrun, hout, hnet, congrArg CSector.st hsec, (congrArg CSector.data hsec).trans (merged_full ..)⟩
    · obtain ⟨e, hrun, hout, hnet, hsec⟩ := host_writes hmay hx hst hmval hhs (.inr rfl)
      exact ⟨e, hrun, hout, hnet, congrArg CSector.st hsec, (congrArg CSector.data hsec).trans (merged_part ..)⟩
  · show s.goes _ = _
    rw [hdpa]
    rfl

end Sys2Proof.Proofs
end

section
/-! Messages to peers leave the rest of the block as it is (R404, R411-R415). -/

open Sys2Proof Sys2Proof.Machine

namespace Sys2Proof.Machine

/-- The blocks differ in the Taruc links and what they have put out alone. -/
def Dev.SameButLinks (d e : Dev) : Prop := ∃ tr out, e = { d with tr := tr, out := out }

namespace Dev.SameButLinks

theorem refl (d : Dev) : d.SameButLinks d := ⟨_, _, rfl⟩

theorem trans {d e f : Dev} (h : d.SameButLinks e) (h' : e.SameButLinks f) : d.SameButLinks f := by
  obtain ⟨tr, out, rfl⟩ := h
  obtain ⟨tr', out', rfl⟩ := h'
  exact ⟨_, _, rfl⟩

theorem foldl {α : Type} {f : Dev → α → Dev} (hf : ∀ (d : Dev) a, d.SameButLinks (f d a)) (l : List α) (d : Dev) :
    d.SameButLinks (l.foldl f d) := by
  induction l generalizing d with
  | nil => exact refl d
  | cons a l ih => exact (hf d a).trans (ih _)

theorem setLnk (d : Dev) (n : Nat) (x : Link) : d.SameButLinks (d.setLnk n x) := ⟨_, _, rfl⟩

theorem emit (d : Dev) (o : Out) : d.SameButLinks (d.emit o) := ⟨_, _, rfl⟩

theorem flitOut (d : Dev) (n : Nat) (f : FlitRec) (bad : Bool) : d.SameButLinks (d.flitOut n f bad) := (emit ..).trans (setLnk ..)

theorem flitNew (d : Dev) (n kind fstart : Nat) (ws : List Word64) : d.SameButLinks (d.flitNew n kind fstart ws) := by
  unfold Dev.flitNew
  dsimp only
  split
  · exact setLnk ..
  · exact (setLnk ..).trans (flitOut ..)

theorem flitMsg (d : Dev) (n : Nat) (m : List Word64) : d.SameButLinks (d.flitMsg n m) := by
  have hflits (l : List (List Word64)) (p : Dev × Bool) : p.1.SameButLinks
      (l.foldl (fun (p : Dev × Bool) ws => (p.1.flitNew n 0 (if p.2 then 0 else 31) ws, false)) p).1 := by
    induction l generalizing p with
    | nil => exact refl p.1
    | cons ws l ih => exact (flitNew ..).trans (ih _)
  exact (setLnk ..).trans (hflits _ (_, true))

theorem giveBack (d : Dev) (n pool len : Nat) : d.SameButLinks (d.giveBack n pool len) := by
  unfold Dev.giveBack
  dsimp only
  split_ifs
  · exact refl d
  · exact (setLnk ..).trans (flitNew ..)
  · exact setLnk ..

theorem passed (d : Dev) (m : OutMsg) : d.SameButLinks (d.passed m) := by
  unfold Dev.passed
  split
  · exact giveBack ..
  · exact refl d

theorem pumpOut (d : Dev) (n k : Nat) : d.SameButLinks (d.pumpOut n k) := by
  induction k generalizing d with
  | zero => exact refl d
  | succ k ih =>
    unfold Dev.pumpOut
    split
    · exact refl d
    · exact (((setLnk ..).trans (flitMsg ..)).trans (passed ..)).trans (ih _)

theorem linkPass (d : Dev) (n : Nat) (m : OutMsg) : d.SameButLinks (d.linkPass n m) := (setLnk ..).trans (pumpOut ..)

theorem deliverMsg (d : Dev) (m : TMsg) : d.SameButLinks (d.deliverMsg m) := ⟨_, _, rfl⟩

theorem sendTo (d : Dev) (ttl : Nat) (m : List Word64) (came : Option (Nat × Nat)) : d.SameButLinks (d.sendTo ttl m came) := by
  have hcount (e : Dev) : e.SameButLinks { e with tr := { e.tr with unreach := e.tr.unreach + 1 } } := ⟨_, _, rfl⟩
  unfold Dev.sendTo
  dsimp only
  split
  · exact linkPass ..
  · refine (passed d { words := m, came := came }).trans ?_
    split_ifs
    · exact refl _
    · exact (hcount _).trans (deliverMsg ..)
    · split
      · exact (hcount _).trans (linkPass ..)
      · exact hcount _

theorem sendMsg (d : Dev) (m : List Word64) : d.SameButLinks (d.sendMsg m) := by
  unfold Dev.sendMsg
  split
  · exact deliverMsg ..
  · exact sendTo ..

theorem ackPeers (d : Dev) : d.SameButLinks d.ackPeers := by
  have hacks : d.SameButLinks { d with tr := { d.tr with acks := d.tr.acks.filter fun a => !!d.owes a.id false } } := ⟨_, _, rfl⟩
  exact hacks.trans (foldl (fun e a => sendMsg ..) ..)

end Dev.SameButLinks

end Sys2Proof.Machine
end

section
/-! The host's snoops of a host line whose sector no L1 owns (R273, Table 8.10). -/

open Sys2Proof Sys2Proof.Machine

namespace Sys2Proof.Machine

/-! ### From the link to the home -/

/-- The request that a snoop of the host becomes. -/
def Dev.snoopReq (d : Dev) (line sec : Nat) (kind : ReqKind) : ReqMsg :=
  { mkReq kind hostAgent line (secMask sec) with issue := d.issueStamp 0 }

/-- The host snoops a sector of an idle line of its own memory that no L1 owns. -/
structure Dev.Snooped (d : Dev) (hpa line sec : Nat) : Prop where
  atLine : line = (hostDpa + hpa) / 256
  atSec : sec = (hostDpa + hpa) / 64 % 4
  up : d.hl.state = 2
  bound : hpa < 2 ^ 52
  notTier : isTier (secDpa line sec) = false
  idle : d.homeIdle (d.homeOf (lineDpa line)) []
  home : d.homeOf (hostDpa + hpa) = d.homeOf (lineDpa line)
  clean : ∀ k, d.dirWay line = some k → (d.dirAt k).err = 0
  unowned : ((d.dirEntry line).sector sec).ds = .I

section
variable {s : State} {d : Dev} {hpa line sec : Nat} {kind : ReqKind}

theorem Dev.Snooped.sec_lt (hs : d.Snooped hpa line sec) : sec < 4 := by
  rw [hs.atSec]
  exact Nat.mod_lt _ (by decide)

theorem Dev.Snooped.opens (hs : d.Snooped hpa line sec) :
    (d.opened (d.homeOf (lineDpa line))).Opens (d.homeOf (lineDpa line)) (d.snoopReq line sec kind) sec := by
  have hsec := hs.sec_lt
  obtain ⟨-, -, hup, -, htier, hidle, -, hclean, -⟩ := hs
  have hcheck : d.checkSec (d.snoopReq line sec kind) sec = none := by
    have hline : (d.snoopReq line sec kind).line = line := rfl
    have hsrc : (d.snoopReq line sec kind).src = hostAgent := rfl
    have hhost : d.hostUp = true := by simp [Dev.hostUp, hup]
    unfold Dev.checkSec
    rw [hline, hsrc, hhost]
    dsimp only
    rw [htier]
    simp
  exact Dev.Opens.opened ⟨hidle, hsec, rfl, hcheck, hclean⟩

/-- The snoop runs from its home's first move. -/
theorem State.hostSnoop_starts (hs : s.dev.Snooped hpa line sec) (hkinds : kind ≠ .updRow ∧ kind.tracks = false ∧ kind ≠ .atomic ∧ kind ≠ .wrFull ∧
      kind ≠ .evictDirty ∧ kind ≠ .evictClean) {n : Nat} {b e : Dev} {txns : Map (Option Txn)}
    (hplan : ((s.dev.opened (s.dev.homeOf (lineDpa line))).setTxn (s.dev.homeOf (lineDpa line)) 0 (some (entryTxn (s.dev.snoopReq line sec kind)))).planSec
      (s.dev.homeOf (lineDpa line)) 0 (s.dev.snoopReq line sec kind) sec = (.none, b))
    (hsettles : Dev.Settles (s.dev.homeOf (lineDpa line)) n (b.setTxn (s.dev.homeOf (lineDpa line)) 0 (some (servedTxn (s.dev.snoopReq line sec kind)))) e)
    (hidle : e.homeIdle (s.dev.homeOf (lineDpa line)) txns) (hn : n + 1 ≤ 16 := by decide) :
    s.homes (s.dev.hostSnoop hpa kind) = .next (s.withDev e) := by
  obtain ⟨hrow, htracks, hatomic, hfull, hdirty, hclean⟩ := hkinds
  have hopens := hs.opens (kind := kind)
  have hstart := (hopens.begins (fun _ hk => absurd hk hfull) ⟨hdirty, hclean⟩ fun hneeds => hneeds.elim
      (fun ht => absurd (htracks.symm.trans ht) Bool.false_ne_true) (fun ha => absurd ha.1 hatomic)).trans
    (Dev.begin_silent hopens.sec_lt hopens.smask rfl hplan)
  have hsnoop : s.dev.hostSnoop hpa kind = (s.dev.enqueue (s.dev.snoopReq line sec kind)).settle (s.dev.homeOf (lineDpa line)) := by
    rw [← Dev.hostIn_idle (q := s.dev.snoopReq line sec kind) hs.idle, ← hs.home]
    unfold Dev.hostSnoop
    rw [if_neg (by simpa [hs.up] using hs.bound)]
    dsimp only
    rw [← hs.atLine, ← hs.atSec]
    rfl
  rw [hsnoop]
  refine Dev.Settles.homes (n := n + 1) (.move ?_ hsettles) hidle s hn
  rw [← hstart]
  exact Dev.homeIdle.starts (m := s.dev.snoopReq line sec kind) hs.idle hrow

end

/-! ### Planned, served, answered -/

section
variable {d : Dev} {h slot sec : Nat} {q : ReqMsg} {t : Txn} {x : CSector}

/-- Snoops that leave an unowned sector's entry alone until they are answered. -/
theorem Dev.planSec_snoop (hds : ((d.dirEntry q.line).sector sec).ds = .I) (hkind : q.kind = .snpData ∨ q.kind = .snpCur) :
    d.planSec h slot q sec = (.none, d) := by
  obtain hk | hk := hkind <;> simp [Dev.planSec, hk, hds]

/-- SNPINV writes the entry as a recall does. -/
theorem Dev.planSec_snpInv (hds : ((d.dirEntry q.line).sector sec).ds = .I) (hkind : q.kind = .snpInv) :
    d.planSec h slot q sec = (.none, d.updSector q.line sec fun y => { y with ds := .I, own := 0x3FF }) := by
  have hrecall : d.recallSec h slot q q.line sec true = ([], d.updSector q.line sec fun y => { y with ds := .I, own := 0x3FF }) := by
    simp [Dev.recallSec, hds]
  simp [Dev.planSec, hkind, hrecall, Plan.none]

theorem Dev.deliver_snoop (hsec : sec < 4) (hmask : t.req.smask = secMask sec) (hfwded : t.fwded = [])
    (hkind : t.req.kind = .snpInv ∨ t.req.kind = .snpData ∨ t.req.kind = .snpCur) :
    d.deliver h slot t = (d.snpAnswer t sec).setTxn h slot (some { t with stage := .close, await := t.post, post := [] }) := by
  have hserved : (secsOf t.req.smask).filter (fun s => !t.fwded.contains s) = [sec] := Txn.served_one hsec hmask hfwded
  unfold Dev.deliver
  dsimp only
  obtain hk | hk | hk := hkind <;> rw [hk, hserved] <;> rfl

/-- The slice's copy is what a snoop finds. -/
theorem Dev.snpFound_slice (hgot : t.got = []) : d.snpFound t sec = d.cacheSec (d.sliceNo t.req.line) t.req.line sec := by
  rw [Dev.snpFound, hgot]
  rfl

theorem Dev.putHost_eq (d : Dev) (hpa : Nat) (bs : List Byte) : ∃ hm, d.putHost hpa bs = { d with hostMem := hm } := by
  induction bs generalizing d hpa with
  | nil => exact ⟨_, rfl⟩
  | cons b bs ih => exact ih { d with hostMem := Map.put d.hostMem hpa b } (hpa + 1)

/-- One answer goes to the host, and the homes stand as they stood. -/
structure Dev.AnswersHost (d e : Dev) (o : Out) : Prop where
  homes : d.SameHomes e
  out : e.out = o :: d.out
  net : e.net = d.net

namespace Dev.AnswersHost

variable {e : Dev} {o : Out}

theorem emit (d : Dev) (o : Out) : d.AnswersHost (d.emit o) o := ⟨.emit d o, rfl, rfl⟩

theorem putHost (ha : d.AnswersHost e o) (hpa : Nat) (bs : List Byte) : d.AnswersHost (e.putHost hpa bs) o := by
  refine ⟨ha.homes.trans (.putHost ..), ?_, ?_⟩ <;> obtain ⟨hm, heq⟩ := e.putHost_eq hpa bs <;> rw [heq]
  · exact ha.out
  · exact ha.net

theorem cacheSet (ha : d.AnswersHost e o) (n line k : Nat) (x : CSector) : d.AnswersHost (e.cacheSet n line k x) o := by
  refine ⟨ha.homes.trans (.cacheSet ..), ?_, ?_⟩ <;> obtain ⟨ks, heq⟩ := e.cacheSet_eq n line k x <;> rw [heq]
  · exact ha.out
  · exact ha.net

theorem cacheDrop (ha : d.AnswersHost e o) (n line k : Nat) : d.AnswersHost (e.cacheDrop n line k) o := by
  refine ⟨ha.homes.trans (.cacheDrop ..), ?_, ?_⟩ <;> obtain ⟨ks, heq⟩ := e.cacheDrop_eq n line k <;> rw [heq]
  · exact ha.out
  · exact ha.net

theorem updSector (ha : d.AnswersHost e o) (line k : Nat) (f : DirSector → DirSector) : d.AnswersHost (e.updSector line k f) o :=
  ⟨ha.homes.trans (.updSector ..), (e.updSector_out ..).trans ha.out, (e.updSector_net ..).trans ha.net⟩

end Dev.AnswersHost

/-- Dirty data goes back with the answer (Table 8.10). -/
theorem Dev.snpAnswer_dirty {code : Nat} (hkind : (t.req.kind, code) ∈ [(ReqKind.snpInv, 0), (.snpData, 3), (.snpCur, 5)])
    (hx : d.snpFound t sec = x) (hst : x.st = .M) :
    d.AnswersHost (d.snpAnswer t sec) (.snpRsp code t.req.line sec x.data x.info.poison) := by
  simp only [List.mem_cons, Prod.mk.injEq, List.not_mem_nil, or_false] at hkind
  obtain ⟨hk, rfl⟩ | ⟨hk, rfl⟩ | ⟨hk, rfl⟩ := hkind
  · simp only [Dev.snpAnswer, hk, hx, hst, if_true]
    exact (((Dev.AnswersHost.emit ..).putHost ..).cacheDrop ..).updSector ..
  · simp only [Dev.snpAnswer, hk, hx, hst, if_true]
    refine Dev.AnswersHost.updSector ?_ ..
    split
    · exact (Dev.AnswersHost.emit ..).putHost ..
    · exact ((Dev.AnswersHost.emit ..).putHost ..).cacheSet ..
  · simp only [Dev.snpAnswer, hk, hx, hst, if_true]
    exact .emit ..

theorem Dev.homeOf_updSector (d : Dev) (line k : Nat) (f : DirSector → DirSector) (dpa : Nat) : (d.updSector line k f).homeOf dpa = d.homeOf dpa := by
  obtain ⟨dir, hdir⟩ := d.updSector_eq line k f
  rw [hdir]
  rfl

/-- An answer to the host and a directory entry are written in either order. -/
theorem Dev.updSector_emit (d : Dev) (o : Out) (line k : Nat) (f : DirSector → DirSector) :
    (d.emit o).updSector line k f = (d.updSector line k f).emit o := by
  have hway (x : DirEntry) : (d.emit o).setEntry x = (d.setEntry x).emit o := by
    have hline : (d.emit o).dirWay x.line = d.dirWay x.line := rfl
    rw [Dev.setEntry, Dev.setEntry, hline]
    cases d.dirWay x.line <;> rfl
  exact hway _

/-- A sector of a busy line that is written without its host pointer keeps it. -/
theorem Dev.hs_updSector {line : Nat} {f : DirSector → DirSector} (hbusy : d.lineBusy line = true) (hf : ∀ y, (f y).hs = y.hs) :
    (((d.updSector line sec f).dirEntry line).sector sec).hs = ((d.dirEntry line).sector sec).hs := by
  cases hk : d.dirWay line with
  | none => rw [Dev.updSector_mapSec, Dev.setEntry_noWay (by simpa using hk)]
  | some k =>
    rw [Dev.dirEntry_updSector hk hbusy]
    show ((((d.dirEntry line).mapSec sec f).tidy).sector sec).hs = _
    rw [DirEntry.tidy_sector, DirEntry.mapSec_sector, hf]

theorem Dev.snpAnswer_inv_absent (hkind : t.req.kind = .snpInv) (hx : d.snpFound t sec = x) (hst : x.st = .I)
    (habsent : (d.cacheSec (d.sliceNo t.req.line) t.req.line sec).st = .I) :
    d.snpAnswer t sec = (d.updSector t.req.line sec fun y => { y with hs := 0 }).emit
      (.snpRsp (if ((d.dirEntry t.req.line).sector sec).hs ≠ 0 then 1 else 2) t.req.line sec 0 false) := by
  have hdrop (o : Out) : (d.emit o).cacheDrop (d.sliceNo t.req.line) t.req.line sec = d.emit o := if_pos habsent
  simp [Dev.snpAnswer, hkind, hx, hst, hdrop, Dev.updSector_emit]

theorem Dev.snpAnswer_data_absent (hkind : t.req.kind = .snpData) (hx : d.snpFound t sec = x) (hst : x.st = .I) :
    d.snpAnswer t sec = (d.updSector t.req.line sec fun y => { y with hs := 1 }).emit (.snpRsp 4 t.req.line sec 0 false) := by
  simp [Dev.snpAnswer, hkind, hx, hst, Dev.updSector_emit]

theorem Dev.snpAnswer_cur_absent (hkind : t.req.kind = .snpCur) (hx : d.snpFound t sec = x) (hst : x.st = .I) :
    d.snpAnswer t sec = d.emit (.snpRsp 6 t.req.line sec 0 false) := by
  simp [Dev.snpAnswer, hkind, hx, hst]

end

/-- An entry written when the transaction begins and again when it answers, as the line goes free. -/
theorem Dev.closed_dir_twice {d b c : Dev} {line sec : Nat} {t t' : Txn} {f g : DirSector → DirSector} (hb : d.SameDir b) (hbusy : b.lineBusy line = true)
    (hc : (b.updSector line sec f).SameDir c) (hi : c.homeIdle (d.homeOf (lineDpa line)) [(0, some t)]) (hline : t.req.line = line)
    (hfree : d.lineBusy line = false) (hg : ∀ y, (g y).ds = y.ds) (o : Out) (hline' : t'.req.line = line := by rfl) :
    (((c.updSector line sec g).emit o).closed (d.homeOf (lineDpa line)) t').dir = (d.updSector line sec fun y => g (f y)).dir := by
  have hhome (dpa : Nat) : c.homeOf dpa = d.homeOf dpa := by rw [hc.homeOf, Dev.homeOf_updSector, hb.homeOf]
  have hstill : c.lineBusy line = true := Dev.homeIdle.lineBusy (by rw [hhome]; exact hi) hline
  have htwice := Dev.updSector_updSector hbusy hc hstill hg
  have hemit : (c.updSector line sec g).SameDir ((c.updSector line sec g).emit o) := ⟨rfl, rfl, rfl⟩
  exact Dev.closed_dir_written ((hemit.homeOf _).trans ((Dev.homeOf_updSector ..).trans (hhome _)))
    (((Dev.SameHomes.updSector ..).trans (.emit ..)).homeIdle hi) hline' hbusy (htwice.trans hemit) hb.symm hfree

end Sys2Proof.Machine
end

section
/-! What the host is answered when it snoops a line of its memory (R273, Table 8.10). -/

open Sys2Proof Sys2Proof.Machine

namespace Sys2Proof.Proofs

section
variable {s : State} {hpa line sec : Nat} {kind : ReqKind} {x : CSector}

/-- The block as the host's snoop begins. -/
def snoopEntry (d : Dev) (line : Nat) (q : ReqMsg) : Dev := (d.opened (d.homeOf (lineDpa line))).setTxn (d.homeOf (lineDpa line)) 0 (some (entryTxn q))

/-- The block as the snoop's sector is answered for. -/
def snoopServed (b : Dev) (h : Nat) (q : ReqMsg) : Dev := (b.setTxn h 0 (some (servedTxn q))).setTxn h 0 (some (deliverTxn q))

theorem snoopEntry_idle {d : Dev} (hs : d.Snooped hpa line sec) (q : ReqMsg) :
    (snoopEntry d line q).homeIdle (d.homeOf (lineDpa line)) [(0, some (entryTxn q))] := hs.idle.opened.setTxn 0 _

theorem snoopServed_idle {b : Dev} {h : Nat} {t : Txn} (hi : b.homeIdle h [(0, some t)]) (q : ReqMsg) :
    (snoopServed b h q).homeIdle h [(0, some (deliverTxn q))] := (hi.setTxn 0 _).setTxn 0 _

/-- A snoop that waits for no L1 is answered at once. -/
theorem snoop_runs {b : Dev} (hs : s.dev.Snooped hpa line sec) (hkind : kind = .snpInv ∨ kind = .snpData ∨ kind = .snpCur)
    (hplan : (snoopEntry s.dev line (s.dev.snoopReq line sec kind)).planSec (s.dev.homeOf (lineDpa line)) 0 (s.dev.snoopReq line sec kind) sec =
      (.none, b))
    (hsame : (snoopEntry s.dev line (s.dev.snoopReq line sec kind)).SameHomes b) {e : Dev}
    (hanswer : (snoopServed b (s.dev.homeOf (lineDpa line)) (s.dev.snoopReq line sec kind)).snpAnswer (deliverTxn (s.dev.snoopReq line sec kind)) sec = e)
    (hsame' : (snoopServed b (s.dev.homeOf (lineDpa line)) (s.dev.snoopReq line sec kind)).SameHomes e) :
    s.homes (s.dev.hostSnoop hpa kind) =
      .next (s.withDev (e.closed (s.dev.homeOf (lineDpa line)) (closeTxn (s.dev.snoopReq line sec kind)))) := by
  have hidle := (hsame.homeIdle (snoopEntry_idle hs (s.dev.snoopReq line sec kind))).setTxn 0 (servedTxn (s.dev.snoopReq line sec kind))
  have hserve := Dev.serve_plain (d := b.setTxn (s.dev.homeOf (lineDpa line)) 0 (some (servedTxn (s.dev.snoopReq line sec kind))))
    (h := s.dev.homeOf (lineDpa line)) (slot := 0) (t := servedTxn (s.dev.snoopReq line sec kind)) (.inr hkind)
  have hdeliver := (Dev.deliver_snoop (d := snoopServed b (s.dev.homeOf (lineDpa line)) (s.dev.snoopReq line sec kind)) (h := s.dev.homeOf (lineDpa line))
    (slot := 0) (t := deliverTxn (s.dev.snoopReq line sec kind)) hs.sec_lt rfl rfl hkind).trans
      (congrArg (fun d => Dev.setTxn d (s.dev.homeOf (lineDpa line)) 0 (some (closeTxn (s.dev.snoopReq line sec kind)))) hanswer)
  obtain ⟨hsettles, hfree⟩ := Dev.homeIdle.passes hidle rfl rfl hserve ⟨rfl, rfl⟩ (.refl _) hdeliver ⟨rfl, rfl⟩ hsame'
  refine State.hostSnoop_starts hs ?_ hplan hsettles hfree
  obtain rfl | rfl | rfl := hkind <;> decide

/-- The entry as SNPINV's recall leaves it. -/
def snoopRecalled (d : Dev) (line sec : Nat) (q : ReqMsg) : Dev := (snoopEntry d line q).updSector line sec fun y => { y with ds := .I, own := 0x3FF }

theorem snoop_plans_inv (hs : s.dev.Snooped hpa line sec) :
    (snoopEntry s.dev line (s.dev.snoopReq line sec .snpInv)).planSec (s.dev.homeOf (lineDpa line)) 0 (s.dev.snoopReq line sec .snpInv) sec =
      (.none, snoopRecalled s.dev line sec (s.dev.snoopReq line sec .snpInv)) :=
  Dev.planSec_snpInv (d := snoopEntry s.dev line (s.dev.snoopReq line sec .snpInv)) hs.unowned rfl

theorem snoop_plans_other (hs : s.dev.Snooped hpa line sec) (hkind : kind = .snpData ∨ kind = .snpCur) :
    (snoopEntry s.dev line (s.dev.snoopReq line sec kind)).planSec (s.dev.homeOf (lineDpa line)) 0 (s.dev.snoopReq line sec kind) sec =
      (.none, snoopEntry s.dev line (s.dev.snoopReq line sec kind)) :=
  Dev.planSec_snoop (d := snoopEntry s.dev line (s.dev.snoopReq line sec kind)) hs.unowned hkind

/-- The block b reads as d but for its homes and its directory. -/
def DirAlone (d b : Dev) : Prop := ∃ homes dir, b = { d with homes := homes, dir := dir }

theorem dirAlone_entry (d : Dev) (line : Nat) (q : ReqMsg) : DirAlone d (snoopEntry d line q) := ⟨_, _, rfl⟩

theorem dirAlone_recalled (d : Dev) (line sec : Nat) (q : ReqMsg) : DirAlone d (snoopRecalled d line sec q) := by
  obtain ⟨dir, hdir⟩ := (snoopEntry d line q).updSector_eq line sec fun y => { y with ds := .I, own := 0x3FF }
  rw [snoopRecalled, hdir]
  exact ⟨_, _, rfl⟩

section
variable {d b : Dev} {h : Nat} {q : ReqMsg}

theorem snoopServed_found (hb : DirAlone d b) (hx : d.cacheSec (d.sliceNo q.line) q.line sec = x) :
    (snoopServed b h q).snpFound (deliverTxn q) sec = x := by
  obtain ⟨homes, dir, rfl⟩ := hb
  exact (Dev.snpFound_slice rfl).trans hx

theorem snoopServed_out (hb : DirAlone d b) : (snoopServed b h q).out = d.out := by
  obtain ⟨homes, dir, rfl⟩ := hb
  rfl

theorem snoopServed_net (hb : DirAlone d b) : (snoopServed b h q).net = d.net := by
  obtain ⟨homes, dir, rfl⟩ := hb
  rfl

end

/-- Dirty data of a host line goes back to the host that snoops it. -/
theorem snoop_dirty {code : Nat} (hs : s.dev.Snooped hpa line sec) (hx : s.dev.cacheSec (s.dev.sliceNo line) line sec = x) (hst : x.st = .M)
    (hkind : (kind, code) ∈ [(ReqKind.snpInv, 0), (.snpData, 3), (.snpCur, 5)]) :
    ∃ e : Dev, s.homes (s.dev.hostSnoop hpa kind) = .next (s.withDev e) ∧ e.out = .snpRsp code line sec x.data x.info.poison :: s.dev.out ∧
      e.net = s.dev.net := by
  obtain ⟨b, hb, hsame, hplan⟩ : ∃ b : Dev, DirAlone s.dev b ∧ (snoopEntry s.dev line (s.dev.snoopReq line sec kind)).SameHomes b ∧
      (snoopEntry s.dev line (s.dev.snoopReq line sec kind)).planSec (s.dev.homeOf (lineDpa line)) 0 (s.dev.snoopReq line sec kind) sec = (.none, b) := by
    by_cases hinv : kind = .snpInv
    · subst hinv
      exact ⟨_, dirAlone_recalled .., .updSector .., snoop_plans_inv hs⟩
    · refine ⟨_, dirAlone_entry .., .refl _, snoop_plans_other hs ?_⟩
      simp only [List.mem_cons, Prod.mk.injEq, List.not_mem_nil, or_false] at hkind
      exact (hkind.resolve_left fun h => hinv h.1).imp And.left And.left
  have hkinds : kind = .snpInv ∨ kind = .snpData ∨ kind = .snpCur := by
    simp only [List.mem_cons, Prod.mk.injEq, List.not_mem_nil, or_false] at hkind
    exact hkind.imp And.left (Or.imp And.left And.left)
  have hanswer := Dev.snpAnswer_dirty (t := deliverTxn (s.dev.snoopReq line sec kind)) hkind
    (snoopServed_found (h := s.dev.homeOf (lineDpa line)) (q := s.dev.snoopReq line sec kind) hb hx) hst
  refine ⟨_, snoop_runs hs hkinds hplan hsame rfl hanswer.homes, ?_, ?_⟩
  · rw [Dev.closed_out, hanswer.out, snoopServed_out hb]
    rfl
  · rw [Dev.closed_net, hanswer.net, snoopServed_net hb]

/-- SNPDATA and SNPCUR of a line that the slice has not. -/
theorem snoop_absent {code : Nat} {hs' : Option Nat} (hs : s.dev.Snooped hpa line sec) (hx : s.dev.cacheSec (s.dev.sliceNo line) line sec = x)
    (hst : x.st = .I) (hkind : (kind, code, hs') ∈ [(ReqKind.snpData, 4, some 1), (.snpCur, 6, none)]) :
    ∃ e : Dev, s.homes (s.dev.hostSnoop hpa kind) = .next (s.withDev e) ∧ e.out = .snpRsp code line sec 0 false :: s.dev.out ∧
      e.net = s.dev.net ∧ e.dir = match hs' with
        | none => (s.dev.setEntry (s.dev.dirEntry line)).dir
        | some v => (s.dev.updSector line sec fun y => { y with hs := v }).dir := by
  have hfree : s.dev.lineBusy line = false := hs.idle.lineIdle (.inl rfl)
  have hfound := snoopServed_found (h := s.dev.homeOf (lineDpa line)) (q := s.dev.snoopReq line sec kind) (dirAlone_entry s.dev line (s.dev.snoopReq line sec kind)) hx
  have hu : Underway s.dev (snoopServed (snoopEntry s.dev line (s.dev.snoopReq line sec kind)) (s.dev.homeOf (lineDpa line)) (s.dev.snoopReq line sec kind))
      (s.dev.snoopReq line sec kind) := ⟨snoopServed_idle (snoopEntry_idle hs _) _, rfl, rfl, ⟨rfl, rfl, rfl⟩⟩
  simp only [List.mem_cons, Prod.mk.injEq, List.not_mem_nil, or_false] at hkind
  obtain ⟨rfl, rfl, rfl⟩ | ⟨rfl, rfl, rfl⟩ := hkind
  · have hanswer := Dev.snpAnswer_data_absent (t := deliverTxn (s.dev.snoopReq line sec .snpData)) rfl hfound hst
    exact ⟨_, snoop_runs hs (.inr (.inl rfl)) (snoop_plans_other hs (.inl rfl)) (.refl _) hanswer ((Dev.SameHomes.updSector ..).trans (.emit ..)),
      hu.answers_written hfree ..⟩
  · have hanswer := Dev.snpAnswer_cur_absent (t := deliverTxn (s.dev.snoopReq line sec .snpCur)) rfl hfound hst
    exact ⟨_, snoop_runs hs (.inr (.inr rfl)) (snoop_plans_other hs (.inr rfl)) (.refl _) hanswer (.emit ..), hu.answers hfree _⟩

/-- SNPINV of a line that the slice has not. -/
theorem snoop_inv_absent (hs : s.dev.Snooped hpa line sec) (hx : s.dev.cacheSec (s.dev.sliceNo line) line sec = x) (hst : x.st = .I) :
    ∃ e : Dev, s.homes (s.dev.hostSnoop hpa .snpInv) = .next (s.withDev e) ∧ e.net = s.dev.net ∧
      e.out = .snpRsp (if ((s.dev.dirEntry line).sector sec).hs ≠ 0 then 1 else 2) line sec 0 false :: s.dev.out ∧
      e.dir = (s.dev.updSector line sec fun y => { y with ds := .I, own := 0x3FF, hs := 0 }).dir := by
  have hfree : s.dev.lineBusy line = false := hs.idle.lineIdle (.inl rfl)
  have hentry := snoopEntry_idle hs (s.dev.snoopReq line sec .snpInv)
  have hidle := snoopServed_idle ((Dev.SameHomes.updSector _ line sec fun y => { y with ds := .I, own := 0x3FF }).homeIdle hentry)
    (s.dev.snoopReq line sec .snpInv)
  have hbusy : (snoopEntry s.dev line (s.dev.snoopReq line sec .snpInv)).lineBusy line = true := hentry.lineBusy rfl
  have hrecalled : (snoopRecalled s.dev line sec (s.dev.snoopReq line sec .snpInv)).SameDir
      (snoopServed (snoopRecalled s.dev line sec (s.dev.snoopReq line sec .snpInv)) (s.dev.homeOf (lineDpa line)) (s.dev.snoopReq line sec .snpInv)) :=
    ⟨rfl, rfl, rfl⟩
  have hfound := snoopServed_found (h := s.dev.homeOf (lineDpa line)) (q := s.dev.snoopReq line sec .snpInv)
    (dirAlone_recalled s.dev line sec (s.dev.snoopReq line sec .snpInv)) hx
  have hanswer := Dev.snpAnswer_inv_absent (t := deliverTxn (s.dev.snoopReq line sec .snpInv)) rfl hfound hst
    ((congrArg CSector.st ((Dev.snpFound_slice rfl).symm.trans hfound)).trans hst)
  have hhs : (((snoopServed (snoopRecalled s.dev line sec (s.dev.snoopReq line sec .snpInv)) (s.dev.homeOf (lineDpa line))
      (s.dev.snoopReq line sec .snpInv)).dirEntry line).sector sec).hs = ((s.dev.dirEntry line).sector sec).hs := by
    rw [hrecalled.dirEntry]
    exact Dev.hs_updSector hbusy fun _ => rfl
  refine ⟨_, snoop_runs hs (.inl rfl) (snoop_plans_inv hs) (.updSector ..) hanswer ((Dev.SameHomes.updSector ..).trans (.emit ..)), ?_, ?_, ?_⟩
  · rw [Dev.closed_net, Dev.emit_net, Dev.updSector_net, snoopServed_net (dirAlone_recalled ..)]
  · rw [Dev.closed_out, Dev.emit_out, Dev.updSector_out, snoopServed_out (dirAlone_recalled ..), ← hhs]
    rfl
  · have hbegun : s.dev.SameDir (snoopEntry s.dev line (s.dev.snoopReq line sec .snpInv)) := ⟨rfl, rfl, rfl⟩
    have hdir := Dev.closed_dir_twice (f := fun y => { y with ds := .I, own := 0x3FF }) (g := fun y => { y with hs := 0 })
      (t' := closeTxn (s.dev.snoopReq line sec .snpInv)) hbegun hbusy hrecalled hidle rfl hfree fun _ => rfl
    exact hdir _

end

end Sys2Proof.Proofs
end

section
/-! The host's answers at the home: BIRsp, GO and GO-Err (R264, R272, R273). -/

open Sys2Proof Sys2Proof.Machine

namespace Sys2Proof.Machine

/-! ### After the home has settled -/

namespace Dev.SameButLinks

variable {d e : Dev}

theorem homesQuiet (h : d.SameButLinks e) (hq : d.homesQuiet) : e.homesQuiet := by
  obtain ⟨tr, out, rfl⟩ := h
  exact hq

theorem txn (h : d.SameButLinks e) (k slot : Nat) : e.txn k slot = d.txn k slot := by
  obtain ⟨tr, out, rfl⟩ := h
  rfl

theorem net (h : d.SameButLinks e) : e.net = d.net := by
  obtain ⟨tr, out, rfl⟩ := h
  rfl

theorem hostMem (h : d.SameButLinks e) : e.hostMem = d.hostMem := by
  obtain ⟨tr, out, rfl⟩ := h
  rfl

end Dev.SameButLinks

@[simp] theorem Dev.ackPeers_txn (d : Dev) (k slot : Nat) : d.ackPeers.txn k slot = d.txn k slot := (Dev.SameButLinks.ackPeers d).txn k slot

@[simp] theorem Dev.ackPeers_net (d : Dev) : d.ackPeers.net = d.net := (Dev.SameButLinks.ackPeers d).net

@[simp] theorem Dev.ackPeers_hostMem (d : Dev) : d.ackPeers.hostMem = d.hostMem := (Dev.SameButLinks.ackPeers d).hostMem

section
variable {s : State} {d e e' : Dev} {line n : Nat} {t t' : Txn} {a : Await} {f : Nat → Nat → Txn → Dev → Txn × Dev} {txns : Map (Option Txn)}

theorem Dev.answer_settled (hi : d.homeIdle (d.homeOf (lineDpa line)) [(0, some t)]) (hline : t.req.line = line) (hwaits : t.waits a = true)
    (hf : f (d.homeOf (lineDpa line)) 0 (t.got1 a) d = (t', e))
    (hs : Dev.Settles (d.homeOf (lineDpa line)) n (e.setTxn (d.homeOf (lineDpa line)) 0 (some t')) e') (hi' : e'.homeIdle (d.homeOf (lineDpa line)) txns)
    (hn : n ≤ 16 := by decide) : d.answer line a f = e' := by
  rw [Dev.answer_taken hi hline hwaits, hf]
  exact hs.settle hn hi'.notBusy

/-- After an answer of the host the acknowledgements to peers that waited for it go. -/
theorem State.answer_acks (hanswer : s.dev.answer line a f = e') (hquiet : e'.homesQuiet) :
    s.homes (s.dev.answer line a f).ackPeers = .next (s.withDev e'.ackPeers) := by
  rw [hanswer]
  exact State.homes_quiet ((Dev.SameButLinks.ackPeers e').homesQuiet hquiet)

end

/-! ### Bytes for host memory -/

/-- A sector's bytes put into host memory one by one, where the mask has them. -/
def Dev.putMasked (d : Dev) (hpa : Nat) (mask : Word64) (x : Sector) (l : List Nat) : Dev :=
  l.foldl (fun y i => if mask.getLsbD i then y.putHost (hpa + i) [Sector.byte x i] else y) d

theorem Dev.putMasked_eq (d : Dev) (hpa : Nat) (mask : Word64) (x : Sector) (l : List Nat) : ∃ hm, d.putMasked hpa mask x l = { d with hostMem := hm } := by
  induction l generalizing d with
  | nil => exact ⟨_, rfl⟩
  | cons i l ih =>
    obtain ⟨hm, heq⟩ := ih (if mask.getLsbD i then d.putHost (hpa + i) [Sector.byte x i] else d)
    refine ⟨hm, heq.trans ?_⟩
    split <;> rfl

/-- Under a full mask all of them are there. -/
theorem Dev.hostMem_putMasked (d : Dev) (hpa : Nat) (x : Sector) {n : Nat} (hn : n ≤ 64) :
    ∀ i, i < n → Map.get 0 (d.putMasked hpa (BitVec.allOnes 64) x (List.range n)).hostMem (hpa + i) = Sector.byte x i := by
  induction n with
  | zero => exact fun i hi => absurd hi (Nat.not_lt_zero i)
  | succ n ih =>
    have hbit : (BitVec.allOnes 64).getLsbD n = true := by
      rw [BitVec.getLsbD_allOnes]
      exact decide_eq_true (by omega)
    have hlast : d.putMasked hpa (BitVec.allOnes 64) x (List.range (n + 1)) =
        (d.putMasked hpa (BitVec.allOnes 64) x (List.range n)).putHost (hpa + n) [Sector.byte x n] := by
      rw [Dev.putMasked, List.range_succ, List.foldl_append, List.foldl_cons, List.foldl_nil, if_pos hbit]
      rfl
    intro i hi
    rw [hlast]
    show Map.get 0 (Map.put (d.putMasked hpa (BitVec.allOnes 64) x (List.range n)).hostMem (hpa + n) (Sector.byte x n)) (hpa + i) = _
    by_cases hin : i = n
    · rw [hin, Map.get_put_same]
    · rw [Map.get_put_other _ _ _ _ _ (by omega)]
      exact ih (by omega) i (by omega)

/-! ### A core's write and read of host memory -/

theorem notHost_of_isCore {a : Nat} (h : isCore a = true) : a ≠ hostAgent := by
  rintro rfl
  exact absurd h (by decide)

section
variable {d : Dev} {h slot sec : Nat} {t : Txn} {x : Sector} {i : SectorMeta}

/-- The CMP of a write (R258). -/
def cmpMsg (h slot : Nat) (m : ReqMsg) (sec : Nat) : RspMsg := { mkRsp .cmp m.src (txidOf h slot) m.line sec with origin := m.origin }

theorem Dev.deliver_coreWrite (hsec : sec < 4) (hmask : t.req.smask = secMask sec) (hkind : t.req.kind = .wrFull) (hsrc : t.req.src ≠ hostAgent) :
    d.deliver h slot t = (d.send (.rsp (cmpMsg h slot t.req sec))).setTxn h slot (some { t with stage := .close, await := t.post, post := [] }) := by
  have hsecs : secsOf t.req.smask = [sec] := by rw [hmask, secsOf_secMask hsec]
  unfold Dev.deliver
  dsimp only
  rw [hkind, hsecs, if_neg hsrc]
  rfl

/-- The data of a read (R258). -/
def dataMsg (h slot : Nat) (m : ReqMsg) (sec : Nat) (x : Sector) (i : SectorMeta) : RspMsg :=
  { mkRsp .data m.src (txidOf h slot) m.line sec with data := x, info := i, origin := m.origin }

/-- RdCurr of a host line leaves nothing in the slice (R282). -/
theorem Dev.giveSec_hostLine (hkind : t.req.kind = .rdCurrent) (hsrc : t.req.src ≠ hostAgent) (hhost : isHost (lineDpa t.req.line) = true)
    (hdata : d.txnData t sec = (some (x, i), d)) (habsent : (d.cacheSec (d.sliceNo t.req.line) t.req.line sec).st = .I) :
    d.giveSec h slot t sec = d.send (.rsp (dataMsg h slot t.req sec x i)) := by
  have hallocates : d.allocates (d.coreDesc t.req.src) t.req = false := by
    unfold Dev.allocates
    split
    · simp [hhost, hkind]
    · rfl
  unfold Dev.giveSec
  dsimp only
  rw [if_neg (by simp [hkind]), hdata]
  dsimp only
  rw [if_pos habsent, hallocates, hkind]
  dsimp only
  rw [if_neg hsrc]
  rfl

/-- The ERR to a core (R258). -/
def errRsp (txid : Nat) (m : ReqMsg) (sec : Nat) (e : ErrStatus) : RspMsg :=
  { mkRsp .err m.src txid m.line sec with status := e, origin := m.origin }

theorem Dev.sendErr_core {m : ReqMsg} {txid : Nat} (hsec : sec < 4) (hmask : m.smask = secMask sec) (hsrc : m.src ≠ hostAgent) (e : ErrStatus) :
    d.sendErr m txid e = d.send (.rsp (errRsp txid m sec e)) := by
  rw [Dev.sendErr, if_neg hsrc, hmask, secsOf_secMask hsec]
  rfl

/-- A host line's data that the transaction holds goes to the core that reads it, and the line is free. -/
theorem Dev.homeIdle.givesHostLine (hi : d.homeIdle h [(0, some t)]) (hstage : t.stage = .recall) (hawait : t.await = []) (hpost : t.post = [])
    (hsec : sec < 4) (hmask : t.req.smask = secMask sec) (hkind : t.req.kind = .rdCurrent) (hfwded : t.fwded = []) (hsrc : t.req.src ≠ hostAgent)
    (hhost : isHost (lineDpa t.req.line) = true) (hdata : ∀ e : Dev, e.txnData t sec = (some (x, i), e))
    (habsent : (d.cacheSec (d.sliceNo t.req.line) t.req.line sec).st = .I) :
    ∃ e : Dev, Dev.Settles h 3 d e ∧ e.homeIdle h [(0, none)] ∧ e.net = d.net ++ [.rsp (dataMsg h 0 t.req sec x i)] ∧ e.hostMem = d.hostMem := by
  have hserve : d.serve h 0 t = d.countHit.setTxn h 0 (some { t with stage := .fetch, await := [] }) := by
    rw [Dev.serve_reads (.inr (.inr hkind)), Txn.served_one hsec hmask hfwded, Dev.fetchSecs_found (hdata d)]
  have hgive := Dev.giveSec_hostLine (d := d.countHit.setTxn h 0 (some { t with stage := .fetch, await := [] })) (h := h) (slot := 0)
    (t := { t with stage := .fetch, await := [] }) (sec := sec) hkind hsrc hhost (hdata _) habsent
  have hdeliver : (d.countHit.setTxn h 0 (some { t with stage := .fetch, await := [] })).deliver h 0 { t with stage := .fetch, await := [] } =
      ((d.countHit.setTxn h 0 (some { t with stage := .fetch, await := [] })).send (.rsp (dataMsg h 0 t.req sec x i))).setTxn h 0
        (some { t with stage := .close, await := t.post, post := [] }) := by
    rw [Dev.deliver_reads (t := { t with stage := .fetch, await := [] }) (.inr (.inr (.inr hkind))),
      Txn.served_one (t := { t with stage := .fetch, await := [] }) hsec hmask hfwded, List.foldl_cons, List.foldl_nil, hgive]
  obtain ⟨hsettles, hfree⟩ := hi.passes hstage hawait hserve ⟨rfl, rfl⟩ (.countHit d) hdeliver ⟨rfl, hpost⟩ (.send_rsp ..)
  exact ⟨_, hsettles, hfree, Dev.closed_net .., Dev.closed_hostMem ..⟩

end

end Sys2Proof.Machine

namespace Sys2Proof.Proofs

section
variable {s : State} {line : Nat} {sec : Fin 4} {t : Txn}

/-- The home of the line holds the one transaction t, on its sector, none of whose data has come and whose requester waits for all. -/
structure HostAnswered (s : State) (line : Nat) (sec : Fin 4) (t : Txn) : Prop where
  idle : s.dev.homeIdle (s.dev.homeOf (lineDpa line)) [(0, some t)]
  line : t.req.line = line
  smask : t.req.smask = secMask sec
  desc : t.desc = none
  post : t.post = []
  fwded : t.fwded = []
  got : t.got = []

theorem birsp_ends (ha : HostAnswered s line sec t) (hstage : t.stage = .close) (hawait : t.await = [.bi sec]) :
    ∃ e : Dev, exec (.birsp line sec .i) s = .next (s.withDev e) ∧ e.txn (s.dev.homeOf (lineDpa line)) 0 = none ∧ e.net = s.dev.net ∧
      e.dir = (({ s.dev with homes := e.homes } : Dev).updSector line sec fun y => { y with hs := 0 }).dir := by
  have hgot : t.got1 (.bi sec) = { t with await := [] } := Txn.got1_last hawait (by rw [ha.post]; rfl)
  have hwritten := (Dev.SameHomes.updSector s.dev line sec fun y => { y with hs := 0 }).homeIdle ha.idle
  have hfree := hwritten.closed (.inr ⟨_, rfl⟩) { t with await := [] }
  refine ⟨(s.dev.updSector line sec fun y => { y with hs := 0 }).closed (s.dev.homeOf (lineDpa line)) { t with await := [] },
    State.answer_settles (n := 1) ha.idle ha.line (Txn.waits_last hawait) (congrArg₂ Prod.mk hgot rfl)
      (.move (Dev.homeIdle.closes (hwritten.setTxn 0 { t with await := [] }) hstage rfl) (.done (hfree.stands (.inr rfl)))) hfree,
    Dev.txn_freed hfree, ?_, ?_⟩
  · rw [Dev.closed_net, Dev.updSector_net]
  · have hline : ({ s.dev with homes := ((s.dev.updSector line sec fun y => { y with hs := 0 }).closed (s.dev.homeOf (lineDpa line))
        { t with await := [] }).homes } : Dev).lineBusy line = false := by
      change (((s.dev.updSector line sec fun y => { y with hs := 0 }).closed (s.dev.homeOf (lineDpa line)) { t with await := [] }).home
        (s.dev.homeOf (lineDpa line))).txns.any _ = false
      rw [hfree.1]
      rfl
    exact Dev.closed_dir_written (Dev.homeOf_updSector ..) hwritten ha.line (ha.idle.lineBusy ha.line) (.refl _) ⟨rfl, rfl, rfl⟩ hline

/-- GO completes a write of a core to host memory. -/
theorem go_writes (ha : HostAnswered s line sec t) (hcore : isCore t.req.src = true) (hawait : t.await = [.go sec])
    (hstage : t.stage = .fetch) (hkind : t.req.kind = .wrFull) (hpay : t.req.pay ≠ []) (g : MState) (x : Sector) (p : Bool) :
    ∃ (e : Dev) (r : RspMsg), exec (.go line sec g x p) s = .next (s.withDev e) ∧
        e.txn (s.dev.homeOf (lineDpa line)) 0 = none ∧ e.net = s.dev.net ++ [.rsp r] ∧ r.kind = .cmp ∧ r.dst = t.req.src ∧
        ∀ i, i < 64 → Map.get 0 e.hostMem (secDpa line sec - hostDpa + i) = Sector.byte (t.req.payOf sec).data i := by
  have hgot : t.got1 (.go sec) = { t with await := [] } := Txn.got1_last hawait (by rw [ha.post]; rfl)
  obtain ⟨hm, hput⟩ := s.dev.putMasked_eq (secDpa line sec - hostDpa) (BitVec.allOnes 64) (t.req.payOf sec).data (List.range 64)
  have hsame : s.dev.SameHomes (s.dev.putMasked (secDpa line sec - hostDpa) (BitVec.allOnes 64) (t.req.payOf sec).data (List.range 64)) := by
    rw [hput]
    exact ⟨rfl, rfl, rfl, rfl, fun _ => .inl⟩
  have hidle := (hsame.homeIdle ha.idle).setTxn 0 { t with await := [] }
  have hdeliver := Dev.deliver_coreWrite (d := (s.dev.putMasked (secDpa line sec - hostDpa) (BitVec.allOnes 64) (t.req.payOf sec).data
    (List.range 64)).setTxn (s.dev.homeOf (lineDpa line)) 0 (some { t with await := [] })) (h := s.dev.homeOf (lineDpa line)) (slot := 0)
    (t := { t with await := [] }) sec.isLt ha.smask hkind (notHost_of_isCore hcore)
  obtain ⟨hsettles, hfree⟩ := Dev.homeIdle.finishes hidle hstage rfl hdeliver ⟨rfl, ha.post⟩ (.send_rsp ..)
  have hpaid : (t.desc.isSome || t.req.pay.isEmpty) = false := by simp [ha.desc, hpay]
  refine ⟨_, cmpMsg (s.dev.homeOf (lineDpa line)) 0 t.req sec,
    State.answer_acks (Dev.answer_settled ha.idle ha.line (Txn.waits_last hawait) ?_ hsettles hfree) hfree.quiet, ?_, ?_, rfl, rfl, fun i hi => ?_⟩
  · rw [hgot]
    dsimp only
    rw [hkind]
    dsimp only
    rw [hpaid]
    rfl
  · rw [Dev.ackPeers_txn, Dev.txn_freed hfree]
  · rw [Dev.ackPeers_net, Dev.closed_net, Dev.send_net, Dev.setTxn_net, hput]
  · rw [Dev.ackPeers_hostMem, Dev.closed_hostMem, Dev.send_hostMem, Dev.setTxn_hostMem]
    exact Dev.hostMem_putMasked _ _ _ (Nat.le_refl 64) i hi

/-- The transaction with the data that GO brought. -/
def withData (t : Txn) (sec : Nat) (x : Sector) (p : Bool) : Txn :=
  { t with await := [], got := [{ sec := sec, data := x, info := { SectorMeta.zero with poison := p } }] }

theorem withData_txnData (d : Dev) (t : Txn) (sec : Nat) (x : Sector) (p : Bool) :
    d.txnData (withData t sec x p) sec = (some (x, { SectorMeta.zero with poison := p }), d) := by
  simp [Dev.txnData, withData]

/-- GO brings a core's read of a host line. -/
theorem go_reads (ha : HostAnswered s line sec t) (hhost : isHost (lineDpa line) = true) (hcore : isCore t.req.src = true) (hawait : t.await = [.go sec])
    (hstage : t.stage = .recall) (hkind : t.req.kind = .rdCurrent) (habsent : (s.dev.cacheSec (s.dev.sliceNo line) line sec).st = .I)
    (g : MState) (x : Sector) (p : Bool) :
    ∃ (e : Dev) (r : RspMsg), exec (.go line sec g x p) s = .next (s.withDev e) ∧
        e.txn (s.dev.homeOf (lineDpa line)) 0 = none ∧ e.net = s.dev.net ++ [.rsp r] ∧ r.kind = .data ∧ r.dst = t.req.src ∧ r.st = .I ∧
        r.data = x ∧ r.info.poison = p ∧ e.hostMem = (s.dev.putHost (secDpa line sec - hostDpa) (Sector.bytes x)).hostMem := by
  have hgot : t.got1 (.go sec) = { t with await := [] } := Txn.got1_last hawait (by rw [ha.post]; rfl)
  obtain ⟨hm, hput⟩ := s.dev.putHost_eq (secDpa line sec - hostDpa) (Sector.bytes x)
  have hbrought : s.dev.SameHomes { s.dev with hostMem := hm } := ⟨rfl, rfl, rfl, rfl, fun _ => .inl⟩
  have hidle := (hbrought.homeIdle ha.idle).setTxn 0 (withData t sec x p)
  obtain ⟨e, hsettles, hfree, hnet, hmem⟩ := hidle.givesHostLine hstage rfl ha.post sec.isLt ha.smask hkind ha.fwded (notHost_of_isCore hcore)
    (by rw [show (withData t sec x p).req.line = line from ha.line]; exact hhost) (fun e => withData_txnData e t sec x p)
    (by rw [show (withData t sec x p).req.line = line from ha.line]; exact habsent)
  refine ⟨e.ackPeers, dataMsg (s.dev.homeOf (lineDpa line)) 0 t.req sec x { SectorMeta.zero with poison := p },
    State.answer_acks (Dev.answer_settled ha.idle ha.line (Txn.waits_last hawait) ?_ hsettles hfree) hfree.quiet, ?_, ?_, rfl, rfl, rfl, rfl, rfl, ?_⟩
  · rw [hgot]
    dsimp only
    rw [hkind]
    dsimp only
    rw [show (s.dev.sliceSec line sec).st = .I from habsent, ha.got, hput]
    rfl
  · rw [Dev.ackPeers_txn, Dev.txn_freed hfree]
  · rw [Dev.ackPeers_net, hnet]
    rfl
  · rw [Dev.ackPeers_hostMem, hmem, Dev.setTxn_hostMem, hput]

/-- The transaction of a refused read. -/
def refusedTxn (t : Txn) : Txn := { t with req := { t.req with smask := 0 }, stage := .close, await := [], post := [], desc := none }

/-- GO-Err refuses a core's read of a host line. -/
theorem goErr_refuses (ha : HostAnswered s line sec t) (hcore : isCore t.req.src = true) (hawait : t.await = [.go sec]) (hkind : t.req.kind = .rdCurrent) :
    ∃ (e : Dev) (r : RspMsg), exec (.goErr line sec) s = .next (s.withDev e) ∧ e.txn (s.dev.homeOf (lineDpa line)) 0 = none ∧
        e.net = s.dev.net ++ [.rsp r] ∧ r.kind = .err ∧ r.dst = t.req.src ∧ r.status = .hostError := by
  have hgot : t.got1 (.go sec) = { t with await := [] } := Txn.got1_last hawait (by rw [ha.post]; rfl)
  have hsent := Dev.sendErr_core (d := s.dev) (m := { t.req with smask := secMask sec }) (txid := txidOf (s.dev.homeOf (lineDpa line)) 0) sec.isLt rfl
    (notHost_of_isCore hcore) .hostError
  have hsentIdle := (Dev.SameHomes.send_rsp s.dev (errRsp (txidOf (s.dev.homeOf (lineDpa line)) 0) t.req sec .hostError)).homeIdle ha.idle
  have hfree := hsentIdle.closed (.inr ⟨_, rfl⟩) (refusedTxn t)
  refine ⟨_, errRsp (txidOf (s.dev.homeOf (lineDpa line)) 0) t.req sec .hostError,
    State.answer_acks (Dev.answer_settled (n := 1) ha.idle ha.line (Txn.waits_last hawait) ?_
      (.move (Dev.homeIdle.closes (hsentIdle.setTxn 0 (refusedTxn t)) rfl rfl) (.done (hfree.stands (.inr rfl)))) hfree) hfree.quiet, ?_, ?_, rfl, rfl, rfl⟩
  · rw [hgot]
    dsimp only
    rw [ha.desc]
    dsimp only
    have hrest : t.req.smask &&& ~~~secMask sec = 0 := by
      rw [ha.smask]
      exact BitVec.and_not_self _
    have hnot : t.req.kind ≠ .recall := by
      rw [hkind]
      exact ReqKind.noConfusion
    rw [hrest, if_pos rfl, if_neg hnot, hsent, ha.post]
    rfl
  · rw [Dev.ackPeers_txn]
    exact Dev.txn_freed hfree
  · rw [Dev.ackPeers_net]
    exact Dev.closed_net ..

end

/-- Settles O36: a snoop finds no L1 that owns its sector, so its home answers it at once; each answer of the host is the last its transaction
waits for. -/
theorem hostAnswersAndSnoops : Obligations.HostAnswersAndSnoops := by
  unfold Obligations.HostAnswersAndSnoops
  refine ⟨?_, ?_⟩
  · intro s hpa x d dpa line sec n hup hbound hhost htier hidle hhome hclean hds hx
    have hs : s.dev.Snooped hpa line sec := ⟨rfl, rfl, hup, hbound, htier, hhome ▸ hidle, hhome, hclean, hds⟩
    refine ⟨fun p hp hst => ?_, snoop_inv_absent hs hx, fun p hp hst => ?_⟩
    · simp only [List.mem_cons, List.not_mem_nil, or_false] at hp
      obtain rfl | rfl | rfl := hp
      · exact snoop_dirty (kind := .snpInv) hs hx hst (by decide)
      · exact snoop_dirty (kind := .snpData) hs hx hst (by decide)
      · exact snoop_dirty (kind := .snpCur) hs hx hst (by decide)
    · simp only [List.mem_cons, List.not_mem_nil, or_false] at hp
      obtain rfl | rfl := hp
      · exact snoop_absent (kind := .snpData) (hs' := some 1) hs hx hst (by decide)
      · exact snoop_absent (kind := .snpCur) (hs' := none) hs hx hst (by decide)
  · intro s line sec t d h q hpa hi hline hmask hdesc hpost hfwded hgot
    have ha : HostAnswered s line sec t := ⟨hi, hline, hmask, hdesc, hpost, hfwded, hgot⟩
    exact ⟨birsp_ends ha, fun g x p hhost hcore hawait => ⟨fun hstage hkind hpay => go_writes ha hcore hawait hstage hkind hpay g x p,
      fun hstage hkind habsent => go_reads ha hhost hcore hawait hstage hkind habsent g x p⟩,
      fun hcore _ hawait hkind => goErr_refuses ha hcore hawait hkind⟩

end Sys2Proof.Proofs
end

section
/-! The end of a hold, starved requests and a row's update at its home (R124, R127, R267, R268, R269). -/

open Sys2Proof Sys2Proof.Machine

namespace Sys2Proof.Machine

/-! ### The end of a core's hold (R268) -/

section
variable {d : Dev} {c line : Nat}

/-- The sectors of a line, by their number in the tiers. -/
theorem lineSectors_eq (line : Nat) : (List.range 4).map (4 * line + ·) = [4 * line, 4 * line + 1, 4 * line + 2, 4 * line + 3] := rfl

/-- What is held once a line's sectors are let go. -/
def heldWithout (held : Map (Option Nat)) (line : Nat) : Map (Option Nat) :=
  ((List.range 4).map (4 * line + ·)).foldl (fun m s => Map.put m s none) held

theorem get_heldWithout (held : Map (Option Nat)) (line i : Nat) :
    Map.get none (heldWithout held line) i = if 4 * line ≤ i ∧ i < 4 * line + 4 then none else Map.get none held i := by
  rw [heldWithout, List.foldl_map]
  exact Map.get_foldl_put_from none (4 * line) (fun _ => none) held 4 i

/-- A holder with no operation of its own on the line and no snoop that waits for it lets the line go. -/
theorem Dev.holdEnd_unwanted (hc : c < 0x110) (hwants : (d.core c).wantsLine line = false) (hsnoops : ∀ m ∈ (d.core c).waitSnp, m.line ≠ line) :
    d.holdEnd c line = d.setCore c { d.core c with held := heldWithout (d.core c).held line } := by
  have hmine : ((d.core c).waitSnp.filter fun m => m.line = line) = [] :=
    List.filter_eq_nil_iff.mpr fun m hm h => hsnoops m hm (of_decide_eq_true h)
  have hothers : ((d.core c).waitSnp.filter fun m => m.line ≠ line) = (d.core c).waitSnp :=
    List.filter_eq_self.mpr fun m hm => decide_eq_true (hsnoops m hm)
  unfold Dev.holdEnd
  dsimp only
  rw [if_pos hc, hwants, Bool.and_false, if_neg Bool.false_ne_true, hmine, List.foldl_nil]
  show d.setCore c { d.core c with held := _, waitSnp := (d.core c).waitSnp.filter fun m => m.line ≠ line } = _
  rw [hothers]
  rfl

/-- A holder that still wants the line and has done nothing on it keeps it. -/
theorem Dev.holdEnd_wanted (hc : c < 0x110) (hwants : (d.core c).wantsLine line = true)
    (hheld : ∀ i, i < 4 → Map.get none (d.core c).held (4 * line + i) = none) (hlimit : 0 < d.keptSetting (d.coreDesc c) rcHold 0x206002 24) :
    d.holdEnd c line = d := by
  have hops : ((List.range 4).map (4 * line + ·)).foldl (fun n s => Nat.max n ((Map.get none (d.core c).held s).getD 0)) 0 = 0 := by
    rw [lineSectors_eq]
    simp only [List.foldl_cons, List.foldl_nil]
    rw [show Map.get none (d.core c).held (4 * line) = none from hheld 0 (by decide), hheld 1 (by decide), hheld 2 (by decide), hheld 3 (by decide)]
    rfl
  unfold Dev.holdEnd
  dsimp only
  rw [if_pos hc, hops, hwants, Bool.and_true, if_pos (decide_eq_true hlimit)]

end

theorem Dev.SameHomes.setCore (d : Dev) (c : Nat) (k : Core) : d.SameHomes (d.setCore c k) := ⟨rfl, rfl, rfl, rfl, fun _ => .inl⟩

/-! ### Starved requests (R269) -/

theorem eraseFirst_last {α : Type} [DecidableEq α] {x : α} {l : List α} (h : x ∉ l) : eraseFirst x (l ++ [x]) = l := by
  induction l with
  | nil => simp [eraseFirst]
  | cons y l ih =>
    obtain ⟨hne, hl⟩ := not_or.mp (mt List.mem_cons.mpr h)
    rw [List.cons_append, eraseFirst, if_neg (Ne.symm hne), ih hl]

section
variable {d : Dev} {m : ReqMsg} {rest : List WaitReq}

/-- The block in which a starved request goes before the rest of its home's queue. -/
def Dev.starved (d : Dev) (m : ReqMsg) (rest : List WaitReq) : Dev :=
  let d1 := d.updHome (d.homeOf (lineDpa m.line)) fun x => { x with queue := { req := m, starved := true } :: rest, starve := true }
  { d1 with coh := { d1.coh with starved := d1.coh.starved + 1 } }

theorem Dev.home_starved (d : Dev) (m : ReqMsg) (rest : List WaitReq) : (d.starved m rest).home (d.homeOf (lineDpa m.line)) =
    { d.home (d.homeOf (lineDpa m.line)) with queue := { req := m, starved := true } :: rest, starve := true } := Map.get_put_same ..

/-- The last of its home's queue, all of its line and none starved, goes before them. -/
theorem Dev.starveReq_old (hqueue : (d.home (d.homeOf (lineDpa m.line))).queue = rest ++ [{ req := m, starved := false }])
    (hm : ({ req := m, starved := false } : WaitReq) ∉ rest) (hrest : ∀ w ∈ rest, w.req.line = m.line ∧ w.starved = false)
    (hage : d.od 0x206001 16 ≤ d.reqAge m) : d.starveReq m = (d.starved m rest).settle (d.homeOf (lineDpa m.line)) := by
  have hnone : ∀ before : WaitReq → Bool, (∀ w ∈ rest, before w = false) → rest.takeWhile before = [] ∧ rest.dropWhile before = rest := by
    intro before hbefore
    cases rest with
    | nil => exact ⟨rfl, rfl⟩
    | cons w rest =>
      have hw : ¬ before w = true := by simp [hbefore w]
      exact ⟨List.takeWhile_cons_of_neg hw, List.dropWhile_cons_of_neg hw⟩
  obtain ⟨htake, hdrop⟩ := hnone (fun x => x.req.line ≠ m.line || (x.starved && decide (d.reqAge m ≤ d.reqAge x.req)))
    fun w hw => by simp [hrest w hw]
  unfold Dev.starveReq
  dsimp only
  rw [hqueue, if_neg (by simp [hage]), eraseFirst_last hm, htake, hdrop]
  rfl

theorem Dev.starveReq_young (hage : d.reqAge m < d.od 0x206001 16) : d.starveReq m = d := by
  rw [Dev.starveReq, if_pos (by simp [hage])]

end

/-! ### A row's update (R127, R267) -/

/-- Where nothing is listed that a function looks for, it finds what a value put in brings. -/
theorem Map.flatMap_put {α β : Type} {g : Nat × α → List β} {mp : Map α} (hmp : ∀ p ∈ mp, g p = []) (k : Nat) (v : α) :
    (Map.put mp k v).flatMap g = g (k, v) := by
  have hnil : mp.flatMap g = [] := List.flatMap_eq_nil_iff.mpr hmp
  induction mp with
  | nil => simp [Map.put]
  | cons p rest ih =>
    obtain ⟨hp, hrest⟩ := List.forall_mem_cons.mp hmp
    have hnilRest : rest.flatMap g = [] := List.flatMap_eq_nil_iff.mpr hrest
    rw [Map.put]
    split_ifs
    · rw [List.flatMap_cons, hnilRest, List.append_nil]
    · rw [List.flatMap_cons, hnil, List.append_nil]
    · rw [List.flatMap_cons, hp, ih hrest hnilRest, List.nil_append]

/-- The row updates of a home's queue. -/
def rowUpdates (x : Home) : List WaitReq := x.queue.filter fun w => w.req.kind = .updRow

theorem Dev.rowsWaiting_eq_length (d : Dev) : d.rowsWaiting = (d.homes.flatMap fun p => rowUpdates p.2).length := by
  rw [List.length_flatMap, Dev.rowsWaiting, sumUnits, ← List.sum_eq_foldl]
  rfl

section
variable {d : Dev} {m : ReqMsg} {h : Nat}

/-- An update that comes to an idle home is the one that waits. -/
theorem Dev.homeIdle.rowWaits (hi : d.homeIdle (d.homeOf (lineDpa m.line)) []) (hkind : m.kind = .updRow) :
    (d.enqueue m).rowsWaiting = 1 ∧ (d.enqueue m).rowHeads = [m] := by
  obtain ⟨-, hqueue, -, -, -, -, -, hrows, -⟩ := hi
  have hput : (d.enqueue m).homes = Map.put d.homes (d.homeOf (lineDpa m.line))
      { d.home (d.homeOf (lineDpa m.line)) with queue := [{ req := m, starved := false }] } := by
    rw [Dev.enqueue, Dev.updHome, hqueue]
    rfl
  have hempty : ∀ p ∈ d.homes, ∀ w ∈ p.2.queue, w.req.kind ≠ .updRow := Dev.rowsWaiting_eq_zero.mp hrows
  have hnone : ∀ p ∈ d.homes, rowUpdates p.2 = [] := fun p hp =>
    List.filter_eq_nil_iff.mpr fun w hw hkind => hempty p hp w hw (of_decide_eq_true hkind)
  have hnoHead : ∀ p ∈ d.homes, (p.2.heads.filter fun w => w.req.kind = .updRow).map (·.req) = [] := fun p hp => by
    rw [List.map_eq_nil_iff, List.filter_eq_nil_iff]
    exact fun w hw hkind => hempty p hp w (List.mem_of_mem_filter hw) (of_decide_eq_true hkind)
  refine ⟨?_, ?_⟩
  · rw [Dev.rowsWaiting_eq_length, hput, Map.flatMap_put hnone]
    simp [rowUpdates, hkind]
  · rw [Dev.rowHeads, hput, Map.flatMap_put hnoHead]
    simp [Home.heads, hkind]

/-- The home itself does not begin it. -/
theorem Dev.homeIdle.row_settle (hi : d.homeIdle (d.homeOf (lineDpa m.line)) []) (hkind : m.kind = .updRow) :
    (d.enqueue m).settle (d.homeOf (lineDpa m.line)) = d.enqueue m := by
  obtain ⟨htxns, hqueue, -, -, hbusy, -⟩ := hi
  have hhome : (d.enqueue m).home (d.homeOf (lineDpa m.line)) =
      { d.home (d.homeOf (lineDpa m.line)) with queue := [{ req := m, starved := false }] } := by
    rw [Dev.enqueue, Dev.home_updHome, hqueue]
    rfl
  have hslot : (d.enqueue m).readySlot (d.homeOf (lineDpa m.line)) = none := by rw [Dev.readySlot, hhome, htxns]; rfl
  have hready : (d.enqueue m).readyReq (d.homeOf (lineDpa m.line)) = none := by
    rw [Dev.readyReq, hhome]
    simp [Home.heads, hkind]
  have hmove : (d.enqueue m).homeMove (d.homeOf (lineDpa m.line)) = none := by rw [Dev.homeMove, hslot, hready]
  exact (Dev.Settles.done hmove).settle (Nat.zero_le _) hbusy

/-- After a message that leaves one update waiting, the homes try it once. -/
theorem Dev.pumpHomes_row (hnet : ∀ q, Msg.req q ∈ d.net → q.src ≠ hostAgent) (hrows : d.rowsWaiting = 1) (hheads : d.rowHeads = [m]) :
    d.pumpHomes = ((d.tryRow m).settle (d.homeOf (lineDpa m.line))).retrySuspects := by
  rw [Dev.pumpHomes, pumpHost_quiet d hnet, hrows, Dev.pumpRows, hheads, List.foldl_cons, List.foldl_nil, Dev.pumpRows, ite_self]

theorem Dev.acceptAs_idle {m' : ReqMsg} (hi : d.homeIdle (d.homeOf (lineDpa m.line)) []) (horder : d.reqInOrder m = true) :
    d.acceptAs m m' = ((d.taken (.req m)).enqueue m').settle (d.homeOf (lineDpa m.line)) := by
  obtain ⟨-, hqueue, hclosed, -⟩ := hi
  rw [Dev.acceptAs]
  simp [horder, hclosed, Dev.homeFull, hqueue]

/-- An update comes to an idle home, which tries it. -/
theorem exec_updrow_idle {s : State} {u : RowUpdate} {w : RowUpdate} (hi : s.dev.homeIdle (s.dev.homeOf (lineDpa m.line)) [])
    (hkind : m.kind = .updRow) (horder : s.dev.reqInOrder m = true) (hupd : m.upd = some u)
    (hw : w = { u with waited := u.waited || s.dev.contended m u }) :
    exec (.updrow m) s = .next (s.withDev ((((s.dev.taken (.req m)).enqueue { m with upd := some w }).tryRow { m with upd := some w }).settle
      (s.dev.homeOf (lineDpa m.line))).retrySuspects) := by
  have hidle := (Dev.SameHomes.taken s.dev (.req m)).homeIdle hi
  obtain ⟨-, hnet, -⟩ := hidle.quiet
  obtain ⟨hrows, hheads⟩ := Dev.homeIdle.rowWaits (m := { m with upd := some w }) hidle hkind
  have hstands : ((s.dev.taken (.req m)).enqueue { m with upd := some w }).settle (s.dev.homeOf (lineDpa m.line)) =
      (s.dev.taken (.req m)).enqueue { m with upd := some w } := Dev.homeIdle.row_settle (m := { m with upd := some w }) hidle hkind
  have hrow : s.dev.updRow m = (s.dev.taken (.req m)).enqueue { m with upd := some w } := by
    rw [Dev.updRow, hupd]
    dsimp only
    rw [← hw, Dev.acceptAs_idle hi horder, hstands]
  have hexec : exec (.updrow m) s = s.homes (s.dev.updRow { m with kind := .updRow }) := rfl
  have htried := Dev.pumpHomes_row (d := (s.dev.taken (.req m)).enqueue { m with upd := some w }) hnet hrows hheads
  rw [hexec, show ({ m with kind := .updRow } : ReqMsg) = m by rw [← hkind], hrow, State.homes, htried]
  rfl

/-- A row with an entry and no move of its own, whose update runs at its home (R127). -/
theorem rowHome_home {w : RowUpdate} {t : Table} {e : RowEnt} {at_ : Option Word64} {k : Nat} {b d2 d3 d4 d5 : Dev}
    (htable : b.table w.table = some t) (hlock : b.rowLocked w.table w.row = false)
    (hrow : uncounted (resolveRow (b.updAcc w t.w (b.homeOf (lineDpa m.line))) t.w b.devId w.row w.fwded) b = .ok ((k, .ent e at_), d2))
    (hline : engLine (slotAcc (b.updAcc w t.w (b.homeOf (lineDpa m.line))) t.w e).acc m.line d2 = .ok ((), d3))
    (hmigr : migrSees (b.updAcc w t.w (b.homeOf (lineDpa m.line))) t.w w e at_ ((d3.tookRow m).trainPred w w.waited) = .ok (none, d4))
    (hcarafe : e.carafe = false)
    (hplace : placeUpd t (slotAcc (b.updAcc w t.w (b.homeOf (lineDpa m.line))) t.w e).acc.rt
      (decide (1 < (slotLines (slotAcc (b.updAcc w t.w (b.homeOf (lineDpa m.line))) t.w e) e).length)) w (b.placeOfUpd w) = .home)
    (happly : applyHome (slotAcc (b.updAcc w t.w (b.homeOf (lineDpa m.line))) t.w e) t w e d4 = .ok (none, d5)) :
    rowHome m w b = .ok ((), d5.updEnd w stOk 0) := by
  have hdone : (applyHome (slotAcc (b.updAcc w t.w (b.homeOf (lineDpa m.line))) t.w e) t w e >>= fun r => modify fun x => match r with
      | some er => x.updEnd w (errStat er) 2
      | none => x.updEnd w stOk 0 : Eng Unit) d4 = .ok ((), d5.updEnd w stOk 0) := Eng.bind_ok happly _
  unfold rowHome
  rw [Eng.get_bind]
  simp only [htable, hlock]
  rw [if_neg Bool.false_ne_true]
  rw [Eng.bind_ok hrow]
  dsimp only
  rw [Eng.bind_ok hline, Eng.bind_ok (Eng.modify_apply _), Eng.bind_ok hmigr]
  dsimp only
  rw [hcarafe, hplace]
  cases at_ with
  | none => exact hdone
  | some da => exact hdone

end

end Sys2Proof.Machine

namespace Sys2Proof.Proofs

/-- Settles O34: a hold's end, a starved request and an update each come to a home that nothing else keeps, where one move is left at most. -/
theorem holdsStarvedRows : Obligations.HoldsStarvedRows := by
  unfold Obligations.HoldsStarvedRows
  refine ⟨?_, ?_, ?_, ?_⟩
  · intro s c line d k hc hquiet hwants hsnoops
    refine ⟨heldWithout k.held line, fun i hi => ?_, fun i hi => ?_, ?_⟩
    · rw [get_heldWithout, if_pos (by omega)]
    · rw [get_heldWithout, if_neg (by omega)]
    · have hexec : exec (.holdEnd c line) s = s.homes (s.dev.holdEnd c line) := rfl
      rw [hexec, Dev.holdEnd_unwanted hc hwants hsnoops]
      exact State.homes_quiet ((Dev.SameHomes.setCore ..).homesQuiet hquiet)
  · intro s c line k hc hquiet hwants hheld hlimit
    have hexec : exec (.holdEnd c line) s = s.homes (s.dev.holdEnd c line) := rfl
    rw [hexec, Dev.holdEnd_wanted hc hwants hheld hlimit]
    exact State.homes_quiet hquiet
  · intro s m rest d h hqueue hm hrest
    have hexec : exec (.requestStarved m) s = s.homes (s.dev.starveReq m) := rfl
    refine ⟨fun hage => ⟨d.starved m rest, ?_, ?_, ?_, rfl⟩, fun hage => ?_⟩
    · rw [hexec, Dev.starveReq_old hqueue hm hrest hage]
      rfl
    · rw [Dev.home_starved]
    · rw [Dev.home_starved]
    · rw [hexec, Dev.starveReq_young hage]
      rfl
  · intro s m u t e at_ k d2 d3 d4 d5 d home w b ac a hkind hi horder hupd hgranule htable hlock hrow hline hmigr hcarafe hplace happly
    have hhome := rowHome_home (m := { m with upd := some w }) (w := w) (b := b) htable hlock hrow hline hmigr hcarafe hplace happly
    have htried : b.tryRow { m with upd := some w } = d5.updEnd w stOk 0 := by
      rw [Dev.tryRow]
      dsimp only
      rw [show w.granule = none from hgranule]
      exact Dev.engine_ok hhome
    rw [exec_updrow_idle hi hkind horder hupd rfl]
    show _ = Host.Outcome.next (s.withDev ((d5.updEnd w stOk 0).settle home).retrySuspects)
    rw [← htried]

end Sys2Proof.Proofs
end

section
/-! The CMP of a store whose core has stopped (R160, R168, R258). The store leaves the buffer, the core's team is complete, and the team's
dump may recall a line from the host; with a bias command under way its home then takes up what waited for a page (R391). The statement gives
the block as the store leaves it, before the homes have begun what waits at them, and has no hypothesis that the core runs, so it fails. -/

open Sys2Proof Sys2Proof.Machine

namespace Sys2Proof.Machine

section
variable {d : Dev} {m : RspMsg} {w : OutWrite} {e : StoreEntry}

/-- The block once the CMP of store e, sent as write w from core k, has reached core c. -/
def Dev.storeAcked (d : Dev) (c : Nat) (k : Core) (w : OutWrite) (e : StoreEntry) : Dev :=
  (((d.setCore c { k with writes := markDone w k.writes }).dropSettled c).detect c e).popStore c

/-- The CMP of a NORMAL store at the buffer's head takes it out (R258). -/
theorem Dev.cmpIn_headOut (hcore : isCore m.dst = true) (hheld : d.partHeld m.dst = false) (horigin : m.origin = .store)
    (hw : (d.core m.dst).writeFor (4 * m.line + m.sec) false = some w) (he : (d.core m.dst).headOut w = some e) (hrt : e.rt = .normal) :
    d.cmpIn m = (d.taken (.rsp m)).storeAcked m.dst (d.core m.dst) w e := by
  have hhome : (decide (0x180 ≤ m.dst) && decide (m.dst < 0x1C0)) = false := by
    have hlt : m.dst < 0x110 := by simpa [isCore] using hcore
    rw [decide_eq_false (by omega), Bool.false_and]
  have hmover : decide (m.origin = .dump) = false := by rw [horigin]; rfl
  have hnotDump : ¬ m.origin = .dump := by
    rw [horigin]
    exact Origin.noConfusion
  have hhere : (!isCore m.dst || (d.taken (.rsp m)).partHeld m.dst) = false := by
    rw [hcore, show (d.taken (.rsp m)).partHeld m.dst = false from hheld]
    rfl
  unfold Dev.cmpIn
  dsimp only
  rw [hhome, if_neg Bool.false_ne_true, hhere, if_neg Bool.false_ne_true]
  unfold Dev.coreCmp
  dsimp only
  rw [hmover, show ((d.taken (.rsp m)).core m.dst).writeFor (4 * m.line + m.sec) false = some w from hw]
  dsimp only
  rw [if_neg hnotDump, show ((d.taken (.rsp m)).core m.dst).headOut w = some e from he]
  dsimp only
  rw [if_pos hrt]
  rfl

/-- The block stands as the store leaves it just where the homes have nothing to take up. -/
theorem exec_cmp_headOut_iff {s : State} (hkind : m.kind = .cmp) (hcore : isCore m.dst = true) (hheld : s.dev.partHeld m.dst = false)
    (horigin : m.origin = .store) (hw : (s.dev.core m.dst).writeFor (4 * m.line + m.sec) false = some w)
    (he : (s.dev.core m.dst).headOut w = some e) (hrt : e.rt = .normal) :
    exec (.cmp m) s = .next (s.withDev ((s.dev.taken (.rsp m)).storeAcked m.dst (s.dev.core m.dst) w e)) ↔
      ((s.dev.taken (.rsp m)).storeAcked m.dst (s.dev.core m.dst) w e).pumpHomes =
        (s.dev.taken (.rsp m)).storeAcked m.dst (s.dev.core m.dst) w e := by
  have hexec : exec (.cmp m) s = s.homes (s.dev.cmpIn { m with kind := .cmp }) := rfl
  rw [hexec, show ({ m with kind := .cmp } : RspMsg) = m by rw [← hkind], Dev.cmpIn_headOut hcore hheld horigin hw he hrt]
  refine ⟨fun h => congrArg State.dev (Host.Outcome.next.inj h), fun h => ?_⟩
  rw [State.homes, h]
  rfl

end

end Sys2Proof.Machine

namespace Sys2Proof.Proofs

/-! ### A stopped team whose last store is acknowledged -/

/-- A KERNEL that runs; its segment 0 begins at the first address of DRAM. -/
def stoppedKernel : Run :=
  { mkRun { queue := 0, index := 0 } [packBits [(60, 4, tyKernel)], 0, 0, 0, 0, 0, 0, 0] 0 0 0
      { notes := { segs := [], gens := [] }, param := [], epoch := 0, x := 0 } with
    stage := .running, prog := 1 }

/-- A write of sector 0 on its way. -/
def lastWrite : OutWrite := { sector := 0, da := 0, mover := false, done := false, kept := true }

/-- The store that it performs. -/
def lastStore : StoreEntry :=
  { sector := 0, mask := 1, data := 0, rt := .normal, da := 0, seg := 0, gen := 0, sent := false, out := true }

/-- Core 0 has stopped and waits for its last store. -/
def drainingCore : Core := { Core.reset with status := .stopped, team := some 0, sb := [lastStore], writes := [lastWrite] }

/-- A row update of page 1 that the host's bias command holds back. -/
def heldRow : ReqMsg := mkReq .updRow hostAgent (2 ^ 13) 0

/-- The team of core 0 has stopped by a fault and will dump to offset 1, in a sector whose dirty copy the host may hold; a bias command
turns page 1 to DEVICE. -/
def teamStops : Dev := { Dev.reset with
  tier := { Tier.reset with hdm0 := true }
  cp := { Ctrl.reset with runs := [stoppedKernel] }
  teams := [(0, { desc := stoppedKernel.id, cores := [0], ctx := 0, barrier := 0, dump := 1, stop := stKernelFault })]
  cores := [(0, drainingCore)]
  dir := [(0, { DirEntry.empty with v := true, sec := [(0, { DirSector.none with hs := 2 })] })]
  hl := { HLink.reset with busy := true, runPage := 1, runCount := 1, bias := [(1, some 2)], heldReqs := [heldRow] } }

/-- The CMP of its store. -/
def lastCmp : RspMsg := { mkRsp .cmp 0 0 0 0 with origin := .store }

/-- The block as the store leaves it. -/
def teamDumps : Dev := (teamStops.taken (.rsp lastCmp)).storeAcked 0 drainingCore lastWrite lastStore

/-- Page 1 has become DEVICE, and the row update that it held waits at its home. -/
theorem teamDumps_rowWaits : teamDumps.rowsWaiting = 1 := by decide +kernel

/-- The homes take it up. -/
theorem teamDumps_rowTaken : teamDumps.pumpHomes.rowsWaiting = 0 := by decide +kernel

/-- Refutes O29: the CMP of a stopped core's last store leaves more than the store's own effect where its team's dump lets a row update that
waited reach its home. -/
theorem not_dataAndAnswersAtCore : ¬ Obligations.DataAndAnswersAtCore := by
  intro h
  let s : State := { pending := [], dev := teamStops }
  have hquiet : s.dev.homesQuiet := ⟨by decide, fun m hm => absurd hm (List.not_mem_nil (a := Msg.req m)), rfl⟩
  obtain ⟨-, hanswers⟩ := h
  obtain ⟨-, hcmp, -⟩ := hanswers s lastCmp rfl rfl hquiet
  obtain ⟨hstore, -⟩ := hcmp rfl rfl lastWrite rfl
  have hstands : teamDumps.pumpHomes = teamDumps :=
    (exec_cmp_headOut_iff (s := s) (m := lastCmp) rfl rfl rfl rfl rfl rfl rfl).mp (hstore lastStore rfl rfl)
  have htaken := teamDumps_rowTaken
  rw [hstands, teamDumps_rowWaits] at htaken
  exact Nat.one_ne_zero htaken

end Sys2Proof.Proofs
end
